-- ==== Sys2Proof/Word.lean ====
section
/-!
DEFINITION. Word.lean: the word types of the module and the plainest arithmetic on them.
-/
namespace Sys2Proof

/-- One byte. -/
abbrev Byte := BitVec 8
/-- A 32-bit register word. -/
abbrev W32 := BitVec 32
/-- A 64-bit word: a scalar register of a control processor (R66), a 64-bit register. -/
abbrev W64 := BitVec 64

/-- Logical core number (R11). -/
abbrev CoreId := Fin 27648
/-- A field of the module: plot × 288 + field index (R11, R36). -/
abbrev FieldId := Fin 1152
/-- A plot (Table 1-1). -/
abbrev PlotId := Fin 4
/-- A partition (R136, R593). -/
abbrev PartId := Fin 32
/-- A submission ring: partition × 4 + stream class (R133, R136). -/
abbrev RingId := Fin 128
/-- An Oncon port (Table 1-1). -/
abbrev PortId := Fin 12
/-- A Granary bin (Table 1-1). -/
abbrev BinId := Fin 64
/-- A host function: 0 the PF, 1 to 32 the VFs (Table 18-1). -/
abbrev FnId := Fin 33

end Sys2Proof
end

