-- ==== Sys2Proof/Syntax.lean ====
section
/-!
DEFINITION. Syntax.lean: the commands of the module, one constructor for each row of the opcode table, with the
operands the row takes from outside: the sender's choice (a register, a value), the data that arrive (a packet,
a ring entry of host memory), or what the physical world shows at that event (a reading, a correction, a lost bit).
-/
namespace Sys2Proof

/-- A scalar register number (R66). -/
abbrev Reg := BitVec 5
/-- A 40-bit immediate, offset or command body (Table 5-9). -/
abbrev Imm := BitVec 40

/-- Source of an access (Table 2-6): a core, a host function (0 the PF, 1–32 the VFs), the front end of a partition,
the re-shard engine, the Reeve (register accesses over MCTP are the Reeve's), a unit of another module. -/
inductive Src where
  | core (n : Nat)
  | host (fn : Nat)
  | frontEnd (part : Nat)
  | reshard
  | reeve
  | remote (module unit : Nat)
  deriving DecidableEq, Repr

/-- What a code found in a stored word at a read (R434 to R437): nothing, one corrected place, or more than it corrects. -/
inductive Ecc where
  | clean
  | corrected (place : Nat)
  | uncorrectable
  deriving DecidableEq, Repr

/-- Who waits: the sync unit of a core, or the front end for a ring (R57, R135). -/
inductive Waiter where
  | core (n : CoreId)
  | ring (r : RingId)
  deriving DecidableEq, Repr

/-- A stall watch: a field's, or that of a block of the Granary die (R38). -/
inductive Watch where
  | field (fid : Nat)
  | granary (block : Nat)
  deriving DecidableEq, Repr

/-- A monitored port (R38): the stages of a core, its vault interface, a huller under it, a port of a field router, a Headland port of
a field, a port of a block of the Granary die. -/
inductive MonPort where
  | control (core : Nat)
  | array (core : Nat)
  | vector (core : Nat)
  | drill (core : Nat)
  | moveEngine (core : Nat)
  | vaultInterface (core : Nat)
  | huller (core bank : Nat)
  | router (fid port : Nat)
  | headland (fid port : Nat)
  | granary (block : Nat)
  deriving DecidableEq, Repr

/-- A handshake whose request is raised at a monitored port and not acknowledged (R38): its port, the field or Granary block it faces, if any,
the ring and step of the work, and when its request was raised, by the increments of the module time counter (R41). -/
structure Handshake where
  port : MonPort
  faces : Option Watch
  ring : Option Nat
  step : Nat
  raised : Nat
  deriving DecidableEq, Repr

/-- A flit that arrives at a field router (R395): the sending field, the ordering class it travels in (R364), its 32 bytes, its check, the
local address its bytes are written to (none: they go to the unit that asked for them), and the ring and step of the work that sent it. -/
structure MeshFlit where
  from_ : Nat
  cls : Nat
  bytes : List Byte
  chk : BitVec 16
  dest : Option Nat
  ring : Option Nat
  step : Nat
  deriving DecidableEq, Repr

/-- A flit of a packet on a Headland link as its sending end holds it (R353, R354): source and destination of the packet and its ordering
class, which fix its lane, whether it is the packet's last, its 32 bytes and its check. -/
structure HlFlit where
  src : Nat
  dst : Nat
  cls : Nat
  last : Bool
  bytes : List Byte
  chk : BitVec 16
  deriving DecidableEq, Repr

/-- What a plot's power controller measures for one budget period (R528, R529): demand (none: no message arrived), core-domain
power, the part of it that pacing does not control, and the fields' demand, in units of 0.1 mW; rail current in A; minimum sensed
voltage and regulator output in mV. -/
structure PlotReading where
  demand : Option Nat
  power : Nat
  fix : Nat
  fields : Nat
  current : Nat
  vmin : Nat
  vout : Nat
  deriving DecidableEq, Repr

/-- A seed image (R487, R488) as its sections say: version fields; CONFIG as reset values by register field key, boot level,
PERST_SCOPE (true: HOST), stream table, layout mode, cache bins (number of CACHE bins from bin 0); FACTORY_MAP as gradients k_p by
plot and the cores that stand on their field's spare (field, core), and whether its digest is the FACTORY record's; TOPOLOGY as
module ID, TOPO_ID, expected neighbours (port, word), route entries (set × 65,536 + module, entry), the system's links (module × 16 +
port, word), ports enabled; BOOT_PLAN as one role and entry for every core and exceptions (core, role, entry); FW_BUNDLE's role
images; KEYS, if it holds the section; the digests that measurements 1 to 4 report; of CONFIG also the management port's address, mask,
gateway, VLAN, the collector's address and port (R558), the PTP path asymmetry in ns (R562), whether debug is permitted (R576), and the
subsystem vendor and subsystem IDs (R587); the bytes of its sections other than FW_BUNDLE together (R248); lanes on their spare: Headland
lanes of FACTORY_MAP and of TOPOLOGY's spare map as (plot, lane, with 1,000 added when inward, spare), Oncon lanes of the spare map as
(port, lane, with 16 added when received). -/
structure Image where
  len : Nat
  target : Nat
  version : Nat
  secVersion : Nat
  config : List (Nat × Nat)
  bootLevel : Nat
  perstHost : Bool
  strmOn : Bool
  layout : Nat
  cacheBins : Nat
  kp : List (Nat × Nat)
  spares : List (Nat × Nat)
  factoryOk : Bool
  moduleId : Nat
  topoId : Nat
  expect : List (Nat × Nat)
  routes : List (Nat × Nat)
  topo : List (Nat × Nat)
  ports : BitVec 12
  bootRole : Nat
  bootEntry : Nat
  boot : List (Nat × Nat × Nat)
  roles : List (List Byte)
  keys : Option (List (List Byte))
  digests : List (List Byte)
  ip : Nat
  mask : Nat
  gateway : Nat
  vlan : Nat
  collector : Nat
  colPort : Nat
  asym : Int
  debug : Bool
  subVendor : Nat
  subId : Nat
  otherLen : Nat
  hlLanes : List (Nat × Nat × Nat)
  oncLanes : List (Nat × Nat)
  deriving DecidableEq, Repr, Inhabited

/-- A read that is pending at a vault interface (R90): its rotation requester (0 drill, 1 vector path, 2 move engine, 3 other cores, 4 Granary,
5 Harrow), its vault offset, and what the code finds in the word there. -/
structure VaultRead where
  by_ : Fin 6
  off : BitVec 23
  ecc : Ecc
  deriving DecidableEq, Repr

/-- A trace record as its unit formed it (Table 17-16); `core` 0xFFFF for the front end. -/
structure TraceRec where
  kind : Nat
  core : Nat
  layer : Nat
  oper : Nat
  step : Nat
  ring : Nat
  unit : Nat
  status : Nat
  /-- what its TAG is taken from: for a move the index of its source descriptor, for WI_START the model, for MARK the TAG itself -/
  ref : Nat
  detail : Nat
  time : Nat
  deriving DecidableEq, Repr

/-- What reading a slot of the flash gives: the image, and what its checks find (0 it verifies; 1 digest, 2 signature, 3 unreadable,
4 header, as in Table 14-9). -/
structure SlotRead where
  image : Image
  reason : Nat
  deriving DecidableEq, Repr, Inhabited

/-- What a host request does (R588 to R591, Table 8-8): reads and writes of memory through BAR2 (`ep`: the EP bit), atomics of 32 bits or (`wide`)
64, a compare-and-swap of 32 (0), 64 (1) or 128 bits; register accesses through BAR0 and a doorbell. -/
inductive HostOp where
  | read (len : Nat)
  | write (bytes : List Byte) (ep : Bool)
  | fetchAdd (wide : Bool) (value : W64)
  | swap (wide : Bool) (value : W64)
  | cas (width : BitVec 2) (cmp new : W64)
  | cxlRead (cacheable : Bool)
  | cxlWrite (bytes : List Byte) (enable : BitVec 64) (poison : Bool)
  | regRead (size : Nat)
  | regWrite (size : Nat) (val : W64)
  | doorbell (ring : RingId) (val : W32)
  deriving DecidableEq, Repr

/-- A host request: function (0 PF, 1–32 VF, 63 CXL.mem), address (BAR2 offset, HDM offset or BAR0 offset), what the codes find in the words it
reads, first first (unlisted: clean), how often the two arithmetic units disagree (R397). -/
structure HostReq where
  fn : Nat
  addr : Nat
  op : HostOp
  ecc : List Ecc
  mismatch : Nat
  deriving DecidableEq, Repr

/-- The commands of the module (spec/opcode_table.json). -/
inductive Instr where
  /-- REGISTER_WRITE (R8): A write to a register field that has no behaviour of its own sets or clears it according to its access code. -/
  | registerWrite (src : Src) (off size : Nat) (val : W64)
  /-- LATCHED_LOW_READ (R552): A read of bits [31:0] of a 64-bit register loads the reading source's latch with the high half of the same value. -/
  | latchedLowRead (src : Src) (off size : Nat)
  /-- VAULT_RECALIBRATION (R30): Every 1 ms of module time the Reeve recalibrates the vault delay elements and applies any pending fall in temperature band. -/
  | vaultRecalibration
  /-- DROOP_HOLD (R31): A field droop sensor reads below 0.50 V and the field holds all new issue. -/
  | droopHold (fid : FieldId) (mv : Nat)
  /-- DROOP_RESUME (R31): The droop sensor has read 0.53 V or more for 200 ns and issue resumes. -/
  | droopResume (fid : FieldId) (mv : Nat)
  /-- RATE_WINDOW_END (R36): At the end of each 10 µs window the field's FIELD_RATE register is updated as a whole. -/
  | rateWindowEnd (fid : FieldId) (actual capable : BitVec 16)
  /-- SLOW_FIELD_REPORT (R37): CAPABLE has stayed below 0.90 of the expected rate for 100 consecutive windows, and a slow-field event and an Almanac record follow. -/
  | slowFieldReport (fid : FieldId)
  /-- STALL_CTL_WRITE (R39): A write to STALL_CTL sets the stall bound, leaves it unchanged, or is ignored and sets BOUND_ERR. -/
  | stallCtlWrite (val : W32)
  /-- STALL (R43): A handshake stays open past the stall bound; the field holds issue and reports the stall to the Reeve. -/
  | stall (hs : Handshake)
  /-- STALL_COLLECTION_CLOSE (R44): The 2 µs collection window closes and the Reeve classifies the stalls as primary or secondary;
  `others`: the handshakes open at monitored ports at that moment that have not stalled. -/
  | stallCollectionClose (others : List Handshake)
  /-- FIELD_RESET_DONE (R43): A field reset, including the DCI code fetch, completes and replay issue of the named step begins. -/
  | fieldResetDone (fid : FieldId)
  /-- ARRAY_GATE (R91): The matrix queue has been empty for 1 µs and the array is gated with its state kept. -/
  | arrayGate (core : CoreId)
  /-- ICACHE_FILL (R73): An instruction-cache line fill from the role code image in the Granary completes. -/
  | icacheFill (core : CoreId) (line : Nat)
  /-- WORK_ITEM_START (R151): The control processor takes the next work item, changes code image if needed, and sets its start state. -/
  | workItemStart (core : CoreId)
  /-- WORK_ITEM_END (R157): After END, every queue of the core has drained, and the work item ends with its first failing status or OK. -/
  | workItemEnd (core : CoreId)
  /-- ADD (R153): DCI ADD writes the sum of two scalar registers. -/
  | add (core : CoreId) (rd ra rb : Reg) (cp : Bool)
  /-- SUB (R153): DCI SUB writes the difference of two scalar registers. -/
  | sub (core : CoreId) (rd ra rb : Reg) (cp : Bool)
  /-- AND (R153): DCI AND writes the bitwise AND of two scalar registers. -/
  | and (core : CoreId) (rd ra rb : Reg) (cp : Bool)
  /-- OR (R153): DCI OR writes the bitwise OR of two scalar registers. -/
  | or (core : CoreId) (rd ra rb : Reg) (cp : Bool)
  /-- XOR (R153): DCI XOR writes the bitwise XOR of two scalar registers. -/
  | xor (core : CoreId) (rd ra rb : Reg) (cp : Bool)
  /-- SLL (R153): DCI SLL shifts a register left by s[RB][5:0]. -/
  | sll (core : CoreId) (rd ra rb : Reg) (cp : Bool)
  /-- SRL (R153): DCI SRL shifts a register right, logically, by s[RB][5:0]. -/
  | srl (core : CoreId) (rd ra rb : Reg) (cp : Bool)
  /-- SRA (R153): DCI SRA shifts a register right, arithmetically, by s[RB][5:0]. -/
  | sra (core : CoreId) (rd ra rb : Reg) (cp : Bool)
  /-- MUL (R153): DCI MUL writes the low 64 bits of the product. -/
  | mul (core : CoreId) (rd ra rb : Reg) (cp : Bool)
  /-- MULHU (R153): DCI MULHU writes the high 64 bits of the unsigned product. -/
  | mulhu (core : CoreId) (rd ra rb : Reg) (cp : Bool)
  /-- MULH (R153): DCI MULH writes the high 64 bits of the signed product. -/
  | mulh (core : CoreId) (rd ra rb : Reg) (cp : Bool)
  /-- SLT (R153): DCI SLT writes 1 if one register is less than the other, signed, and 0 otherwise. -/
  | slt (core : CoreId) (rd ra rb : Reg) (cp : Bool)
  /-- SLTU (R153): DCI SLTU writes 1 if one register is less than the other, unsigned, and 0 otherwise. -/
  | sltu (core : CoreId) (rd ra rb : Reg) (cp : Bool)
  /-- MIN (R153): DCI MIN writes the signed minimum of two registers. -/
  | min (core : CoreId) (rd ra rb : Reg) (cp : Bool)
  /-- MAX (R153): DCI MAX writes the signed maximum of two registers. -/
  | max (core : CoreId) (rd ra rb : Reg) (cp : Bool)
  /-- ADDI (R153): DCI ADDI adds an immediate to a register. -/
  | addi (core : CoreId) (rd ra : Reg) (imm : Imm) (cp : Bool)
  /-- ANDI (R153): DCI ANDI ANDs a register with an immediate. -/
  | andi (core : CoreId) (rd ra : Reg) (imm : Imm) (cp : Bool)
  /-- ORI (R153): DCI ORI ORs a register with an immediate. -/
  | ori (core : CoreId) (rd ra : Reg) (imm : Imm) (cp : Bool)
  /-- XORI (R153): DCI XORI XORs a register with an immediate. -/
  | xori (core : CoreId) (rd ra : Reg) (imm : Imm) (cp : Bool)
  /-- SLLI (R153): DCI SLLI shifts left by IMM[5:0]. -/
  | slli (core : CoreId) (rd ra : Reg) (imm : Imm) (cp : Bool)
  /-- SRLI (R153): DCI SRLI shifts right, logically, by IMM[5:0]. -/
  | srli (core : CoreId) (rd ra : Reg) (imm : Imm) (cp : Bool)
  /-- SRAI (R153): DCI SRAI shifts right, arithmetically, by IMM[5:0]. -/
  | srai (core : CoreId) (rd ra : Reg) (imm : Imm) (cp : Bool)
  /-- SLTI (R153): DCI SLTI compares a register with an immediate, signed. -/
  | slti (core : CoreId) (rd ra : Reg) (imm : Imm) (cp : Bool)
  /-- SLTIU (R153): DCI SLTIU compares a register with an immediate, unsigned. -/
  | sltiu (core : CoreId) (rd ra : Reg) (imm : Imm) (cp : Bool)
  /-- LIH (R153): DCI LIH places IMM[23:0] in bits [63:40] above s[RA][39:0]. -/
  | lih (core : CoreId) (rd ra : Reg) (imm : Imm) (cp : Bool)
  /-- LDB (R153): DCI LDB loads one byte from scratch, sign-extended. -/
  | ldb (core : CoreId) (rd ra : Reg) (imm : Imm) (cp : Bool)
  /-- LDH (R153): DCI LDH loads two bytes from scratch, sign-extended. -/
  | ldh (core : CoreId) (rd ra : Reg) (imm : Imm) (cp : Bool)
  /-- LDW (R153): DCI LDW loads four bytes from scratch, sign-extended. -/
  | ldw (core : CoreId) (rd ra : Reg) (imm : Imm) (cp : Bool)
  /-- LDD (R153): DCI LDD loads eight bytes from scratch. -/
  | ldd (core : CoreId) (rd ra : Reg) (imm : Imm) (cp : Bool)
  /-- LDBU (R153): DCI LDBU loads one byte from scratch, zero-extended. -/
  | ldbu (core : CoreId) (rd ra : Reg) (imm : Imm) (cp : Bool)
  /-- LDHU (R153): DCI LDHU loads two bytes from scratch, zero-extended. -/
  | ldhu (core : CoreId) (rd ra : Reg) (imm : Imm) (cp : Bool)
  /-- LDWU (R153): DCI LDWU loads four bytes from scratch, zero-extended. -/
  | ldwu (core : CoreId) (rd ra : Reg) (imm : Imm) (cp : Bool)
  /-- STB (R153): DCI STB stores the low byte of a register to scratch. -/
  | stb (core : CoreId) (rd ra : Reg) (imm : Imm) (cp : Bool)
  /-- STH (R153): DCI STH stores the low two bytes of a register to scratch. -/
  | sth (core : CoreId) (rd ra : Reg) (imm : Imm) (cp : Bool)
  /-- STW (R153): DCI STW stores the low four bytes of a register to scratch. -/
  | stw (core : CoreId) (rd ra : Reg) (imm : Imm) (cp : Bool)
  /-- STD (R153): DCI STD stores eight bytes of a register to scratch. -/
  | std (core : CoreId) (rd ra : Reg) (imm : Imm) (cp : Bool)
  /-- BEQ (R153): DCI BEQ branches if two registers are equal. -/
  | beq (core : CoreId) (ra rb : Reg) (off : Imm) (cp : Bool)
  /-- BNE (R153): DCI BNE branches if two registers differ. -/
  | bne (core : CoreId) (ra rb : Reg) (off : Imm) (cp : Bool)
  /-- BLT (R153): DCI BLT branches if one register is less than the other, signed. -/
  | blt (core : CoreId) (ra rb : Reg) (off : Imm) (cp : Bool)
  /-- BGE (R153): DCI BGE branches if one register is greater than or equal to the other, signed. -/
  | bge (core : CoreId) (ra rb : Reg) (off : Imm) (cp : Bool)
  /-- BLTU (R153): DCI BLTU branches if one register is less than the other, unsigned. -/
  | bltu (core : CoreId) (ra rb : Reg) (off : Imm) (cp : Bool)
  /-- BGEU (R153): DCI BGEU branches if one register is greater than or equal to the other, unsigned. -/
  | bgeu (core : CoreId) (ra rb : Reg) (off : Imm) (cp : Bool)
  /-- JAL (R153): DCI JAL links PC + 1 and jumps PC-relative. -/
  | jal (core : CoreId) (rd : Reg) (imm : Imm) (cp : Bool)
  /-- JALR (R153): DCI JALR links PC + 1 and jumps to s[RA] + IMM. -/
  | jalr (core : CoreId) (rd ra : Reg) (imm : Imm) (cp : Bool)
  /-- CMD (R158): DCI CMD forms a 128-bit command with its CHECK and places it in the queue that KIND names. -/
  | cmd (core : CoreId) (kind op : BitVec 4) (ra : Reg) (body : Imm) (cp : Bool)
  /-- QUEUE_SPACE_ISSUE (R67): A command held by a full queue is placed once the queue has space. -/
  | queueSpaceIssue (core : CoreId)
  /-- WAITQ (R154): DCI WAITQ waits until at most IMM commands of queue Q are outstanding. -/
  | waitq (core : CoreId) (q : BitVec 3) (imm : Imm)
  /-- WAITQ_SATISFIED (R154): The outstanding count of the waited queue falls to the limit and the control processor continues. -/
  | waitqSatisfied (core : CoreId)
  /-- FCHK (R154): DCI FCHK writes the frame check into a 32- or 64-byte frame in scratch. -/
  | fchk (core : CoreId) (ra : Reg) (q : BitVec 3) (imm : Imm) (cp : Bool)
  /-- CSRR (R155): DCI CSRR reads a control and status register. -/
  | csrr (core : CoreId) (rd : Reg) (imm : Imm) (cp : Bool)
  /-- CSRW (R155): DCI CSRW writes an RW control and status register. -/
  | csrw (core : CoreId) (ra : Reg) (imm : Imm) (cp : Bool)
  /-- ERR (R153): DCI ERR ends the work item with DCI_SOFT and a detail value. -/
  | err (core : CoreId) (ra : Reg) (cp : Bool)
  /-- END (R157): DCI END begins the end of the work item, waiting for its commands to complete. -/
  | endItem (core : CoreId)
  /-- DCI_ILLEGAL_INSTRUCTION (R153): An unlisted opcode or illegal encoding ends the work item with DCI_ILLEGAL. -/
  | dciIllegalInstruction (core : CoreId) (word : W64)
  /-- MMA (R82): The matrix array accepts an MMA command, checks it, and queues its tile load and streaming. -/
  | mma (core : CoreId)
  /-- SHADOW_TILE_LOADED (R77): The stationary tile has loaded into the shadow tile and the instruction can begin streaming. -/
  | shadowTileLoaded (core : CoreId)
  /-- ARRAY_STEP (R112): One streamed vector passes all cells and each touched accumulator is updated with one rounding and envelope-tested. -/
  | arrayStep (core : CoreId) (flips : List (Nat × Nat))
  /-- ENVELOPE_VERIFY_DONE (R407): Verification ends; the outputs stand with ENV_STOOD, or an ARITH fault is confirmed. -/
  | envelopeVerifyDone (core : CoreId)
  /-- DOT (R87): The vector DOT command applies one weight matrix to 1 to 8 vectors with FP32 results. -/
  | dot (core : CoreId) (flips : List (Nat × Nat))
  /-- EW_ADD (R120): Vector elementwise ADD. -/
  | ewAdd (core : CoreId) (flips : List (Nat × Nat))
  /-- EW_SUB (R120): Vector elementwise SUB. -/
  | ewSub (core : CoreId) (flips : List (Nat × Nat))
  /-- EW_MUL (R120): Vector elementwise MUL. -/
  | ewMul (core : CoreId) (flips : List (Nat × Nat))
  /-- EW_FMA (R120): Vector elementwise fused multiply-add into D with one rounding. -/
  | ewFma (core : CoreId) (flips : List (Nat × Nat))
  /-- EW_MIN (R120): Vector elementwise MIN. -/
  | ewMin (core : CoreId) (flips : List (Nat × Nat))
  /-- EW_MAX (R120): Vector elementwise MAX. -/
  | ewMax (core : CoreId) (flips : List (Nat × Nat))
  /-- EW_CMP (R120): Vector elementwise compare under PRED, writing 1.0 or +0. -/
  | ewCmp (core : CoreId) (flips : List (Nat × Nat))
  /-- EW_SEL (R120): Vector elementwise select, copying the chosen input bit for bit. -/
  | ewSel (core : CoreId) (flips : List (Nat × Nat))
  /-- FN_RCP (R121): Vector FP32 reciprocal. -/
  | fnRcp (core : CoreId) (flips : List (Nat × Nat))
  /-- FN_RSQRT (R121): Vector FP32 reciprocal square root. -/
  | fnRsqrt (core : CoreId) (flips : List (Nat × Nat))
  /-- FN_EXP (R121): Vector FP32 exponential. -/
  | fnExp (core : CoreId) (flips : List (Nat × Nat))
  /-- FN_LOG (R121): Vector FP32 natural logarithm. -/
  | fnLog (core : CoreId) (flips : List (Nat × Nat))
  /-- FN_TANH (R121): Vector FP32 hyperbolic tangent. -/
  | fnTanh (core : CoreId) (flips : List (Nat × Nat))
  /-- FN_LOGISTIC (R121): Vector FP32 logistic function. -/
  | fnLogistic (core : CoreId) (flips : List (Nat × Nat))
  /-- FN_ERF (R121): Vector FP32 error function. -/
  | fnErf (core : CoreId) (flips : List (Nat × Nat))
  /-- CVT (R123): The vector path converts COUNT elements between formats under RMODE, SAT, MUL and SR_SEED. -/
  | cvt (core : CoreId) (flips : List (Nat × Nat))
  /-- STAT_SUM (R122): Row statistics: the sum of each row. -/
  | statSum (core : CoreId) (flips : List (Nat × Nat))
  /-- STAT_SUMSQ (R122): Row statistics: the sum of squares of each row. -/
  | statSumsq (core : CoreId) (flips : List (Nat × Nat))
  /-- STAT_MAX (R122): Row statistics: the maximum of each row. -/
  | statMax (core : CoreId) (flips : List (Nat × Nat))
  /-- PACK3 (R129): The vector path packs INT8 ternary runs into BT2 runs and copies their scale groups. -/
  | pack3 (core : CoreId) (flips : List (Nat × Nat))
  /-- ATTN (R228): The huller issue port accepts an ATTN command, checks it, and makes one bank task per named bank. -/
  | attn (core : CoreId)
  /-- DOTV (R229): The huller issue port accepts a DOTV command and makes its bank tasks. -/
  | dotv (core : CoreId)
  /-- RED_SUM (R229): The huller issue port accepts a RED SUM command. -/
  | redSum (core : CoreId)
  /-- RED_MAX (R229): The huller issue port accepts a RED MAX command. -/
  | redMax (core : CoreId)
  /-- RED_MIN (R229): The huller issue port accepts a RED MIN command. -/
  | redMin (core : CoreId)
  /-- FILL (R229): The huller issue port accepts a FILL command that writes a converted value into each bank's range. -/
  | fill (core : CoreId)
  /-- BANK_TASK_SLOT_TAKE (R217): A free compute slot takes its next bank task while the vault is below its computing cap. -/
  | bankTaskSlotTake (core : CoreId) (slice : Fin 8)
  /-- BANK_TASK_ADMIT (R219): The plot limiter admits a waiting bank task, which starts loading its query and scanning. -/
  | bankTaskAdmit (core : CoreId) (bank : Fin 32)
  /-- BANK_TASK_END (R218): A bank task finishes its scan, its record goes up to scratch, and the command completes when all its tasks have. -/
  | bankTaskEnd (core : CoreId) (bank : Fin 32) (flips : List (Nat × Nat)) (ecc : List (Nat × Ecc))
  /-- COPY (R193): The move engine accepts a COPY, checks it, and copies over the iteration space with clamping. -/
  | copy (core : CoreId) (flips : List (Nat × Nat))
  /-- TCOPY (R193): The move engine accepts a transposing copy under PERM. -/
  | tcopy (core : CoreId) (flips : List (Nat × Nat))
  /-- GATHER (R201): The move engine accepts a GATHER along the last axis through an INT32 index tensor. -/
  | gather (core : CoreId) (flips : List (Nat × Nat))
  /-- SCATTER_REPLACE (R203): The move engine accepts a SCATTER that replaces destination elements. -/
  | scatterReplace (core : CoreId) (flips : List (Nat × Nat))
  /-- SCATTER_ADD (R203): The move engine accepts a SCATTER whose contributions are added in the home Granary. -/
  | scatterAdd (core : CoreId) (flips : List (Nat × Nat))
  /-- SCATTER_MAX (R203): The move engine accepts a SCATTER whose contributions combine by maximum in the home Granary. -/
  | scatterMax (core : CoreId) (flips : List (Nat × Nat))
  /-- SCATTER_MIN (R203): The move engine accepts a SCATTER whose contributions combine by minimum in the home Granary. -/
  | scatterMin (core : CoreId) (flips : List (Nat × Nat))
  /-- DRILL (R212): The drill accepts a copy into core scratch and walks its source in bursts. -/
  | drill (core : CoreId) (flips : List (Nat × Nat))
  /-- STAGING_SPACE_GRANT (R200): A staging move receives its space in the copy staging pool and copies its overlapping bytes there. -/
  | stagingSpaceGrant
  /-- GRANARY_DRILL_GRANT (R257): A move waiting for a Granary drill is granted one and its source walk begins. -/
  | granaryDrillGrant
  /-- MOVE_COMPLETE (R272): Every message of a move has been performed or logged and the move completes. -/
  | moveComplete (id : Nat)
  /-- DET_SCATTER_COMBINE (R205): Once every work item of a step has ended, the Granary combines the step's staged DET contributions in key order. -/
  | detScatterCombine (ring : RingId) (mismatch : Nat)
  /-- FENCE_REL (R54): A release fence holds later writes until every earlier access in the masked classes is performed. -/
  | fenceRel (core : CoreId)
  /-- FENCE_ACQ (R54): An acquire fence holds later accesses until every earlier read in the masked classes has returned. -/
  | fenceAcq (core : CoreId)
  /-- FENCE_FULL (R54): A full fence holds later accesses until every earlier access is performed and every read returned. -/
  | fenceFull (core : CoreId)
  /-- FENCE_COMPLETE (R54): The accesses a fence waited for have been acknowledged and the source issues past it. -/
  | fenceComplete (src : Src)
  /-- SIGNAL_ADD (R167): A semaphore SIGNAL adds VALUE, after every earlier access of the source is performed. -/
  | signalAdd (core : CoreId) (mismatch : Nat)
  /-- SIGNAL_SET (R167): A semaphore SIGNAL sets the semaphore to VALUE. -/
  | signalSet (core : CoreId) (mismatch : Nat)
  /-- WAIT_GE (R167): A semaphore WAIT until the value is at least VALUE enters the wait table. -/
  | waitGe (core : CoreId)
  /-- WAIT_EQ (R167): A semaphore WAIT until the value equals VALUE enters the wait table. -/
  | waitEq (core : CoreId)
  /-- SEM_WAIT_COMPLETE (R57): A semaphore reaches the awaited value, or is poisoned, and the waiting WAIT completes. -/
  | semWaitComplete (who : Waiter)
  /-- SEM_TIMEOUT (R167): A WAIT with non-zero TIMEOUT_US has not completed in time and fails with SEM_TIMEOUT. -/
  | semTimeout (who : Waiter)
  /-- VAULT_BURST (R90): The vault interface serves one 256-byte burst to the requester whose turn it is. -/
  | vaultBurst (core : CoreId) (busy : BitVec 32) (records : Nat) (reads : List VaultRead)
  /-- MISDELIVERY_RESEND (R271): On an epoch change in the partition, the queue resends bounced messages to the core now holding the stamped role and rank. -/
  | misdeliveryResend (idx : Nat)
  /-- MISDELIVERY_HOLD_EXPIRE (R271): HOLD_US elapses for a bounced message, which is logged and its step faulted with MISDELIVERED. -/
  | misdeliveryHoldExpire (idx : Nat)
  /-- RING_BASE_WRITE (R137): A write to RING_BASE or CPL_BASE sets the ring's base or is ignored, possibly setting BASE_ERR. -/
  | ringBaseWrite (ring : RingId) (cpl : Bool) (val : W64)
  /-- RING_CFG_WRITE (R138): A write to RING_CFG changes enable, sizes, vector and interrupt under its conditions. -/
  | ringCfgWrite (ring : RingId) (val : W32)
  /-- DOORBELL (R139): A write to RING_DB makes entries up to TAIL available after earlier posted writes, or is ignored with DB_ERR. -/
  | doorbell (src : Src) (ring : RingId) (val : W32)
  /-- CPL_HEAD_WRITE (R141): The runtime advances CPL_HEAD, freeing room so a held completion record can be written. -/
  | cplHeadWrite (ring : RingId) (val : W32)
  /-- RING_RESET (R140): RING_CTL.RESET cancels every open step without records and resets the ring indices and halt state. -/
  | ringReset (ring : RingId)
  /-- RING_RESUME (R172): RING_CTL.RESUME on a halted ring clears HALTED and reads on, discarding the entries of cancelled steps. -/
  | ringResume (ring : RingId)
  /-- DISPATCH (R148): The front end takes a DISPATCH entry, resolves the model and batch list, and places one work item per named core. -/
  | dispatch (ring : RingId) (bytes : List Byte)
  /-- COMMIT_ENTRY (R146): The front end takes a COMMIT entry for the current step. -/
  | commitEntry (ring : RingId) (bytes : List Byte)
  /-- STEP_COMMIT (R146): All commit conditions of a step hold; the commit handshake releases its inputs, advances its streams and writes the completion record. -/
  | stepCommit (ring : RingId)
  /-- MOVE_ENTRY (R143): The front end takes a MOVE entry and performs its move. -/
  | moveEntry (ring : RingId) (bytes : List Byte)
  /-- FENCE_ENTRY (R135): The front end takes a FENCE entry, which holds the later entries of its ring. -/
  | fenceEntry (ring : RingId) (bytes : List Byte)
  /-- SEM_SIGNAL_ENTRY (R143): The front end takes a SEM entry with OP SIGNAL. -/
  | semSignalEntry (ring : RingId) (bytes : List Byte) (mismatch : Nat)
  /-- SEM_WAIT_ENTRY (R135): The front end takes a SEM entry with OP WAIT, which holds the later entries of its ring. -/
  | semWaitEntry (ring : RingId) (bytes : List Byte)
  /-- MARK (R170): The front end takes a MARK entry and writes a completion record with its TAG. -/
  | mark (ring : RingId) (bytes : List Byte)
  /-- NOP_ENTRY (R143): The front end takes a NOP entry. -/
  | nopEntry (ring : RingId) (bytes : List Byte)
  /-- UNLISTED_ENTRY_TYPE (R143): An entry whose TYPE is not listed halts its ring with ENTRY_TYPE. -/
  | unlistedEntryType (ring : RingId) (bytes : List Byte)
  /-- RING_READ_FAIL (R632): A read of a submission ring or batch list fails, and the ring halts with RING_FETCH or NOT_OWNED. -/
  | ringReadFail (ring : RingId)
  /-- CPL_WRITE_FAIL (R632): A completion record cannot be written; it is lost and the ring halts. -/
  | cplWriteFail (ring : RingId)
  /-- CMD_ERROR_REPORT (R171): An error of a command, work item or entry reaches the front end, which cancels the step and later steps and halts the ring. -/
  | cmdErrorReport
  /-- DESC_TABLE_WRITE (R175): A write to DESC_TABLE sets the descriptor table and invalidates its entries, or is refused. -/
  | descTableWrite (p : PartId) (val : W64)
  /-- DESC_DET_WRITE (R175): A write to DESC_DET sets the deterministic staging area, or is refused. -/
  | descDetWrite (p : PartId) (val : W64)
  /-- DESC_CREATE (R189): DESC_CMD CREATE validates DESC_STAGE and installs it at INDEX. -/
  | descCreate (p : PartId) (index : BitVec 16)
  /-- DESC_INVALIDATE (R176): DESC_CMD INVALIDATE marks an index invalid. -/
  | descInvalidate (p : PartId) (index : BitVec 16)
  /-- HUL_PLOT_LIMIT_WRITE (R221): A write to HUL_PLOT_LIMIT changes the plot huller budget ceiling and the plot cap for later admissions. -/
  | hulPlotLimitWrite (plot : PlotId) (val : W32)
  /-- BAND_ESTIMATE (R237): Every 10 µs the Reeve infers layer temperatures and applies any rise in band. -/
  | bandEstimate
  /-- BIN_FREE_TO_SCRATCH (R251): GRN_BIN_CFG assigns a free bin as SCRATCH to a partition and zeroes it. -/
  | binFreeToScratch (k : BinId) (owner : PartId)
  /-- BIN_SCRATCH_TO_FREE (R251): GRN_BIN_CFG releases a partition's highest-slot SCRATCH bin, zeroing it. -/
  | binScratchToFree (k : BinId)
  /-- BIN_FREE_TO_CACHE (R251): GRN_BIN_CFG adds a free bin to the cache after a cache flush. -/
  | binFreeToCache (k : BinId)
  /-- BIN_CACHE_TO_FREE (R251): GRN_BIN_CFG removes a bin from the cache after a cache flush. -/
  | binCacheToFree (k : BinId)
  /-- BIN_TRANSITION_DONE (R251): A bin transition completes and BUSY clears. -/
  | binTransitionDone (k : BinId)
  /-- CACHE_FLUSH_DONE (R256): A cache flush has written back and invalidated every line and the new set of cache bins takes effect. -/
  | cacheFlushDone
  /-- SEEDSTORE_ACCESS (R255): A seedstore access passes the Granary cache lookup and is served per the cache policy. -/
  | seedstoreAccess (src : Src) (addr len : Nat) (write : Option (List Byte)) (run : Nat) (ecc : Ecc) (crc : Nat)
  /-- COMBINE_CONTRIBUTION (R262): A combining contribution is combined atomically with its destination element at the home Granary. -/
  | combineContribution (mismatch : Nat)
  /-- CWIN_WRITE (R266): A write to CWIN posts, changes or clears a collective window, or is refused with ERR. -/
  | cwinWrite (p : PartId) (j : Fin 16) (val : W64)
  /-- STRM_OPEN (R321): STRM_CMD OPEN makes a FREE context ACTIVE from STRM_STAGE. -/
  | strmOpen (p : PartId) (id : BitVec 21)
  /-- STRM_CLOSE (R321): STRM_CMD CLOSE makes an owned, unheld context FREE. -/
  | strmClose (p : PartId) (id : BitVec 21)
  /-- STRM_READ (R321): STRM_CMD READ copies a context into STRM_READ. -/
  | strmRead (p : PartId) (id : BitVec 21)
  /-- MDL_INSTALL (R334): MDL_CMD INSTALL copies MDL_STAGE into an EMPTY descriptor and makes it RESIDENT. -/
  | mdlInstall (p : PartId) (index : BitVec 12)
  /-- MDL_EVICT (R334): MDL_CMD EVICT empties a descriptor that no stream, step or job uses. -/
  | mdlEvict (p : PartId) (index : BitVec 12)
  /-- MDL_QUERY (R334): MDL_CMD QUERY copies a descriptor's STATE and STREAMS into MDL_USE. -/
  | mdlQuery (p : PartId) (index : BitVec 12)
  /-- RSH_START (R342): RSH_CMD START reads and checks a re-shard job record and begins the job. -/
  | rshStart (p : PartId)
  /-- RSH_ABORT (R349): RSH_CMD ABORT aborts a running job before step 7. -/
  | rshAbort (p : PartId)
  /-- RSH_JOB_PLACE (R340): A queued job receives a job place and starts taking holds on its streams. -/
  | rshJobPlace
  /-- RSH_MOVE_DONE (R343): Every sheaf write of the job is performed and the engine signals every peer's job semaphore. -/
  | rshMoveDone (p : PartId) (mismatch : Nat)
  /-- RSH_WAIT_DONE (R343): The job semaphore reaches SEM_BASE + PEERS and the streams move to the new descriptor, or a poisoned value aborts the job. -/
  | rshWaitDone (p : PartId)
  /-- RSH_TIMEOUT (R349): TIMEOUT_US elapses in the wait of step 6 and the job aborts. -/
  | rshTimeout (p : PartId)
  /-- HEADLAND_FLIT_RECEIVE (R354): A Headland flit arrives and is checked, resent on mismatch, or its lane replaced after 8 resends. -/
  | headlandFlitReceive (plot : PlotId) (inward : Bool) (lane : Nat) (flit : HlFlit) (got : List Byte)
  /-- MESH_FLIT_RECEIVE (R395): A field mesh flit arrives and is checked, resent, or delivered as chaff after 8 resends. -/
  | meshFlitReceive (fid : FieldId) (flit : MeshFlit)
  /-- PORT_ENABLE (R358): PORT_CTL.ENABLE set to 1 starts training of an Oncon port. -/
  | portEnable (port : PortId)
  /-- PORT_RETRAIN (R372): PORT_CTL.RETRAIN sends the port to TRAINING. -/
  | portRetrain (port : PortId)
  /-- PORT_FORCE_FI (R373): PORT_CTL.FORCE_FI makes the port send FAULT_IDLE with reason FIRMWARE. -/
  | portForceFi (port : PortId) (on : Bool)
  /-- PARTNER_SIGNAL_DETECT (R358): A training port detects a partner's signal and measures lane error ratios. -/
  | partnerSignalDetect (port : PortId) (rxBad txBad : BitVec 9)
  /-- TRAINING_DONE (R358): Training completes with lane substitutions, to HELLO, or fails to DOWN with TRAIN_FAIL. -/
  | trainingDone (port : PortId)
  /-- HELLO (R377): A port in HELLO receives a valid HELLO control flit, records PORT_NBR and enters UP. -/
  | hello (port : PortId) (flit : List Byte)
  /-- IDLE (R363): An IDLE control flit arrives carrying cumulative acknowledgement, NAK and credits. -/
  | idle (port : PortId) (flit : List Byte) (fixed : Nat)
  /-- FAULT_IDLE (R374): A port that is UP receives FAULT_IDLE and enters FI_RX. -/
  | faultIdle (port : PortId) (flit : List Byte)
  /-- LOSS_OF_LOCK (R372): A port's receiver loses lock while UP and the port enters FI_TX with reason LOST. -/
  | lossOfLock (port : PortId)
  /-- RETRY_TIMEOUT (R369): No covering control flit arrives within 4 µs, and the sender replays, or enters DEGRADED at a ninth resend. -/
  | retryTimeout (port : PortId)
  /-- FEC_UNCORRECTABLE (R371): An uncorrectable FEC codeword is counted and may set MARGINAL. -/
  | fecUncorrectable (port : PortId)
  /-- RD_REQ (R361): A read request packet is received in SEQ order and resolved at its destination. -/
  | rdReq (port : PortId) (pkt : List Byte)
  /-- WR (R361): A write packet is received and performed at its destination. -/
  | wr (port : PortId) (pkt : List Byte)
  /-- SIGNAL (R361): A semaphore signal packet is received and performed. -/
  | signal (port : PortId) (pkt : List Byte) (mismatch : Nat)
  /-- COMBINE (R361): A combining contribution packet is received in the collective class. -/
  | combine (port : PortId) (pkt : List Byte)
  /-- RD_RSP (R361): A read response packet is received with data and status. -/
  | rdRsp (port : PortId) (pkt : List Byte)
  /-- CPL (R361): A completion packet for a write, signal or combine is received. -/
  | cpl (port : PortId) (pkt : List Byte)
  /-- ABORT (R387): An ABORT packet arrives and its transaction's step takes a LINK_BROKEN fault. -/
  | abort (port : PortId) (pkt : List Byte)
  /-- SWEEP_REQ (R379): A SWEEP_REQ arrives and the module answers with its PORT_NBR values. -/
  | sweepReq (port : PortId) (pkt : List Byte)
  /-- SWEEP_RSP (R379): A SWEEP_RSP reaches the sweep origin and is compared with the expected topology. -/
  | sweepRsp (port : PortId) (pkt : List Byte)
  /-- BREAK (R388): A BREAK notice arrives, is forwarded once, faults open steps and may set PENDING. -/
  | breakNotice (port : PortId) (pkt : List Byte)
  /-- PACKET_ROUTE (R381): The Granary router looks up a packet in the active route set and forwards or discards it. -/
  | packetRoute (mismatch : Nat)
  /-- ROUTE_SWITCH (R384): ROUTE_CTL.SWITCH makes the inactive route set active and clears PENDING. -/
  | routeSwitch
  /-- ROUTE_DATA_ACCESS (R384): An access to ROUTE_DATA reads or writes a route entry and advances ROUTE_IDX. -/
  | routeDataAccess (src : Src) (write : Option W32)
  /-- SWEEP_START (R379): SWEEP_CTL.START starts a topology sweep from this module. -/
  | sweepStart
  /-- ONC_RESPONSE_TIMEOUT (R387): A remote transaction's response has not arrived within ONC_TIMEOUT and its step is faulted. -/
  | oncResponseTimeout (txn : Nat)
  /-- FAULT_CONFIRMED (R423): A confirmed fault is reported to the front end, which stops the step and later open steps for replay. -/
  | faultConfirmed
  /-- REPLAY_QUIESCED (R423): Every transaction of the stopped steps has completed, aborted or timed out, and PENDING is clear. -/
  | replayQuiesced (ring : RingId)
  /-- REPLAY_RESTORED (R422): The restorations of the replay, including remote ADD round trips, are done, and the entries are taken again. -/
  | replayRestored (ring : RingId)
  /-- CORE_SUBSTITUTION_DONE (R428): The vault copy to a spare position completes, and the map changes, the field resets and the Almanac is written. -/
  | coreSubstitutionDone (core : CoreId)
  /-- EVENT_CLASSIFY (R440): Within 1 ms of a memory error event, the Reeve logs and classifies the word as transient or permanent. -/
  | eventClassify
  /-- SCRUB_REWRITE (R445): The Harrow rewrites a corrected word with a fresh check field while holding its burst. -/
  | scrubRewrite
  /-- HARROW_VAULT_READ (R445): The vault Harrow reads the next valid burst at its pace. -/
  | harrowVaultRead (core : CoreId) (word : Fin 8) (ecc : Ecc) (vbad : Bool)
  /-- HARROW_GRANARY_READ (R446): The Granary Harrow reads the next word of its pass. -/
  | harrowGranaryRead (ecc : Ecc)
  /-- HARROW_SEEDSTORE_READ (R446): The seedstore Harrow reads the next burst and writes back a corrected one. -/
  | harrowSeedstoreRead (ecc : Ecc)
  /-- LOG_ENTRY_AGE_OUT (R442): A log entry with PERM 0 is freed 30 days after its last event. -/
  | logEntryAgeOut (idx : Nat)
  /-- LOG_CLR (R444): A write to LOG_CLR frees a log entry that is not permanent. -/
  | logClr (val : W32)
  /-- RETIRE_PAGE (R450): RET_CMD PAGE substitutes a spare row for a row, or acts as BANK. -/
  | retirePage (val : W32)
  /-- RETIRE_BANK (R450): RET_CMD BANK substitutes the spare layer slice for a bank's slice. -/
  | retireBank (val : W32)
  /-- RETIRE_BIN (R450): RET_CMD BIN substitutes a spare bin. -/
  | retireBin (val : W32)
  /-- RETIRE_COPY_DONE (R451): The substitution copy completes, the map switches, held accesses proceed and RESULT is loaded. -/
  | retireCopyDone
  /-- PWR_OK_RISE (R456): PWR_OK is taken high and a cold reset starts. -/
  | pwrOkRise
  /-- PWR_OK_FALL (R507): PWR_OK is taken low and the emergency commit begins. -/
  | pwrOkFall
  /-- EMERGENCY_COMMIT_END (R508): The emergency commit ends and the module takes a cold reset. -/
  | emergencyCommitEnd
  /-- PERST_ASSERT (R456): PERST# is taken asserted and a warm or host reset starts per PERST_SCOPE. -/
  | perstAssert
  /-- PERST_RELEASE (R463): PERST# is released and the host interface trains its link. -/
  | perstRelease
  /-- WARM_RST_ASSERT (R456): WARM_RST# is taken asserted and a warm reset starts. -/
  | warmRstAssert
  /-- WARM_RST_RELEASE (R460): WARM_RST# is released and the reset ends, starting STEP_STRAP. -/
  | warmRstRelease
  /-- RESET_PIN_GLITCH (R457): A reset pin assertion shorter than 2 µs is ignored and counted in GLITCHES. -/
  | resetPinGlitch
  /-- RST_CTL_COLD (R456): RST_CTL.COLD with the key starts a cold reset. -/
  | rstCtlCold (key : BitVec 16)
  /-- RST_CTL_WARM (R456): RST_CTL.WARM with the key starts a warm reset. -/
  | rstCtlWarm (key : BitVec 16)
  /-- STEP_STRAP (R464): At the end of a reset the module samples OPTSEL and the management endpoint answers at its address. -/
  | stepStrap (counts : List Nat)
  /-- STEP_SEED (R468): The module chooses a slot, reads and verifies the seed image, and places its sections. -/
  | stepSeed (answered stale : BitVec 2) (a b r : SlotRead)
  /-- STEP_REPAIR (R502): The module replays the Almanac and applies the repair map. -/
  | stepRepair (bad : Option Nat)
  /-- STEP_POWER (R524): The core domain soft-starts at the boot level and the Headland links train. -/
  | stepPower (rail : Option (Nat × Nat)) (lanes : List (Nat × Bool × Nat)) (headland : Option (Nat × Bool))
  /-- STEP_VAULT (R460): Vault delays are calibrated, the seedstore trained, bins zeroed, and on cold bring-up vaults and seedstore cleared. -/
  | stepVault (seedstore cal : Option Nat)
  /-- STEP_FIELD (R472): Fields are released, the stall bound loaded, and slow cores substituted. -/
  | stepField (slow : List CoreId)
  /-- STEP_FETCH (R473): Role images are checked and each core runs its boot entry. -/
  | stepFetch
  /-- STEP_LINK (R474): Every enabled Oncon port trains. -/
  | stepLink
  /-- STEP_TOPO (R380): The module ID, TOPO_ID and route sets are loaded with set A active. -/
  | stepTopo
  /-- STEP_READY (R475): The agreement check runs and the module becomes READY or fails with TOPO_MISMATCH. -/
  | stepReady (present : Bool)
  /-- BRING_STEP_DONE (R462): A bring-up step finishes its work and ends DONE or FAILED with its code. -/
  | bringStepDone
  /-- BRING_STEP_TIMEOUT (R462): A bring-up step exceeds its bound and ends FAILED with STEP_TIMEOUT. -/
  | bringStepTimeout
  /-- STEP_LINK_LIMIT (R474): STEP_LINK ends 300 ms after it began with ports still training or in HELLO. -/
  | stepLinkLimit
  /-- BOOT_ITEM_TIMEOUT (R473): A boot work item has not ended within 1 ms and its core is substituted. -/
  | bootItemTimeout (core : CoreId)
  /-- BLK_RST_FIELD (R479): BLK_RST of a field requests it idle before resetting it. -/
  | blkRstField (target : BitVec 24)
  /-- BLK_RST_ONCON (R479): BLK_RST of the Oncon block requests it idle before resetting it. -/
  | blkRstOncon (target : BitVec 24)
  /-- BLK_RST_HOST (R479): BLK_RST of the host interface requests it idle before resetting it. -/
  | blkRstHost (target : BitVec 24)
  /-- BLK_RST_SEEDSTORE (R479): BLK_RST of the seedstore controller requests it idle before resetting it. -/
  | blkRstSeedstore (target : BitVec 24)
  /-- BLK_RST_RESHARD (R479): BLK_RST of the re-shard engine requests it idle before resetting it. -/
  | blkRstReshard (target : BitVec 24)
  /-- BLOCK_IDLE_REACHED (R480): The block becomes idle, is reset cleanly and released. -/
  | blockIdleReached
  /-- BLOCK_IDLE_TIMEOUT (R480): IDLE_US elapses and the block is reset by force, its in-flight data carrying chaff. -/
  | blockIdleTimeout
  /-- REQUEST_UPDATE (R495): PLDM RequestUpdate starts a field update, or is refused. -/
  | requestUpdate
  /-- UPDATE_COMPONENT (R494): PLDM UpdateComponent names the seed image; the target slot is marked LOADING and erased. -/
  | updateComponent (size : Nat)
  /-- FIRMWARE_DATA (R495): Firmware data requested from the update agent arrives and is programmed to the slot. -/
  | firmwareData (data : List Byte)
  /-- SLOT_VERIFY_DONE (R495): Verification of the downloaded slot ends and the slot is marked VERIFIED or BAD. -/
  | slotVerifyDone (read : SlotRead) (only : Option (Fin 2))
  /-- ACTIVATE_FIRMWARE (R496): PLDM ActivateFirmware puts a VERIFIED slot on trial. -/
  | activateFirmware
  /-- SEED_CONFIRM (R499): SEED_CTL.CONFIRM with the key confirms the trial slot as ACTIVE. -/
  | seedConfirm (val : W32)
  /-- ALMANAC_RECORD_WRITE (R501): The Reeve writes the next queued record to both flash devices and commits it. -/
  | almanacRecordWrite (dev0 dev1 : Bool)
  /-- ALMANAC_COMPACT (R504): The Reeve compacts and erases the oldest segment of a flash region. -/
  | almanacCompact (region : Nat)
  /-- GET_VERSION (R511): SPDM GET_VERSION is answered. -/
  | getVersion
  /-- GET_CAPABILITIES (R511): SPDM GET_CAPABILITIES is answered. -/
  | getCapabilities
  /-- NEGOTIATE_ALGORITHMS (R511): SPDM NEGOTIATE_ALGORITHMS is answered with SHA-384 and P-384. -/
  | negotiateAlgorithms
  /-- GET_DIGESTS (R511): SPDM GET_DIGESTS is answered. -/
  | getDigests
  /-- GET_CERTIFICATE (R512): SPDM GET_CERTIFICATE returns the identity chain from slot 0. -/
  | getCertificate (slot offset len : Nat)
  /-- CHALLENGE (R512): SPDM CHALLENGE is answered with the device identity key. -/
  | challenge (slot : Nat) (nonce : List Byte)
  /-- GET_MEASUREMENTS (R513): SPDM GET_MEASUREMENTS returns the measurement blocks of the present bring-up. -/
  | getMeasurements (index : Nat)
  /-- SPDM_UNSUPPORTED_REQUEST (R511): KEY_EXCHANGE and session messages are refused with ERROR UnsupportedRequest. -/
  | spdmUnsupportedRequest (code : BitVec 8)
  /-- CEIL_RAISE (R518): A plot cannot be steered within 0.95 V and CEIL rises by one level. -/
  | ceilRaise (plot : PlotId)
  /-- CEIL_RETURN (R518): The plot has steered the next lower-numbered level with margin for 1 s and CEIL returns one level. -/
  | ceilReturn (plot : PlotId)
  /-- PHASE_FAIL_SHORT (R519): A regulator phase is failed short and isolated. -/
  | phaseFailShort (plot : PlotId) (phase : Fin 96)
  /-- PHASE_FAIL_OPEN (R519): A regulator phase is failed open and isolated. -/
  | phaseFailOpen (plot : PlotId) (phase : Fin 96)
  /-- CRACK_SUSPECT (R522): A droop cluster falls under the crack criteria and a suspected cracked connection is reported. -/
  | crackSuspect (plot : PlotId) (cluster : Fin 12) (mv others current ago : Nat)
  /-- LEVEL_RAMP_DONE (R525): A level ramp ends and body bias and memory assist settle. -/
  | levelRampDone
  /-- CAP_RECOMPUTE (R526): Every 10 ms the Reeve recomputes the power cap. -/
  | capRecompute
  /-- RTH_UPDATE (R527): Once per second the measured thermal resistance moves toward its new estimate. -/
  | rthUpdate (avgW hot : Nat)
  /-- BUDGET_PERIOD (R528): Every 10 µs the plots exchange demands and divide the compute budget into plot, huller and field shares. -/
  | budgetPeriod (other : Nat) (plots : List PlotReading)
  /-- BUDGET_MESSAGE_STALE (R528): No budget message from a plot for 30 µs; its last message is used and a power event sent. -/
  | budgetMessageStale (plot : PlotId)
  /-- OVERCURRENT_DUTY_CUT (R531): Plot rail current above 1,200 A lowers every field's duty by an eighth each µs. -/
  | overcurrentDutyCut (plot : PlotId) (amps : Nat)
  /-- AUTO_CEIL_ADJUST (R532): Under AUTO, duty conditions over 10 ms or 100 ms move CEIL up or down one level. -/
  | autoCeilAdjust (predicted : Nat)
  /-- DIODE_CONVERSION (R533): Every 10 µs each core's diode is converted and throttling applied. -/
  | diodeConversion (core : CoreId) (quarters : Int)
  /-- THROTTLE_STEP (R534): Every 100 µs a hot core's duty falls by an eighth, or rises by 1/8 once below 103 °C. -/
  | throttleStep (core : CoreId)
  /-- DIODE_BROKEN (R536): A diode reads out of range or stops converting; its core is held and its vault put in B4. -/
  | diodeBroken (core : CoreId)
  /-- DIODE_SUBSTITUTE (R536): The Reeve substitutes a neighbour-derived reading for a broken diode and releases the core. -/
  | diodeSubstitute (core : CoreId)
  /-- SENSOR_BROKEN (R537): A sensor without substitute breaks and the module enters fail-safe. -/
  | sensorBroken (kind unit : Nat)
  /-- COOL_IN_WRITE (R539): A write of COOL_IN sets the inlet temperature and clears STALE. -/
  | coolInWrite (val : W32)
  /-- COOL_IN_STALE (R539): COOL_IN has not been written for 10 s; STALE is set and 45 °C is used. -/
  | coolInStale
  /-- POWER_CONTROL_WRITE (R547): A write to REQ, AUTO, TJ_LIMIT or BOARD_CAP takes effect at the next cap recomputation. -/
  | powerControlWrite (cap : Bool) (val : W32)
  /-- SLEEP_TARGET_S0 (R544): SLEEP_CTL.TARGET = S0 wakes the module, or from S4 starts a bring-up. -/
  | sleepTargetS0
  /-- SLEEP_TARGET_S1 (R542): SLEEP_CTL.TARGET = S1 starts a sleep entry to S1. -/
  | sleepTargetS1
  /-- SLEEP_TARGET_S2 (R542): SLEEP_CTL.TARGET = S2 starts a sleep entry to S2. -/
  | sleepTargetS2
  /-- SLEEP_TARGET_S4 (R542): SLEEP_CTL.TARGET = S4 starts a sleep entry to S4. -/
  | sleepTargetS4
  /-- SLEEP_BLOCK_ANSWER (R542): A block answers ACCEPT, DELAY or REFUSE to the sleep request. -/
  | sleepBlockAnswer (block : Fin 9)
  /-- SLEEP_ENTRY_TIMEOUT (R542): Not every block has accepted within WAIT_MS and entry ends with TIMEOUT. -/
  | sleepEntryTimeout
  /-- SLEEP_ENTRY_DONE (R542): A committed entry completes and the new sleep state takes effect. -/
  | sleepEntryDone
  /-- SLEEP_EXIT_DONE (R540): Exit from a sleep state completes and the module is in S0. -/
  | sleepExitDone
  /-- READ32 (R551): An MCTP register access reads 32 bits. -/
  | read32 (off : Nat)
  /-- WRITE32 (R551): An MCTP register access writes 32 bits. -/
  | write32 (off : Nat) (val : W32)
  /-- READ64 (R551): An MCTP register access reads 64 bits. -/
  | read64 (off : Nat)
  /-- WRITE64 (R551): An MCTP register access writes 64 bits. -/
  | write64 (off : Nat) (val : W64)
  /-- SET_ENDPOINT_ID (R549): MCTP control Set Endpoint ID assigns the endpoint ID. -/
  | setEndpointId (eid : BitVec 8)
  /-- GET_ENDPOINT_ID (R549): MCTP control Get Endpoint ID is answered. -/
  | getEndpointId
  /-- GET_ENDPOINT_UUID (R550): MCTP control Get Endpoint UUID is answered. -/
  | getEndpointUuid
  /-- GET_MCTP_VERSION_SUPPORT (R550): MCTP control Get MCTP Version Support is answered. -/
  | getMctpVersionSupport
  /-- GET_MESSAGE_TYPE_SUPPORT (R550): MCTP control Get Message Type Support is answered. -/
  | getMessageTypeSupport
  /-- MCTP_UNSUPPORTED_TYPE (R550): An MCTP message of an unsupported type is discarded. -/
  | mctpUnsupportedType (type : BitVec 8)
  /-- I3C_DYNAMIC_ADDRESS (R549): SETDASA or ENTDAA assigns an I3C dynamic address and the endpoint leaves SMBus. -/
  | i3cDynamicAddress (addr : BitVec 7)
  /-- GET_FRU_RECORD_TABLE (R554): PLDM GetFRURecordTable returns the identification data. -/
  | getFruRecordTable
  /-- SET_EVENT_RECEIVER (R556): PLDM SetEventReceiver names the board controller as event receiver. -/
  | setEventReceiver
  /-- POLL_FOR_PLATFORM_EVENT_MESSAGE (R556): PLDM PollForPlatformEventMessage returns pending events. -/
  | pollForPlatformEventMessage
  /-- EVENT_SEND (R561): A queued event is sent in SEQ order by UDP and PLDM, or dropped and counted. -/
  | eventSend
  /-- HEARTBEAT (R560): Once per second a HEARTBEAT event is queued. -/
  | heartbeat
  /-- RESEND (R561): A RESEND datagram makes the module send held events again with RESENT set. -/
  | resend (first count : Nat) (bad : List Nat)
  /-- ARP_REQUEST (R558): An ARP request on the management port is answered. -/
  | arpRequest (ip : Nat)
  /-- ICMP_ECHO (R558): An ICMP echo request on the management port is answered. -/
  | icmpEcho (ip : Nat) (data : List Nat)
  /-- DHCP_EXCHANGE (R558): A DHCPv4 reply gives the management port its address when CONFIG holds none. -/
  | dhcpExchange (ip mask gateway : Nat)
  /-- PTP_SYNC (R565): A PTP Sync message is received and the time counter is stepped forward or slewed. -/
  | ptpSync (domain master interval origin : Nat) (twoStep : Bool)
  /-- PTP_FOLLOW_UP (R562): A PTP Follow_Up message completes a two-step Sync. -/
  | ptpFollowUp (domain master origin : Nat)
  /-- PTP_DELAY_RESP (R562): A PTP Delay_Resp completes an end-to-end delay measurement. -/
  | ptpDelayResp (domain master sent received : Nat)
  /-- PTP_ANNOUNCE (R563): A PTP Announce feeds the best master clock algorithm and may select a master. -/
  | ptpAnnounce (domain master : Nat) (set : List Nat)
  /-- PTP_SYNC_LOSS (R563): No Sync for 4 intervals moves the time state to HOLDOVER or FREERUN. -/
  | ptpSyncLoss
  /-- TIME_SET (R564): TIME_SET_CTL.GO sets the counter forward while PTP is disabled, or sets SET_ERR. -/
  | timeSet (val : W32)
  /-- TLM_CFG_WRITE (R568): A write to TLM_CFG that changes channel or averaging abandons the sample and marks two STALE. -/
  | tlmCfgWrite (conv : Fin 16) (val : W32)
  /-- TLM_SAMPLE_DONE (R567): A telemetry sample completes and TLM_SAMPLE takes it whole. -/
  | tlmSampleDone (conv : Fin 16) (value : BitVec 16)
  /-- GLEAN_GO (R571): GLEAN_CTL.GO accepts or refuses a glean at time T and broadcasts T. -/
  | gleanGo (val : W32)
  /-- GLEAN_TIME_REACHED (R571): A unit's time copy reaches T and it copies its counters into shadows and tags them. -/
  | gleanTimeReached
  /-- TRACE_CTL_WRITE (R573): A write to TRACE_CTL enables or disables tracing, or is refused with BUF_ERR. -/
  | traceCtlWrite (val : W32)
  /-- TRACE_RECORD_STORE (R574): A trace record leaves its FIFO and is written into the trace buffer, or dropped. -/
  | traceRecordStore (rec : TraceRec) (full : Bool) (held : Nat)
  /-- DEBUG_HALT (R576): DBG_CTL halts a field at its next instruction boundaries, or sets DENIED. -/
  | debugHalt (key : BitVec 16) (plot : PlotId) (index : Nat)
  /-- DEBUG_RESUME (R577): DBG_CTL resumes a halted field. -/
  | debugResume (key : BitVec 16) (plot : PlotId) (index : Nat)
  /-- DBG_DATA_WRITE (R576): A write to DBG_DATA changes a register, PC or RW CSR of a halted core. -/
  | dbgDataWrite (val : W64)
  /-- WFG_GO (R578): WFG_CTL.GO starts a wait-for graph report by a glean 20 µs ahead. -/
  | wfgGo (val : W32)
  /-- WFG_AUTO (R578): A wait has lasted longer than AUTO_MS and an automatic report is taken. -/
  | wfgAuto
  /-- WFG_REPORT_DONE (R580): The recorded waits are marked for cycles and the report and WFG event are complete. -/
  | wfgReportDone
  /-- WFG_DATA_READ (R582): A read of the last word of WFG_DATA advances WFG_IDX. -/
  | wfgDataRead (src : Src) (off size : Nat) (bad : Bool)
  /-- HOST_MEM_READ (R591): A host memory read through BAR2 is resolved and performed or refused. -/
  | hostMemRead (fn : FnId) (addr len : Nat) (ecc : List Ecc)
  /-- HOST_MEM_WRITE (R591): A host posted write through BAR2 is resolved and performed or dropped. -/
  | hostMemWrite (fn : FnId) (addr : Nat) (bytes : List Byte) (ep : Bool)
  /-- HOST_FETCHADD (R259): A host FetchAdd AtomicOp on a Granary location. -/
  | hostFetchadd (fn : FnId) (addr : Nat) (wide : Bool) (value : W64) (mismatch : Nat)
  /-- HOST_SWAP (R259): A host Swap AtomicOp on a Granary location. -/
  | hostSwap (fn : FnId) (addr : Nat) (wide : Bool) (value : W64) (mismatch : Nat)
  /-- HOST_CAS (R259): A host compare-and-swap AtomicOp on a Granary location. -/
  | hostCas (fn : FnId) (addr : Nat) (width : BitVec 2) (cmp new : W64) (mismatch : Nat)
  /-- CXL_MEM_READ (R598): A CXL.mem read of the HDM range is resolved as a PF request. -/
  | cxlMemRead (line : Nat) (cacheable : Bool) (ecc : List Ecc)
  /-- CXL_MEM_WRITE (R598): A CXL.mem write of the HDM range is resolved as a PF request. -/
  | cxlMemWrite (line : Nat) (bytes : List Byte) (enable : BitVec 64) (poison : Bool)
  /-- HDM_DECODER_COMMIT (R598): The host commits the HDM decoder, which succeeds only at the module's size. -/
  | hdmDecoderCommit (size : Nat)
  /-- HOST_LINK_TRAIN (R585): The PCIe link trains at ×16 or returns to Detect with WIDTH_ERR. -/
  | hostLinkTrain (width : Nat) (speed : Fin 6) (flit cxl : Bool)
  /-- HOST_LINK_DOWN (R603): The host link goes down; writes are dropped and ring reads halt their rings. -/
  | hostLinkDown
  /-- VF_FLR (R601): A VF Function Level Reset resets every ring of its partition. -/
  | vfFlr (vf : Fin 32)
  /-- PF_FLR (R601): A PF Function Level Reset acts as a host-scope reset and resets every VF. -/
  | pfFlr
  /-- D3HOT_ENTRY (R602): A function enters D3hot and its rings take no entry and raise no interrupt. -/
  | d3hotEntry (fn : FnId)
  /-- D0_RETURN (R602): A function returns to D0 and held completion records are written. -/
  | d0Return (fn : FnId)
  /-- ATS_INVALIDATE (R603): An ATS invalidation completes after in-flight ring reads that used the translation. -/
  | atsInvalidate (fn : FnId) (tag : BitVec 5)
  /-- PART_CREATE (R594): PART_CMD CREATE makes a partition from the staged values. -/
  | partCreate (index : PartId)
  /-- PART_DESTROY (R594): PART_CMD DESTROY removes an idle partition and frees its bins, allocations and contexts. -/
  | partDestroy (index : PartId)
  /-- ALLOC_CREATE (R596): ALLOC_CMD CREATE checks the stage and returns a new allocation handle. -/
  | allocCreate (p : PartId)
  /-- ALLOC_RELEASE (R596): ALLOC_CMD RELEASE invalidates descriptors and releases the allocation once its moves complete. -/
  | allocRelease (p : PartId)
  /-- INPUT_SAG (R620): The input falls below 38 V for 10 µs with PWR_OK high and the emergency commit begins. -/
  | inputSag
  /-- REFCLK_LOSS (R620): REFCLK stops while the link is up and the link goes down. -/
  | refclkLoss
  /-- STANDBY_STAGE_START (R616): The 48 V input reaches 36 V, the standby stage starts, the SB domain comes on and the hold-up charges. -/
  | standbyStageStart
  /-- STANDBY_STAGE_STOP (R607): The input falls below 28 V, the standby stage stops, the SB domain goes off and the module goes dark with its pins high-impedance. -/
  | standbyStageStop
  /-- SPARE_PHASE_SOFT_START_DONE (R520): A spare regulator phase finishes its soft start and carries its share of the plot's current. -/
  | sparePhaseSoftStartDone (plot : PlotId)
  /-- PLDM_SENSOR_REFRESH (R555): Once per 100 ms the numeric PLDM sensors are refreshed from the power and thermal controllers' monitors. -/
  | pldmSensorRefresh (vin iin pin ss : Nat)
  /-- MSIX_VECTOR_UNMASK (R597): The host unmasks an MSI-X vector and the module sends the message whose pending bit was set while the vector was masked. -/
  | msixVectorUnmask (fn : FnId) (vector : BitVec 8)
  deriving DecidableEq, Repr

end Sys2Proof
end

