-- ==== Sys2Proof/Decode.lean ====
section
/-!
DEFINITION. Decode.lean: the words of the opcode table.
-/
namespace Sys2Proof

/-- The command a word spells by the table's bits. The table gives no row any bits: the module's commands arrive as register
accesses, packets, entries and events, not as words of one encoding, so no word spells a command. -/
def decodeTableWord (_nbits _w : Nat) : Option Instr := none

end Sys2Proof
end

