-- ==== Sys2Proof/Config.lean ====
section
/-!
DEFINITION. Config.lean: the values the spec leaves open. Each is a constant without a body: no proof can see its value.
-/
namespace Sys2Proof

/-- A byte of core scratch whose contents are undefined (R72, Table 14-3): by core, by how often the contents have become
undefined, by scratch address. -/
opaque Config.scratchByte (core undef addr : Nat) : Byte

/-- Which of the FP32 values within the bound of Table 4-6 function `fn` (0 RCP to 6 ERF) gives for an argument to which the table
gives no exact value: R121 bounds the error and does not give the result. -/
opaque Config.fnValue (fn : Nat) (x : BitVec 32) : BitVec 32

/-- The values of a bank task's record that carries chaff (R233: "The values in that record are undefined") or whose rows were written
while the task ran (R285): by core, command number, bank and offset in the record. -/
opaque Config.recordByte (core seq bank i : Nat) : Byte

/-- A byte of a word that its code, or the device, could not correct: a read returns the bytes as the errors left them (R435 to R437); or of a
burst whose transfer failed its CRC four times (R437). By place, by how often data have become open so. -/
opaque Config.badByte (place n : Nat) : Byte

/-- A byte that a cancelled step wrote (R171: "Data the cancelled steps have written is undefined"): by place, by how often data have become
undefined so. -/
opaque Config.undefByte (place n : Nat) : Byte

/-- The Headland lane of a packet, fixed by its source, its destination and its ordering class (R353). -/
opaque Config.hlLane (src dst cls : Nat) : Fin 64

/-- Flits the receive buffer of a class holds at the end of a Headland lane (R353). -/
opaque Config.hlBuffer (cls : Nat) : Nat

/-- A signature with the device identity key (R512), whose private half never leaves the die. -/
opaque Config.sign (bs : List Byte) : List Byte

/-- The identity certificate chain of slot 0 (R512). -/
opaque Config.certChain : List Byte

/-- Hjelex's public key in key slot 0 (R489): 97 bytes. -/
opaque Config.slot0Key : List Byte

/-- The SHA-384 of the module's FACTORY record (Table 15-11). -/
opaque Config.factoryDigest : List Byte

/-- The module's serial number, manufacture date, MAC address and UUID (R550, Table 17-3). -/
opaque Config.serial : List Byte
/-- Manufacture date, PLDM timestamp104. -/
opaque Config.madeOn : List Byte
/-- MAC address of the management Ethernet port. -/
opaque Config.mac : List Byte
/-- MCTP endpoint UUID. -/
opaque Config.uuid : List Byte

/-! What a bring-up step finds in the hardware when it is started by a register write that names no finding: by module time. -/

/-- STEP_SEED: flash devices that answer, those that differ from their mirror, slot A, slot B, the recovery image. -/
opaque Config.flashReads (time : Nat) : BitVec 2 × BitVec 2 × SlotRead × SlotRead × SlotRead
/-- STEP_REPAIR: offset of the first record that fails its check. -/
opaque Config.repairBad (time : Nat) : Option Nat
/-- STEP_POWER: a rail that did not rise, failed Headland lanes, a Headland link without repair. -/
opaque Config.powerUp (time : Nat) : Option (Nat × Nat) × List (Nat × Bool × Nat) × Option (Nat × Bool)
/-- STEP_VAULT: a seedstore device and a vault that fail. -/
opaque Config.vaultUp (time : Nat) : Option Nat × Option Nat
/-- STEP_FIELD: cores that stay slow. -/
opaque Config.slowCores (time : Nat) : List CoreId
/-- STEP_READY: every active unit is there. -/
opaque Config.unitsPresent (time : Nat) : Bool

end Sys2Proof
end

