-- ==== Sys2Proof/Machine/Regs.lean ====
section
/-!
DEFINITION. Regs.lean: the register map of the module (Table 18-8 and the tables of every chapter).
A register is a list of fields; State keeps one value for each field of each register copy, so the reserved
bits of a register hold nothing (R9: they read as zero and ignore writes).
-/
namespace Sys2Proof.Machine

/-- Access codes of Table 0-4 (R8). -/
inductive Acc where
  | ro | rw | wo | w1c | rws
  deriving DecidableEq, Repr

/-- A field of a register: its number in this map, the place of its bits, its access code, its reset value,
and whether a warm reset keeps it (R8 for RWS, R458 for the module counters, R557 for ALERT_STATUS and ALERT_MASK). -/
structure Fld where
  id : Nat
  lo : Nat
  width : Nat
  acc : Acc
  reset : Nat
  kept : Bool
  deriving DecidableEq, Repr

/-- A register, with its copies: offset of the first copy in the register region (R15, Table 18-8), number of
copies, distance between copies, width in bits, fields. -/
structure RegDef where
  base : Nat
  count : Nat
  stride : Nat
  width : Nat
  fields : List Fld
  deriving DecidableEq, Repr

/-! R585: hifStatus, at 0x0, 32 bits. -/
def F.hifStatus_READY : Fld := ⟨0, 31, 1, .ro, 0, false⟩
def F.hifStatus_DEVICE_FAULT : Fld := ⟨1, 30, 1, .ro, 0, false⟩
def F.hifStatus_UNREADY : Fld := ⟨2, 29, 1, .ro, 0, false⟩
def F.hifStatus_S2 : Fld := ⟨3, 28, 1, .ro, 0, false⟩
def F.hifStatus_SPEED : Fld := ⟨4, 24, 4, .ro, 0, false⟩
def F.hifStatus_FLIT : Fld := ⟨5, 23, 1, .ro, 0, false⟩
def F.hifStatus_CXL : Fld := ⟨6, 22, 1, .ro, 0, false⟩
def F.hifStatus_WIDTH_ERR : Fld := ⟨7, 21, 1, .ro, 0, false⟩
def F.hifStatus_PARTS : Fld := ⟨8, 0, 6, .ro, 0, false⟩
def R.hifStatus : RegDef := ⟨0, 1, 0, 32, [F.hifStatus_READY, F.hifStatus_DEVICE_FAULT, F.hifStatus_UNREADY, F.hifStatus_S2, F.hifStatus_SPEED, F.hifStatus_FLIT, F.hifStatus_CXL, F.hifStatus_WIDTH_ERR, F.hifStatus_PARTS]⟩
/-! R2: hifId, at 0x4, 32 bits. -/
def F.hifId_SS_GIB : Fld := ⟨9, 8, 8, .ro, 128, false⟩
def F.hifId_PART_CODE : Fld := ⟨10, 0, 8, .ro, 2, false⟩
def R.hifId : RegDef := ⟨4, 1, 0, 32, [F.hifId_SS_GIB, F.hifId_PART_CODE]⟩
/-! R591: hostErrLog, at 0x8, 64 bits. -/
def F.hostErrLog_VALID : Fld := ⟨11, 63, 1, .w1c, 0, false⟩
def F.hostErrLog_KIND : Fld := ⟨12, 56, 4, .ro, 0, false⟩
def F.hostErrLog_FN : Fld := ⟨13, 48, 6, .ro, 0, false⟩
def F.hostErrLog_ADDR : Fld := ⟨14, 0, 40, .ro, 0, false⟩
def R.hostErrLog : RegDef := ⟨8, 1, 0, 64, [F.hostErrLog_VALID, F.hostErrLog_KIND, F.hostErrLog_FN, F.hostErrLog_ADDR]⟩
/-! R591: hostErrCnt, at 0x10, 64 bits. -/
def F.hostErrCnt_COUNT : Fld := ⟨15, 0, 64, .ro, 0, true⟩
def R.hostErrCnt : RegDef := ⟨16, 1, 0, 64, [F.hostErrCnt_COUNT]⟩
/-! R594: partCmd, at 0x100, 32 bits. -/
def F.partCmd_OP : Fld := ⟨16, 30, 2, .wo, 0, false⟩
def F.partCmd_INDEX : Fld := ⟨17, 0, 5, .wo, 0, false⟩
def R.partCmd : RegDef := ⟨256, 1, 0, 32, [F.partCmd_OP, F.partCmd_INDEX]⟩
/-! R594: partStatus, at 0x104, 32 bits. -/
def F.partStatus_BUSY : Fld := ⟨18, 31, 1, .ro, 0, false⟩
def F.partStatus_LOST : Fld := ⟨19, 30, 1, .w1c, 0, false⟩
def F.partStatus_RESULT : Fld := ⟨20, 0, 4, .ro, 15, false⟩
def R.partStatus : RegDef := ⟨260, 1, 0, 32, [F.partStatus_BUSY, F.partStatus_LOST, F.partStatus_RESULT]⟩
/-! R594: partStage0, at 0x110, 64 bits. -/
def F.partStage0_LAYOUT_SEL : Fld := ⟨21, 62, 2, .rw, 0, false⟩
def F.partStage0_OWNER_FN : Fld := ⟨22, 48, 8, .rw, 0, false⟩
def F.partStage0_CORE_COUNT : Fld := ⟨23, 32, 16, .rw, 0, false⟩
def F.partStage0_FIRST_CORE : Fld := ⟨24, 0, 15, .rw, 0, false⟩
def R.partStage0 : RegDef := ⟨272, 1, 0, 64, [F.partStage0_LAYOUT_SEL, F.partStage0_OWNER_FN, F.partStage0_CORE_COUNT, F.partStage0_FIRST_CORE]⟩
/-! R594: partStage1, at 0x118, 64 bits. -/
def F.partStage1_PASID_EN : Fld := ⟨25, 63, 1, .rw, 0, false⟩
def F.partStage1_QUOTA : Fld := ⟨26, 20, 22, .rw, 0, false⟩
def F.partStage1_PASID : Fld := ⟨27, 0, 20, .rw, 0, false⟩
def R.partStage1 : RegDef := ⟨280, 1, 0, 64, [F.partStage1_PASID_EN, F.partStage1_QUOTA, F.partStage1_PASID]⟩
/-! R594: partInfo0, at 0x200 + i × 0x10, i < 32, 64 bits. -/
def F.partInfo0_INFO : Fld := ⟨28, 0, 64, .ro, 0, false⟩
def R.partInfo0 : RegDef := ⟨512, 32, 16, 64, [F.partInfo0_INFO]⟩
/-! R594: partInfo1, at 0x208 + i × 0x10, i < 32, 64 bits. -/
def F.partInfo1_INFO : Fld := ⟨29, 0, 64, .ro, 0, false⟩
def R.partInfo1 : RegDef := ⟨520, 32, 16, 64, [F.partInfo1_INFO]⟩
/-! R596: allocCmd, at 0x1000 + i × 0x40, i < 32, 32 bits. -/
def F.allocCmd_OP : Fld := ⟨30, 30, 2, .wo, 0, false⟩
def R.allocCmd : RegDef := ⟨4096, 32, 64, 32, [F.allocCmd_OP]⟩
/-! R596: allocStatus, at 0x1004 + i × 0x40, i < 32, 32 bits. -/
def F.allocStatus_BUSY : Fld := ⟨31, 31, 1, .ro, 0, false⟩
def F.allocStatus_LOST : Fld := ⟨32, 30, 1, .w1c, 0, false⟩
def F.allocStatus_RESULT : Fld := ⟨33, 0, 4, .ro, 15, false⟩
def R.allocStatus : RegDef := ⟨4100, 32, 64, 32, [F.allocStatus_BUSY, F.allocStatus_LOST, F.allocStatus_RESULT]⟩
/-! R595: allocHandle, at 0x1008 + i × 0x40, i < 32, 32 bits. -/
def F.allocHandle_GEN : Fld := ⟨34, 16, 16, .rw, 0, false⟩
def F.allocHandle_SLOT : Fld := ⟨35, 0, 16, .rw, 0, false⟩
def R.allocHandle : RegDef := ⟨4104, 32, 64, 32, [F.allocHandle_GEN, F.allocHandle_SLOT]⟩
/-! R596: allocBase, at 0x1010 + i × 0x40, i < 32, 64 bits. -/
def F.allocBase_BASE : Fld := ⟨36, 0, 56, .rw, 0, false⟩
def R.allocBase : RegDef := ⟨4112, 32, 64, 64, [F.allocBase_BASE]⟩
/-! R596: allocLen, at 0x1018 + i × 0x40, i < 32, 64 bits. -/
def F.allocLen_KIND : Fld := ⟨37, 62, 2, .rw, 0, false⟩
def F.allocLen_WRITE : Fld := ⟨38, 61, 1, .rw, 0, false⟩
def F.allocLen_LENGTH : Fld := ⟨39, 0, 40, .rw, 0, false⟩
def R.allocLen : RegDef := ⟨4120, 32, 64, 64, [F.allocLen_KIND, F.allocLen_WRITE, F.allocLen_LENGTH]⟩
/-! R592: hifFnStatus, at 0x4000 + i × 0x4, i < 33, 32 bits. -/
def F.hifFnStatus_READY : Fld := ⟨40, 31, 1, .ro, 0, false⟩
def F.hifFnStatus_UNREADY : Fld := ⟨41, 30, 1, .ro, 0, false⟩
def F.hifFnStatus_FAILSAFE : Fld := ⟨42, 29, 1, .ro, 0, false⟩
def F.hifFnStatus_S2 : Fld := ⟨43, 28, 1, .ro, 0, false⟩
def F.hifFnStatus_BOUND : Fld := ⟨44, 7, 1, .ro, 0, false⟩
def F.hifFnStatus_PART : Fld := ⟨45, 0, 5, .ro, 0, false⟩
def R.hifFnStatus : RegDef := ⟨16384, 33, 4, 32, [F.hifFnStatus_READY, F.hifFnStatus_UNREADY, F.hifFnStatus_FAILSAFE, F.hifFnStatus_S2, F.hifFnStatus_BOUND, F.hifFnStatus_PART]⟩
/-! R39: stallCtl, at 0x10000, 32 bits. -/
def F.stallCtl_BOUND_ERR : Fld := ⟨46, 16, 1, .w1c, 0, false⟩
def F.stallCtl_BOUND_US : Fld := ⟨47, 0, 16, .rw, 50, false⟩
def R.stallCtl : RegDef := ⟨65536, 1, 0, 32, [F.stallCtl_BOUND_ERR, F.stallCtl_BOUND_US]⟩
/-! R36: fieldRate, at 0x11000 + i × 0x8, i < 1152, 64 bits. -/
def F.fieldRate_VALID : Fld := ⟨48, 63, 1, .ro, 0, false⟩
def F.fieldRate_WINDOW_SEQ : Fld := ⟨49, 32, 16, .ro, 0, false⟩
def F.fieldRate_ACTUAL : Fld := ⟨50, 16, 16, .ro, 0, false⟩
def F.fieldRate_CAPABLE : Fld := ⟨51, 0, 16, .ro, 0, false⟩
def R.fieldRate : RegDef := ⟨69632, 1152, 8, 64, [F.fieldRate_VALID, F.fieldRate_WINDOW_SEQ, F.fieldRate_ACTUAL, F.fieldRate_CAPABLE]⟩
/-! R137: ringBase, at 0x20000 + i × 0x40, i < 128, 64 bits. -/
def F.ringBase_ADDR : Fld := ⟨52, 12, 52, .rw, 0, false⟩
def F.ringBase_LOC : Fld := ⟨53, 0, 1, .rw, 0, false⟩
def R.ringBase : RegDef := ⟨131072, 128, 64, 64, [F.ringBase_ADDR, F.ringBase_LOC]⟩
/-! R137: cplBase, at 0x20008 + i × 0x40, i < 128, 64 bits. -/
def F.cplBase_ADDR : Fld := ⟨54, 12, 52, .rw, 0, false⟩
def F.cplBase_LOC : Fld := ⟨55, 0, 1, .rw, 0, false⟩
def R.cplBase : RegDef := ⟨131080, 128, 64, 64, [F.cplBase_ADDR, F.cplBase_LOC]⟩
/-! R138: ringCfg, at 0x20010 + i × 0x40, i < 128, 32 bits. -/
def F.ringCfg_CPL_LOG2 : Fld := ⟨56, 24, 5, .rw, 6, false⟩
def F.ringCfg_RING_LOG2 : Fld := ⟨57, 16, 5, .rw, 6, false⟩
def F.ringCfg_VECTOR : Fld := ⟨58, 8, 8, .rw, 0, false⟩
def F.ringCfg_IRQ : Fld := ⟨59, 1, 1, .rw, 0, false⟩
def F.ringCfg_ENABLE : Fld := ⟨60, 0, 1, .rw, 0, false⟩
def R.ringCfg : RegDef := ⟨131088, 128, 64, 32, [F.ringCfg_CPL_LOG2, F.ringCfg_RING_LOG2, F.ringCfg_VECTOR, F.ringCfg_IRQ, F.ringCfg_ENABLE]⟩
/-! R139: ringDb, at 0x20014 + i × 0x40, i < 128, 32 bits. -/
def F.ringDb_TAIL : Fld := ⟨61, 0, 17, .wo, 0, false⟩
def R.ringDb : RegDef := ⟨131092, 128, 64, 32, [F.ringDb_TAIL]⟩
/-! R140: ringState, at 0x20018 + i × 0x40, i < 128, 64 bits. -/
def F.ringState_ERR_STEP : Fld := ⟨62, 32, 32, .ro, 0, false⟩
def F.ringState_ERR_CODE : Fld := ⟨63, 16, 16, .ro, 0, false⟩
def F.ringState_HALTED : Fld := ⟨64, 15, 1, .ro, 0, false⟩
def F.ringState_IDLE : Fld := ⟨65, 14, 1, .ro, 1, false⟩
def F.ringState_OPEN : Fld := ⟨66, 11, 3, .ro, 0, false⟩
def R.ringState : RegDef := ⟨131096, 128, 64, 64, [F.ringState_ERR_STEP, F.ringState_ERR_CODE, F.ringState_HALTED, F.ringState_IDLE, F.ringState_OPEN]⟩
/-! R140: ringHead, at 0x20020 + i × 0x40, i < 128, 32 bits. -/
def F.ringHead_HEAD : Fld := ⟨67, 0, 17, .ro, 0, false⟩
def R.ringHead : RegDef := ⟨131104, 128, 64, 32, [F.ringHead_HEAD]⟩
/-! R140: cplTail, at 0x20024 + i × 0x40, i < 128, 32 bits. -/
def F.cplTail_TAIL : Fld := ⟨68, 0, 17, .ro, 0, false⟩
def R.cplTail : RegDef := ⟨131108, 128, 64, 32, [F.cplTail_TAIL]⟩
/-! R140: cplHead, at 0x20028 + i × 0x40, i < 128, 32 bits. -/
def F.cplHead_HEAD : Fld := ⟨69, 0, 17, .rw, 0, false⟩
def R.cplHead : RegDef := ⟨131112, 128, 64, 32, [F.cplHead_HEAD]⟩
/-! R140: ringCtl, at 0x2002C + i × 0x40, i < 128, 32 bits. -/
def F.ringCtl_BASE_ERR : Fld := ⟨70, 3, 1, .w1c, 0, false⟩
def F.ringCtl_DB_ERR : Fld := ⟨71, 2, 1, .w1c, 0, false⟩
def F.ringCtl_RESET : Fld := ⟨72, 1, 1, .wo, 0, false⟩
def F.ringCtl_RESUME : Fld := ⟨73, 0, 1, .wo, 0, false⟩
def R.ringCtl : RegDef := ⟨131116, 128, 64, 32, [F.ringCtl_BASE_ERR, F.ringCtl_DB_ERR, F.ringCtl_RESET, F.ringCtl_RESUME]⟩
/-! R175: descTable, at 0x30000 + i × 0x100, i < 32, 64 bits. -/
def F.descTable_COUNT : Fld := ⟨74, 32, 16, .rw, 0, false⟩
def F.descTable_OFFSET : Fld := ⟨75, 12, 18, .rw, 0, false⟩
def R.descTable : RegDef := ⟨196608, 32, 256, 64, [F.descTable_COUNT, F.descTable_OFFSET]⟩
/-! R175: descDet, at 0x30008 + i × 0x100, i < 32, 64 bits. -/
def F.descDet_SIZE : Fld := ⟨76, 32, 18, .rw, 0, false⟩
def F.descDet_OFFSET : Fld := ⟨77, 12, 18, .rw, 0, false⟩
def R.descDet : RegDef := ⟨196616, 32, 256, 64, [F.descDet_SIZE, F.descDet_OFFSET]⟩
/-! R176: descCmd, at 0x30010 + i × 0x100, i < 32, 32 bits. -/
def F.descCmd_INDEX : Fld := ⟨78, 16, 16, .wo, 0, false⟩
def F.descCmd_OP : Fld := ⟨79, 0, 2, .wo, 0, false⟩
def R.descCmd : RegDef := ⟨196624, 32, 256, 32, [F.descCmd_INDEX, F.descCmd_OP]⟩
/-! R176: descStatus, at 0x30014 + i × 0x100, i < 32, 32 bits. -/
def F.descStatus_BUSY : Fld := ⟨80, 31, 1, .ro, 0, false⟩
def F.descStatus_LOST : Fld := ⟨81, 17, 1, .w1c, 0, false⟩
def F.descStatus_CODE : Fld := ⟨82, 0, 16, .ro, 0, false⟩
def R.descStatus : RegDef := ⟨196628, 32, 256, 32, [F.descStatus_BUSY, F.descStatus_LOST, F.descStatus_CODE]⟩
/-! R179: descLayout, at 0x30018 + i × 0x100, i < 32, 32 bits. -/
def F.descLayout_LAYOUT : Fld := ⟨83, 0, 1, .ro, 0, false⟩
def R.descLayout : RegDef := ⟨196632, 32, 256, 32, [F.descLayout_LAYOUT]⟩
/-! R321: strmCmd, at 0x40000 + i × 0x200, i < 32, 32 bits. -/
def F.strmCmd_OP : Fld := ⟨84, 29, 3, .wo, 0, false⟩
def F.strmCmd_ID : Fld := ⟨85, 0, 21, .wo, 0, false⟩
def R.strmCmd : RegDef := ⟨262144, 32, 512, 32, [F.strmCmd_OP, F.strmCmd_ID]⟩
/-! R321: strmStatus, at 0x40004 + i × 0x200, i < 32, 32 bits. -/
def F.strmStatus_BUSY : Fld := ⟨86, 31, 1, .ro, 0, false⟩
def F.strmStatus_LOST : Fld := ⟨87, 17, 1, .w1c, 0, false⟩
def F.strmStatus_RESULT : Fld := ⟨88, 0, 4, .ro, 0, false⟩
def R.strmStatus : RegDef := ⟨262148, 32, 512, 32, [F.strmStatus_BUSY, F.strmStatus_LOST, F.strmStatus_RESULT]⟩
/-! R318: strmUse, at 0x40008 + i × 0x200, i < 32, 64 bits. -/
def F.strmUse_QUOTA : Fld := ⟨89, 32, 22, .ro, 0, false⟩
def F.strmUse_OWNED : Fld := ⟨90, 0, 22, .ro, 0, false⟩
def R.strmUse : RegDef := ⟨262152, 32, 512, 64, [F.strmUse_QUOTA, F.strmUse_OWNED]⟩
/-! R334: mdlCmd, at 0x40010 + i × 0x200, i < 32, 32 bits. -/
def F.mdlCmd_OP : Fld := ⟨91, 29, 3, .wo, 0, false⟩
def F.mdlCmd_INDEX : Fld := ⟨92, 0, 12, .wo, 0, false⟩
def R.mdlCmd : RegDef := ⟨262160, 32, 512, 32, [F.mdlCmd_OP, F.mdlCmd_INDEX]⟩
/-! R334: mdlStatus, at 0x40014 + i × 0x200, i < 32, 32 bits. -/
def F.mdlStatus_BUSY : Fld := ⟨93, 31, 1, .ro, 0, false⟩
def F.mdlStatus_LOST : Fld := ⟨94, 17, 1, .w1c, 0, false⟩
def F.mdlStatus_RESULT : Fld := ⟨95, 0, 4, .ro, 0, false⟩
def R.mdlStatus : RegDef := ⟨262164, 32, 512, 32, [F.mdlStatus_BUSY, F.mdlStatus_LOST, F.mdlStatus_RESULT]⟩
/-! R334: mdlUse, at 0x40018 + i × 0x200, i < 32, 64 bits. -/
def F.mdlUse_STATE : Fld := ⟨96, 32, 8, .ro, 0, false⟩
def F.mdlUse_STREAMS : Fld := ⟨97, 0, 22, .ro, 0, false⟩
def R.mdlUse : RegDef := ⟨262168, 32, 512, 64, [F.mdlUse_STATE, F.mdlUse_STREAMS]⟩
/-! R342: rshCmd, at 0x40020 + i × 0x200, i < 32, 32 bits. -/
def F.rshCmd_OP : Fld := ⟨98, 30, 2, .wo, 0, false⟩
def R.rshCmd : RegDef := ⟨262176, 32, 512, 32, [F.rshCmd_OP]⟩
/-! R343: rshStatus, at 0x40028 + i × 0x200, i < 32, 64 bits. -/
def F.rshStatus_DONE : Fld := ⟨99, 32, 13, .ro, 0, false⟩
def F.rshStatus_RUNNING : Fld := ⟨100, 31, 1, .ro, 0, false⟩
def F.rshStatus_ERR : Fld := ⟨101, 30, 1, .w1c, 0, false⟩
def F.rshStatus_CODE : Fld := ⟨102, 0, 8, .ro, 0, false⟩
def R.rshStatus : RegDef := ⟨262184, 32, 512, 64, [F.rshStatus_DONE, F.rshStatus_RUNNING, F.rshStatus_ERR, F.rshStatus_CODE]⟩
/-! R341: rshJob, at 0x40030 + i × 0x200, i < 32, 64 bits. -/
def F.rshJob_OFFSET : Fld := ⟨103, 6, 24, .rw, 0, false⟩
def R.rshJob : RegDef := ⟨262192, 32, 512, 64, [F.rshJob_OFFSET]⟩
/-! R220: hulPlotStat, at 0x50000 + i × 0x10, i < 4, 64 bits. -/
def F.hulPlotStat_CAP : Fld := ⟨104, 32, 16, .ro, 34375, false⟩
def F.hulPlotStat_ACTIVE : Fld := ⟨105, 16, 16, .ro, 0, false⟩
def F.hulPlotStat_BUDGET : Fld := ⟨106, 0, 16, .ro, 2200, false⟩
def R.hulPlotStat : RegDef := ⟨327680, 4, 16, 64, [F.hulPlotStat_CAP, F.hulPlotStat_ACTIVE, F.hulPlotStat_BUDGET]⟩
/-! R220: hulPlotLimit, at 0x50008 + i × 0x10, i < 4, 32 bits. -/
def F.hulPlotLimit_LIMIT : Fld := ⟨107, 0, 16, .rw, 2200, false⟩
def R.hulPlotLimit : RegDef := ⟨327688, 4, 16, 32, [F.hulPlotLimit_LIMIT]⟩
/-! R242: vaultBand, at 0x51000 + i × 0x1, i < 27648, 8 bits. -/
def F.vaultBand_DIODE_FAIL : Fld := ⟨108, 7, 1, .ro, 0, false⟩
def F.vaultBand_BAND : Fld := ⟨109, 0, 3, .ro, 0, false⟩
def R.vaultBand : RegDef := ⟨331776, 27648, 1, 8, [F.vaultBand_DIODE_FAIL, F.vaultBand_BAND]⟩
/-! R250: grnBinCfg, at 0x60000 + i × 0x8, i < 64, 32 bits. -/
def F.grnBinCfg_BUSY : Fld := ⟨110, 31, 1, .ro, 0, false⟩
def F.grnBinCfg_ERR : Fld := ⟨111, 30, 1, .w1c, 0, false⟩
def F.grnBinCfg_SLOT : Fld := ⟨112, 16, 6, .ro, 0, false⟩
def F.grnBinCfg_OWNER : Fld := ⟨113, 8, 5, .rw, 0, false⟩
def F.grnBinCfg_MODE : Fld := ⟨114, 0, 2, .rw, 0, false⟩
def R.grnBinCfg : RegDef := ⟨393216, 64, 8, 32, [F.grnBinCfg_BUSY, F.grnBinCfg_ERR, F.grnBinCfg_SLOT, F.grnBinCfg_OWNER, F.grnBinCfg_MODE]⟩
/-! R256: grnCacheStat, at 0x60200, 32 bits. -/
def F.grnCacheStat_FLUSH : Fld := ⟨115, 31, 1, .ro, 0, false⟩
def F.grnCacheStat_BINS : Fld := ⟨116, 0, 7, .ro, 16, false⟩
def R.grnCacheStat : RegDef := ⟨393728, 1, 0, 32, [F.grnCacheStat_FLUSH, F.grnCacheStat_BINS]⟩
/-! R266: cwin, at 0x60400 + i × 0x8, i < 1024, 64 bits. -/
def F.cwin_VALID : Fld := ⟨117, 63, 1, .rw, 0, false⟩
def F.cwin_ERR : Fld := ⟨118, 62, 1, .w1c, 0, false⟩
def F.cwin_SIZE : Fld := ⟨119, 30, 18, .rw, 0, false⟩
def F.cwin_OFFSET : Fld := ⟨120, 12, 18, .rw, 0, false⟩
def R.cwin : RegDef := ⟨394240, 1024, 8, 64, [F.cwin_VALID, F.cwin_ERR, F.cwin_SIZE, F.cwin_OFFSET]⟩
/-! R273: mdqHold, at 0x62400, 32 bits. -/
def F.mdqHold_HOLD_US : Fld := ⟨121, 0, 16, .rw, 1000, false⟩
def R.mdqHold : RegDef := ⟨402432, 1, 0, 32, [F.mdqHold_HOLD_US]⟩
/-! R273: mdqDepth, at 0x62408, 64 bits. -/
def F.mdqDepth_DEPTH : Fld := ⟨122, 0, 13, .ro, 0, false⟩
def R.mdqDepth : RegDef := ⟨402440, 1, 0, 64, [F.mdqDepth_DEPTH]⟩
/-! R273: mdqBounced, at 0x62410, 64 bits. -/
def F.mdqBounced_BOUNCED : Fld := ⟨123, 0, 64, .ro, 0, true⟩
def R.mdqBounced : RegDef := ⟨402448, 1, 0, 64, [F.mdqBounced_BOUNCED]⟩
/-! R273: mdqResent, at 0x62418, 64 bits. -/
def F.mdqResent_RESENT : Fld := ⟨124, 0, 64, .ro, 0, true⟩
def R.mdqResent : RegDef := ⟨402456, 1, 0, 64, [F.mdqResent_RESENT]⟩
/-! R273: mdqLogged, at 0x62420, 64 bits. -/
def F.mdqLogged_LOGGED : Fld := ⟨125, 0, 64, .ro, 0, true⟩
def R.mdqLogged : RegDef := ⟨402464, 1, 0, 64, [F.mdqLogged_LOGGED]⟩
/-! R273: cwinRefused, at 0x62428, 64 bits. -/
def F.cwinRefused_CWIN_REFUSED : Fld := ⟨126, 0, 64, .ro, 0, true⟩
def R.cwinRefused : RegDef := ⟨402472, 1, 0, 64, [F.cwinRefused_CWIN_REFUSED]⟩
/-! R392: oncSelf, at 0x70000, 32 bits. -/
def F.oncSelf_MODULE_ID : Fld := ⟨127, 0, 16, .ro, 0, false⟩
def R.oncSelf : RegDef := ⟨458752, 1, 0, 32, [F.oncSelf_MODULE_ID]⟩
/-! R392: routeCtl, at 0x70008, 32 bits. -/
def F.routeCtl_PENDING : Fld := ⟨128, 3, 1, .ro, 0, false⟩
def F.routeCtl_SW_ERR : Fld := ⟨129, 2, 1, .w1c, 0, false⟩
def F.routeCtl_SWITCH : Fld := ⟨130, 1, 1, .wo, 0, false⟩
def F.routeCtl_ACTIVE : Fld := ⟨131, 0, 1, .ro, 0, false⟩
def R.routeCtl : RegDef := ⟨458760, 1, 0, 32, [F.routeCtl_PENDING, F.routeCtl_SW_ERR, F.routeCtl_SWITCH, F.routeCtl_ACTIVE]⟩
/-! R392: routeIdx, at 0x7000C, 32 bits. -/
def F.routeIdx_SET : Fld := ⟨132, 16, 1, .rw, 0, false⟩
def F.routeIdx_DEST : Fld := ⟨133, 0, 16, .rw, 0, false⟩
def R.routeIdx : RegDef := ⟨458764, 1, 0, 32, [F.routeIdx_SET, F.routeIdx_DEST]⟩
/-! R384: routeData, at 0x70010, 32 bits. -/
def F.routeData_ENTRY : Fld := ⟨134, 0, 32, .rw, 0, false⟩
def R.routeData : RegDef := ⟨458768, 1, 0, 32, [F.routeData_ENTRY]⟩
/-! R392: oncTimeout, at 0x70018, 32 bits. -/
def F.oncTimeout_RSP_US : Fld := ⟨135, 0, 16, .rw, 1000, false⟩
def R.oncTimeout : RegDef := ⟨458776, 1, 0, 32, [F.oncTimeout_RSP_US]⟩
/-! R392: sweepCtl, at 0x70020, 32 bits. -/
def F.sweepCtl_START : Fld := ⟨136, 0, 1, .wo, 0, false⟩
def R.sweepCtl : RegDef := ⟨458784, 1, 0, 32, [F.sweepCtl_START]⟩
/-! R392: sweepStat, at 0x70024, 32 bits. -/
def F.sweepStat_RUNNING : Fld := ⟨137, 31, 1, .ro, 0, false⟩
def F.sweepStat_RESULT : Fld := ⟨138, 28, 3, .ro, 0, false⟩
def F.sweepStat_RESTARTS : Fld := ⟨139, 26, 2, .ro, 0, false⟩
def F.sweepStat_VISITED : Fld := ⟨140, 0, 17, .ro, 0, false⟩
def R.sweepStat : RegDef := ⟨458788, 1, 0, 32, [F.sweepStat_RUNNING, F.sweepStat_RESULT, F.sweepStat_RESTARTS, F.sweepStat_VISITED]⟩
/-! R392: sweepFirst, at 0x70028, 32 bits. -/
def F.sweepFirst_MODULE : Fld := ⟨141, 0, 16, .ro, 0, false⟩
def R.sweepFirst : RegDef := ⟨458792, 1, 0, 32, [F.sweepFirst_MODULE]⟩
/-! R392: hopDrop, at 0x70030, 64 bits. -/
def F.hopDrop_COUNT : Fld := ⟨142, 0, 64, .ro, 0, true⟩
def R.hopDrop : RegDef := ⟨458800, 1, 0, 64, [F.hopDrop_COUNT]⟩
/-! R392: lateRsp, at 0x70038, 64 bits. -/
def F.lateRsp_COUNT : Fld := ⟨143, 0, 64, .ro, 0, true⟩
def R.lateRsp : RegDef := ⟨458808, 1, 0, 64, [F.lateRsp_COUNT]⟩
/-! R356: hlStat, at 0x70100 + i × 0x8, i < 4, 32 bits. -/
def F.hlStat_SPARE_OUT : Fld := ⟨144, 28, 4, .ro, 0, false⟩
def F.hlStat_SPARE_IN : Fld := ⟨145, 24, 4, .ro, 0, false⟩
def F.hlStat_UNREPAIRED : Fld := ⟨146, 8, 1, .ro, 0, false⟩
def F.hlStat_RESENDS : Fld := ⟨147, 0, 8, .ro, 0, true⟩
def R.hlStat : RegDef := ⟨459008, 4, 8, 32, [F.hlStat_SPARE_OUT, F.hlStat_SPARE_IN, F.hlStat_UNREPAIRED, F.hlStat_RESENDS]⟩
/-! R393: portCtl, at 0x71000 + i × 0x40, i < 12, 32 bits. -/
def F.portCtl_FORCE_FI : Fld := ⟨148, 2, 1, .rw, 0, false⟩
def F.portCtl_RETRAIN : Fld := ⟨149, 1, 1, .wo, 0, false⟩
def F.portCtl_ENABLE : Fld := ⟨150, 0, 1, .rw, 0, false⟩
def R.portCtl : RegDef := ⟨462848, 12, 64, 32, [F.portCtl_FORCE_FI, F.portCtl_RETRAIN, F.portCtl_ENABLE]⟩
/-! R393: portStat, at 0x71004 + i × 0x40, i < 12, 32 bits. -/
def F.portStat_STATE : Fld := ⟨151, 29, 3, .ro, 0, false⟩
def F.portStat_TX_SUB : Fld := ⟨152, 25, 4, .ro, 15, false⟩
def F.portStat_RX_SUB : Fld := ⟨153, 21, 4, .ro, 15, false⟩
def F.portStat_FI_REASON : Fld := ⟨154, 17, 4, .ro, 0, false⟩
def F.portStat_MARGINAL : Fld := ⟨155, 2, 1, .w1c, 0, false⟩
def F.portStat_BROKE : Fld := ⟨156, 1, 1, .w1c, 0, false⟩
def F.portStat_TRAIN_FAIL : Fld := ⟨157, 0, 1, .w1c, 0, false⟩
def R.portStat : RegDef := ⟨462852, 12, 64, 32, [F.portStat_STATE, F.portStat_TX_SUB, F.portStat_RX_SUB, F.portStat_FI_REASON, F.portStat_MARGINAL, F.portStat_BROKE, F.portStat_TRAIN_FAIL]⟩
/-! R393: portNbr, at 0x71008 + i × 0x40, i < 12, 64 bits. -/
def F.portNbr_TOPO_ID : Fld := ⟨158, 32, 32, .ro, 0, false⟩
def F.portNbr_VALID : Fld := ⟨159, 31, 1, .ro, 0, false⟩
def F.portNbr_PORT : Fld := ⟨160, 16, 4, .ro, 0, false⟩
def F.portNbr_MODULE : Fld := ⟨161, 0, 16, .ro, 0, false⟩
def R.portNbr : RegDef := ⟨462856, 12, 64, 64, [F.portNbr_TOPO_ID, F.portNbr_VALID, F.portNbr_PORT, F.portNbr_MODULE]⟩
/-! R393: crcErr, at 0x71010 + i × 0x40, i < 12, 64 bits. -/
def F.crcErr_COUNT : Fld := ⟨162, 0, 64, .ro, 0, true⟩
def R.crcErr : RegDef := ⟨462864, 12, 64, 64, [F.crcErr_COUNT]⟩
/-! R393: retry, at 0x71018 + i × 0x40, i < 12, 64 bits. -/
def F.retry_COUNT : Fld := ⟨163, 0, 64, .ro, 0, true⟩
def R.retry : RegDef := ⟨462872, 12, 64, 64, [F.retry_COUNT]⟩
/-! R393: fecUncorr, at 0x71020 + i × 0x40, i < 12, 64 bits. -/
def F.fecUncorr_COUNT : Fld := ⟨164, 0, 64, .ro, 0, true⟩
def R.fecUncorr : RegDef := ⟨462880, 12, 64, 64, [F.fecUncorr_COUNT]⟩
/-! R393: fecCorr, at 0x71028 + i × 0x40, i < 12, 64 bits. -/
def F.fecCorr_COUNT : Fld := ⟨165, 0, 64, .ro, 0, true⟩
def R.fecCorr : RegDef := ⟨462888, 12, 64, 64, [F.fecCorr_COUNT]⟩
/-! R393: pktBad, at 0x71030 + i × 0x40, i < 12, 64 bits. -/
def F.pktBad_COUNT : Fld := ⟨166, 0, 64, .ro, 0, true⟩
def R.pktBad : RegDef := ⟨462896, 12, 64, 64, [F.pktBad_COUNT]⟩
/-! R432: intCtl, at 0x80000, 32 bits. -/
def F.intCtl_REPLAY_MAX : Fld := ⟨167, 0, 4, .rw, 4, false⟩
def R.intCtl : RegDef := ⟨524288, 1, 0, 32, [F.intCtl_REPLAY_MAX]⟩
/-! R432: intStatus, at 0x80004, 32 bits. -/
def F.intStatus_UNREADY : Fld := ⟨168, 31, 1, .ro, 0, false⟩
def F.intStatus_FAILSAFE : Fld := ⟨169, 30, 1, .ro, 0, false⟩
def F.intStatus_SPARES_FREE : Fld := ⟨170, 0, 11, .ro, 1152, false⟩
def R.intStatus : RegDef := ⟨524292, 1, 0, 32, [F.intStatus_UNREADY, F.intStatus_FAILSAFE, F.intStatus_SPARES_FREE]⟩
/-! R432: chaffRefused, at 0x80008, 64 bits. -/
def F.chaffRefused_COUNT : Fld := ⟨171, 0, 64, .ro, 0, true⟩
def R.chaffRefused : RegDef := ⟨524296, 1, 0, 64, [F.chaffRefused_COUNT]⟩
/-! R432: envTable, at 0x81000 + i × 0x80, i < 32, 64 bits. -/
def F.envTable_COUNT : Fld := ⟨172, 32, 16, .rw, 0, false⟩
def F.envTable_OFFSET : Fld := ⟨173, 5, 25, .rw, 0, false⟩
def R.envTable : RegDef := ⟨528384, 32, 128, 64, [F.envTable_COUNT, F.envTable_OFFSET]⟩
/-! R432: replays, at 0x81008 + i × 0x80, i < 32, 64 bits. -/
def F.replays_COUNT : Fld := ⟨174, 0, 64, .ro, 0, false⟩
def R.replays : RegDef := ⟨528392, 32, 128, 64, [F.replays_COUNT]⟩
/-! R432: envFail, at 0x81010 + i × 0x80, i < 32, 64 bits. -/
def F.envFail_COUNT : Fld := ⟨175, 0, 64, .ro, 0, false⟩
def R.envFail : RegDef := ⟨528400, 32, 128, 64, [F.envFail_COUNT]⟩
/-! R432: envStood, at 0x81018 + i × 0x80, i < 32, 64 bits. -/
def F.envStood_COUNT : Fld := ⟨176, 0, 64, .ro, 0, false⟩
def R.envStood : RegDef := ⟨528408, 32, 128, 64, [F.envStood_COUNT]⟩
/-! R432: envBad, at 0x81020 + i × 0x80, i < 32, 64 bits. -/
def F.envBad_COUNT : Fld := ⟨177, 0, 64, .ro, 0, false⟩
def R.envBad : RegDef := ⟨528416, 32, 128, 64, [F.envBad_COUNT]⟩
/-! R432: chaffSteps, at 0x81028 + i × 0x80, i < 32, 64 bits. -/
def F.chaffSteps_COUNT : Fld := ⟨178, 0, 64, .ro, 0, false⟩
def R.chaffSteps : RegDef := ⟨528424, 32, 128, 64, [F.chaffSteps_COUNT]⟩
/-! R432: terminated, at 0x81030 + i × 0x80, i < 32, 64 bits. -/
def F.terminated_COUNT : Fld := ⟨179, 0, 64, .ro, 0, false⟩
def R.terminated : RegDef := ⟨528432, 32, 128, 64, [F.terminated_COUNT]⟩
/-! R432: limits, at 0x81038 + i × 0x80, i < 32, 64 bits. -/
def F.limits_COUNT : Fld := ⟨180, 0, 64, .ro, 0, false⟩
def R.limits : RegDef := ⟨528440, 32, 128, 64, [F.limits_COUNT]⟩
/-! R444: harrowCtl, at 0x90000, 32 bits. -/
def F.harrowCtl_SS_PERIOD_D : Fld := ⟨181, 24, 4, .rw, 7, false⟩
def F.harrowCtl_GRN_PERIOD_H : Fld := ⟨182, 16, 8, .rw, 1, false⟩
def F.harrowCtl_VAULT_PERIOD_H : Fld := ⟨183, 8, 8, .rw, 24, false⟩
def F.harrowCtl_PAUSE : Fld := ⟨184, 0, 1, .rw, 0, false⟩
def R.harrowCtl : RegDef := ⟨589824, 1, 0, 32, [F.harrowCtl_SS_PERIOD_D, F.harrowCtl_GRN_PERIOD_H, F.harrowCtl_VAULT_PERIOD_H, F.harrowCtl_PAUSE]⟩
/-! R444: harrowStat, at 0x90004, 32 bits. -/
def F.harrowStat_BEHIND : Fld := ⟨185, 31, 1, .w1c, 0, false⟩
def F.harrowStat_PASSES : Fld := ⟨186, 0, 16, .ro, 0, false⟩
def R.harrowStat : RegDef := ⟨589828, 1, 0, 32, [F.harrowStat_BEHIND, F.harrowStat_PASSES]⟩
/-! R450: retCmd, at 0x90008, 32 bits. -/
def F.retCmd_SCOPE : Fld := ⟨187, 30, 2, .wo, 0, false⟩
def F.retCmd_ROW : Fld := ⟨188, 21, 7, .wo, 0, false⟩
def F.retCmd_BANK : Fld := ⟨189, 16, 5, .wo, 0, false⟩
def F.retCmd_TARGET : Fld := ⟨190, 0, 16, .wo, 0, false⟩
def R.retCmd : RegDef := ⟨589832, 1, 0, 32, [F.retCmd_SCOPE, F.retCmd_ROW, F.retCmd_BANK, F.retCmd_TARGET]⟩
/-! R450: retStatus, at 0x9000C, 32 bits. -/
def F.retStatus_BUSY : Fld := ⟨191, 31, 1, .ro, 0, false⟩
def F.retStatus_LOST : Fld := ⟨192, 30, 1, .w1c, 0, false⟩
def F.retStatus_ROWS_LEFT : Fld := ⟨193, 16, 4, .ro, 0, false⟩
def F.retStatus_SLICE_FREE : Fld := ⟨194, 15, 1, .ro, 0, false⟩
def F.retStatus_RESULT : Fld := ⟨195, 0, 4, .ro, 15, false⟩
def R.retStatus : RegDef := ⟨589836, 1, 0, 32, [F.retStatus_BUSY, F.retStatus_LOST, F.retStatus_ROWS_LEFT, F.retStatus_SLICE_FREE, F.retStatus_RESULT]⟩
/-! R444: logClr, at 0x90010, 32 bits. -/
def F.logClr_GRN : Fld := ⟨196, 31, 1, .wo, 0, false⟩
def F.logClr_PLOT : Fld := ⟨197, 5, 2, .wo, 0, false⟩
def F.logClr_INDEX : Fld := ⟨198, 0, 5, .wo, 0, false⟩
def R.logClr : RegDef := ⟨589840, 1, 0, 32, [F.logClr_GRN, F.logClr_PLOT, F.logClr_INDEX]⟩
/-! R444: vcorr, at 0x90100 + i × 0x10, i < 4, 64 bits. -/
def F.vcorr_COUNT : Fld := ⟨199, 0, 64, .ro, 0, true⟩
def R.vcorr : RegDef := ⟨590080, 4, 16, 64, [F.vcorr_COUNT]⟩
/-! R444: vuncorr, at 0x90108 + i × 0x10, i < 4, 64 bits. -/
def F.vuncorr_COUNT : Fld := ⟨200, 0, 64, .ro, 0, true⟩
def R.vuncorr : RegDef := ⟨590088, 4, 16, 64, [F.vuncorr_COUNT]⟩
/-! R444: gcorr, at 0x90140, 64 bits. -/
def F.gcorr_COUNT : Fld := ⟨201, 0, 64, .ro, 0, true⟩
def R.gcorr : RegDef := ⟨590144, 1, 0, 64, [F.gcorr_COUNT]⟩
/-! R444: guncorr, at 0x90148, 64 bits. -/
def F.guncorr_COUNT : Fld := ⟨202, 0, 64, .ro, 0, true⟩
def R.guncorr : RegDef := ⟨590152, 1, 0, 64, [F.guncorr_COUNT]⟩
/-! R444: ssCorr, at 0x90150, 64 bits. -/
def F.ssCorr_COUNT : Fld := ⟨203, 0, 64, .ro, 0, true⟩
def R.ssCorr : RegDef := ⟨590160, 1, 0, 64, [F.ssCorr_COUNT]⟩
/-! R444: ssUncorr, at 0x90158, 64 bits. -/
def F.ssUncorr_COUNT : Fld := ⟨204, 0, 64, .ro, 0, true⟩
def R.ssUncorr : RegDef := ⟨590168, 1, 0, 64, [F.ssUncorr_COUNT]⟩
/-! R444: ssCrcRetry, at 0x90160, 64 bits. -/
def F.ssCrcRetry_COUNT : Fld := ⟨205, 0, 64, .ro, 0, true⟩
def R.ssCrcRetry : RegDef := ⟨590176, 1, 0, 64, [F.ssCrcRetry_COUNT]⟩
/-! R444: logOvf, at 0x90168, 64 bits. -/
def F.logOvf_COUNT : Fld := ⟨206, 0, 64, .ro, 0, true⟩
def R.logOvf : RegDef := ⟨590184, 1, 0, 64, [F.logOvf_COUNT]⟩
/-! R443: vlogLo, at 0x91000 + i × 0x10, i < 128, 64 bits. -/
def F.vlogLo_VALID : Fld := ⟨207, 63, 1, .ro, 0, false⟩
def F.vlogLo_KIND : Fld := ⟨208, 61, 2, .ro, 0, false⟩
def F.vlogLo_PERM : Fld := ⟨209, 60, 1, .ro, 0, false⟩
def F.vlogLo_REWRITTEN : Fld := ⟨210, 59, 1, .ro, 0, false⟩
def F.vlogLo_CORE : Fld := ⟨211, 40, 16, .ro, 0, false⟩
def F.vlogLo_WORD : Fld := ⟨212, 22, 18, .ro, 0, false⟩
def F.vlogLo_SYMBOL : Fld := ⟨213, 16, 6, .ro, 0, false⟩
def F.vlogLo_COUNT : Fld := ⟨214, 0, 8, .ro, 0, false⟩
def R.vlogLo : RegDef := ⟨593920, 128, 16, 64, [F.vlogLo_VALID, F.vlogLo_KIND, F.vlogLo_PERM, F.vlogLo_REWRITTEN, F.vlogLo_CORE, F.vlogLo_WORD, F.vlogLo_SYMBOL, F.vlogLo_COUNT]⟩
/-! R443: vlogHi, at 0x91008 + i × 0x10, i < 128, 64 bits. -/
def F.vlogHi_LAST_S : Fld := ⟨215, 32, 32, .ro, 0, false⟩
def F.vlogHi_FIRST_S : Fld := ⟨216, 0, 32, .ro, 0, false⟩
def R.vlogHi : RegDef := ⟨593928, 128, 16, 64, [F.vlogHi_LAST_S, F.vlogHi_FIRST_S]⟩
/-! R443: glogLo, at 0x91800 + i × 0x10, i < 16, 64 bits. -/
def F.glogLo_VALID : Fld := ⟨217, 63, 1, .ro, 0, false⟩
def F.glogLo_KIND : Fld := ⟨218, 61, 2, .ro, 0, false⟩
def F.glogLo_PERM : Fld := ⟨219, 60, 1, .ro, 0, false⟩
def F.glogLo_REWRITTEN : Fld := ⟨220, 59, 1, .ro, 0, false⟩
def F.glogLo_BIN : Fld := ⟨221, 50, 6, .ro, 0, false⟩
def F.glogLo_WORD : Fld := ⟨222, 29, 21, .ro, 0, false⟩
def F.glogLo_BIT : Fld := ⟨223, 22, 7, .ro, 0, false⟩
def F.glogLo_COUNT : Fld := ⟨224, 0, 8, .ro, 0, false⟩
def R.glogLo : RegDef := ⟨595968, 16, 16, 64, [F.glogLo_VALID, F.glogLo_KIND, F.glogLo_PERM, F.glogLo_REWRITTEN, F.glogLo_BIN, F.glogLo_WORD, F.glogLo_BIT, F.glogLo_COUNT]⟩
/-! R443: glogHi, at 0x91808 + i × 0x10, i < 16, 64 bits. -/
def F.glogHi_LAST_S : Fld := ⟨225, 32, 32, .ro, 0, false⟩
def F.glogHi_FIRST_S : Fld := ⟨226, 0, 32, .ro, 0, false⟩
def R.glogHi : RegDef := ⟨595976, 16, 16, 64, [F.glogHi_LAST_S, F.glogHi_FIRST_S]⟩
/-! R460: bringCtl, at 0xA0000, 32 bits. -/
def F.bringCtl_STEP : Fld := ⟨227, 0, 4, .wo, 0, false⟩
def R.bringCtl : RegDef := ⟨655360, 1, 0, 32, [F.bringCtl_STEP]⟩
/-! R460: bringStatus, at 0xA0004, 32 bits. -/
def F.bringStatus_STATE : Fld := ⟨228, 29, 3, .ro, 0, false⟩
def F.bringStatus_ORDER : Fld := ⟨229, 28, 1, .w1c, 0, false⟩
def F.bringStatus_CODE : Fld := ⟨230, 16, 8, .ro, 0, false⟩
def F.bringStatus_ATTEMPTS : Fld := ⟨231, 8, 7, .ro, 0, false⟩
def F.bringStatus_STEP : Fld := ⟨232, 0, 4, .ro, 1, false⟩
def R.bringStatus : RegDef := ⟨655364, 1, 0, 32, [F.bringStatus_STATE, F.bringStatus_ORDER, F.bringStatus_CODE, F.bringStatus_ATTEMPTS, F.bringStatus_STEP]⟩
/-! R478: bringDetail, at 0xA0008, 64 bits. -/
def F.bringDetail_DETAIL : Fld := ⟨233, 0, 64, .ro, 0, false⟩
def R.bringDetail : RegDef := ⟨655368, 1, 0, 64, [F.bringDetail_DETAIL]⟩
/-! R464: optselStat, at 0xA0010, 32 bits. -/
def F.optselStat_VALID : Fld := ⟨234, 31, 1, .ro, 0, false⟩
def F.optselStat_COUNT : Fld := ⟨235, 16, 6, .ro, 0, false⟩
def F.optselStat_CODE : Fld := ⟨236, 12, 4, .ro, 0, false⟩
def F.optselStat_POLICY : Fld := ⟨237, 10, 2, .ro, 0, false⟩
def F.optselStat_OFFSET : Fld := ⟨238, 8, 2, .ro, 0, false⟩
def F.optselStat_SLOT : Fld := ⟨239, 6, 2, .ro, 3, false⟩
def R.optselStat : RegDef := ⟨655376, 1, 0, 32, [F.optselStat_VALID, F.optselStat_COUNT, F.optselStat_CODE, F.optselStat_POLICY, F.optselStat_OFFSET, F.optselStat_SLOT]⟩
/-! R457: rstCause, at 0xA0014, 32 bits. -/
def F.rstCause_WARM_COUNT : Fld := ⟨240, 16, 16, .rws, 0, true⟩
def F.rstCause_GLITCHES : Fld := ⟨241, 8, 8, .ro, 0, false⟩
def F.rstCause_CAUSE : Fld := ⟨242, 0, 7, .ro, 0, false⟩
def R.rstCause : RegDef := ⟨655380, 1, 0, 32, [F.rstCause_WARM_COUNT, F.rstCause_GLITCHES, F.rstCause_CAUSE]⟩
/-! R456: rstCtl, at 0xA0018, 32 bits. -/
def F.rstCtl_KEY : Fld := ⟨243, 16, 16, .wo, 0, false⟩
def F.rstCtl_COLD : Fld := ⟨244, 1, 1, .wo, 0, false⟩
def F.rstCtl_WARM : Fld := ⟨245, 0, 1, .wo, 0, false⟩
def R.rstCtl : RegDef := ⟨655384, 1, 0, 32, [F.rstCtl_KEY, F.rstCtl_COLD, F.rstCtl_WARM]⟩
/-! R479: blkIdle, at 0xA001C, 32 bits. -/
def F.blkIdle_IDLE_US : Fld := ⟨246, 0, 16, .rw, 100, false⟩
def R.blkIdle : RegDef := ⟨655388, 1, 0, 32, [F.blkIdle_IDLE_US]⟩
/-! R479: blkRst, at 0xA0020, 32 bits. -/
def F.blkRst_KIND : Fld := ⟨247, 24, 8, .wo, 0, false⟩
def F.blkRst_TARGET : Fld := ⟨248, 0, 24, .wo, 0, false⟩
def R.blkRst : RegDef := ⟨655392, 1, 0, 32, [F.blkRst_KIND, F.blkRst_TARGET]⟩
/-! R479: blkStatus, at 0xA0024, 32 bits. -/
def F.blkStatus_BUSY : Fld := ⟨249, 31, 1, .ro, 0, false⟩
def F.blkStatus_LOST : Fld := ⟨250, 30, 1, .w1c, 0, false⟩
def F.blkStatus_RESULT : Fld := ⟨251, 0, 4, .ro, 15, false⟩
def R.blkStatus : RegDef := ⟨655396, 1, 0, 32, [F.blkStatus_BUSY, F.blkStatus_LOST, F.blkStatus_RESULT]⟩
/-! R462: stepTime, at 0xA0028, 32 bits. -/
def F.stepTime_ELAPSED_US : Fld := ⟨252, 0, 32, .ro, 0, false⟩
def R.stepTime : RegDef := ⟨655400, 1, 0, 32, [F.stepTime_ELAPSED_US]⟩
/-! R510: seedStat, at 0xB0000, 32 bits. -/
def F.seedStat_BOOTED : Fld := ⟨253, 30, 2, .ro, 3, false⟩
def F.seedStat_ACTIVE : Fld := ⟨254, 28, 2, .ro, 3, false⟩
def F.seedStat_TRIAL : Fld := ⟨255, 26, 2, .ro, 3, false⟩
def F.seedStat_TRIALS : Fld := ⟨256, 24, 2, .ro, 0, false⟩
def F.seedStat_STATE_A : Fld := ⟨257, 21, 3, .ro, 0, false⟩
def F.seedStat_STATE_B : Fld := ⟨258, 18, 3, .ro, 0, false⟩
def F.seedStat_CONFIRMABLE : Fld := ⟨259, 17, 1, .ro, 0, false⟩
def F.seedStat_DEV0_FALLOW : Fld := ⟨260, 16, 1, .ro, 0, false⟩
def F.seedStat_DEV1_FALLOW : Fld := ⟨261, 15, 1, .ro, 0, false⟩
def F.seedStat_UPDATE : Fld := ⟨262, 0, 3, .ro, 0, false⟩
def R.seedStat : RegDef := ⟨720896, 1, 0, 32, [F.seedStat_BOOTED, F.seedStat_ACTIVE, F.seedStat_TRIAL, F.seedStat_TRIALS, F.seedStat_STATE_A, F.seedStat_STATE_B, F.seedStat_CONFIRMABLE, F.seedStat_DEV0_FALLOW, F.seedStat_DEV1_FALLOW, F.seedStat_UPDATE]⟩
/-! R499: seedCtl, at 0xB0004, 32 bits. -/
def F.seedCtl_KEY : Fld := ⟨263, 16, 16, .wo, 0, false⟩
def F.seedCtl_CONF_ERR : Fld := ⟨264, 1, 1, .w1c, 0, false⟩
def F.seedCtl_CONFIRM : Fld := ⟨265, 0, 1, .wo, 0, false⟩
def R.seedCtl : RegDef := ⟨720900, 1, 0, 32, [F.seedCtl_KEY, F.seedCtl_CONF_ERR, F.seedCtl_CONFIRM]⟩
/-! R510: seedVer, at 0xB0008, 64 bits. -/
def F.seedVer_SEC_VERSION : Fld := ⟨266, 32, 32, .ro, 0, false⟩
def F.seedVer_VERSION : Fld := ⟨267, 0, 32, .ro, 0, false⟩
def R.seedVer : RegDef := ⟨720904, 1, 0, 64, [F.seedVer_SEC_VERSION, F.seedVer_VERSION]⟩
/-! R510: almStat, at 0xB0010, 64 bits. -/
def F.almStat_QUEUED : Fld := ⟨268, 32, 16, .ro, 0, false⟩
def F.almStat_FREE_SEG : Fld := ⟨269, 0, 10, .ro, 0, false⟩
def R.almStat : RegDef := ⟨720912, 1, 0, 64, [F.almStat_QUEUED, F.almStat_FREE_SEG]⟩
/-! R510: almSeq, at 0xB0018, 64 bits. -/
def F.almSeq_SEQ : Fld := ⟨270, 0, 64, .ro, 0, false⟩
def R.almSeq : RegDef := ⟨720920, 1, 0, 64, [F.almSeq_SEQ]⟩
/-! R510: almDropped, at 0xB0020, 64 bits. -/
def F.almDropped_COUNT : Fld := ⟨271, 0, 64, .ro, 0, true⟩
def R.almDropped : RegDef := ⟨720928, 1, 0, 64, [F.almDropped_COUNT]⟩
/-! R510: almErases, at 0xB0028, 64 bits. -/
def F.almErases_MAX : Fld := ⟨272, 32, 32, .ro, 0, false⟩
def F.almErases_MIN : Fld := ⟨273, 0, 32, .ro, 0, false⟩
def R.almErases : RegDef := ⟨720936, 1, 0, 64, [F.almErases_MAX, F.almErases_MIN]⟩
/-! R546: plCtl, at 0xC0000, 32 bits. -/
def F.plCtl_CEIL : Fld := ⟨274, 8, 3, .ro, 0, false⟩
def F.plCtl_AUTO : Fld := ⟨275, 4, 1, .rw, 1, false⟩
def F.plCtl_REQ : Fld := ⟨276, 0, 3, .rw, 3, false⟩
def R.plCtl : RegDef := ⟨786432, 1, 0, 32, [F.plCtl_CEIL, F.plCtl_AUTO, F.plCtl_REQ]⟩
/-! R546: plStat, at 0xC0004, 32 bits. -/
def F.plStat_MOVING : Fld := ⟨277, 31, 1, .ro, 0, false⟩
def F.plStat_DUTY : Fld := ⟨278, 8, 8, .ro, 255, false⟩
def F.plStat_LEVEL : Fld := ⟨279, 0, 3, .ro, 3, false⟩
def R.plStat : RegDef := ⟨786436, 1, 0, 32, [F.plStat_MOVING, F.plStat_DUTY, F.plStat_LEVEL]⟩
/-! R546: pwrCap, at 0xC0008, 32 bits. -/
def F.pwrCap_TJ_LIMIT : Fld := ⟨280, 24, 8, .rw, 95, false⟩
def F.pwrCap_BOARD_CAP : Fld := ⟨281, 0, 16, .rw, 3600, false⟩
def R.pwrCap : RegDef := ⟨786440, 1, 0, 32, [F.pwrCap_TJ_LIMIT, F.pwrCap_BOARD_CAP]⟩
/-! R539: coolIn, at 0xC000C, 32 bits. -/
def F.coolIn_STALE : Fld := ⟨282, 31, 1, .ro, 1, false⟩
def F.coolIn_INLET : Fld := ⟨283, 0, 12, .rw, 0, false⟩
def R.coolIn : RegDef := ⟨786444, 1, 0, 32, [F.coolIn_STALE, F.coolIn_INLET]⟩
/-! R526: capStat, at 0xC0010, 64 bits. -/
def F.capStat_CAP_W : Fld := ⟨284, 48, 16, .ro, 0, false⟩
def F.capStat_AVG_W : Fld := ⟨285, 32, 16, .ro, 0, false⟩
def F.capStat_RTH : Fld := ⟨286, 16, 16, .ro, 15000, false⟩
def R.capStat : RegDef := ⟨786448, 1, 0, 64, [F.capStat_CAP_W, F.capStat_AVG_W, F.capStat_RTH]⟩
/-! R542: sleepCtl, at 0xC0018, 32 bits. -/
def F.sleepCtl_LOST : Fld := ⟨287, 31, 1, .w1c, 0, false⟩
def F.sleepCtl_WAIT_MS : Fld := ⟨288, 16, 8, .rw, 10, false⟩
def F.sleepCtl_TARGET : Fld := ⟨289, 0, 2, .wo, 0, false⟩
def R.sleepCtl : RegDef := ⟨786456, 1, 0, 32, [F.sleepCtl_LOST, F.sleepCtl_WAIT_MS, F.sleepCtl_TARGET]⟩
/-! R542: sleepStat, at 0xC001C, 32 bits. -/
def F.sleepStat_STATE : Fld := ⟨290, 30, 2, .ro, 0, false⟩
def F.sleepStat_ENTERING : Fld := ⟨291, 29, 1, .ro, 0, false⟩
def F.sleepStat_EXITING : Fld := ⟨292, 28, 1, .ro, 0, false⟩
def F.sleepStat_RESULT : Fld := ⟨293, 24, 4, .ro, 15, false⟩
def F.sleepStat_BLOCK : Fld := ⟨294, 16, 8, .ro, 0, false⟩
def R.sleepStat : RegDef := ⟨786460, 1, 0, 32, [F.sleepStat_STATE, F.sleepStat_ENTERING, F.sleepStat_EXITING, F.sleepStat_RESULT, F.sleepStat_BLOCK]⟩
/-! R533: hotStat, at 0xC0020, 32 bits. -/
def F.hotStat_CORE : Fld := ⟨295, 16, 15, .ro, 0, false⟩
def F.hotStat_TEMP : Fld := ⟨296, 0, 11, .ro, 0, false⟩
def R.hotStat : RegDef := ⟨786464, 1, 0, 32, [F.hotStat_CORE, F.hotStat_TEMP]⟩
/-! R528: plotPwr, at 0xC0100 + i × 0x10, i < 4, 64 bits. -/
def F.plotPwr_BUDGET : Fld := ⟨297, 48, 16, .ro, 0, false⟩
def F.plotPwr_POWER : Fld := ⟨298, 32, 16, .ro, 0, false⟩
def F.plotPwr_CURRENT : Fld := ⟨299, 16, 16, .ro, 0, false⟩
def F.plotPwr_VMIN : Fld := ⟨300, 0, 16, .ro, 0, false⟩
def R.plotPwr : RegDef := ⟨786688, 4, 16, 64, [F.plotPwr_BUDGET, F.plotPwr_POWER, F.plotPwr_CURRENT, F.plotPwr_VMIN]⟩
/-! R522: plotPhase, at 0xC0108 + i × 0x10, i < 4, 32 bits. -/
def F.plotPhase_CRACKS : Fld := ⟨301, 16, 8, .ro, 0, false⟩
def F.plotPhase_FALLOW : Fld := ⟨302, 8, 8, .ro, 0, false⟩
def F.plotPhase_SPARES_FREE : Fld := ⟨303, 0, 4, .ro, 8, false⟩
def R.plotPhase : RegDef := ⟨786696, 4, 16, 32, [F.plotPhase_CRACKS, F.plotPhase_FALLOW, F.plotPhase_SPARES_FREE]⟩
/-! R533: coreTemp, at 0xC1000 + i × 0x2, i < 27648, 16 bits. -/
def F.coreTemp_VALID : Fld := ⟨304, 15, 1, .ro, 0, false⟩
def F.coreTemp_SUBST : Fld := ⟨305, 14, 1, .ro, 0, false⟩
def F.coreTemp_THROTTLED : Fld := ⟨306, 13, 1, .ro, 0, false⟩
def F.coreTemp_TEMP : Fld := ⟨307, 0, 11, .ro, 0, false⟩
def R.coreTemp : RegDef := ⟨790528, 27648, 2, 16, [F.coreTemp_VALID, F.coreTemp_SUBST, F.coreTemp_THROTTLED, F.coreTemp_TEMP]⟩
/-! R566: timeNs, at 0x2000000, 32 bits. -/
def F.timeNs_NS : Fld := ⟨308, 0, 32, .ro, 0, false⟩
def R.timeNs : RegDef := ⟨33554432, 1, 0, 32, [F.timeNs_NS]⟩
/-! R566: timeS, at 0x2000008, 64 bits. -/
def F.timeS_S : Fld := ⟨309, 0, 48, .ro, 0, false⟩
def R.timeS : RegDef := ⟨33554440, 1, 0, 64, [F.timeS_S]⟩
/-! R563: timeStat, at 0x2000010, 32 bits. -/
def F.timeStat_UNDISC : Fld := ⟨310, 31, 1, .ro, 1, false⟩
def F.timeStat_STATE : Fld := ⟨311, 0, 3, .ro, 0, false⟩
def R.timeStat : RegDef := ⟨33554448, 1, 0, 32, [F.timeStat_UNDISC, F.timeStat_STATE]⟩
/-! R566: timeUnc, at 0x2000014, 32 bits. -/
def F.timeUnc_NS : Fld := ⟨312, 0, 32, .ro, 4294967295, false⟩
def R.timeUnc : RegDef := ⟨33554452, 1, 0, 32, [F.timeUnc_NS]⟩
/-! R563: ptpCfg, at 0x2000018, 32 bits. -/
def F.ptpCfg_ENABLE : Fld := ⟨313, 8, 1, .rw, 1, false⟩
def F.ptpCfg_DOMAIN : Fld := ⟨314, 0, 8, .rw, 0, false⟩
def R.ptpCfg : RegDef := ⟨33554456, 1, 0, 32, [F.ptpCfg_ENABLE, F.ptpCfg_DOMAIN]⟩
/-! R564: timeSetS, at 0x2000020, 64 bits. -/
def F.timeSetS_S : Fld := ⟨315, 0, 48, .rw, 0, false⟩
def R.timeSetS : RegDef := ⟨33554464, 1, 0, 64, [F.timeSetS_S]⟩
/-! R564: timeSetCtl, at 0x2000028, 32 bits. -/
def F.timeSetCtl_GO : Fld := ⟨316, 31, 1, .wo, 0, false⟩
def F.timeSetCtl_SET_ERR : Fld := ⟨317, 30, 1, .w1c, 0, false⟩
def F.timeSetCtl_NS : Fld := ⟨318, 0, 30, .rw, 0, false⟩
def R.timeSetCtl : RegDef := ⟨33554472, 1, 0, 32, [F.timeSetCtl_GO, F.timeSetCtl_SET_ERR, F.timeSetCtl_NS]⟩
/-! R571: gleanTS, at 0x2000040, 64 bits. -/
def F.gleanTS_S : Fld := ⟨319, 0, 48, .rw, 0, false⟩
def R.gleanTS : RegDef := ⟨33554496, 1, 0, 64, [F.gleanTS_S]⟩
/-! R571: gleanCtl, at 0x2000048, 32 bits. -/
def F.gleanCtl_GO : Fld := ⟨320, 31, 1, .wo, 0, false⟩
def F.gleanCtl_NS : Fld := ⟨321, 0, 30, .rw, 0, false⟩
def R.gleanCtl : RegDef := ⟨33554504, 1, 0, 32, [F.gleanCtl_GO, F.gleanCtl_NS]⟩
/-! R571: gleanStat, at 0x200004C, 32 bits. -/
def F.gleanStat_PENDING : Fld := ⟨322, 31, 1, .ro, 0, false⟩
def F.gleanStat_LOST : Fld := ⟨323, 30, 1, .w1c, 0, false⟩
def F.gleanStat_REFUSED : Fld := ⟨324, 29, 1, .w1c, 0, false⟩
def F.gleanStat_SEQ : Fld := ⟨325, 0, 16, .ro, 0, false⟩
def R.gleanStat : RegDef := ⟨33554508, 1, 0, 32, [F.gleanStat_PENDING, F.gleanStat_LOST, F.gleanStat_REFUSED, F.gleanStat_SEQ]⟩
/-! R573: traceBuf, at 0x2000080, 64 bits. -/
def F.traceBuf_PART : Fld := ⟨326, 56, 8, .rw, 0, false⟩
def F.traceBuf_SIZE : Fld := ⟨327, 30, 26, .rw, 0, false⟩
def F.traceBuf_OFFSET : Fld := ⟨328, 12, 18, .rw, 0, false⟩
def R.traceBuf : RegDef := ⟨33554560, 1, 0, 64, [F.traceBuf_PART, F.traceBuf_SIZE, F.traceBuf_OFFSET]⟩
/-! R573: traceFilt, at 0x2000088, 64 bits. -/
def F.traceFilt_LAYER_HI : Fld := ⟨329, 48, 16, .rw, 65535, false⟩
def F.traceFilt_LAYER_LO : Fld := ⟨330, 32, 16, .rw, 0, false⟩
def F.traceFilt_OPER : Fld := ⟨331, 16, 16, .rw, 0, false⟩
def F.traceFilt_OPER_ALL : Fld := ⟨332, 15, 1, .rw, 1, false⟩
def F.traceFilt_KINDS : Fld := ⟨333, 0, 12, .rw, 0, false⟩
def R.traceFilt : RegDef := ⟨33554568, 1, 0, 64, [F.traceFilt_LAYER_HI, F.traceFilt_LAYER_LO, F.traceFilt_OPER, F.traceFilt_OPER_ALL, F.traceFilt_KINDS]⟩
/-! R573: traceCtl, at 0x2000090, 32 bits. -/
def F.traceCtl_BUF_ERR : Fld := ⟨334, 4, 1, .w1c, 0, false⟩
def F.traceCtl_LOSSLESS : Fld := ⟨335, 3, 1, .rw, 0, false⟩
def F.traceCtl_WRAP : Fld := ⟨336, 2, 1, .rw, 0, false⟩
def F.traceCtl_ENABLE : Fld := ⟨337, 0, 1, .rw, 0, false⟩
def R.traceCtl : RegDef := ⟨33554576, 1, 0, 32, [F.traceCtl_BUF_ERR, F.traceCtl_LOSSLESS, F.traceCtl_WRAP, F.traceCtl_ENABLE]⟩
/-! R573: traceStat, at 0x2000094, 32 bits. -/
def F.traceStat_FULL : Fld := ⟨338, 31, 1, .ro, 0, false⟩
def F.traceStat_HEAD : Fld := ⟨339, 0, 31, .ro, 0, false⟩
def R.traceStat : RegDef := ⟨33554580, 1, 0, 32, [F.traceStat_FULL, F.traceStat_HEAD]⟩
/-! R573: traceRate, at 0x2000098, 32 bits. -/
def F.traceRate_GBPS : Fld := ⟨340, 0, 16, .rw, 80, false⟩
def R.traceRate : RegDef := ⟨33554584, 1, 0, 32, [F.traceRate_GBPS]⟩
/-! R573: traceDrop, at 0x20000A0, 64 bits. -/
def F.traceDrop_COUNT : Fld := ⟨341, 0, 64, .ro, 0, true⟩
def R.traceDrop : RegDef := ⟨33554592, 1, 0, 64, [F.traceDrop_COUNT]⟩
/-! R582: wfgCtl, at 0x20000C0, 32 bits. -/
def F.wfgCtl_GO : Fld := ⟨342, 31, 1, .wo, 0, false⟩
def F.wfgCtl_BUSY : Fld := ⟨343, 30, 1, .ro, 0, false⟩
def F.wfgCtl_AUTO_MS : Fld := ⟨344, 0, 16, .rw, 100, false⟩
def R.wfgCtl : RegDef := ⟨33554624, 1, 0, 32, [F.wfgCtl_GO, F.wfgCtl_BUSY, F.wfgCtl_AUTO_MS]⟩
/-! R582: wfgIdx, at 0x20000C4, 32 bits. -/
def F.wfgIdx_INDEX : Fld := ⟨345, 0, 15, .rw, 0, false⟩
def R.wfgIdx : RegDef := ⟨33554628, 1, 0, 32, [F.wfgIdx_INDEX]⟩
/-! R576: dbgCtl, at 0x2000100, 32 bits. -/
def F.dbgCtl_KEY : Fld := ⟨346, 16, 16, .wo, 0, false⟩
def F.dbgCtl_HALT : Fld := ⟨347, 15, 1, .wo, 0, false⟩
def F.dbgCtl_PLOT : Fld := ⟨348, 9, 2, .wo, 0, false⟩
def F.dbgCtl_FIELD : Fld := ⟨349, 0, 9, .wo, 0, false⟩
def R.dbgCtl : RegDef := ⟨33554688, 1, 0, 32, [F.dbgCtl_KEY, F.dbgCtl_HALT, F.dbgCtl_PLOT, F.dbgCtl_FIELD]⟩
/-! R576: dbgStat, at 0x2000104, 32 bits. -/
def F.dbgStat_HALTED : Fld := ⟨350, 31, 1, .ro, 0, false⟩
def F.dbgStat_DENIED : Fld := ⟨351, 30, 1, .w1c, 0, false⟩
def F.dbgStat_COUNT : Fld := ⟨352, 0, 11, .ro, 0, false⟩
def R.dbgStat : RegDef := ⟨33554692, 1, 0, 32, [F.dbgStat_HALTED, F.dbgStat_DENIED, F.dbgStat_COUNT]⟩
/-! R576: dbgCore, at 0x2000108, 32 bits. -/
def F.dbgCore_INDEX : Fld := ⟨353, 24, 8, .rw, 0, false⟩
def F.dbgCore_CORE : Fld := ⟨354, 0, 15, .rw, 0, false⟩
def R.dbgCore : RegDef := ⟨33554696, 1, 0, 32, [F.dbgCore_INDEX, F.dbgCore_CORE]⟩
/-! R576: dbgData, at 0x2000110, 64 bits. -/
def F.dbgData_VALUE : Fld := ⟨355, 0, 64, .rw, 0, false⟩
def R.dbgData : RegDef := ⟨33554704, 1, 0, 64, [F.dbgData_VALUE]⟩
/-! R557: alertStatus, at 0x2000140, 32 bits. -/
def F.alertStatus_FAILSAFE : Fld := ⟨356, 31, 1, .ro, 0, false⟩
def F.alertStatus_UNREADY : Fld := ⟨357, 30, 1, .ro, 0, false⟩
def F.alertStatus_TIME : Fld := ⟨358, 6, 1, .w1c, 0, true⟩
def F.alertStatus_WFG : Fld := ⟨359, 5, 1, .w1c, 0, true⟩
def F.alertStatus_EVT_DROP : Fld := ⟨360, 4, 1, .w1c, 0, true⟩
def F.alertStatus_POWER : Fld := ⟨361, 3, 1, .w1c, 0, true⟩
def F.alertStatus_LINK : Fld := ⟨362, 2, 1, .w1c, 0, true⟩
def F.alertStatus_MEMORY : Fld := ⟨363, 1, 1, .w1c, 0, true⟩
def F.alertStatus_FAULT : Fld := ⟨364, 0, 1, .w1c, 0, true⟩
def R.alertStatus : RegDef := ⟨33554752, 1, 0, 32, [F.alertStatus_FAILSAFE, F.alertStatus_UNREADY, F.alertStatus_TIME, F.alertStatus_WFG, F.alertStatus_EVT_DROP, F.alertStatus_POWER, F.alertStatus_LINK, F.alertStatus_MEMORY, F.alertStatus_FAULT]⟩
/-! R557: alertMask, at 0x2000144, 32 bits. -/
def F.alertMask_MASK : Fld := ⟨365, 0, 7, .rw, 0, true⟩
def R.alertMask : RegDef := ⟨33554756, 1, 0, 32, [F.alertMask_MASK]⟩
/-! R567: tlmCfg, at 0x2000200 + i × 0x10, i < 16, 32 bits. -/
def F.tlmCfg_AVG : Fld := ⟨366, 8, 4, .rw, 0, false⟩
def F.tlmCfg_CHAN : Fld := ⟨367, 0, 8, .rw, 0, false⟩
def R.tlmCfg : RegDef := ⟨33554944, 16, 16, 32, [F.tlmCfg_AVG, F.tlmCfg_CHAN]⟩
/-! R567: tlmSample, at 0x2000204 + i × 0x10, i < 16, 32 bits. -/
def F.tlmSample_STALE : Fld := ⟨368, 31, 1, .ro, 0, false⟩
def F.tlmSample_VALID : Fld := ⟨369, 30, 1, .ro, 0, false⟩
def F.tlmSample_SEQ : Fld := ⟨370, 16, 12, .ro, 0, false⟩
def F.tlmSample_VALUE : Fld := ⟨371, 0, 16, .ro, 0, false⟩
def R.tlmSample : RegDef := ⟨33554948, 16, 16, 32, [F.tlmSample_STALE, F.tlmSample_VALID, F.tlmSample_SEQ, F.tlmSample_VALUE]⟩
/-! R569: feClampRd, at 0x2000300 + i × 0x10, i < 32, 64 bits. -/
def F.feClampRd_CLAMP_RD : Fld := ⟨372, 0, 64, .ro, 0, false⟩
def R.feClampRd : RegDef := ⟨33555200, 32, 16, 64, [F.feClampRd_CLAMP_RD]⟩
/-! R569: feClampWr, at 0x2000308 + i × 0x10, i < 32, 64 bits. -/
def F.feClampWr_CLAMP_WR : Fld := ⟨373, 0, 64, .ro, 0, false⟩
def R.feClampWr : RegDef := ⟨33555208, 32, 16, 64, [F.feClampWr_CLAMP_WR]⟩
/-! R569: coreCtr, at 0x3000000 + i × 0x8, i < 1769472, 64 bits. -/
def F.coreCtr_COUNT : Fld := ⟨374, 0, 64, .ro, 0, true⟩
def R.coreCtr : RegDef := ⟨50331648, 1769472, 8, 64, [F.coreCtr_COUNT]⟩
def regTable0 : List RegDef := [R.hifStatus, R.hifId, R.hostErrLog, R.hostErrCnt, R.partCmd, R.partStatus, R.partStage0, R.partStage1, R.partInfo0, R.partInfo1, R.allocCmd, R.allocStatus, R.allocHandle, R.allocBase, R.allocLen, R.hifFnStatus]
def regTable1 : List RegDef := [R.stallCtl, R.fieldRate, R.ringBase, R.cplBase, R.ringCfg, R.ringDb, R.ringState, R.ringHead, R.cplTail, R.cplHead, R.ringCtl, R.descTable, R.descDet, R.descCmd, R.descStatus, R.descLayout]
def regTable2 : List RegDef := [R.strmCmd, R.strmStatus, R.strmUse, R.mdlCmd, R.mdlStatus, R.mdlUse, R.rshCmd, R.rshStatus, R.rshJob, R.hulPlotStat, R.hulPlotLimit, R.vaultBand, R.grnBinCfg, R.grnCacheStat, R.cwin, R.mdqHold]
def regTable3 : List RegDef := [R.mdqDepth, R.mdqBounced, R.mdqResent, R.mdqLogged, R.cwinRefused, R.oncSelf, R.routeCtl, R.routeIdx, R.routeData, R.oncTimeout, R.sweepCtl, R.sweepStat, R.sweepFirst, R.hopDrop, R.lateRsp, R.hlStat]
def regTable4 : List RegDef := [R.portCtl, R.portStat, R.portNbr, R.crcErr, R.retry, R.fecUncorr, R.fecCorr, R.pktBad, R.intCtl, R.intStatus, R.chaffRefused, R.envTable, R.replays, R.envFail, R.envStood, R.envBad]
def regTable5 : List RegDef := [R.chaffSteps, R.terminated, R.limits, R.harrowCtl, R.harrowStat, R.retCmd, R.retStatus, R.logClr, R.vcorr, R.vuncorr, R.gcorr, R.guncorr, R.ssCorr, R.ssUncorr, R.ssCrcRetry, R.logOvf]
def regTable6 : List RegDef := [R.vlogLo, R.vlogHi, R.glogLo, R.glogHi, R.bringCtl, R.bringStatus, R.bringDetail, R.optselStat, R.rstCause, R.rstCtl, R.blkIdle, R.blkRst, R.blkStatus, R.stepTime, R.seedStat, R.seedCtl]
def regTable7 : List RegDef := [R.seedVer, R.almStat, R.almSeq, R.almDropped, R.almErases, R.plCtl, R.plStat, R.pwrCap, R.coolIn, R.capStat, R.sleepCtl, R.sleepStat, R.hotStat, R.plotPwr, R.plotPhase, R.coreTemp]
def regTable8 : List RegDef := [R.timeNs, R.timeS, R.timeStat, R.timeUnc, R.ptpCfg, R.timeSetS, R.timeSetCtl, R.gleanTS, R.gleanCtl, R.gleanStat, R.traceBuf, R.traceFilt, R.traceCtl, R.traceStat, R.traceRate, R.traceDrop]
def regTable9 : List RegDef := [R.wfgCtl, R.wfgIdx, R.dbgCtl, R.dbgStat, R.dbgCore, R.dbgData, R.alertStatus, R.alertMask, R.tlmCfg, R.tlmSample, R.feClampRd, R.feClampWr, R.coreCtr]

/-- Every register of the module that is not a byte window. -/
def regTable : List RegDef :=
  regTable0 ++ regTable1 ++ regTable2 ++ regTable3 ++ regTable4 ++
  regTable5 ++ regTable6 ++ regTable7 ++ regTable8 ++ regTable9

/-- Does offset `off` lie in a copy of register `r`, and in which: (copy, byte within the copy). -/
def RegDef.locate (r : RegDef) (off : Nat) : Option (Nat × Nat) :=
  if off < r.base then none else
  let d := off - r.base
  let st := if r.stride = 0 then r.width / 8 else r.stride
  let i := d / st
  let b := d % st
  if i < r.count ∧ b < r.width / 8 then some (i, b) else none

/-- The register an offset lies in, with its copy and the byte within it. -/
def findReg (off : Nat) : List RegDef → Option (RegDef × Nat × Nat)
  | [] => none
  | r :: rs =>
    match r.locate off with
    | some (i, b) => some (r, i, b)
    | none => findReg off rs

/-- The fields a warm reset keeps (R8, R458, R557). -/
def keptIds : List Nat := (regTable.flatMap RegDef.fields).filterMap fun f => if f.kept then some f.id else none

/-- Counters that belong to a partition and go with it (R458, R594). -/
def partCounters : List RegDef :=
  [R.replays, R.envFail, R.envStood, R.envBad, R.chaffSteps, R.terminated, R.limits, R.feClampRd, R.feClampWr]

end Sys2Proof.Machine
end

