-- ==== Sys2Proof/Machine/State.lean ====
section
/-!
DEFINITION. State.lean: everything the spec gives the module, as plain data, and the state after reset.
A sparse table is a list of (key, value) pairs with rising keys; what an unlisted key reads as is said at the field.
-/
namespace Sys2Proof.Machine

/-! ## Work items, commands and the units of a core (chapters 03, 05) -/

/-- An entry of a submission ring as a completion record names it: its type, ring index, and IRQ flag (R170). -/
structure ErrPlace where
  type : Nat
  entry : Nat
  irq : Bool
  deriving DecidableEq, Repr

/-- A work item (R148, R151). `ring` is none for a boot work item (R473), which belongs to no ring. -/
structure WorkItem where
  ring : Option Nat
  part : Nat
  step : Nat
  layer : Nat
  oper : Nat
  role : Nat
  entry : Nat
  firstCore : Nat
  arg0 : W64
  arg1 : W64
  arg2 : W64
  arg3 : W64
  batch : Nat
  model : Nat
  /-- its step was cancelled while it ran (R171) -/
  dead : Bool
  /-- the DISPATCH that placed it -/
  place : ErrPlace
  deriving DecidableEq, Repr

/-- A 128-bit command (Table 5-12) in a queue of a core. `seq` is its place in the core's program order (R69, R205),
`chaff` says that it was formed from a register that carries chaff (R630), `chk` is its CHECK. -/
structure Cmd where
  seq : Nat
  layer : Nat
  oper : Nat
  step : Nat
  kind : Nat
  op : Nat
  body : BitVec 40
  chk : BitVec 16
  chaff : Bool
  deriving DecidableEq, Repr

/-- An envelope (Table 12-2) as the core keeps it with a command (R400). -/
structure Env where
  allowNan : Bool
  allowInf : Bool
  bound : Bool
  satOk : Bool
  maxAbs : BitVec 32
  maxInt : Nat
  deriving DecidableEq, Repr

/-- A matrix instruction the array has accepted (R76, R82, Table 5-14). -/
structure MtxInst where
  cmd : Cmd
  env : Env
  fmtS : Nat
  fmtT : Nat
  n : Nat
  mode : Nat
  acc : Bool
  mAct : Nat
  kAct : Nat
  cAct : Nat
  sA : Nat
  tA : Nat
  uA : Nat
  scA : Nat
  oA : Nat
  /-- the stationary bytes in the tile (WS, IS), or the preloaded accumulators' bytes (OS) (R77) -/
  tile : List Byte
  /-- the scale bytes of the stationary operand, as the tile loaded -/
  tileSc : List Byte
  tileChaff : Bool
  loaded : Bool
  /-- streamed vectors or chunks done -/
  done : Nat
  /-- the cells' accumulators in OS (256 words, row by row); empty in WS and IS -/
  cells : List (BitVec 32)
  /-- the output region as it stood before the instruction (R403) -/
  prior : List Byte
  /-- an accumulator saturated (R114), by output index -/
  sat : List Nat
  /-- an output failed its envelope (R401) -/
  envFail : Bool
  /-- the instruction read chaff (R84, R416) -/
  chaff : Bool
  deriving DecidableEq, Repr

/-- What a command waiting for verification keeps (R403, R406). -/
inductive Verify where
  /-- a matrix instruction, checked by the sums of Table 12-4 -/
  | mtx (i : MtxInst)
  /-- a DOT: its command, and its parameters as a WS instruction (R406): A rows, B vectors and outputs are read again -/
  | dot (c : Cmd) (frame : List Byte)
  /-- another vector command: its parameters, and the bytes of D and of DS that a recompute from the kept inputs gives (R406) -/
  | recompute (c : Cmd) (frame : List Byte) (d ds : List Byte)
  /-- a bank task's record: where it was written, what a recompute gives, and the bank (R406); the query region the command reads
  (R402) -/
  | bank (c : Cmd) (bank addr : Nat) (expected : List Byte) (qA qLen : Nat)
  deriving DecidableEq, Repr

/-- Where a bank task stands (R216 to R219). -/
inductive TaskSt where
  | waiting | slot | computing | ended
  deriving DecidableEq, Repr

/-- One bank task of a huller command (R216). `asked` is its place among the plot limiter's requests (R219). -/
structure BankTask where
  bank : Nat
  st : TaskSt
  asked : Nat
  /-- entries of `State.hits` when the task started: later ones are writes made while it runs (R285) -/
  from_ : Nat
  /-- a word it reads carried chaff when it started (R233) -/
  chaff : Bool
  deriving DecidableEq, Repr

/-- A huller command the issue port has accepted (R218, Table 5-17). -/
structure HulCmd where
  cmd : Cmd
  env : Env
  op : Nat
  sub : Nat
  mask : BitVec 32
  off : Nat
  len : Nat
  fmtB : Nat
  fmtQ : Nat
  hd : Nat
  qA : Nat
  pA : Nat
  scale : BitVec 32
  pos : Nat
  /-- the kept copy of the query region, once the first bank task has started (R234) -/
  query : Option (List Byte)
  /-- formed from a chaff register: every record carries chaff (R630) -/
  chaff : Bool
  tasks : List BankTask
  deriving DecidableEq, Repr

/-- A tensor descriptor as a move keeps it (R177), its addresses resolved (R199). -/
structure Desc where
  etype : Nat
  rank : Nat
  brank : Nat
  v32 : Bool
  /-- 0 global, 1 vault-relative, 2 core scratch -/
  kind : Nat
  alloc : Nat
  /-- the byte address of position 0: a global address (56 bits), or a scratch address for kind 2 -/
  base : Nat
  sizes : List Nat
  strides : List Int
  blks : List Nat
  scaleAlloc : Nat
  scaleBase : Nat
  tag : Nat
  deriving DecidableEq, Repr

/-- The stamp of a message (R269). -/
structure Stamp where
  part : Nat
  role : Nat
  rank : Nat
  epoch : Nat
  deriving DecidableEq, Repr

/-- A combining contribution on its way to its destination element (R262). -/
structure Contrib where
  src : Src
  move : Option Nat
  part : Nat
  ring : Option Nat
  step : Nat
  /-- 1 ADD, 2 MAX, 3 MIN -/
  op : Nat
  /-- element type of the destination, and of the contribution `bits` -/
  etype : Nat
  stype : Nat
  addr : Nat
  bits : Nat
  chaff : Bool
  /-- bytes of the pad positions the operation zeroes (R186) -/
  pads : List Nat
  /-- transaction to complete, for a contribution of another module -/
  txn : Option Nat
  deriving DecidableEq, Repr

/-- A staged contribution of a DET scatter with its key (R205). -/
structure DetItem where
  issuer : Nat
  seq : Nat
  j : Nat
  ord : Nat
  /-- 0 REPLACE, 1 ADD, 2 MAX, 3 MIN -/
  op : Nat
  con : Contrib
  /-- for REPLACE: bytes written whole: scale bytes, and every byte of an element on another module -/
  bytes : List (Nat × Byte × Bool)
  /-- for REPLACE: the tensor, and each position written with its storage bits, chaff, and the byte offsets its move writes
  whole -/
  dst : Option Desc := none
  puts : List (Int × Nat × Bool × List Int) := []
  deriving DecidableEq, Repr

/-- A message: one burst of a write into a vault from a source other than its owner (R269). `data` holds, for each
byte written, its offset in the vault, its value and whether it carries chaff. -/
structure Msg where
  src : Src
  /-- the moves whose completion waits for it -/
  moves : List Nat
  /-- what the Granary combines with the burst, in order; else empty (R263) -/
  comb : List DetItem
  /-- local address of the burst it combines into; 0 for any other -/
  lo : Nat
  ring : Option Nat
  step : Nat
  core : Nat
  stamp : Stamp
  data : List (Nat × Byte × Bool)
  /-- a write of another module: module, source identity and tag its completion is answered to -/
  reply : Option (Nat × Nat × Nat)
  deriving DecidableEq, Repr

/-- A bounced message in the misdelivery queue, with the module time of its bounce (R270, R271). -/
structure Bounced where
  msg : Msg
  since : Nat
  /-- the epochs of its partition's cores when the queue last looked for the stamped core; none before the first time (R271) -/
  seen : Option (List (Nat × Nat))
  deriving DecidableEq, Repr

/-- A wait of a control processor (R154, R157, Table 17-18). -/
inductive CpWait where
  | waitq (q imm : Nat)
  | full (c : Cmd)
  | ending
  deriving DecidableEq, Repr

/-- A core (Table 3-1) with its control processor. -/
structure Core where
  /-- scalar registers s1 to s31 (R66); unlisted reads 0 -/
  regs : List (Nat × W64)
  /-- registers whose chaff tag is set (R630) -/
  regChaff : List Nat
  pc : Nat
  /-- the work item in progress, and the work queue of 32 items (R149) -/
  wi : Option WorkItem
  queue : List WorkItem
  layer : Nat
  oper : Nat
  warn : Nat
  timeS : Nat
  /-- status and detail of the first failing command of the work item, 0 for none (R157) -/
  status : Nat
  wait : Option CpWait
  /-- module time at which the wait of the control processor or of the sync unit began (R578) -/
  since : Nat
  /-- number the next command takes in program order -/
  nextSeq : Nat
  /-- the fence or WAIT the sync unit is performing (R54, R57): later accesses of the core wait for it -/
  sync : Option Cmd
  /-- the code image held (R73), its instruction count, and the lines in the instruction cache -/
  image : Option Nat
  instrCount : Nat
  lines : List Nat
  /-- role epoch (R268) -/
  epoch : Nat
  /-- queues of Table 3-2, commands not yet accepted by their unit -/
  qm : List Cmd
  qv : List Cmd
  qh : List Cmd
  qmv : List Cmd
  qs : List Cmd
  /-- matrix instructions: the one whose tile is loading or loaded, the one streaming -/
  shadow : Option MtxInst
  active : Option MtxInst
  gated : Bool
  /-- ns of its wake-up that the array has waited, while it is gated with an instruction to stream (R91) -/
  wake : Nat
  /-- the array waits for its shadow tile, the instruction before having streamed fewer than 16 vectors (R77, R91) -/
  tileLate : Bool
  /-- huller commands accepted and not complete, in issue order -/
  hul : List HulCmd
  /-- commands whose verification is under way (R403) -/
  verify : List Verify
  /-- 96 KiB core scratch (R71): bytes written since the last time the contents became undefined -/
  scratch : List (Nat × Byte)
  /-- how often the scratch contents have become undefined (Table 14-3, R72): 0 until the first time -/
  undef : Nat
  /-- 32-byte units of scratch that carry chaff (Table 12-5), by unit number -/
  schaff : List Nat
  /-- messages waiting at the vault interface: over the mesh, and from the Granary (R90) -/
  vqMesh : List Msg
  vqGran : List Msg
  /-- held by the thermal control (R536) -/
  hold : Bool
  /-- last rotation requester served: 0 drill, 1 vector path, 2 move engine, 3 other cores, 4 Granary, 5 Harrow (R90) -/
  rot : Nat
  /-- envelope entries read most recently, at most 64: partition and OPER (R400) -/
  envs : List (Nat × Nat)
  deriving DecidableEq, Repr

/-! ## Rings and steps (chapter 05, 12) -/

/-- One entry of a step's signal ledger (R419). -/
structure LedgerEnt where
  addr : Nat
  set : Bool
  value : Nat
  before : Nat
  deriving DecidableEq, Repr

/-- Where an open step stands. -/
inductive StepSt where
  /-- running -/
  | run
  /-- stopped for a replay (step 2 of Table 12-7); true once quiet (step 3) -/
  | stopped (quiet : Bool)
  /-- an exported step that is being closed with CHAFF (R421) -/
  | closing
  deriving DecidableEq, Repr

/-- An open step of a ring (R144, R145). -/
structure OpenStep where
  step : Nat
  st : StepSt
  /-- its first entry (R423, R422) -/
  head : ErrPlace
  /-- its COMMIT entry is taken in the current performance, and where it was read (131,072: not read yet) -/
  commitTaken : Bool
  commitIdx : Nat
  commitIrq : Bool
  /-- work items placed and not ended -/
  items : Nat
  /-- front-end entries in progress (moves, waits) -/
  entries : Nat
  replays : Nat
  chaff : Bool
  warn : Nat
  exported : Bool
  ledger : List LedgerEnt
  /-- model descriptor in force at each DISPATCH of the step, in order, and how many a replay has taken again (R422) -/
  models : List Nat
  retaken : Nat
  /-- batch lists resolved in the step: offset, and the streams that resolved LIVE (R329) -/
  batches : List Nat
  live : List Nat
  /-- frames whose FRAME_CHK failed once: core and frame address (R162) -/
  badFrames : List (Nat × Nat)
  /-- the step's DET reservations and staged contributions are done (R205) -/
  detDone : Bool
  /-- units that earlier confirmed faults of the step were charged to (R427) -/
  charged : List Nat
  /-- a fault LINK_BROKEN stopped it: its replay waits for ROUTE_CTL.PENDING (R388) -/
  broken : Bool
  /-- cores its work items were placed on: first core and count (R148) -/
  placed : List (Nat × Nat)
  deriving DecidableEq, Repr

/-- A completion record (Table 5-22). -/
structure CplRec where
  step : Nat
  status : Nat
  type : Nat
  warn : Bool
  irq : Bool
  entry : Nat
  core : Nat
  detail : Nat
  deriving DecidableEq, Repr

/-- Completion records of a cancelled step that wait until the work it had started is complete, so that the errors of that work are counted
(R171): the step, the failing work items counted, and the records, the step's own first. -/
structure LateCpl where
  step : Nat
  count : Nat
  recs : List CplRec
  deriving DecidableEq, Repr

/-- What holds a ring at its head: a FENCE or WAIT entry in progress (R135). -/
inductive RingHold where
  /-- `at_`: its place in the issue order of the partition's front end -/
  | fence (kind mask step at_ : Nat)
  | wait (step sem value sub : Nat) (deadline : Option Nat)
  deriving DecidableEq, Repr

/-- A submission ring beyond its registers. -/
structure Ring where
  /-- RING_DB.TAIL (R139) -/
  tail : Nat
  /-- open steps, oldest first (R145) -/
  steps : List OpenStep
  /-- number the next step-bearing entry must carry; none: free (R144) -/
  next : Option Nat
  /-- steps cancelled whose remaining entries are discarded after RESUME (R172) -/
  discard : List Nat
  /-- completion records held under R141, oldest first, and records a link or bin loss keeps back (R632), each with its place in the
  issue order of the partition's front end -/
  held : List (Nat × CplRec)
  /-- ring index a replay reads entries from, until it reaches RING_HEAD again (R422) -/
  replay : Option Nat
  hold : Option RingHold
  /-- a clear of ENABLE waits for IDLE (R138) -/
  disabling : Bool
  /-- module time at which what holds the ring began: its head came, or records are held back (R578) -/
  since : Nat
  /-- the entry at the head of a ring in host memory that has been read and not been taken (R134) -/
  fetched : Option (List Byte)
  /-- the first record held could not be written when its turn came (R632): the ring's ERR_CODE for it -/
  lost : Option Nat
  late : Option LateCpl
  deriving DecidableEq, Repr

/-- An error of a command, work item or entry on its way to the front end (R171). -/
structure StepErr where
  ring : Nat
  step : Nat
  status : Nat
  /-- logical core, or 0xFFFF for the front end -/
  core : Nat
  /-- DCI_SOFT value, 0 otherwise -/
  soft : Nat
  /-- the entry that produced it -/
  entry : Option ErrPlace
  /-- the first error of its work item; false for an error of an entry -/
  item : Bool
  deriving DecidableEq, Repr

/-- A fault record (Table 12-14), before its time stamp and CHECK. -/
structure FaultRec where
  cause : Nat
  outcome : Nat
  plot : Nat
  cls : Nat
  field : Nat
  core : Nat
  bank : Nat
  port : Nat
  part : Nat
  ring : Nat
  step : Nat
  layer : Nat
  oper : Nat
  tag : Nat
  row : Nat
  col : Nat
  replay : Nat
  addr : Nat
  /-- module time (ns of the counter) -/
  time : Nat
  /-- the unit charged where no other field names it: a write port (Table 12-1) -/
  charge : Option Nat
  deriving DecidableEq, Repr

/-! ## Moves and reductions (chapters 06, 08) -/

/-- What a move waits for. -/
inductive MoveSt where
  /-- space in the staging pool (R200) -/
  | staging
  /-- a Granary drill (R257) -/
  | drill
  /-- data from other modules -/
  | remote
  /-- copied; its messages and remote writes are not all performed (R272) -/
  | writing
  deriving DecidableEq, Repr

/-- A move accepted and not complete. -/
structure Move where
  id : Nat
  /-- issuing core; none for a MOVE entry -/
  core : Option Nat
  part : Nat
  ring : Option Nat
  step : Nat
  cmd : Cmd
  op : Nat
  sub : Nat
  src : Desc
  dst : Desc
  idx : Option Desc
  perm : List Nat
  det : Bool
  st : MoveSt
  /-- overlap to stage, bytes rounded up to 4 KiB (R200) -/
  overlap : Nat
  staged : Bool
  drill : Bool
  /-- bit flips that strike the data in flight: (write index, bit) -/
  flips : List (Nat × Nat)
  /-- bytes received from other modules: global address, value, chaff -/
  got : List (Nat × Byte × Bool)
  /-- transactions of other modules still awaited -/
  waits : Nat
  /-- messages not yet performed or logged -/
  msgs : Nat
  /-- first error that reached the move, 0 for none -/
  err : Nat
  chaff : Bool
  /-- module time at which it was accepted -/
  since : Nat
  /-- the MOVE entry it comes from; none for a core's -/
  entry : Option ErrPlace
  /-- its step was cancelled: what it still writes is undefined (R171) -/
  dead : Bool
  deriving DecidableEq, Repr

/-- Reservation of a DET scatter in the staging area of its partition (R206). -/
structure DetRes where
  part : Nat
  ring : Nat
  step : Nat
  bytes : Nat
  items : List DetItem
  deriving DecidableEq, Repr

/-- A descriptor command whose result is not in CODE yet (Table 6-4): its partition and its result. -/
structure DescJob where
  part : Nat
  code : Nat
  deriving DecidableEq, Repr

/-- A WAIT in the wait table (R261). `since`: module time at which it began. -/
structure SemWait where
  since : Nat
  /-- the waiter: a core's sync unit, or a ring of the front end -/
  core : Option Nat
  ring : Option Nat
  step : Nat
  sem : Nat
  value : Nat
  eq : Bool
  deadline : Option Nat
  /-- the awaited value has been reached since the wait began, and whether chaff or poison came with it (R57) -/
  met : Option Bool
  /-- the SEM entry of a ring's wait -/
  entry : Option ErrPlace
  deriving DecidableEq, Repr

/-- A cached seedstore line: its address, dirty or not. Data are the home's (R254). -/
structure Line where
  addr : Nat
  dirty : Bool
  deriving DecidableEq, Repr

/-! ## Fields (chapter 02) -/

/-- A stall the watch has reported, while the Reeve collects (R43, R44), and when its report arrived, by `TimeSt.elapsed`. -/
structure StallRep where
  hs : Handshake
  secondary : Bool
  at_ : Nat
  deriving DecidableEq, Repr

/-- What a pause of stall timers concerns: a field under a debug halt (Table 2-4), or a unit under substitution (R451), numbered as in
`RetSt.gone`. -/
inductive PauseOf where
  | field (fid : Nat)
  | unit (u : Nat)
  deriving DecidableEq, Repr

/-- A pause of stall timers, by `TimeSt.elapsed`: from when, and to when once it has ended. -/
structure Pause where
  of : PauseOf
  from_ : Nat
  until_ : Option Nat
  deriving DecidableEq, Repr

/-- A field beyond its registers. -/
structure Field where
  /-- droop hold (R31) -/
  droop : Bool
  /-- issue held by a stall report (R43) or a substitution (R428) -/
  held : Bool
  /-- the field is being reset (R43 step 3) -/
  resetting : Bool
  /-- consecutive windows below 0.90 of the expected rate (R37) -/
  slow : Nat
  /-- debug halt (R576) -/
  halted : Bool
  /-- `TimeSt.elapsed` when its last reset of its own ended -/
  since : Nat
  /-- `TimeSt.elapsed` when its last rate window ended (R36) -/
  window : Nat
  /-- highest diode temperature of the window under way (R37), as CORE_TEMP holds it; none: no valid reading yet -/
  hot : Option Nat
  deriving DecidableEq, Repr

/-! ## Partitions and allocations (chapter 18) -/

/-- A partition (R593, R594). -/
structure Part where
  owner : Nat
  first : Nat
  count : Nat
  /-- layout mode: 0 strided, 1 V32 (R179) -/
  layout : Nat
  quota : Nat
  pasidEn : Bool
  pasid : Nat
  /-- model descriptor named by the previous DISPATCH (R150) -/
  model : Option Nat
  /-- next place in the issue order of the front end (R135, R205) -/
  feSeq : Nat
  deriving DecidableEq, Repr

/-- An allocation (R187, R595). `vault`: a range of offsets in the vault of each core of the partition. -/
structure Allocation where
  slot : Nat
  gen : Nat
  part : Nat
  vault : Bool
  write : Bool
  base : Nat
  len : Nat
  deriving DecidableEq, Repr

/-! ## What leaves the module -/

/-- A fault record, an event or an Almanac record carries what its chapter names; a body of another subsystem is a list
of numbers in the order its docstring gives. -/
structure Event where
  seq : Nat
  kind : Nat
  time : Nat
  undisc : Bool
  noId : Bool
  moduleId : Nat
  body : List Nat
  deriving DecidableEq, Repr

/-- A record of the flash (Table 15-6): kind (Table 15-7), SEQ (0 until it is committed), time, the flags UNDISCIPLINED, COPIED and
EMERGENCY, the bring-up count, body. -/
structure AlmRec where
  kind : Nat
  seq : Nat
  time : Nat
  undisc : Bool
  copied : Bool
  emergency : Bool
  boot : Nat
  body : List Nat
  deriving DecidableEq, Repr

/-- What the module has sent out, oldest first: the model's own log of its outputs. -/
inductive Out where
  /-- a completion record written to host memory (function, ring, index, bytes) -/
  | cpl (fn ring index : Nat) (bytes : List Byte)
  /-- an MSI-X message (function, vector) -/
  | msix (fn vector : Nat)
  /-- data or status answered to a requester: source, status (0 success), data -/
  | answer (dest : Src) (status : Nat) (data : List Byte)
  /-- a management message answered: message type, code, data -/
  | mgmt (type code : Nat) (data : List Byte)
  /-- an event datagram, and whether it was sent again (R561) -/
  | event (e : Event) (resent : Bool)
  /-- a PLDM PlatformEventMessage (R556) -/
  | pldmEvent (e : Event)
  /-- the flits of a packet, or a control flit, given to an Oncon port: `control` is the header bit of their blocks (R359) -/
  | packet (port : Nat) (control : Bool) (bytes : List Byte)
  /-- other output: a name's number and data (pins, Ethernet answers) -/
  | other (kind : Nat) (data : List Nat)
  deriving DecidableEq, Repr

/-! ## Time, management, Almanac, links, ECC, bring-up, power, host: what each subsystem keeps beyond its registers -/

/-- The PTP clock (R562 to R566): the masters announced with the data set the best master clock algorithm compares, most significant
first; the master in use; arrival of a two-step Sync that waits for its Follow_Up; arrival of the last Sync less its origin time; magnitudes
of the offset over the last 16 Sync intervals, newest first; the path delay measured; Sync interval of the master, ns; `elapsed` at the last
Sync; the uncertainty held on leaving LOCKED. -/
structure PtpSt where
  foreign : List (Nat × List Nat)
  master : Option Nat
  waiting : Option Nat
  ms : Int
  mags : List Nat
  delay : Nat
  interval : Nat
  lastSync : Nat
  held : Nat
  deriving DecidableEq, Repr

/-- The module time counter (R60, R564, chapter 17). -/
structure TimeSt where
  /-- increments of the counter, ns: what R41, R30 and the timed rules count -/
  elapsed : Nat
  /-- the value of the counter, ns since the PTP epoch -/
  counter : Nat
  undisc : Bool
  /-- TIME_STAT.STATE (Table 17-8): 0 FREERUN, 1 ACQUIRING, 2 LOCKED, 3 HOLDOVER -/
  state : Nat
  /-- nanoseconds still to slew: positive when the module is behind the master (R565) -/
  slew : Int
  /-- nanoseconds since the last one that the slew added or left out -/
  tick : Nat
  ptp : PtpSt
  deriving DecidableEq, Repr

/-- Management: the event channel (R556 to R561). -/
structure MgmtSt where
  evSeq : Nat
  /-- events waiting to be sent -/
  evQueue : List Event
  /-- the last 4,096 events sent -/
  evHist : List Event
  /-- events admitted in the burst allowance, and when it was last refilled (R561) -/
  evTokens : Nat
  evRefill : Nat
  dropped : Nat
  receiver : Bool
  /-- events for the receiver it has not collected (R556) -/
  poll : List Event
  /-- MCTP endpoint ID (0: none), I3C dynamic address (R549) -/
  eid : Nat
  i3c : Option Nat
  /-- address of the management port, once it has one (R558), and its mask and gateway -/
  ip : Option Nat
  mask : Nat
  gateway : Nat
  /-- numeric PLDM sensors as last refreshed (Table 17-4), by ID; unlisted: Unavailable -/
  sensors : List (Nat × Nat)
  deriving DecidableEq, Repr

/-- The Almanac (R500 to R506): the queue with its admission allowance; the segments in use, oldest first, each with its records
in order (the last segment is being filled, `used` bytes of it); erases made in all; bring-ups counted (BOOT); segments of the
control region used. -/
structure AlmSt where
  queue : List AlmRec
  tokens : Nat
  refill : Nat
  segs : List (List AlmRec)
  used : Nat
  erases : Nat
  boot : Nat
  control : Nat
  /-- bytes of the last segment of the control region used -/
  ctlUsed : Nat
  /-- elapsed module time of the last compaction of a segment (R504) -/
  compactAt : Option Nat
  deriving DecidableEq, Repr

/-- A packet (Table 11-3) inside the module; `payload` holds the bytes of its payload flits, `poison` the flits that carry
chaff. SEQ and CRC belong to a link and are formed when the packet is sent. -/
structure Packet where
  type : Nat
  cls : Nat
  level : Nat
  hops : Nat
  op : Nat
  dst : Nat
  src : Nat
  addr : Nat
  etype : Nat
  srcId : Nat
  txn : Nat
  /-- BYTES_STATUS -/
  bytes : Nat
  poison : Nat
  payload : List Byte
  deriving DecidableEq, Repr

/-- A transaction this module has open on another module (R387): what its response completes. -/
structure Txn where
  txn : Nat
  pkt : Packet
  move : Option Nat
  core : Option Nat
  ring : Option Nat
  step : Nat
  sent : Nat
  /-- for the front end: its place in the front end's issue order (R135) -/
  at_ : Nat
  /-- the SEM entry whose SIGNAL it carries -/
  entry : Option ErrPlace
  deriving DecidableEq, Repr

/-- A packet in a retry buffer (R368): its SEQ, whether it took shared credit, resends so far, module time last sent. -/
structure TxPkt where
  pkt : Packet
  seq : Nat
  shared : Bool
  resends : Nat
  last : Nat
  deriving DecidableEq, Repr

/-- A packet in the Granary router, or routed to an output port: the input it came in by (a port, or 12 for the module's own units, R367),
and whether LEVEL rises on its way out (R381). HOPS and LEVEL change when it leaves. -/
structure Hop where
  inp : Nat
  pkt : Packet
  up : Bool
  deriving DecidableEq, Repr

/-- An Oncon port beyond its registers. Credits are counted by class × 4 + level (R366). -/
structure PortSt where
  /-- routed packets waiting for credit and their turn (R367), in arrival order -/
  out : List Hop
  /-- class × 4 + level served last (R367) -/
  rr : Nat
  retry : List TxPkt
  txSeq : Nat
  /-- dedicated flits in use by class × 4 + level, shared flits in use -/
  dedUsed : List (Nat × Nat)
  shUsed : Nat
  /-- cumulative credits the partner's control flits have reported -/
  dedSeen : List (Nat × Nat)
  shSeen : Nat
  /-- SEQ the receiver expects next; a NAK stands until the replay arrives -/
  rxSeq : Nat
  nak : Bool
  /-- ACK of the partner's NAK that has been answered with a replay, while that NAK stands (R368) -/
  naked : Option Nat
  /-- packet flits sent since the last control flit (R363) -/
  run : Nat
  /-- cumulative credits this receiver has freed -/
  rxDed : List (Nat × Nat)
  rxSh : Nat
  /-- module times of uncorrectable codewords in the last 10 s (R371) -/
  fec : List Nat
  /-- cause of FI_TX of the port's own that is present: RESET, TOPOLOGY or LOST of Table 11-8, 0 for none -/
  cause : Nat
  /-- the receiver detects a partner's signal -/
  signal : Bool
  /-- the lanes have been measured in this training; a direction needs two spare lanes (R358) -/
  measured : Bool
  twoBad : Bool
  deriving DecidableEq, Repr

/-- A topology sweep under way (R379): modules still to ask, modules asked and not answered, lowest module that differs. -/
structure Sweep where
  todo : List Nat
  asked : List Nat
  differ : Option Nat
  deriving DecidableEq, Repr

/-- A lane (R353, R354): resends of its oldest held flit, the flits its sending end holds that have been asked for again, oldest first (at
most 16), and what its receiving end holds for each class: the flits of packets not complete. -/
structure LaneSt where
  resends : Nat
  replay : List HlFlit
  recv : List (Nat × List HlFlit)
  deriving DecidableEq, Repr

/-- A Headland link of a plot (R353 to R356): its lanes, lanes failed, and lanes on a spare (lane, spare), each by its key of direction and
number. -/
structure HlSt where
  lanes : List (Nat × LaneSt)
  failed : List Nat
  subst : List (Nat × Nat)
  deriving DecidableEq, Repr

/-- Oncon: packets in the router in the order of their arrival (R381), the output served last and for each output the queue served last
(R367), open transactions, route sets (set × 65,536 + module; unlisted 0), ports, expected
neighbours of the ports (port, TOPO_ID × 2^20 + port × 2^16 + module), the expected topology of the system for the sweep
(module × 16 + port, PORT_NBR), breaks already forwarded, the break epoch, Headland links, resends of the flit in flight on each mesh link
(receiving field × 65,536 + sending field, R395). -/
structure LinkSt where
  queue : List Hop
  turn : Nat
  rr : List (Nat × Nat)
  txns : List Txn
  nextTxn : Nat
  routes : List (Nat × Nat)
  ports : List (Nat × PortSt)
  expect : List (Nat × Nat)
  topo : List (Nat × Nat)
  topoId : Nat
  sweep : Option Sweep
  breaks : List (Nat × Nat × Nat)
  epoch : Nat
  headland : List (Nat × HlSt)
  mesh : List (Nat × Nat)
  deriving DecidableEq, Repr

/-- An event of an ECC-protected word (R439) on its way to the Reeve: place (a word's first address), whether it was
uncorrectable, the symbol or bit position, the module time, the detecting source's number, and whether the word's last write since its
previous event was a scrub-rewrite (R440). -/
structure EccEvent where
  addr : Nat
  uncorr : Bool
  place : Nat
  time : Nat
  src : Nat
  scrubbed : Bool
  deriving DecidableEq, Repr

/-- A Harrow's place in its pass: next burst or word, passes completed, module time its pass began. -/
structure HarrowPos where
  next : Nat
  passes : Nat
  since : Nat
  deriving DecidableEq, Repr

/-- Stored-data protection beyond its registers (R439 to R447). Words are named by their first address. -/
structure EccSt where
  /-- words with an event since they were last written -/
  seen : List Nat
  /-- words whose last write was a scrub-rewrite -/
  scrubbed : List Nat
  /-- words queued for a scrub-rewrite (R445) -/
  rewrite : List Nat
  events : List EccEvent
  /-- events classified: word and module time (R440) -/
  history : List (Nat × Nat)
  /-- log entries with the elapsed module time at their last event (R442, R565) -/
  lastAt : List (Nat × Nat)
  vaultHarrow : List (Nat × HarrowPos)
  grnHarrow : HarrowPos
  ssHarrow : HarrowPos
  deriving DecidableEq, Repr

/-- A substitution under way (Table 13-5): the RET_CMD value, what is done for it (SCOPE of Table 13-4), its row, bank and target. -/
structure RetJob where
  value : Nat
  scope : Nat
  row : Nat
  bank : Nat
  target : Nat
  deriving DecidableEq, Repr

/-- Retirement (R448 to R452). -/
structure RetSt where
  /-- banks (core × 32 + bank) and bins (884,736 + bin) retired without a substitute -/
  gone : List Nat
  /-- spare rows used, by core × 32 + bank -/
  rows : List (Nat × Nat)
  /-- cores whose spare layer slice is in use -/
  slices : List Nat
  /-- spare bins in use -/
  bins : Nat
  job : Option RetJob
  /-- RET_CMD written in S2, performed after the return to S0 (R451) -/
  waiting : Option RetJob
  deriving DecidableEq, Repr

/-- A host request that waits (R52, R541, R586), and when it arrived. -/
structure HeldReq where
  req : HostReq
  since : Nat
  deriving DecidableEq, Repr

/-- The host interface beyond its registers: the link, its SPEED (Table 18-9), FLIT and CXL modes, WIDTH_ERR; functions in D3hot, functions
stopped by a Function Level Reset until enabled again (R601), MSI-X vectors unmasked and pending (function × 256 + vector), the HDM decoder
committed (R598), the 64-byte lines the host holds (R599), by local address, and the requests that wait, in order of arrival. -/
structure HostSt where
  link : Bool
  speed : Nat
  flit : Bool
  cxl : Bool
  widthErr : Bool
  d3 : List Nat
  off : List Nat
  unmasked : List Nat
  pend : List Nat
  hdm : Bool
  lines : List Nat
  held : List HeldReq
  deriving DecidableEq, Repr

/-- Where a re-shard job stands (Table 10-14). -/
inductive RshSt where
  | queued | holding | moving | waiting
  deriving DecidableEq, Repr

/-- A re-shard job (R341 to R343) with the copy of its record, maps and placement entries that the engine keeps. `plan`
holds for each listed stream the copies its sequences need on this module: source, target (global addresses), bytes;
`fills` the target placement entries (scratchpad offset of FILL) and their new value. -/
structure RshJob where
  part : Nat
  st : RshSt
  src : Nat
  dst : Nat
  entries : List (Nat × Nat)
  peers : List Nat
  sem : Nat
  semBase : Nat
  timeout : Nat
  plan : List (List (Nat × Nat × Nat))
  fills : List (Nat × Nat)
  tag : Nat
  /-- target places on this module (address, bytes) and scratchpad offsets of target FILL values, which an abort leaves undefined (R349) -/
  places : List (Nat × Nat)
  openFills : List Nat
  /-- holds taken so far -/
  held : Nat
  /-- moves of the copies under way -/
  moves : List Nat
  /-- code of an abort that waits for the writes under way, 0 for none (R349) -/
  abort : Nat
  /-- module time at which step 6 began -/
  since : Nat
  deriving DecidableEq, Repr

/-- A block reset under way (Table 14-11). -/
structure BlkJob where
  kind : Nat
  target : Nat
  since : Nat
  deriving DecidableEq, Repr

/-- A sleep entry in progress (Table 16-6): target state, blocks that have accepted (rows of Table 16-7), committed or not, module
time it was requested. -/
structure SleepEntry where
  target : Nat
  accepted : List Nat
  committed : Bool
  since : Nat
  deriving DecidableEq, Repr

/-- Power and thermal control beyond its registers (chapter 16). Power is in units of 0.1 mW. -/
structure PowerSt where
  /-- target voltage reached by every core domain (mV), body bias (mV), memory assist (Table 16-2) -/
  volt : Nat
  bias : Nat
  assist : Bool
  /-- elapsed module time at which the present ramp began; `volt` is the voltage it began from (R525) -/
  ramp : Nat
  /-- elapsed module time at which the last change of level ended (R522) -/
  moved : Option Nat
  /-- elapsed module time of the last isolation of a phase, by plot (R522) -/
  isolated : List (Nat × Nat)
  /-- lowest-numbered CEIL that R518 allows -/
  floor : Nat
  /-- huller share of each plot in force (R529); unlisted: none given yet -/
  hulShare : List (Nat × Nat)
  /-- demand each plot last sent (R528) -/
  demand : List (Nat × Nat)
  /-- duty of the fields of a plot, in 1/65,536 (R530, R531); unlisted: full -/
  duty : List (Nat × Nat)
  /-- lowest field duty (in 1/65,536) summed over the nanoseconds since `dutyFrom`, up to `dutyAt`; its average over the last 10 ms (R532) -/
  dutySum : Nat
  dutyAt : Nat
  dutyFrom : Nat
  dutyAvg : Nat
  /-- duty of the cores the thermal control throttles (R534) -/
  throttle : List (Nat × Nat)
  /-- cores whose diode is broken and not substituted (R536) -/
  broken : List Nat
  /-- phases made fallow (plot × 96 + phase), and spare phases in soft start by plot (R520) -/
  fallow : List Nat
  starting : List (Nat × Nat)
  /-- module time of the last write of COOL_IN (R539) -/
  coolAt : Option Nat
  /-- pending falls of the band of a vault (R239) -/
  falls : List (Nat × Nat)
  /-- `TimeSt.elapsed` at which the next recalibration of the vaults falls (R30); none before the end of STEP_VAULT and in S2 -/
  recal : Option Nat
  /-- gradient of each plot, µK per W per layer, from the seed image (R237) -/
  kp : List (Nat × Nat)
  /-- THERMTRIP# is latched (R535) -/
  tripped : Bool
  /-- load is shed (Table 15-8) -/
  shed : Bool
  sleep : Option SleepEntry
  /-- a wake is held until the entry ends (R543) -/
  wake : Bool
  deriving DecidableEq, Repr

/-- The activation journal's state (Table 15-4). -/
structure Journal where
  active : Nat
  trial : Nat
  trials : Nat
  stateA : Nat
  stateB : Nat
  floor : Nat
  verA : Nat
  verB : Nat
  deriving DecidableEq, Repr

/-- A download in progress (Table 15-5): its slot, bytes expected once UpdateComponent has named them. -/
structure UpdJob where
  slot : Nat
  size : Option Nat
  deriving DecidableEq, Repr

/-- Flash and seed image (chapter 15): the journal, devices made fallow, owner keys in force (slots 1–3), update
in progress and its stage (SEED_STAT.UPDATE), what downloads have programmed into the slots, SEC_VERSION of each slot's image, the image
in use (R461), the slot it came from (0 A, 1 B, 2 recovery, 3 none), devices whose last program at the present place failed, and the
journal and keys as STEP_SEED read them (R513). -/
structure SeedSt where
  journal : Journal
  fallow : List Nat
  keys : List (List Byte)
  upd : Option UpdJob
  stage : Nat
  slots : List (Nat × List Byte)
  sec : List (Nat × Nat)
  image : Option Image
  booted : Nat
  weak : List Nat
  seenJournal : Journal
  seenKeys : List (List Byte)
  deriving DecidableEq, Repr

/-- A bring-up step that runs: its outcome once its work is done (code and detail of Table 14-9, code 0 for DONE), its start, its bound in
ns (Table 14-4), and when a core fetched again its boot item (R473). -/
structure BringJob where
  code : Nat
  detail : Nat
  since : Nat
  bound : Nat
  again : List (Nat × Nat)
  deriving DecidableEq, Repr

/-- An edge of the wait-for graph (Table 17-19); what an edge waits for decides CYCLE and UNSIGNALLED. -/
structure WfgEdge where
  fromKind : Nat
  toKind : Nat
  cycle : Bool
  unsignalled : Bool
  remote : Bool
  reason : Nat
  fromId : Nat
  toId : Nat
  detail : Nat
  age : Nat
  step : Nat
  deriving DecidableEq, Repr

/-- Observation (chapter 17) beyond its registers: samples of a converter still to be marked STALE; the glean that is pending (its T);
shadow values by field key (unlisted 0), the tag of the last glean and the units whose tag carries VALID = 0 (fields, 2,000 for the
other blocks); trace sources whose next record carries LOST; the field named last (R576); a wait-for graph report under way (T, AUTO),
the waits recorded at T, the report complete (header, edges), and the waits already reported automatically; the time of the last trace record of
each source (R62). -/
structure ObsSt where
  stale : List (Nat × Nat)
  glean : Option Nat
  shadow : List (Nat × Nat)
  tag : Nat
  bad : List Nat
  lost : List Nat
  dbg : Option Nat
  wfg : Option (Nat × Bool)
  edges : Option (List WfgEdge)
  report : List (List Byte)
  seen : List (Nat × Nat × Nat)
  traceAt : List (Nat × Nat)
  deriving DecidableEq, Repr

/-- Resets (R456 to R458, R483): the standby stage runs (R616); PWR_OK, PERST# and WARM_RST# as taken; an emergency commit runs; the bring-up is of cold scope; the
step that runs; the level ALERT# keeps through a warm reset under way (R482): asserted or not. -/
structure RstSt where
  standby : Bool
  pwrOk : Bool
  perst : Bool
  warm : Bool
  emergency : Bool
  cold : Bool
  job : Option BringJob
  alert : Option Bool
  deriving DecidableEq, Repr

/-- Data an open step has written (R171): `len` bytes from `addr`, in the scratch of a core or at a module-local address. -/
structure Wrote where
  ring : Nat
  step : Nat
  core : Option Nat
  addr : Nat
  len : Nat
  deriving DecidableEq, Repr

/-! ## The machine -/

/-- The orderable part (R1). -/
inductive PartNo where
  | a64 | a128
  deriving DecidableEq, Repr

/-- The module. -/
structure State where
  /-- commands waiting, first in first out -/
  pending : List Instr
  partNo : PartNo
  time : TimeSt
  /-- register fields written since reset: key of Fld and copy; unlisted reads `cfg`, then the table's reset value -/
  regs : List (Nat × Nat)
  /-- reset values the seed image in use gives (R470), by the same key -/
  cfg : List (Nat × Nat)
  /-- the high halves latched by low reads (R552): block, source, register offset, value -/
  latches : List (Nat × Src × Nat × Nat)
  /-- memory at module-local addresses; unlisted reads 0 (R109) -/
  mem : List Host.Cell
  /-- bursts of vaults whose valid bit is set (R438), by address ÷ 256, rising -/
  valid : List Nat
  ecc : EccSt
  ret : RetSt
  /-- first byte of each chaff granule of vaults, bins and seedstore (Table 12-5), rising -/
  chaff : List Nat
  /-- cores by logical number; unlisted is Core.fresh -/
  cores : List (Nat × Core)
  fields : List (Nat × Field)
  rings : List (Nat × Ring)
  parts : List (Nat × Part)
  allocs : List Allocation
  /-- GEN last used of each allocation slot (R595) -/
  allocGen : List (Nat × Nat)
  /-- valid descriptors: partition × 65,536 + index (R176) -/
  descs : List Nat
  /-- staged bytes: partition × 1,024 plus 0x80 for DESC_STAGE, 0x180 for STRM_STAGE, 0x200 for MDL_STAGE -/
  stage : List (Nat × Byte)
  /-- STRM_READ bytes by partition -/
  strmRead : List (Nat × List Byte)
  /-- LAST_FAULT by partition -/
  lastFault : List (Nat × FaultRec)
  /-- partition served last by the front end (R134) -/
  served : Nat
  /-- rings whose head entry is ready, with the module time since which it is (R134) -/
  ready : List (Nat × Nat)
  stalls : List StallRep
  /-- `TimeSt.elapsed` when the fields as a whole last left reset (STEP_FIELD) or S2; none: they are in reset (R36, R42) -/
  fieldsUp : Option Nat
  /-- values of STALL_CTL.BOUND_US with `TimeSt.elapsed` at which each was written, newest first (R39, R40) -/
  bounds : List (Nat × Nat)
  /-- pauses of stall timers (Table 2-4, R451), newest first -/
  pauses : List Pause
  errQ : List StepErr
  faultQ : List FaultRec
  moves : List Move
  nextMove : Nat
  contribs : List Contrib
  /-- SCATTER_SAT of the Granary (R203) -/
  scatterSat : Nat
  det : List DetRes
  waits : List SemWait
  /-- misdelivery queue (R270) -/
  mdq : List Bounced
  /-- lines present in the seedstore cache, least recently used first (R253) -/
  lines : List Line
  /-- bins whose transition runs, 1 for one that changes the set of cache bins (R251) -/
  binMoves : List (Nat × Nat)
  nextAsk : Nat
  /-- role code images in the system bin: offset and length, by image index (R629, R473) -/
  roles : List (Nat × Nat)
  /-- boot work items that have ended: core and status (R473) -/
  bootEnd : List (Nat × Nat)
  /-- history of confirmed faults by unit: (unit, module time) (R427) -/
  history : List (Nat × Nat)
  mgmt : MgmtSt
  alm : AlmSt
  link : LinkSt
  host : HostSt
  /-- the stream table is enabled (R246) -/
  strmOn : Bool
  /-- re-shard jobs, in acceptance order (R340) -/
  rsh : List RshJob
  blk : Option BlkJob
  /-- permanent cores that wait for their field's spare, with the CAUSE that made them permanent (R428) -/
  subst : List (Nat × Nat)
  /-- core that stands on the spare position of a field, by field (R13, R428) -/
  spare : List (Nat × Nat)
  power : PowerSt
  seed : SeedSt
  rst : RstSt
  obs : ObsSt
  /-- allocations whose release waits for moves (R191): partition and slot -/
  rel : List (Nat × Nat)
  /-- how often the scratch of every core has become undefined (Table 14-3) -/
  scr : Nat
  /-- what the open steps have written, newest first: undefined once the step is cancelled (R171) -/
  wrote : List Wrote
  /-- how often data have become undefined so: the model's own, read with Config.undefByte -/
  undefs : Nat
  /-- runs of bytes written while a bank task computes, oldest first: address and length (R285) -/
  hits : List (Nat × Nat)
  /-- descriptor commands under way (R174, R176, Table 6-4), at most one of a partition -/
  descJobs : List DescJob
  /-- areas in the scratchpad that bins no longer held, until a write of the register names one again (R175): partition of a DESC_TABLE,
  32 + partition of a DESC_DET -/
  descLost : List Nat
  out : List Out
  deriving DecidableEq, Repr

/-! ## Stops -/

/-- Faults of the model. No meaning raises one: every behaviour the spec gives the block ends in a next state (safe). -/
inductive Fault where
  /-- nothing raises it: safe -/
  | unreachable
  deriving DecidableEq, Repr

/-- Refusals of the model. -/
inductive Refusal where
  /-- the command has no meaning yet, raised by its arm of the dispatch: safe -/
  | notModelled (mnemonic : String)
  deriving DecidableEq, Repr

/-! ## After reset -/

/-- A core that nothing has used since reset. -/
def Core.fresh : Core :=
  { regs := [], regChaff := [], pc := 0, wi := none, queue := [], layer := 0, oper := 0, warn := 0, timeS := 0,
    status := 0, wait := none, since := 0, nextSeq := 0, sync := none, image := none, instrCount := 0, lines := [], epoch := 0,
    qm := [], qv := [], qh := [], qmv := [], qs := [], shadow := none, active := none, gated := false, wake := 0, tileLate := false, hul := [],
    verify := [], scratch := [], undef := 0, schaff := [], vqMesh := [], vqGran := [], hold := false, rot := 5, envs := [] }

/-- A lane that holds no flit. -/
def LaneSt.fresh : LaneSt := { resends := 0, replay := [], recv := [] }
/-- A Headland link after reset. -/
def HlSt.fresh : HlSt := { lanes := [], failed := [], subst := [] }

/-- A field that nothing has used since reset. -/
def Field.fresh : Field :=
  { droop := false, held := false, resetting := false, slow := 0, halted := false, since := 0, window := 0, hot := none }

/-- An Oncon port after reset (Table 11-6). -/
def PortSt.fresh : PortSt :=
  { out := [], rr := 15, retry := [], txSeq := 0, dedUsed := [], shUsed := 0, dedSeen := [], shSeen := 0, rxSeq := 0,
    nak := false, naked := none, run := 0, rxDed := [], rxSh := 0, fec := [], cause := 0, signal := false, measured := false, twoBad := false }

/-- A ring at its reset state (R140). -/
def Ring.fresh : Ring :=
  { tail := 0, steps := [], next := none, discard := [], held := [], replay := none, hold := none,
    disabling := false, since := 0, fetched := none, lost := none, late := none }

/-- Reset values by copy that the register map gives as seed image values: GRN_BIN_CFG of bins 0 to 15 CACHE, of the bins in
fixed use SYSTEM (Tables 8-1, 8-3); keys as Fld.key. -/
def State.resetCfg : List (Nat × Nat) :=
  ((List.range 16).map fun i => (F.grnBinCfg_MODE.id + 1024 * i, 1)) ++ ((List.range 5).map fun i => (F.grnBinCfg_MODE.id + 1024 * (59 + i), 3))

/-- The module right after a cold reset. -/
def State.reset : State :=
  { pending := [], partNo := .a128,
    time := { elapsed := 0, counter := 0, undisc := true, state := 0, slew := 0, tick := 0,
              ptp := { foreign := [], master := none, waiting := none, ms := 0, mags := [], delay := 0, interval := 1000000000, lastSync := 0, held := 0 } },
    regs := [(F.rstCause_CAUSE.id, 1)], cfg := State.resetCfg, latches := [], mem := [], valid := [],
    ecc := { seen := [], scrubbed := [], rewrite := [], events := [], history := [], lastAt := [], vaultHarrow := [],
             grnHarrow := ⟨0, 0, 0⟩, ssHarrow := ⟨0, 0, 0⟩ },
    ret := { gone := [], rows := [], slices := [], bins := 0, job := none, waiting := none }, chaff := [], cores := [], fields := [], rings := [],
    parts := [], allocs := [], allocGen := [], descs := [], stage := [], strmRead := [], lastFault := [],
    served := 31, ready := [], stalls := [], fieldsUp := none, bounds := [], pauses := [], errQ := [], faultQ := [], moves := [], nextMove := 0, contribs := [], scatterSat := 0, det := [],
    waits := [], mdq := [], lines := [], binMoves := [], nextAsk := 0, roles := [], bootEnd := [], history := [],
    mgmt := { evSeq := 0, evQueue := [], evHist := [], evTokens := 4096, evRefill := 0, dropped := 0, receiver := false, poll := [], eid := 0,
              i3c := none, ip := none, mask := 0, gateway := 0, sensors := [] },
    alm := { queue := [], tokens := 1024, refill := 0, segs := [[]], used := 32, erases := 512, boot := 0, control := 1, ctlUsed := 32, compactAt := none },
    link := { queue := [], turn := 13, rr := [], txns := [], nextTxn := 0, routes := [], ports := [], expect := [], topo := [], topoId := 0,
              sweep := none, breaks := [], epoch := 0, headland := [], mesh := [] },
    host := { link := false, speed := 0, flit := false, cxl := false, widthErr := false, d3 := [], off := [], unmasked := [], pend := [],
              hdm := false, lines := [], held := [] },
    strmOn := false, rsh := [], blk := none,
    subst := [], spare := [],
    power := { volt := 700, bias := 50, assist := false, ramp := 0, moved := none, isolated := [], dutySum := 0, dutyAt := 0, dutyFrom := 0, dutyAvg := 65536, floor := 0, hulShare := [], demand := [], duty := [], throttle := [],
               broken := [], fallow := [], starting := [], coolAt := none, falls := [], recal := none, kp := [], tripped := false, shed := false,
               sleep := none, wake := false },
    seed := { journal := { active := 0, trial := 0xFF, trials := 0, stateA := 3, stateB := 0, floor := 0, verA := 0, verB := 0 },
              fallow := [], keys := [], upd := none, stage := 0, slots := [], sec := [], image := none, booted := 3, weak := [],
              seenJournal := { active := 0, trial := 0xFF, trials := 0, stateA := 3, stateB := 0, floor := 0, verA := 0, verB := 0 },
              seenKeys := [] },
    obs := { stale := [], glean := none, shadow := [], tag := 0, bad := [], lost := [], dbg := none, wfg := none, edges := none,
             report := [], seen := [], traceAt := [] }, rel := [],
    rst := { standby := true, pwrOk := true, perst := false, warm := false, emergency := false, cold := true, job := none, alert := none },
    scr := 1, wrote := [], undefs := 0, hits := [], descJobs := [], descLost := [], out := [] }

end Sys2Proof.Machine
end

