-- ==== Sys2Proof/Machine/Ops.lean ====
section
/-!
DEFINITION. Ops.lean: the named operations over tables, registers, memory, checks and the module's own reports, which
every command's meaning is written with.
-/
namespace Sys2Proof.Machine

open Host (Outcome)

/-! ## Sparse tables -/

/-- The entry of key `x`, if listed. -/
def alFind {α : Type} : List (Nat × α) → Nat → Option α
  | [], _ => none
  | (k, v) :: t, x => if k = x then some v else alFind t x

/-- The entry of key `x`, or `d`. -/
def alGet {α : Type} (d : α) (l : List (Nat × α)) (x : Nat) : α := (alFind l x).getD d

/-- Put an entry in its place, replacing one of the same key. -/
def alPut {α : Type} : List (Nat × α) → Nat → α → List (Nat × α)
  | [], x, v => [(x, v)]
  | (k, w) :: t, x, v =>
    if x < k then (x, v) :: (k, w) :: t
    else if x = k then (x, v) :: t
    else (k, w) :: alPut t x v

/-- Take the entry of a key out. -/
def alDel {α : Type} (l : List (Nat × α)) (x : Nat) : List (Nat × α) := l.filter fun e => e.1 ≠ x

/-- Rising sets of numbers. -/
def setIns : List Nat → Nat → List Nat
  | [], x => [x]
  | k :: t, x => if x < k then x :: k :: t else if x = k then k :: t else k :: setIns t x

/-- Take a number out of a set. -/
def setDel (l : List Nat) (x : Nat) : List Nat := l.filter fun e => e ≠ x

/-! ## Bytes and numbers -/

/-- The number that little-endian bytes spell. -/
def leNat : List Byte → Nat
  | [] => 0
  | b :: t => b.toNat + 256 * leNat t

/-- `n` little-endian bytes of a number. -/
def toLE : Nat → Nat → List Byte
  | 0, _ => []
  | n + 1, v => BitVec.ofNat 8 v :: toLE n (v / 256)

/-- Number of one flag. -/
def one (b : Bool) : Nat := if b then 1 else 0

/-- Bits [lo + w − 1 : lo] of a number. -/
def bitsOf (v lo w : Nat) : Nat := (v / 2 ^ lo) % 2 ^ w

/-- Bit `i` of a number. -/
def bitAt (v i : Nat) : Bool := (v / 2 ^ i) % 2 = 1

/-- Bytes `at` to `at + n − 1` of a list of bytes; missing bytes read zero. -/
def sliceB (l : List Byte) (at_ n : Nat) : List Byte :=
  let t := (l.drop at_).take n
  t ++ List.replicate (n - t.length) 0

/-- A little-endian field of a list of bytes. -/
def fieldB (l : List Byte) (at_ n : Nat) : Nat := leNat (sliceB l at_ n)

/-- Every byte of a range of a list is zero. -/
def zeroB (l : List Byte) (at_ n : Nat) : Bool := (sliceB l at_ n).all (· = 0)

/-- Put bytes into a list at a place. -/
def putB (l : List Byte) (at_ : Nat) (bs : List Byte) : List Byte :=
  l.take at_ ++ bs ++ l.drop (at_ + bs.length)

/-- Sign-extend the low `w` bits of a number. -/
def signed (v w : Nat) : Int :=
  let x := v % 2 ^ w
  if x < 2 ^ (w - 1) then (x : Int) else (x : Int) - (2 : Int) ^ w

/-! ## Checks -/

/-- One step of the module check (R159) for one bit, most significant first. -/
def chkBit (crc : BitVec 16) (b : Bool) : BitVec 16 :=
  let top := crc.getLsbD 15 != b
  let sh := crc <<< 1
  if top then sh ^^^ 0x8BB7 else sh

/-- The module check over one byte. -/
def chkByte (crc : BitVec 16) (b : Byte) : BitVec 16 :=
  [7, 6, 5, 4, 3, 2, 1, 0].foldl (fun c i => chkBit c (b.getLsbD i)) crc

/-- The module check (R159): CRC with polynomial 0x8BB7 from 0xFFFF, bytes in order, most significant bit first. -/
def moduleCheck (bs : List Byte) : BitVec 16 := bs.foldl chkByte 0xFFFF

/-- One byte of CRC-32C (R362), reflected. -/
def crc32cByte (crc : BitVec 32) (b : Byte) : BitVec 32 :=
  [0, 1, 2, 3, 4, 5, 6, 7].foldl (fun c _ =>
    if c.getLsbD 0 then (c >>> 1) ^^^ 0x82F63B78 else c >>> 1) (crc ^^^ b.setWidth 32)

/-- CRC-32C with initial value and final exclusive OR 0xFFFF_FFFF (R362). -/
def crc32c (bs : List Byte) : BitVec 32 := (bs.foldl crc32cByte 0xFFFFFFFF) ^^^ 0xFFFFFFFF

/-- The last two of `n` bytes hold the module check of the others (R142, R161, R181, R317). -/
def checkOk (bs : List Byte) (n : Nat) : Bool :=
  fieldB bs (n - 2) 2 = (moduleCheck (sliceB bs 0 (n - 2))).toNat

/-- Bytes with their module check after them. -/
def withCheck (bs : List Byte) : List Byte := bs ++ toLE 2 (moduleCheck bs).toNat

/-! ## Registers -/

/-- The place of copy `i` of a field in the register table of State. -/
def Fld.key (f : Fld) (i : Nat) : Nat := f.id + 1024 * i

/-- Value of a field of register copy `i`: the value last put there, else the seed image's reset value (R470), else the
reset value of the register map. -/
def State.fget (s : State) (f : Fld) (i : Nat) : Nat :=
  match alFind s.regs (f.key i) with
  | some v => v
  | none => (alFind s.cfg (f.key i)).getD f.reset

/-- The field as a flag. -/
def State.flag (s : State) (f : Fld) (i : Nat) : Bool := s.fget f i ≠ 0

/-- Put a value into a field. -/
def State.fset (s : State) (f : Fld) (i v : Nat) : State :=
  { s with regs := alPut s.regs (f.key i) (v % 2 ^ f.width) }

/-- Put a field back to its reset value. -/
def State.fclear (s : State) (f : Fld) (i : Nat) : State := { s with regs := alDel s.regs (f.key i) }

/-- Add to a counter; it wraps at its width (R552). -/
def State.fadd (s : State) (f : Fld) (i n : Nat) : State := s.fset f i (s.fget f i + n)

/-- The bits of a field in a word of its register. -/
def Fld.of (f : Fld) (w : Nat) : Nat := bitsOf w f.lo f.width

/-- A register as a word: its fields in their places (R9: reserved bits zero); WO fields read zero (R8). -/
def State.regWord (s : State) (r : RegDef) (i : Nat) : Nat :=
  r.fields.foldl (fun a f => a + (if f.acc = .wo then 0 else s.fget f i * 2 ^ f.lo)) 0

/-- What a write does to one field that has no behaviour of its own, by its access code (R8): sets RW, WO and RWS,
clears W1C bits written as 1, ignores RO. -/
def State.writeField (s : State) (f : Fld) (i w : Nat) : State :=
  match f.acc with
  | .ro => s
  | .w1c => s.fset f i ((BitVec.ofNat f.width (s.fget f i) &&& ~~~ BitVec.ofNat f.width (f.of w)).toNat)
  | .rw | .wo | .rws => s.fset f i (f.of w)

/-- A write of a whole word to a register whose fields have no behaviour of their own. -/
def State.writeReg (s : State) (r : RegDef) (i w : Nat) : State := r.fields.foldl (fun a f => a.writeField f i w) s

/-! ## Cores, fields, rings, partitions -/

/-- A core by its logical number; one not listed is as the last reset of the whole module left it. -/
def State.core (s : State) (n : Nat) : Core := alGet { Core.fresh with undef := s.scr } s.cores n
/-- Put a core. -/
def State.setCore (s : State) (n : Nat) (c : Core) : State := { s with cores := alPut s.cores n c }
/-- Change a core. -/
def State.onCore (s : State) (n : Nat) (f : Core → Core) : State := s.setCore n (f (s.core n))
/-- A field. -/
def State.field (s : State) (n : Nat) : Field := alGet Field.fresh s.fields n
/-- Put a field. -/
def State.setField (s : State) (n : Nat) (c : Field) : State := { s with fields := alPut s.fields n c }
/-- A ring. -/
def State.ring (s : State) (n : Nat) : Ring := alGet Ring.fresh s.rings n
/-- Put a ring. -/
def State.setRing (s : State) (n : Nat) (c : Ring) : State := { s with rings := alPut s.rings n c }
/-- Change a ring. -/
def State.onRing (s : State) (n : Nat) (f : Ring → Ring) : State := s.setRing n (f (s.ring n))
/-- A partition, if it exists (R593). -/
def State.partOf (s : State) (p : Nat) : Option Part := alFind s.parts p
/-- The next place in the issue order of a partition's front end (R135). -/
def State.feSeq (s : State) (p : Nat) : Nat := ((s.partOf p).map Part.feSeq).getD 0

/-- The field of a core: plot × 288 + field index (R11). -/
def fieldOfCore (n : Nat) : Nat := n / 24
/-- The plot of a core (R11). -/
def plotOfCore (n : Nat) : Nat := n / 6912
/-- The partition of a ring (R136). -/
def partOfRing (r : Nat) : Nat := r / 4

/-- The partition a core belongs to, if any (R593). -/
def State.partOfCore (s : State) (n : Nat) : Option Nat :=
  (s.parts.find? fun x => decide (x.2.first ≤ n ∧ n < x.2.first + x.2.count)).map Prod.fst

/-! ## Time -/

/-- Seconds of the module time counter. -/
def State.timeS (s : State) : Nat := s.time.counter / 1000000000
/-- Nanoseconds of the module time counter. -/
def State.timeNs (s : State) : Nat := s.time.counter % 1000000000

/-! ## Addresses and memory -/

/-- Regions of the module-local address map (Table 0-7). -/
inductive Region where
  | vault (core off : Nat) | bin (k off : Nat) | seedstore (off : Nat) | registers (off : Nat) | unmapped
  deriving DecidableEq, Repr

/-- Populated seedstore bytes (Table 0-1). -/
def PartNo.capacity : PartNo → Nat
  | .a64 => 0x1000000000
  | .a128 => 0x2000000000

/-- The region an address lies in (R15, R16). -/
def State.region (s : State) (a : Nat) : Region :=
  if a < 0x3600000000 then .vault (a / 0x800000) (a % 0x800000)
  else if 0x4000000000 ≤ a ∧ a < 0x4040000000 then .bin ((a - 0x4000000000) / 0x1000000) (a % 0x1000000)
  else if 0x8000000000 ≤ a ∧ a < 0x8000000000 + s.partNo.capacity then .seedstore (a - 0x8000000000)
  else if 0xF000000000 ≤ a ∧ a < 0xF010000000 then .registers (a - 0xF000000000)
  else .unmapped

/-- Channel of a burst of the seedstore, by its offset (R275). -/
def seedChannel (o : Nat) : Nat := (o / 256 % 64) ^^^ (o / 16384 % 64)

/-- First address of a core's vault (R15). -/
def vaultBase (n : Nat) : Nat := n * 0x800000
/-- First address of a bin (R245). -/
def binBase (k : Nat) : Nat := 0x4000000000 + k * 0x1000000

/-- The ranges of memory a retirement replaces: first address and length. -/
def RetJob.range (j : RetJob) (nospare : Bool) : Nat × Nat :=
  if j.scope = 3 then (binBase j.target, 0x1000000)
  else if j.scope = 1 then (vaultBase j.target + j.bank * 0x40000 + j.row * 2048, 2048)
  else if nospare then (vaultBase j.target + j.bank * 0x40000, 0x40000)
  else (vaultBase j.target + j.bank / 4 * 0x100000, 0x100000)

/-- Does a substitution hold new accesses to `n` bytes from local address `a` (step 1 of Table 13-5). -/
def State.retHolds (s : State) (a n : Nat) : Bool :=
  match s.ret.job with
  | some j => let (b, k) := j.range false; decide (a < b + k ∧ b < a + n)
  | none => false

/-- Does a substitution hold new tasks in a bank (Table 13-5). -/
def State.retHeld (s : State) (n b : Nat) : Bool :=
  match s.ret.job with
  | some j => j.target = n && ((j.scope = 1 && j.bank = b) || (j.scope = 2 && j.bank / 4 = b / 4))
  | none => false

/-- Does a pending reset of the seedstore controller hold new accesses to bytes that end at local address `hi` (R480). -/
def State.blkHolds (s : State) (hi : Nat) : Bool := match s.blk with | some b => b.kind = 4 && decide (0x8000000000 < hi) | none => false

/-- Bytes of a chaff granule at an address: 32 in a vault, 8 in a bin, 256 in the seedstore (Table 12-5). -/
def granule (a : Nat) : Nat := if a < 0x4000000000 then 32 else if a < 0x8000000000 then 8 else 256

/-- The granule an address lies in, by its first byte. -/
def granuleOf (a : Nat) : Nat := a / granule a * granule a

/-- A byte of memory; what nothing has written reads zero (R109, R210, R277). -/
def memGet (m : List Host.Cell) (a : Nat) : Byte := alGet 0 m a

/-- Write a byte, keeping the canonical form: a zero byte is not listed. -/
def memSet (m : List Host.Cell) (a : Nat) (b : Byte) : List Host.Cell :=
  if b = 0 then alDel m a else alPut m a b

/-- Write bytes at successive addresses. -/
def memSetN (m : List Host.Cell) : Nat → List Byte → List Host.Cell
  | _, [] => m
  | a, b :: t => memSetN (memSet m a b) (a + 1) t

/-- Addresses strictly rise and no listed byte is zero: the canonical form of memory. -/
def memWf : List Host.Cell → Bool
  | [] => true
  | [(_, b)] => b ≠ 0
  | (a, b) :: (c, d) :: t => b ≠ 0 && decide (a < c) && memWf ((c, d) :: t)

/-- The number of a retired unit an address would lie in: bank core × 32 + bank, bin 884,736 + bin (R452). -/
def unitOf (a : Nat) : Nat :=
  if a < 0x3600000000 then a / 0x40000 else if 0x4000000000 ≤ a ∧ a < 0x4040000000 then 884736 + (a - 0x4000000000) / 0x1000000
  else 0xFFFFFFFF

/-- Does an address lie in a bank or bin retired without a substitute (R452). -/
def State.goneAt (s : State) (a : Nat) : Bool := s.ret.gone.contains (unitOf a)

/-- Read a byte of memory; a retired bank or bin reads zero (R452). -/
def State.rd8 (s : State) (a : Nat) : Byte := if s.goneAt a then 0 else memGet s.mem a

/-- Read `n` bytes of memory. -/
def State.rdN (s : State) (a : Nat) : Nat → List Byte
  | 0 => []
  | n + 1 => s.rd8 a :: s.rdN (a + 1) n

/-- Does the granule of an address carry chaff. -/
def State.isChaff (s : State) (a : Nat) : Bool := s.goneAt a || s.chaff.contains (granuleOf a)

/-- Bursts on the seedstore chaff list (R415). -/
def State.ssChaff (s : State) : Nat := (s.chaff.filter (fun a => decide (0x8000000000 ≤ a))).length

/-- The granules that a run of `n` bytes from `a` touches. -/
def granules (a n : Nat) : List Nat :=
  if n = 0 then [] else
  let g := granule a
  (List.range ((a + n - 1) / g - a / g + 1)).map fun i => (a / g + i) * g

/-- Chaff after a write of bytes with their chaff marks at `a` (R415): a granule that received a chaff byte is marked; one
covered whole by clean bytes is cleared; any other keeps its mark. -/
def chaffAfter (ch : List Nat) (a : Nat) (marks : List Bool) : List Nat :=
  (granules a marks.length).foldl (fun c g =>
    let sz := granule g
    let part := (marks.drop (g - a)).take (sz - (a - g))
    if part.any id then setIns c g
    else if a ≤ g ∧ g + sz ≤ a + marks.length then setDel c g
    else c) ch

/-- Bursts of vaults that a write touches, by address ÷ 256. -/
def vaultBursts (a n : Nat) : List Nat :=
  if n = 0 ∨ 0x3600000000 ≤ a then [] else (List.range ((a + n - 1) / 256 - a / 256 + 1)).map fun i => a / 256 + i

/-- The ECC state after a write of `n` bytes at `a`: a word written is no longer one with an event, nor one last written by
a scrub-rewrite; a queued scrub-rewrite of a word written whole is dropped (R439, R440, R445). -/
def EccSt.written (e : EccSt) (a n : Nat) : EccSt :=
  let hit (w : Nat) : Bool := decide (w < a + n ∧ a < w + granule w)
  let whole (w : Nat) : Bool := decide (a ≤ w ∧ w + granule w ≤ a + n)
  { e with seen := e.seen.filter (fun w => !hit w), scrubbed := e.scrubbed.filter (fun w => !hit w),
           rewrite := e.rewrite.filter (fun w => !whole w) }

/-- The value of a semaphore that poisons it (R420). -/
def poison : Nat := 0xFFFFFFFFFFFFFFFF

/-- Is a semaphore's value one that ends a wait: the awaited value, or poison (R57, R420). -/
def SemWait.reached (w : SemWait) (v : Nat) : Bool := v = poison || (if w.eq then v = w.value else decide (w.value ≤ v))

/-- A wait sees a write of `n` bytes at `a` that leaves memory `m` and chaff `ch`: it is over once its semaphore has held the awaited
value, whatever comes after (R57). -/
def SemWait.see (w : SemWait) (m : List Host.Cell) (ch : List Nat) (a n : Nat) : SemWait :=
  if w.met.isNone && decide (a < w.sem + 8 ∧ w.sem < a + n) then
    let v := leNat ((List.range 8).map fun i => memGet m (w.sem + i))
    if w.reached v then { w with met := some (v = poison || ch.contains (granuleOf w.sem)) } else w
  else w

/-- Does a bank task compute (R217). -/
def State.scanning (s : State) : Bool := s.cores.any fun x => x.2.hul.any fun h => h.tasks.any fun t => t.st = .computing

/-- Write bytes with chaff marks into memory at a local address: the bytes, the chaff (R415), the valid bits of vault
bursts (R438), what waits and bank tasks see of it (R57, R285). A write that would add a burst to a full seedstore chaff list is not performed and is counted (R415). A
write into a retired bank or bin is not performed (R452). -/
def State.wrMarked (s : State) (a : Nat) (bs : List (Byte × Bool)) : State :=
  let ch := chaffAfter s.chaff a (bs.map Prod.snd)
  if 0x8000000000 ≤ a ∧ 65536 < (ch.filter (fun x => decide (0x8000000000 ≤ x))).length then
    s.fadd F.chaffRefused_COUNT 0 1
  else if s.goneAt a then s
  else
    let m := memSetN s.mem a (bs.map Prod.fst)
    { s with mem := m, chaff := ch, ecc := s.ecc.written a bs.length,
             valid := (vaultBursts a bs.length).foldl setIns s.valid,
             waits := s.waits.map fun w => w.see m ch a bs.length,
             hits := if s.scanning then s.hits ++ [(a, bs.length)] else [] }

/-- Write clean bytes into memory. -/
def State.wr (s : State) (a : Nat) (bs : List Byte) : State := s.wrMarked a (bs.map fun b => (b, false))

/-- Zero a range of memory and clear its chaff: what zeroing a bin or the seedstore does (Table 8-4, R277). -/
def State.zeroRange (s : State) (a n : Nat) : State :=
  { s with mem := s.mem.filter (fun c => ¬ (a ≤ c.1 ∧ c.1 < a + n)),
           chaff := s.chaff.filter (fun c => ¬ (a ≤ c ∧ c < a + n)), ecc := s.ecc.written a n }

/-! ## The scratchpad offset space of a partition (R252) -/

/-- The SCRATCH bin of partition `p` with slot `slot`. -/
def State.binOfSlot (s : State) (p slot : Nat) : Option Nat :=
  (List.range 64).find? fun k =>
    s.fget F.grnBinCfg_MODE k = 2 && s.fget F.grnBinCfg_OWNER k = p && s.fget F.grnBinCfg_SLOT k = slot

/-- Number of SCRATCH bins of a partition. -/
def State.binsOf (s : State) (p : Nat) : Nat :=
  ((List.range 64).filter fun k => s.fget F.grnBinCfg_MODE k = 2 && s.fget F.grnBinCfg_OWNER k = p).length

/-- The local address of an offset in a partition's scratchpad offset space. -/
def State.spAddr (s : State) (p off : Nat) : Option Nat :=
  (s.binOfSlot p (off / 0x1000000)).map fun k => binBase k + off % 0x1000000

/-- Does a span of offsets lie wholly within the partition's scratchpad. -/
def State.spHas (s : State) (p off n : Nat) : Bool := off + n ≤ s.binsOf p * 0x1000000

/-- Read `n` bytes at an offset of the scratchpad; none when they lie beyond the partition's bins. -/
def State.spRead (s : State) (p off n : Nat) : Option (List Byte) :=
  if s.spHas p off n then
    some ((List.range n).map fun i => ((s.spAddr p (off + i)).map s.rd8).getD 0)
  else none

/-- Does any byte of a span of the scratchpad carry chaff. -/
def State.spChaff (s : State) (p off n : Nat) : Bool :=
  (List.range n).any fun i => ((s.spAddr p (off + i)).map s.isChaff).getD false

/-- Write bytes at an offset of the scratchpad. -/
def State.spWrite (s : State) (p off : Nat) (bs : List Byte) : State :=
  match s.spAddr p off with
  | some a => s.wr a bs
  | none => s

/-! ## Descriptor table, staging area: areas of a SCRATCH bin only the module's engines write (R249) -/

/-- Does the address lie in the area (OFFSET × 4 KiB, size) of the partition's scratchpad. -/
def State.inArea (s : State) (p off size a : Nat) : Bool :=
  match s.region a with
  | .bin k o =>
    if s.fget F.grnBinCfg_MODE k = 2 && s.fget F.grnBinCfg_OWNER k = p then
      let x := s.fget F.grnBinCfg_SLOT k * 0x1000000 + o
      off ≤ x && x < off + size
    else false
  | _ => false

/-- The descriptor table or the deterministic staging area of a partition (R249). -/
def State.engineArea (s : State) (p a : Nat) : Bool :=
  s.inArea p (s.fget F.descTable_OFFSET p * 4096) (s.fget F.descTable_COUNT p * 128) a ||
  s.inArea p (s.fget F.descDet_OFFSET p * 4096) (s.fget F.descDet_SIZE p * 4096) a

/-- Status of an access of a partition's core or front end to a local address (R16, R249): 0, UNMAPPED or NOT_OWNED. -/
def State.access (s : State) (p a : Nat) (write : Bool) : Nat :=
  match s.region a with
  | .vault _ _ | .seedstore _ => 0
  | .bin k _ =>
    if s.fget F.grnBinCfg_MODE k = 2 && s.fget F.grnBinCfg_OWNER k = p && !(write && s.engineArea p a) then 0
    else 0x0A02
  | .registers _ | .unmapped => 0x0A01

/-! ## Reports: events, Almanac records, faults, command errors -/

/-- Send something out of the module. -/
def State.emit (s : State) (o : Out) : State := { s with out := s.out ++ [o] }

/-- Refill of a burst allowance: `rate` per second up to `cap`, from `last` to now. -/
def refill (tokens last now rate cap : Nat) : Nat := min cap (tokens + (now - last) * rate / 1000000000)

/-- The time an allowance is refilled up to: `now` once it is full, else the time of the last whole admission gained. -/
def refilledTo (tokens last now rate cap : Nat) : Nat :=
  if cap ≤ tokens + (now - last) * rate / 1000000000 then now else last + (now - last) * rate / 1000000000 * (1000000000 / rate)

/-- Has STEP_TOPO loaded the module ID (R554, R559). -/
def State.hasId (s : State) : Bool := (alFind s.regs (F.oncSelf_MODULE_ID.key 0)).isSome
/-- The module ID, or 0xFFFF before STEP_TOPO has loaded it. -/
def State.moduleId (s : State) : Nat := if s.hasId then s.fget F.oncSelf_MODULE_ID 0 else 0xFFFF

/-- Queue an event (R560, R561): it takes the next SEQ; beyond the admitted rate it is counted and not sent. -/
def State.event (s : State) (kind : Nat) (body : List Nat) : State :=
  let m := s.mgmt
  let tok := refill m.evTokens m.evRefill s.time.elapsed 2000 4096
  let upTo := refilledTo m.evTokens m.evRefill s.time.elapsed 2000 4096
  let e : Event := { seq := m.evSeq, kind := kind, time := s.time.counter, undisc := s.time.undisc,
                     noId := !s.hasId, moduleId := s.moduleId, body := body }
  if tok = 0 then
    { s with mgmt := { m with evSeq := m.evSeq + 1, evTokens := 0, evRefill := upTo, dropped := m.dropped + 1 } }
      |>.fset F.alertStatus_EVT_DROP 0 1
  else
    { s with mgmt := { m with evSeq := m.evSeq + 1, evTokens := tok - 1, evRefill := upTo,
                              evQueue := m.evQueue ++ [e] } }

/-- Kinds of Almanac record that are map kinds (Table 15-7). -/
def almMapKind (k : Nat) : Bool :=
  k = 3 || k = 4 || k = 5 || k = 8 || k = 0xC || k = 0xE0 || k = 0xF0 || k = 0xF1 || k = 0xF2

/-- Queue an Almanac record (R506): map records wait for room and are never lost; another kind needs room beyond the 32
entries kept for map kinds, and the rate; else it is counted in ALM_DROPPED. -/
def State.almanac (s : State) (kind : Nat) (body : List Nat) : State :=
  let a := s.alm
  let r : AlmRec :=
    { kind := kind, seq := 0, time := s.time.counter, undisc := s.time.undisc, copied := false, emergency := false, boot := a.boot, body := body }
  if almMapKind kind then { s with alm := { a with queue := a.queue ++ [r] } }
  else
    let tok := refill a.tokens a.refill s.time.elapsed 64 1024
    let upTo := refilledTo a.tokens a.refill s.time.elapsed 64 1024
    if tok = 0 ∨ 224 ≤ a.queue.length then
      { s with alm := { a with tokens := tok, refill := upTo } } |>.fadd F.almDropped_COUNT 0 1
    else { s with alm := { a with queue := a.queue ++ [r], tokens := tok - 1, refill := upTo } }

/-- Numbers of the units faults are charged to that are no core: a field, the Granary die, the command front end (Table 12-1). -/
def unitField (f : Nat) : Nat := 30000 + f
def unitGranary : Nat := 40000
def unitFrontEnd : Nat := 40001

/-- A fault record of no particular unit. -/
def FaultRec.blank (cause : Nat) : FaultRec :=
  { cause := cause, outcome := 8, plot := 0xFF, cls := 0, field := 0xFFFF, core := 0xFFFF, bank := 0xFF, port := 0xFF,
    part := 0xFF, ring := 0xFF, step := 0, layer := 0, oper := 0, tag := 0, row := 0xFFFF, col := 0xFFFF, replay := 0,
    addr := 0, time := 0, charge := none }

/-- A fault of the Granary's arithmetic units (R397), at a global address. -/
def granaryFault (part : Nat) (ring : Option Nat) (step addr : Nat) : FaultRec :=
  { FaultRec.blank 9 with part := part, ring := ring.getD 0xFF, step := step, addr := addr }

/-- The record with the place of a core. -/
def FaultRec.atCore (f : FaultRec) (n : Nat) : FaultRec :=
  { f with core := n, plot := plotOfCore n, field := fieldOfCore n % 288 }

/-- The fields of a fault record as numbers, in the order of Table 12-14. -/
def FaultRec.body (f : FaultRec) : List Nat :=
  [f.cause, f.outcome, f.plot, f.cls, f.field, f.core, f.bank, f.port, f.part, f.ring, f.step, f.layer, f.oper, f.tag,
   f.row, f.col, f.replay, f.addr, f.time]

/-- The 64 bytes of a fault record (Table 12-14). -/
def FaultRec.bytes (f : FaultRec) : List Byte :=
  withCheck (toLE 1 f.cause ++ toLE 1 f.outcome ++ toLE 1 f.plot ++ toLE 1 f.cls ++ toLE 2 f.field ++ toLE 2 f.core ++
    toLE 1 f.bank ++ toLE 1 f.port ++ toLE 1 f.part ++ toLE 1 f.ring ++ toLE 4 f.step ++ toLE 2 f.layer ++
    toLE 2 f.oper ++ toLE 4 f.tag ++ toLE 2 f.row ++ toLE 2 f.col ++ toLE 1 f.replay ++ toLE 3 0 ++ toLE 7 f.addr ++
    toLE 1 0 ++ toLE 6 (f.time / 1000000000) ++ toLE 2 0 ++ toLE 4 (f.time % 1000000000) ++ toLE 10 0)

/-- Write a fault record (R433): LAST_FAULT of the partition charged, a FAULT event, and the Almanac unless its cause is
ENV_STOOD. -/
def State.faultRecord (s : State) (f : FaultRec) : State :=
  let f := { f with time := s.time.counter }
  let s := if f.part < 32 then { s with lastFault := alPut s.lastFault f.part f } else s
  let s := s.event 4 f.body
  if f.cause = 0x10 then s else s.almanac 1 f.body

/-- Hand a confirmed fault to the front end of its step's partition (R394, step 1 of Table 12-7). -/
def State.confirm (s : State) (f : FaultRec) : State := { s with faultQ := s.faultQ ++ [f] }

/-- Hand an error of a command, work item or entry to the front end (R171). -/
def State.stepError (s : State) (e : StepErr) : State := { s with errQ := s.errQ ++ [e] }

/-! ## Open steps -/

/-- Change the open step `step` of a ring. -/
def Ring.onStep (r : Ring) (step : Nat) (f : OpenStep → OpenStep) : Ring :=
  { r with steps := r.steps.map fun o => if o.step = step then f o else o }

/-- The open step of a number, if open. -/
def Ring.openStep (r : Ring) (step : Nat) : Option OpenStep := r.steps.find? fun o => o.step = step

/-- Change an open step. -/
def State.onStep (s : State) (ring : Option Nat) (step : Nat) (f : OpenStep → OpenStep) : State :=
  match ring with
  | some r => s.onRing r fun x => x.onStep step f
  | none => s

/-- A step consumes chaff (R417). -/
def State.consumeChaff (s : State) (ring : Option Nat) (step : Nat) : State :=
  s.onStep ring step fun o => { o with chaff := true }

/-- First warning of a work item and of a step (R169). -/
def State.warning (s : State) (core : Nat) (status : Nat) : State :=
  let c := s.core core
  let s := if c.warn = 0 then s.setCore core { c with warn := status } else s
  match c.wi with
  | some w => s.onStep w.ring w.step fun o => if o.warn = 0 then { o with warn := status } else o
  | none => s

/-- Keep RING_STATE.OPEN and IDLE as R140 says: OPEN counts open steps; IDLE when none is open and no entry in process. -/
def State.ringState (s : State) (r : Nat) : State :=
  let x := s.ring r
  let idle := x.steps.isEmpty && x.hold.isNone
  let s := s.fset F.ringState_OPEN r x.steps.length |>.fset F.ringState_IDLE r (if idle then 1 else 0)
  if idle && x.disabling then
    s.fset F.ringCfg_ENABLE r 0 |>.setRing r { x with disabling := false }
  else s

end Sys2Proof.Machine
end

