-- ==== Sys2Proof/Machine/EccOps.lean ====
section
/-!
DEFINITION. EccOps.lean: what a read that finds an error in a stored word does (R414, R434 to R440).
-/
namespace Sys2Proof.Machine

/-- A CHAFF_MADE record (R414): the address read; `core` and `part` of the reader, where it has them. -/
def State.chaffMade (s : State) (addr : Nat) (part : Nat) : State :=
  let f := FaultRec.blank 0x11
  let f := { f with addr := s.fget F.oncSelf_MODULE_ID 0 * 0x10000000000 + addr, part := part }
  let f := if addr < 0x3600000000 then { f.atCore (addr / 0x800000) with bank := addr / 0x40000 % 32 } else f
  s.faultRecord f

/-- Where counters of a place lie: corrected and uncorrectable words of vaults by plot, of the Granary. -/
def State.countEcc (s : State) (addr : Nat) (uncorr : Bool) : State :=
  if addr < 0x3600000000 then s.fadd (if uncorr then F.vuncorr_COUNT else F.vcorr_COUNT) (plotOfCore (addr / 0x800000)) 1
  else if addr < 0x8000000000 then s.fadd (if uncorr then F.guncorr_COUNT else F.gcorr_COUNT) 0 1
  else s.fadd (if uncorr then F.ssUncorr_COUNT else F.ssCorr_COUNT) 0 1

/-! ## Log tables (R442, R443): entries 0 to 127 of the plots, 128 to 143 of the Granary -/

/-- Registers of a log entry: its fields of the low and high word, and its copy. -/
structure LogEnt where
  valid : Fld
  kind : Fld
  perm : Fld
  rewritten : Fld
  unit : Fld
  word : Fld
  place : Fld
  count : Fld
  last : Fld
  first : Fld
  copy : Nat
  deriving DecidableEq, Repr

/-- The registers of log entry `i`. -/
def logEnt (i : Nat) : LogEnt :=
  if i < 128 then
    { valid := F.vlogLo_VALID, kind := F.vlogLo_KIND, perm := F.vlogLo_PERM, rewritten := F.vlogLo_REWRITTEN, unit := F.vlogLo_CORE,
      word := F.vlogLo_WORD, place := F.vlogLo_SYMBOL, count := F.vlogLo_COUNT, last := F.vlogHi_LAST_S, first := F.vlogHi_FIRST_S, copy := i }
  else
    { valid := F.glogLo_VALID, kind := F.glogLo_KIND, perm := F.glogLo_PERM, rewritten := F.glogLo_REWRITTEN, unit := F.glogLo_BIN,
      word := F.glogLo_WORD, place := F.glogLo_BIT, count := F.glogLo_COUNT, last := F.glogHi_LAST_S, first := F.glogHi_FIRST_S, copy := i - 128 }

/-- The two words of a log entry. -/
def State.logWords (s : State) (i : Nat) : List Nat :=
  if i < 128 then [s.regWord R.vlogLo i, s.regWord R.vlogHi i] else [s.regWord R.glogLo (i - 128), s.regWord R.glogHi (i - 128)]

/-- Unit (core, bin) and word index of a protected word. -/
def wordPlace (a : Nat) : Nat × Nat :=
  if a < 0x3600000000 then (a / 0x800000, a % 0x800000 / 32) else ((a - 0x4000000000) / 0x1000000, (a - 0x4000000000) % 0x1000000 / 8)

/-- Log entries that serve a word. -/
def logOfWord (a : Nat) : List Nat :=
  if a < 0x3600000000 then (List.range 32).map fun i => plotOfCore (a / 0x800000) * 32 + i else (List.range 16).map fun i => 128 + i

/-- Is entry `i` the one of a word. -/
def State.logIs (s : State) (i a : Nat) : Bool :=
  let e := logEnt i
  s.flag e.valid e.copy && s.fget e.unit e.copy = (wordPlace a).1 && s.fget e.word e.copy = (wordPlace a).2

/-- An uncorrectable detection of a word whose event stands already makes that one event uncorrectable (Table 13-6): the event still to be
classified, or else its log entry. -/
def State.eccWorse (s : State) (w place : Nat) : State :=
  if s.ecc.events.any fun e => e.addr = w then
    { s with ecc := { s.ecc with events := s.ecc.events.map fun e => if e.addr = w then { e with uncorr := true, place := place } else e } }
  else
    match (logOfWord w).find? fun i => s.logIs i w with
    | some i => (s.fset (logEnt i).kind (logEnt i).copy 1).fset (logEnt i).place (logEnt i).copy place
    | none => s

/-- A word's event, when the detection is the first since the word was last written (R439). -/
def State.eccEvent (s : State) (w : Nat) (uncorr : Bool) (place src : Nat) : State :=
  if s.ecc.seen.contains w then (if uncorr then s.eccWorse w place else s)
  else { s with ecc := { s.ecc with seen := setIns s.ecc.seen w,
                                    events := s.ecc.events ++ [⟨w, uncorr, place, s.time.counter, src, s.ecc.scrubbed.contains w⟩] } }

/-- The bytes that uncorrectable errors have left in `n` bytes from `a`: open values. -/
def State.badBytes (s : State) (a n : Nat) : List Byte := (List.range n).map fun i => Config.badByte (a + i) s.undefs

/-- The granule of an address, as its errors have left it (R435 to R437). -/
def State.goneBad (s : State) (addr : Nat) : State :=
  let w := granuleOf addr
  { s with mem := memSetN s.mem w (s.badBytes w (granule addr)), undefs := s.undefs + 1 }

/-- A read of the word at address `addr` of a vault or bin finds `e` (R434 to R436): a corrected word is counted, is an
event and is queued for its scrub-rewrite; an uncorrectable one is counted, returns its bytes as the errors left them, carries chaff from now
on, and writes a CHAFF_MADE record. A chaff word, and a word of a burst never written, gives no detection. -/
def State.eccRead (s : State) (addr : Nat) (e : Ecc) (src part : Nat) : State :=
  let w := granuleOf addr
  if s.isChaff addr || (decide (addr < 0x3600000000) && !s.valid.contains (addr / 256)) then s
  else match e with
    | .clean => s
    | .corrected p =>
      let s := (s.countEcc addr false).eccEvent w false p src
      { s with ecc := { s.ecc with rewrite := setIns s.ecc.rewrite w } }
    | .uncorrectable =>
      let s := (s.goneBad addr).countEcc addr true |>.eccEvent w true (if addr < 0x3600000000 then 0x3F else 0x7F) src
      let s := { s with chaff := setIns s.chaff w, ecc := { s.ecc with rewrite := setDel s.ecc.rewrite w } }
      s.chaffMade addr part

/-- A read of a seedstore burst that the device reports on (R437): a burst added to a full chaff list is counted in
CHAFF_REFUSED instead; the read returns chaff all the same. Answers whether the burst returned carries chaff. -/
def State.ssRead (s : State) (addr : Nat) (e : Ecc) (part : Nat) : State × Bool :=
  let w := granuleOf addr
  match e with
  | .clean => (s, s.isChaff addr)
  | .corrected _ => (s.countEcc addr false, s.isChaff addr)
  | .uncorrectable =>
    let s := s.goneBad addr
    if s.isChaff addr then (s.countEcc addr true, true)
    else
      let s := (s.countEcc addr true).chaffMade addr part
      if s.ssChaff < 65536 then ({ s with chaff := setIns s.chaff w }, true)
      else (s.fadd F.chaffRefused_COUNT 0 1, true)

end Sys2Proof.Machine
end

