-- ==== Sys2Proof/Machine/Functions.lean ====
section
/-!
DEFINITION. Functions.lean: the FP32 functions of Table 4-6 within their error bounds (R121): an exact enclosure of the real
value by integers, and the FP32 values no further from it than the table allows.
-/
namespace Sys2Proof.Machine

/-! ## Enclosures in fixed point -/

/-- A real number between lo × 2^x and hi × 2^x. -/
structure Encl where
  lo : Int
  hi : Int
  x : Int
  deriving DecidableEq, Repr

/-- One, at 256 fraction bits. -/
def fxOne : Int := 2 ^ 256

/-- ln 2 and 2 ÷ √π at 256 fraction bits, cut off. -/
def fxLn2 : Int := 0xb17217f7d1cf79abc9e3b39803f2f6af40f343267298b62d8a0d175b8baafa2b
def fxErfC : Int := 0x120dd750429b6d11ae3a914fed7fd8688281341d7587cea2e7342b06199cc4161

/-- What the truncations of a series can amount to, in units of the last place. -/
def fxSlack : Int := 2 ^ 16

/-- The series of e^r for 0 ≤ r < ln 2. -/
def fxExpSeries (r : Int) : Int :=
  ((List.range 80).foldl (fun (t, s) i => (t * r / fxOne / ((i : Int) + 1), s + t)) (fxOne, 0)).2

/-- e^a for |a| below 200. -/
def fxExp (a : Int) : Encl :=
  let k := a / fxLn2
  let v := fxExpSeries (a - k * fxLn2)
  ⟨v - fxSlack, v + fxSlack, k - 256⟩

/-- An enclosure at 256 fraction bits. -/
def Encl.fixed (e : Encl) : Int × Int :=
  let k := e.x + 256
  if 0 ≤ k then (e.lo * 2 ^ k.toNat, e.hi * 2 ^ k.toNat) else (e.lo / 2 ^ (-k).toNat, e.hi / 2 ^ (-k).toNat + 1)

/-- The argument m × 2^e of an FP32 value, at 256 fraction bits: exact, since e is at least -149. -/
def fxArg (m : Nat) (e : Int) : Int := (m : Int) * 2 ^ (e + 256).toNat

/-- ln (m × 2^e), m > 0, by twice the area tangent of (t - 1) ÷ (t + 1), t the mantissa. -/
def fxLog (m : Nat) (e : Int) : Encl :=
  let k := Nat.log2 m
  let t : Int := (m : Int) * 2 ^ (256 - k)
  let z := (t - fxOne) * fxOne / (t + fxOne)
  let z2 := z * z / fxOne
  let s := ((List.range 100).foldl (fun (p, s) i => (p * z2 / fxOne, s + p / (2 * (i : Int) + 1))) (z, 0)).2
  let v := 2 * s + ((k : Int) + e) * fxLn2
  ⟨v - fxSlack, v + fxSlack, -256⟩

/-- tanh of a ≥ 0: (1 - E) ÷ (1 + E) with E = e^(-2a). -/
def fxTanh (a : Int) : Encl :=
  if 64 * fxOne ≤ a then ⟨fxOne - 2 ^ 80, fxOne - 1, -256⟩
  else
    let (l, h) := (fxExp (-2 * a)).fixed
    ⟨(fxOne - h) * fxOne / (fxOne + h), min ((fxOne - l) * fxOne / (fxOne + l) + 1) (fxOne - 1), -256⟩

/-- The logistic function: 1 ÷ (1 + e^-a), or E ÷ (1 + E) with E = e^a below zero. -/
def fxLogistic (a : Int) : Encl :=
  if 160 * fxOne ≤ a then ⟨fxOne - 2 ^ 30, fxOne - 1, -256⟩
  else if a ≤ -160 * fxOne then ⟨0, 2 ^ 30, -256⟩
  else if 0 ≤ a then
    let (l, h) := (fxExp (-a)).fixed
    ⟨fxOne * fxOne / (fxOne + h), min (fxOne * fxOne / (fxOne + l) + 1) (fxOne - 1), -256⟩
  else
    let (l, h) := (fxExp a).fixed
    ⟨l * fxOne / (fxOne + l), h * fxOne / (fxOne + h) + 1, -256⟩

/-- The error function of a ≥ 0: 2 ÷ √π × e^(-a²) × Σ 2^n a^(2n+1) ÷ (2n+1)!!; from 6 on it lies within 2^-54 of 1. -/
def fxErf (a : Int) : Encl :=
  if 6 * fxOne ≤ a then ⟨fxOne - 2 ^ 202, fxOne - 1, -256⟩
  else
    let q := a * a / fxOne
    let s := ((List.range 330).foldl (fun (t, s) n => (2 * t * q / fxOne / (2 * (n : Int) + 3), s + t)) (a, 0)).2
    let (l, h) := (fxExp (-q)).fixed
    let v (w : Int) : Int := fxErfC * (w * s / fxOne) / fxOne
    ⟨v l - 2 ^ 64, v h + 2 ^ 64, -256⟩

/-- 1 ÷ (m × 2^e). -/
def fxRcp (m : Nat) (e : Int) : Encl :=
  let v := fxOne / m
  ⟨v, if fxOne % m = 0 then v else v + 1, -256 - e⟩

/-- 1 ÷ √(m × 2^e), the exponent made even. -/
def fxRsqrt (m : Nat) (e : Int) : Encl :=
  let (m, e) := if e % 2 = 0 then (m, e) else (2 * m, e - 1)
  let v : Int := Nat.sqrt (2 ^ 512 / m)
  ⟨v, v + 1, -256 - e / 2⟩

/-- The enclosure of the value at minus the argument, of an odd function. -/
def Encl.neg (e : Encl) : Encl := ⟨-e.hi, -e.lo, e.x⟩

/-- Function `fn` of Table 4-6 at (−1)^neg × m × 2^e, m > 0 (RSQRT and LOG: of a positive argument; EXP: of one below 200). -/
def fnEncl (fn : Nat) (neg : Bool) (m : Nat) (e : Int) : Encl :=
  let odd (x : Encl) : Encl := if neg then x.neg else x
  let a := fxArg m e
  if fn = 0 then odd (fxRcp m e)
  else if fn = 1 then fxRsqrt m e
  else if fn = 2 then (if neg then if 190 * fxOne ≤ a then ⟨0, 1, -256⟩ else fxExp (-a) else fxExp a)
  else if fn = 3 then fxLog m e
  else if fn = 4 then odd (fxTanh a)
  else if fn = 5 then fxLogistic (if neg then -a else a)
  else odd (fxErf a)

/-- Maximum error of each function, in ulp (Table 4-6). -/
def fnUlps (fn : Nat) : Nat := [1, 1, 2, 2, 3, 3, 4].getD fn 4

/-! ## The FP32 values within a bound -/

/-- The greatest finite FP32 magnitude not above v × 2^w, as its bits, and whether it is v × 2^w itself. -/
def magFloor (v : Nat) (w : Int) : Nat × Bool :=
  if v = 0 then (0, true) else
  let top := max ((Nat.log2 v : Int) + w) (-126)
  let sh := w - (top - 23)
  let (q, exact) := if 0 ≤ sh then (v * 2 ^ sh.toNat, true) else (v / 2 ^ (-sh).toNat, v % 2 ^ (-sh).toNat = 0)
  let b := if q < 2 ^ 23 then q else (top + 126).toNat * 2 ^ 23 + q
  if 0x7F7FFFFF < b then (0x7F7FFFFF, false) else (b, exact)

/-- The least finite FP32 magnitude not below v × 2^w, as its bits. -/
def magCeil (v : Nat) (w : Int) : Nat :=
  let (b, exact) := magFloor v w
  if exact then b else min (b + 1) 0x7F7FFFFF

/-- FP32 values in order: k for the bits of a value from +0 up, -1 - k for the negative value of magnitude k. -/
def ordFloor (v w : Int) : Int := if 0 ≤ v then (magFloor v.toNat w).1 else -(magCeil v.natAbs w : Int) - 1
def ordCeil (v w : Int) : Int := if 0 < v then magCeil v.toNat w else -((magFloor v.natAbs w).1 : Int) - 1
def ordBits (k : Int) : BitVec 32 := if 0 ≤ k then BitVec.ofNat 32 k.toNat else BitVec.ofNat 32 (0x80000000 + (-k - 1).toNat)

/-- First and last, in order, of the FP32 values within `n` ulp of an enclosed value; the ulp is that of the value. -/
def Encl.within (c : Encl) (n : Nat) : Int × Int :=
  let big := max c.lo.natAbs c.hi.natAbs
  let q : Int := (if big = 0 then -126 else max ((Nat.log2 big : Int) + c.x) (-126)) - 23
  let w := min c.x q
  let d : Int := n * 2 ^ (q - w).toNat
  (ordCeil (c.lo * 2 ^ (c.x - w).toNat - d) w, ordFloor (c.hi * 2 ^ (c.x - w).toNat + d) w)

/-- Does an enclosed value round beyond the largest finite magnitude. -/
def Encl.overflows (c : Encl) : Bool :=
  let w := min c.x 103
  let v := min c.lo.natAbs c.hi.natAbs
  decide ((2 ^ 25 - 1) * 2 ^ (103 - w).toNat ≤ v * 2 ^ (c.x - w).toNat)

/-- A function's result (R121): the infinity of an overflow; else one of the values within the bound of Table 4-6, the free value
`pick` telling which. -/
def fnResult (fn : Nat) (neg : Bool) (m : Nat) (e : Int) (pick : Nat) : BitVec 32 :=
  let c := fnEncl fn neg m e
  if c.overflows then (if c.hi < 0 then 0xFF800000 else 0x7F800000)
  else
    let (a, b) := c.within (fnUlps fn)
    ordBits (a + ((pick % (b - a + 1).toNat : Nat) : Int))

end Sys2Proof.Machine
end

