-- ==== Sys2Proof/Machine/Operands.lean ====
section
/-!
DEFINITION. Operands.lean: the operand forms of the arithmetic: element types, their exact values, exact products and
sums, the single rounding, conversions and the FP32 functions (chapter 04).
-/
namespace Sys2Proof.Machine

/-! ## Element types (Table 4-1) -/

/-- Codes that name a format (R92, R93). -/
def etValid (t : Nat) : Bool :=
  [0x01, 0x02, 0x03, 0x04, 0x05, 0x08, 0x09, 0x0A, 0x0B, 0x0C, 0x0D, 0x10, 0x11, 0x12, 0x14, 0x18].contains t

/-- Bits of an element in storage; BT2 (1.6 bits) answers 0 and is placed by its own rule (R105). -/
def etBits (t : Nat) : Nat :=
  if t = 0x01 ∨ t = 0x12 then 32 else if t = 0x02 ∨ t = 0x03 then 16
  else if t = 0x0A ∨ t = 0x0B then 6 else if t = 0x0C ∨ t = 0x11 then 4
  else if t = 0x18 then 0 else 8

/-- MX formats (R100). -/
def etMx (t : Nat) : Bool := 0x08 ≤ t ∧ t ≤ 0x0D

/-- Formats with block scales: MX and BT2 (Table 4-1). -/
def etScaled (t : Nat) : Bool := etMx t || t = 0x18

/-- Integer element formats without scale. -/
def etInt (t : Nat) : Bool := t = 0x10 || t = 0x11 || t = 0x12

/-- A floating-point format (Table 4-2): exponent bits, mantissa bits, bias, whether it has infinities, the encoding of
its largest finite magnitude, its canonical NaN (R97) if it has one. -/
structure FpFmt where
  eb : Nat
  mb : Nat
  bias : Nat
  inf : Bool
  max : Nat
  nan : Option Nat
  deriving DecidableEq, Repr

def fp32 : FpFmt := ⟨8, 23, 127, true, 0x7F7FFFFF, some 0x7FC00000⟩
def fpBf16 : FpFmt := ⟨8, 7, 127, true, 0x7F7F, some 0x7FC0⟩
def fp16 : FpFmt := ⟨5, 10, 15, true, 0x7BFF, some 0x7E00⟩
def fpE4M3 : FpFmt := ⟨4, 3, 7, false, 0x7E, some 0x7F⟩
def fpE5M2 : FpFmt := ⟨5, 2, 15, true, 0x7B, some 0x7E⟩
def fpE2M3 : FpFmt := ⟨2, 3, 1, false, 0x1F, none⟩
def fpE3M2 : FpFmt := ⟨3, 2, 3, false, 0x1F, none⟩
def fpE2M1 : FpFmt := ⟨2, 1, 1, false, 0x7, none⟩

/-- The floating-point format of an element code. -/
def etFp (t : Nat) : Option FpFmt :=
  if t = 0x01 then some fp32 else if t = 0x02 then some fpBf16 else if t = 0x03 then some fp16
  else if t = 0x04 ∨ t = 0x08 then some fpE4M3 else if t = 0x05 ∨ t = 0x09 then some fpE5M2
  else if t = 0x0A then some fpE2M3 else if t = 0x0B then some fpE3M2 else if t = 0x0C then some fpE2M1
  else none

/-! ## Exact values -/

/-- An exact value: NaN, an infinity, or (−1)^neg × m × 2^e (m = 0: a signed zero, R98). -/
inductive Num where
  | nan
  | inf (neg : Bool)
  | fin (neg : Bool) (m : Nat) (e : Int)
  deriving DecidableEq, Repr

/-- An integer's value. -/
def Num.ofInt (i : Int) (e : Int) : Num := .fin (decide (i < 0)) i.natAbs e

/-- The value a floating-point encoding stands for (R95). -/
def FpFmt.value (f : FpFmt) (raw : Nat) : Num :=
  let m := raw % 2 ^ f.mb
  let e := (raw / 2 ^ f.mb) % 2 ^ f.eb
  let neg := (raw / 2 ^ (f.mb + f.eb)) % 2 = 1
  if f.inf && e = 2 ^ f.eb - 1 then if m = 0 then .inf neg else .nan
  else if !f.inf && f.nan.isSome && e = 2 ^ f.eb - 1 && m = 2 ^ f.mb - 1 then .nan
  else if e = 0 then .fin neg m (1 - (f.bias : Int) - f.mb)
  else .fin neg (2 ^ f.mb + m) ((e : Int) - f.bias - f.mb)

/-- The value of an element's storage bits, before any block scale (R95, R99, R100, R626). -/
def elemValue (t raw : Nat) : Num :=
  match etFp t with
  | some f => f.value raw
  | none =>
    if t = 0x0D then Num.ofInt (signed raw 8) (-6)
    else if t = 0x10 then Num.ofInt (signed raw 8) 0
    else if t = 0x11 then Num.ofInt (signed raw 4) 0
    else if t = 0x12 then Num.ofInt (signed raw 32) 0
    else if t = 0x14 then if raw = 0xFF then .nan else .fin false 1 ((raw : Int) - 127)
    else .fin false 0 0

/-- The value of an E8M0 scale byte (R100). -/
def scaleValue (x : Byte) : Num := if x = 0xFF then .nan else .fin false 1 ((x.toNat : Int) - 127)

/-- The exact product (R98, R116). -/
def Num.mul : Num → Num → Num
  | .nan, _ => .nan
  | _, .nan => .nan
  | .inf a, .inf b => .inf (a != b)
  | .inf a, .fin b m _ => if m = 0 then .nan else .inf (a != b)
  | .fin a m _, .inf b => if m = 0 then .nan else .inf (a != b)
  | .fin a m e, .fin b n f => .fin (a != b) (m * n) (e + f)

/-- Negation. -/
def Num.neg : Num → Num
  | .nan => .nan
  | .inf a => .inf (!a)
  | .fin a m e => .fin (!a) m e

def Num.isNan : Num → Bool
  | .nan => true
  | _ => false
def Num.isInf : Num → Bool
  | .inf _ => true
  | _ => false
def Num.isFin : Num → Bool
  | .fin _ _ _ => true
  | _ => false
/-- NaN or infinite. -/
def Num.nonFinite (a : Num) : Bool := !a.isFin
def Num.isNeg : Num → Bool
  | .nan => false
  | .inf n => n
  | .fin n _ _ => n
def Num.isZero : Num → Bool
  | .fin _ 0 _ => true
  | _ => false

/-- The least exponent among finite terms. -/
def minExp : List Num → Int
  | [] => 0
  | .fin _ _ e :: [] => e
  | .fin _ _ e :: t => min e (minExp t)
  | _ :: t => minExp t

/-- The exact signed integer of a finite value over 2^e. -/
def Num.over : Num → Int → Int
  | .fin n m f, e => let v := (m : Int) * 2 ^ (f - e).toNat; if n then -v else v
  | _, _ => 0

/-- The exact sum of terms (R98, R116): NaN when a term is NaN or infinities of both signs meet; an infinity when one
occurs; a zero sum is −0 only when every term is −0. -/
def numSum (l : List Num) : Num :=
  if l.any Num.isNan then .nan
  else if l.any (fun a => a.isInf && a.isNeg) then
    if l.any (fun a => a.isInf && !a.isNeg) then .nan else .inf true
  else if l.any Num.isInf then .inf false
  else
    let e := minExp l
    let s : Int := l.foldl (fun a t => a + t.over e) 0
    if s = 0 then .fin (!l.isEmpty && l.all (fun a => a.isZero && a.isNeg)) 0 e
    else .fin (decide (s < 0)) s.natAbs e

/-- Are the products of a pairing summed as integers, in blocks of 32 (R114, R115, R119): both types integers times a scale. -/
def etIntPair (t u : Nat) : Bool :=
  let int (x : Nat) : Bool := x = 0x10 || x = 0x11 || x = 0x0D || x = 0x18
  int t && int u

/-- A product of a stationary element of type `t` and a streamed one of type `u`: a BT2 weight of 0 contributes exactly zero (R118), and a
zero in an integer block sum has no sign (R115). -/
def elProd (t u : Nat) (w x : Num) : Num :=
  if t = 0x18 && w.isZero then .fin false 0 0
  else
    let p := w.mul x
    if etIntPair t u && p.isZero then .fin false 0 0 else p

/-- Order of two values that are not NaN; −0 equals +0. -/
def Num.lt (a b : Num) : Bool :=
  match a, b with
  | .nan, _ => false
  | _, .nan => false
  | .inf x, .inf y => x && !y
  | .inf x, .fin _ _ _ => x
  | .fin _ _ _, .inf y => !y
  | .fin _ _ e, .fin _ _ f => let k := min e f; decide (a.over k < b.over k)

/-- Equal values, neither of them NaN. -/
def Num.eq (a b : Num) : Bool := !a.isNan && !b.isNan && !a.lt b && !b.lt a

/-! ## The single rounding (R123 to R125) -/

/-- Rounding modes of Table 4-7 with the 16-bit value of R128 for SR. -/
inductive RMode where
  | rne | rtz | rdn | rup | rna | sr (r : Nat)
  deriving DecidableEq, Repr

/-- Round m ÷ 2^k to an integer under a mode: `neg` is the sign of the value. -/
def roundShift (mode : RMode) (neg : Bool) (m k : Nat) : Nat :=
  let lo := m / 2 ^ k
  let rem := m % 2 ^ k
  if rem = 0 then lo else
  let up : Bool := match mode with
    | .rne => decide (2 ^ k < 2 * rem) || (decide (2 * rem = 2 ^ k) && lo % 2 = 1)
    | .rtz => false
    | .rdn => neg
    | .rup => !neg
    | .rna => decide (2 ^ k ≤ 2 * rem)
    | .sr r =>
      -- frac is the distance from v_lo, the lower neighbour; for a negative value that is the one of larger magnitude
      let frac := rem * 65536 / 2 ^ k
      if neg then
        let fracN := (2 ^ k - rem) * 65536 / 2 ^ k
        !decide (65536 ≤ fracN + r)
      else decide (65536 ≤ frac + r)
  if up then lo + 1 else lo

/-- Floor of log2 of a positive number. -/
def log2 (m : Nat) : Nat := Nat.log2 m

/-- A finite magnitude m × 2^e rounded to `mb` mantissa bits above least exponent `emin`, as (q, x): q × 2^x. -/
def roundMant (mode : RMode) (neg : Bool) (mb : Nat) (emin : Int) (m : Nat) (e : Int) : Nat × Int :=
  if m = 0 then (0, emin - mb) else
  let top := (log2 m : Int) + e
  let x := max top emin - mb
  if x ≤ e then (m * 2 ^ (e - x).toNat, x) else (roundShift mode neg m (x - e).toNat, x)

/-- The encoding of q × 2^x with q ≤ 2^(mb + 1), exponent unbounded above: sign apart. -/
def FpFmt.pack (f : FpFmt) (q : Nat) (x : Int) : Nat :=
  if q < 2 ^ f.mb then q
  else
    let ef := (x + f.mb + f.bias).toNat
    if q = 2 ^ (f.mb + 1) then (ef + 1) * 2 ^ f.mb else ef * 2 ^ f.mb + (q - 2 ^ f.mb)

/-- The sign bit of an encoding. -/
def FpFmt.sign (f : FpFmt) (neg : Bool) : Nat := if neg then 2 ^ (f.mb + f.eb) else 0

/-- A conversion result: the encoding, whether it overflowed or saturated (counted in CVT_SAT), whether a NaN was taken by a
format that has none (counted in NAN_CVT). -/
structure CvtRes where
  bits : Nat
  sat : Bool
  nan : Bool
  deriving DecidableEq, Repr

/-- Does an overflow go to infinity under a mode (Table 4-8). `up`: the magnitude was rounded up. -/
def overflowsToInf (mode : RMode) (neg up : Bool) : Bool :=
  match mode with
  | .rne | .rna => true
  | .rtz => false
  | .rdn => neg
  | .rup => !neg
  | .sr _ => up

/-- Round an exact value into a floating-point format (R123, R125, Table 4-8). -/
def FpFmt.round (f : FpFmt) (mode : RMode) (sat : Bool) (v : Num) : CvtRes :=
  let infBits (neg : Bool) : Nat :=
    if f.inf then f.sign neg + (2 ^ f.eb - 1) * 2 ^ f.mb else f.nan.getD (f.sign neg + f.max)
  match v with
  | .nan => ⟨f.nan.getD 0, false, f.nan.isNone⟩
  | .inf neg => if sat then ⟨f.sign neg + f.max, true, false⟩ else ⟨infBits neg, false, false⟩
  | .fin neg m e =>
    let (q, x) := roundMant mode neg f.mb (1 - (f.bias : Int)) m e
    let b := f.pack q x
    if b ≤ f.max then ⟨f.sign neg + b, false, false⟩
    else if sat then ⟨f.sign neg + f.max, true, false⟩
    else
      -- rounded up in magnitude: q × 2^x is above the exact magnitude
      let up := decide (m * 2 ^ (e - min e x).toNat < q * 2 ^ (x - min e x).toNat)
      if overflowsToInf mode neg up then ⟨infBits neg, true, false⟩ else ⟨f.sign neg + f.max, true, false⟩

/-- Round to an integer range (Table 4-8): NaN gives 0. -/
def roundInt (mode : RMode) (w : Nat) (lo : Int) (v : Num) : CvtRes :=
  let hi : Int := 2 ^ (w - 1) - 1
  let enc (i : Int) : Nat := (i % 2 ^ w).toNat
  match v with
  | .nan => ⟨0, false, true⟩
  | .inf neg => ⟨enc (if neg then lo else hi), true, false⟩
  | .fin neg m e =>
    let q := if 0 ≤ e then m * 2 ^ e.toNat else roundShift mode neg m (-e).toNat
    let i : Int := if neg then -(q : Int) else q
    if i < lo then ⟨enc lo, true, false⟩ else if hi < i then ⟨enc hi, true, false⟩ else ⟨enc i, false, false⟩

/-- Conversion into E8M0 (R626). -/
def roundE8M0 (mode : RMode) (sat : Bool) (v : Num) : CvtRes :=
  match v with
  | .nan => ⟨0xFF, false, true⟩
  | .inf true => ⟨0, true, false⟩
  | .inf false => ⟨if sat then 0xFE else 0xFF, true, false⟩
  | .fin neg m e =>
    if neg || m = 0 then ⟨0, true, false⟩ else
    let k := log2 m
    let ex : Int := (k : Int) + e
    -- m ÷ 2^k lies in [1, 2): round between 2^ex and 2^(ex + 1)
    let rem := m - 2 ^ k
    let up : Bool := match mode with
      | .rne => decide (2 ^ k < 2 * rem) || (decide (2 * rem = 2 ^ k) && decide ((ex + 127) % 2 = 1))
      | .rtz | .rdn => false
      | .rup => decide (0 < rem)
      | .rna => decide (0 < rem) && decide (2 ^ k ≤ 2 * rem)
      | .sr r => decide (0 < rem) && decide (65536 ≤ rem * 65536 / 2 ^ k + r)
    let y := if up then ex + 1 else ex
    if y < -127 then ⟨0, true, false⟩
    else if 127 < y then ⟨if sat then 0xFE else 0xFF, true, false⟩
    else ⟨(y + 127).toNat, false, false⟩

/-- Conversion of one value into a format without block scale, or into an element of an MX format whose scale is chosen. -/
def convElem (t : Nat) (mode : RMode) (sat : Bool) (v : Num) : CvtRes :=
  match etFp t with
  | some f =>
    if 0x0A ≤ t ∧ t ≤ 0x0C then f.round mode true v      -- E2M3, E3M2, E2M1: ±max (Table 4-8)
    else f.round mode sat v
  | none =>
    if t = 0x0D then roundInt mode 8 (-127) (v.mul (.fin false 1 6))
    else if t = 0x10 then roundInt mode 8 (-128) v
    else if t = 0x11 then roundInt mode 4 (-8) v
    else if t = 0x12 then roundInt mode 32 (-2147483648) v
    else roundE8M0 mode sat v

/-- Largest exponent of an MX element format (Table 4-9). -/
def mxEmax (t : Nat) : Int :=
  if t = 0x08 then 8 else if t = 0x09 then 15 else if t = 0x0A then 2 else if t = 0x0B then 4 else if t = 0x0C then 2 else 0

/-- The exponent floor(log2 |x|) of the largest finite magnitude of a block; none when every finite value is zero. -/
def amaxExp : List Num → Option Int
  | [] => none
  | .fin _ m e :: t =>
    if m = 0 then amaxExp t
    else
      let k := (log2 m : Int) + e
      match amaxExp t with
      | some j => some (max k j)
      | none => some k
  | _ :: t => amaxExp t

/-- One MX block (R126): scale byte, element encodings, saturations counted, NaN counted. `modes` gives the rounding mode
of each element (SR takes its own value for each). -/
def mxBlock (t : Nat) (modes : List RMode) (sat : Bool) (xs : List Num) : Nat × List Nat × Nat × Nat :=
  if xs.any Num.isNan || (!sat && xs.any Num.isInf) then (0xFF, xs.map (fun _ => 0), 0, 1)
  else
    let am := amaxExp xs
    if am.isNone && !(xs.any Num.isInf) then (0, xs.map (fun _ => 0), 0, 0)
    else
      let e : Int := match am with
        | none => 127
        | some k => min (max (k - mxEmax t) (-127)) 127
      let rs := (xs.zip modes).map fun (x, m) =>
        match x with
        | .inf neg =>
          match etFp t with
          | some f => CvtRes.mk (f.sign neg + f.max) true false
          | none => CvtRes.mk (if neg then 0x81 else 0x7F) true false
        | _ => convElem t m sat (x.mul (.fin false 1 (-e)))
      ((e + 127).toNat, rs.map CvtRes.bits, (rs.filter CvtRes.sat).length, 0)

/-- The 16-bit value r of stochastic rounding (R128). -/
def srValue (seed step index : Nat) : Nat :=
  let k : Nat := 2 ^ 32
  let h := (seed % k) ^^^ (step * 0x9E3779B1 % k) ^^^ (index * 0x85EBCA77 % k)
  let h := h ^^^ (h >>> 16)
  let h := h * 0x7FEB352D % k
  let h := h ^^^ (h >>> 15)
  let h := h * 0x846CA68B % k
  let h := h ^^^ (h >>> 16)
  h % 65536

/-- The mode of RMODE for an element (R124, R128); none for the reserved values. -/
def rmodeOf (v seed step index : Nat) : Option RMode :=
  if v = 0 then some .rne else if v = 1 then some .rtz else if v = 2 then some .rdn else if v = 3 then some .rup
  else if v = 4 then some .rna else if v = 5 then some (.sr (srValue seed step index)) else none

/-! ## FP32 arithmetic -/

/-- The value of FP32 bits. -/
def f32 (b : Nat) : Num := fp32.value b

/-- One rounding to FP32, round-to-nearest-even, overflow to infinity (R112, R116, R228). -/
def round32 (v : Num) : Nat := (fp32.round .rne false v).bits

/-- Rounding to an element format in arithmetic: RNE, SAT = 0 (R120). -/
def roundArith (t : Nat) (v : Num) : Nat := (convElem t .rne false v).bits

/-- Minimum under R120: NaN if either is NaN; −0 is below +0. -/
def numMin (a b : Num) : Num :=
  if a.isNan || b.isNan then .nan
  else if a.lt b then a else if b.lt a then b
  else if a.isNeg then a else b

/-- Maximum under R120. -/
def numMax (a b : Num) : Num :=
  if a.isNan || b.isNan then .nan
  else if b.lt a then a else if a.lt b then b
  else if a.isNeg then b else a

/-- PRED of CMP (Table 5-16); NaN makes every comparison false but NE (R120). -/
def numCmp (pred : Nat) (a b : Num) : Bool :=
  if pred = 0 then a.eq b
  else if pred = 1 then !a.eq b
  else if pred = 2 then a.lt b
  else if pred = 3 then a.lt b || a.eq b
  else if pred = 4 then b.lt a
  else b.lt a || a.eq b

/-- The FP32 functions of Table 4-6 (R121), 0 RCP, 1 RSQRT, 2 EXP, 3 LOG, 4 TANH, 5 LOGISTIC, 6 ERF: the special values
of the table, the infinity of an overflow, and for every other argument a result within the table's bound, which of them is free.
EXP of zero is 1 (R401); e^89 lies beyond the FP32 maximum. -/
def fpFn (fn : Nat) (b : BitVec 32) : BitVec 32 :=
  let one : BitVec 32 := 0x3F800000
  let nan : BitVec 32 := 0x7FC00000
  let pinf : BitVec 32 := 0x7F800000
  let ninf : BitVec 32 := 0xFF800000
  match f32 b.toNat with
  | .nan => nan
  | .inf neg =>
    if fn = 0 then if neg then 0x80000000 else 0
    else if fn = 1 then if neg then nan else 0
    else if fn = 2 then if neg then 0 else pinf
    else if fn = 3 then if neg then nan else pinf
    else if fn = 5 then if neg then 0 else one
    else if neg then 0xBF800000 else one
  | .fin neg m e =>
    if m = 0 then
      if fn = 0 then if neg then ninf else pinf
      else if fn = 1 then if neg then ninf else pinf
      else if fn = 2 then one
      else if fn = 3 then ninf
      else if fn = 5 then fnResult 5 neg 0 0 (Config.fnValue fn b).toNat
      else ordBits (let k := fnUlps fn; -(k : Int) - 1 + (((Config.fnValue fn b).toNat % (2 * k + 2) : Nat) : Int))
    else if neg && (fn = 1 || fn = 3) then nan
    else if fn = 2 && !(Num.fin neg m e).lt (.fin false 89 0) then pinf
    else fnResult fn neg m e (Config.fnValue fn b).toNat

/-! ## Elements in storage (Table 6-8, R99, R101, R105) -/

/-- Byte offset from the base, and place, of a position p ≥ 0 of an element type: (byte, shift in the word, bytes of the
word). For BT2 the shift is the digit. -/
def elemPlace (t p : Nat) : Nat × Nat × Nat :=
  if t = 0x18 then (p / 2048 * 410 + p % 2048 / 5, p % 2048 % 5, 1)
  else if etBits t = 4 then (p / 2, 4 * (p % 2), 1)
  else if etBits t = 6 then (p / 4 * 3, 6 * (p % 4), 3)
  else (p * (etBits t / 8), 0, etBits t / 8)

/-- Is a BT2 byte valid: at most 0xF2 and, for the last byte of a run, with digits 3 and 4 zero (R107). -/
def bt2Valid (b : Byte) (last : Bool) : Bool := b.toNat ≤ 0xF2 && (!last || b.toNat / 27 = 0)

/-- The weight of digit `d` of a BT2 byte: 0, 1 or −1; an invalid byte holds zero weights (R104, R107). -/
def bt2Trit (b : Byte) (last : Bool) (d : Nat) : Int :=
  if bt2Valid b last then
    let x := b.toNat / 3 ^ d % 3
    if x = 1 then 1 else if x = 2 then -1 else 0
  else 0

/-- The storage bits of an element at position p, bytes read by `rd`. For BT2 the digit of the trit (0, 1, 2). -/
def elemRaw (t : Nat) (rd : Nat → Byte) (p : Nat) : Nat :=
  let (b, sh, n) := elemPlace t p
  if t = 0x18 then
    let x := bt2Trit (rd b) (p % 2048 / 5 = 409) sh
    if x = 1 then 1 else if x = -1 then 2 else 0
  else bitsOf (leNat ((List.range n).map fun i => rd (b + i))) sh (etBits t)

/-- The value of storage bits of any type, BT2 digits included, before a block scale. -/
def rawValue (t raw : Nat) : Num :=
  if t = 0x18 then Num.ofInt (if raw = 1 then 1 else if raw = 2 then -1 else 0) 0 else elemValue t raw

/-- Bytes a packed row of k elements takes: ceil(k × bits ÷ 8), rounded up to 32 (Table 5-15). -/
def rowBytes (t k : Nat) : Nat := ((k * etBits t + 7) / 8 + 31) / 32 * 32

/-- Pack encodings of one element type into bytes, from position 0 (not BT2). -/
def packElems (t : Nat) (xs : List Nat) : List Byte :=
  let v := xs.foldr (fun x a => x % 2 ^ etBits t + 2 ^ etBits t * a) 0
  toLE ((xs.length * etBits t + 7) / 8) v

end Sys2Proof.Machine
end

