-- ==== Sys2Proof/Machine/DescOps.lean ====
section
/-!
DEFINITION. DescOps.lean: tensor descriptors: their fields, the place of an element, footprints, and the checks CREATE
makes (chapter 06).
-/
namespace Sys2Proof.Machine

/-- The fields of a 128-byte descriptor (Table 6-6), addresses as they stand in it. -/
def parseDesc (b : List Byte) : Desc :=
  let sh := fieldB b 1 1
  let md := fieldB b 2 1
  { etype := fieldB b 0 1 % 64, rank := sh % 8, brank := sh / 8 % 4, v32 := md % 2 = 1, kind := md / 2 % 4,
    alloc := fieldB b 4 4, base := fieldB b 8 7,
    sizes := (List.range 6).map fun d => fieldB b (16 + 4 * d) 4,
    strides := (List.range 6).map fun d => signed (fieldB b (40 + 5 * d) 5) 40,
    blks := (List.range 3).map fun d => fieldB b (70 + 2 * d) 2,
    scaleAlloc := fieldB b 76 4, scaleBase := fieldB b 80 7, tag := fieldB b 88 4 }

/-- Extent, stride, block extent of dimension d; beyond the rank 1, 0, 1. -/
def Desc.size (x : Desc) (d : Nat) : Nat := if d < x.rank then x.sizes.getD d 1 else 1
def Desc.stride (x : Desc) (d : Nat) : Int := if d < x.rank then x.strides.getD d 0 else 0
def Desc.blk (x : Desc) (d : Nat) : Nat := if d < x.brank then x.blks.getD d 1 else 1

/-- Elements of a block. -/
def Desc.blockLen (x : Desc) : Nat := x.blk 0 * x.blk 1 * x.blk 2

/-- Is dimension 0 grouped: V32 vectors without blocks, or the groups of a strided MX tensor (R183, R186). -/
def Desc.grouped (x : Desc) : Bool := x.brank = 0 && (x.v32 || etMx x.etype)

/-- Position p of an element (R183, Table 6-7). -/
def Desc.position (x : Desc) (i : List Nat) : Int :=
  let at_ (d : Nat) : Nat := i.getD d 0
  let outer : Int := (List.range x.rank).foldl (fun a d =>
    if d < x.brank then a + x.stride d * ((at_ d / x.blk d : Nat) : Int)
    else if d = 0 && x.v32 && x.brank = 0 then a + x.stride 0 * ((at_ 0 / 32 : Nat) : Int)
    else a + x.stride d * (at_ d : Int)) 0
  let w : Nat :=
    if x.brank = 0 then (if x.v32 then at_ 0 % 32 else 0)
    else at_ 0 % x.blk 0 + x.blk 0 * ((if 1 < x.brank then at_ 1 % x.blk 1 else 0) +
      x.blk 1 * (if 2 < x.brank then at_ 2 % x.blk 2 else 0))
  outer + (w : Int)

/-- Lowest and highest position of an element or pad position of the tensor (R188). -/
def Desc.posRange (x : Desc) : Int × Int :=
  let dims := (List.range x.rank).map fun d =>
    let n : Nat :=
      if d < x.brank then (x.size d + x.blk d - 1) / x.blk d
      else if d = 0 && x.v32 && x.brank = 0 then (x.size 0 + 31) / 32
      else if d = 0 && x.grouped then (x.size 0 + 31) / 32 * 32
      else x.size d
    let e : Int := x.stride d * (n - 1 : Nat)
    (min 0 e, max 0 e)
  let lo := dims.foldl (fun a t => a + t.1) 0
  let hi := dims.foldl (fun a t => a + t.2) 0
  let w : Nat := if x.brank = 0 then (if x.v32 then 31 else 0) else x.blockLen - 1
  (lo, hi + (w : Int))

/-- Byte offset of a position from the base, place within its word, bytes of the word (Table 6-8, R184). -/
def placeI (t : Nat) (p : Int) : Int × Nat × Nat :=
  if t = 0x18 then (p / 2048 * 410 + p % 2048 / 5, (p % 2048 % 5).toNat, 1)
  else if etBits t = 4 then (p / 2, 4 * (p % 2).toNat, 1)
  else if etBits t = 6 then (p / 4 * 3, 6 * (p % 4).toNat, 3)
  else (p * (etBits t / 8 : Nat), 0, etBits t / 8)

/-- First and last byte a position occupies, from the base. -/
def byteSpan (t : Nat) (p : Int) : Int × Int :=
  let (b, sh, n) := placeI t p
  if etBits t = 6 then (b + (sh / 8 : Nat), b + ((sh + 5) / 8 : Nat)) else (b, b + (n - 1 : Nat))

/-- The footprint: first and last byte offset from BASE (R188). -/
def Desc.footprint (x : Desc) : Int × Int :=
  let (lo, hi) := x.posRange
  ((byteSpan x.etype lo).1, (byteSpan x.etype hi).2)

/-- The scale footprint: first and last byte offset from SCALE_BASE (R185, R188). -/
def Desc.scaleFootprint (x : Desc) : Int × Int :=
  let (lo, hi) := x.posRange
  (lo / 32, hi / 32)

/-- The handle of an allocation (R595). -/
def Allocation.handle (a : Allocation) : Nat := a.slot + 0x10000 * a.gen

/-- An allocation of a partition by its handle (R595); one whose release is under way names nothing. -/
def State.findAlloc (s : State) (p handle : Nat) : Option Allocation :=
  s.allocs.find? fun a => a.part = p && a.handle = handle && !s.rel.contains (p, a.slot)

/-- Does a move use an allocation by its handle. -/
def Move.uses (m : Move) (p handle : Nat) : Bool :=
  m.part = p && ([some m.src, some m.dst, m.idx].any fun d => match d with
    | some d => d.alloc = handle || d.scaleAlloc = handle
    | none => false)

/-- Releases end once every move that uses their allocation has completed (R191, R596). -/
def State.endReleases (s : State) : State :=
  s.rel.foldl (fun (s : State) x =>
    match s.allocs.find? fun a => a.part = x.1 && a.slot = x.2 with
    | none => { s with rel := s.rel.filter (· ≠ x) }
    | some a =>
      if s.moves.any fun m => m.uses x.1 a.handle then s
      else ({ s with allocs := s.allocs.filter (fun b => b.slot ≠ x.2), rel := s.rel.filter (· ≠ x) }.fset F.allocStatus_BUSY x.1 0).fset
        F.allocStatus_RESULT x.1 0) s

/-- The stride rules (R190, Table 6-10). -/
def Desc.strideOk (x : Desc) : Bool :=
  let all (k : Nat) (f : Nat → Bool) : Bool := (List.range x.rank).all fun d => if k ≤ d then f d else true
  let mul (n : Nat) (d : Nat) : Bool := x.stride d % (n : Int) = 0
  (if x.brank ≥ 1 then all 0 (mul x.blockLen) else true) &&
  (if x.brank = 0 && x.v32 then all 0 (mul 32) else true) &&
  (if x.brank = 0 && !x.v32 && etBits x.etype = 4 then x.stride 0 = 1 && all 1 (mul 2) else true) &&
  (if x.brank = 0 && !x.v32 && etBits x.etype = 6 then x.stride 0 = 1 && all 1 (mul 4) else true) &&
  (if x.brank = 0 && !x.v32 && etMx x.etype then x.stride 0 = 1 && all 1 (mul 32) else true)

/-- Does a span of bytes lie within an allocation, or within the space of its kind. -/
def spanIn (base : Nat) (sp : Int × Int) (lo len : Nat) : Bool :=
  (lo : Int) ≤ (base : Int) + sp.1 && (base : Int) + sp.2 < (lo : Int) + len

/-- The checks of Table 6-9 after DESC_TABLE and DESC_INDEX, in order; 0 when every one passes. -/
def State.descCheck (s : State) (p : Nat) (b : List Byte) : Nat :=
  let x := parseDesc b
  let sh := fieldB b 1 1
  let md := fieldB b 2 1
  let dims := List.range 6
  let allocKind (h : Nat) : Bool :=
    match s.findAlloc p h with
    | some a => a.vault == (x.kind = 1)
    | none => false
  if fieldB b 0 1 ≥ 64 ∨ sh ≥ 32 ∨ md ≥ 8 ∨ x.kind = 3 ∨ !zeroB b 3 1 ∨ !zeroB b 15 1 ∨ !zeroB b 87 1 ∨ !zeroB b 92 34 then 0x0801
  else if !checkOk b 128 then 0x0802
  else if !etValid x.etype then 0x0803
  else if x.rank = 0 ∨ 6 < x.rank ∨ (dims.any fun d => if d < x.rank then x.sizes.getD d 0 = 0
      else x.sizes.getD d 0 ≠ 0 || x.strides.getD d 0 ≠ 0) then 0x0804
  else if x.rank < x.brank ∨ ((List.range 3).any fun d => if d < x.brank then x.blks.getD d 0 = 0 else x.blks.getD d 0 ≠ 0) ∨
      (x.etype = 0x18 ∧ ¬ (x.brank = 2 ∧ x.blk 0 = 128 ∧ x.blk 1 = 16)) ∨
      (etMx x.etype ∧ 1 ≤ x.brank ∧ x.blk 0 % 32 ≠ 0) then 0x0805
  else if (if x.v32 then 1 else 0) ≠ s.fget F.descLayout_LAYOUT p then 0x0806
  else if !x.strideOk then 0x0807
  else if (etBits x.etype ≥ 16 ∧ (x.base % (etBits x.etype / 8) ≠ 0 ∨ x.scaleBase % (etBits x.etype / 8) ≠ 0)) ∨
      (x.kind = 1 ∧ (0x800000 ≤ x.base ∨ 0x800000 ≤ x.scaleBase)) ∨
      (x.kind = 2 ∧ (0x17FFF < x.base ∨ 0x17FFF < x.scaleBase)) then 0x0808
  else if (x.kind = 2 ∧ (x.alloc ≠ 0 ∨ x.scaleAlloc ≠ 0)) ∨
      (x.kind ≠ 2 ∧ (x.alloc = 0 ∨ !allocKind x.alloc ∨ (x.scaleAlloc ≠ 0 ∧ !allocKind x.scaleAlloc))) then 0x0809
  else
    let inBounds (h base : Nat) (sp : Int × Int) : Bool :=
      if x.kind = 2 then spanIn base sp 0 0x18000
      else match s.findAlloc p h with
        | some a => spanIn base sp a.base a.len && (x.kind ≠ 1 || spanIn base sp 0 0x800000)
        | none => false
    if !inBounds x.alloc x.base x.footprint then 0x080A
    else if (if etScaled x.etype then
        (x.kind ≠ 2 && x.scaleAlloc = 0) || !inBounds x.scaleAlloc x.scaleBase x.scaleFootprint
      else x.scaleAlloc ≠ 0 || x.scaleBase ≠ 0) then 0x080B
    else 0

/-- Do the areas DESC_TABLE and DESC_DET name lie wholly within the partition's scratchpad. -/
def State.descTableIn (s : State) (p : Nat) : Bool := s.spHas p (s.fget F.descTable_OFFSET p * 4096) (s.fget F.descTable_COUNT p * 128)
def State.descDetIn (s : State) (p : Nat) : Bool := s.spHas p (s.fget F.descDet_OFFSET p * 4096) (s.fget F.descDet_SIZE p * 4096)

/-- A bin of a partition has been released: an area that no longer lies within its scratchpad is lost until its register is written again
(R175). -/
def State.descLose (s : State) (p : Nat) : State :=
  let l := if s.descTableIn p then s.descLost else setIns s.descLost p
  { s with descLost := if s.descDetIn p then l else setIns l (32 + p) }

/-- May the table of a partition's DESC_TABLE, the staging area of its DESC_DET, be used (R175). -/
def State.descTableOk (s : State) (p : Nat) : Bool := s.descTableIn p && !s.descLost.contains p
def State.descDetOk (s : State) (p : Nat) : Bool := s.descDetIn p && !s.descLost.contains (32 + p)

/-- Is an index a valid descriptor of the partition (R173). -/
def State.descValid (s : State) (p i : Nat) : Bool :=
  i ≠ 0xFFFF && i < s.fget F.descTable_COUNT p && s.descs.contains (p * 65536 + i)

/-- The stored bytes of a descriptor. -/
def State.descBytes (s : State) (p i : Nat) : List Byte :=
  (s.spRead p (s.fget F.descTable_OFFSET p * 4096 + i * 128) 128).getD []

/-- The module ID this module answers to (R14). -/
def State.selfId (s : State) : Nat := s.fget F.oncSelf_MODULE_ID 0

/-- A descriptor with its addresses resolved for the issuing core (R196, R199): vault-relative against its vault. -/
def State.resolve (s : State) (core : Option Nat) (x : Desc) : Desc :=
  if x.kind = 1 then
    let v := s.selfId * 0x10000000000 + vaultBase (core.getD 0)
    { x with base := v + x.base, scaleBase := v + x.scaleBase }
  else x

/-- Byte spans of a resolved descriptor as [first, end) addresses; scratch spans lie in a space of their own (tag true). -/
def Desc.spans (x : Desc) : List (Bool × Nat × Nat) :=
  let mk (base : Nat) (sp : Int × Int) : Bool × Nat × Nat :=
    (x.kind = 2, ((base : Int) + sp.1).toNat, ((base : Int) + sp.2 + 1).toNat)
  mk x.base x.footprint :: (if etScaled x.etype then [mk x.scaleBase x.scaleFootprint] else [])

/-- Bytes common to two spans. -/
def common (a b : Bool × Nat × Nat) : Nat :=
  if a.1 == b.1 then min a.2.2 b.2.2 - max a.2.1 b.2.1 else 0

end Sys2Proof.Machine
end

