-- ==== Sys2Proof/Machine/CoreOps.lean ====
section
/-!
DEFINITION. CoreOps.lean: the operations of a core every command of it shares: registers with chaff tags, core scratch,
frames, the order of scratch accesses, the end of a work item, command failures.
-/
namespace Sys2Proof.Machine

open Host (Outcome)

/-! ## Scalar registers (R66, R630) -/

/-- Read a scalar register; s0 reads zero. -/
def Core.reg (c : Core) (r : Reg) : W64 := if r = 0 then 0 else alGet 0 c.regs r.toNat

/-- Does a scalar register carry chaff; s0 never does. -/
def Core.tag (c : Core) (r : Reg) : Bool := r ≠ 0 && c.regChaff.contains r.toNat

/-- Write a scalar register with its chaff tag; a write to s0 is discarded. -/
def Core.setReg (c : Core) (r : Reg) (v : W64) (chaff : Bool) : Core :=
  if r = 0 then c
  else { c with regs := alPut c.regs r.toNat v,
                regChaff := if chaff then setIns c.regChaff r.toNat else setDel c.regChaff r.toNat }

/-! ## Core scratch (R71) -/

/-- One byte past the last scratch address. -/
def scratchEnd : Nat := 0x18000

/-- A byte of scratch. What nothing has written since the contents last became undefined is a free byte; before the
first such time it reads zero. -/
def Core.sget (c : Core) (n a : Nat) : Byte :=
  match alFind c.scratch a with
  | some b => b
  | none => if c.undef = 0 then 0 else Config.scratchByte n c.undef a

/-- Read bytes of scratch. -/
def Core.sread (c : Core) (n a k : Nat) : List Byte := (List.range k).map fun i => c.sget n (a + i)

/-- Does any 32-byte unit of a span of scratch carry chaff (Table 12-5). -/
def Core.schaffIn (c : Core) (a k : Nat) : Bool :=
  if k = 0 then false else c.schaff.any fun u => decide (a / 32 ≤ u ∧ u ≤ (a + k - 1) / 32)

/-- Put one byte into scratch, in canonical form while unlisted bytes read zero. -/
def Core.sput1 (c : Core) (a : Nat) (b : Byte) : List (Nat × Byte) :=
  if c.undef = 0 && b = 0 then alDel c.scratch a else alPut c.scratch a b

/-- Put bytes into scratch. -/
def Core.sputN (c : Core) : Nat → List Byte → Core
  | _, [] => c
  | a, b :: t => Core.sputN { c with scratch := c.sput1 a b } (a + 1) t

/-- The scratch units a span touches, with whether the span covers them whole. -/
def unitsOf (a k : Nat) : List (Nat × Bool) :=
  if k = 0 then [] else
  (List.range ((a + k - 1) / 32 - a / 32 + 1)).map fun i =>
    let u := a / 32 + i
    (u, decide (a ≤ u * 32 ∧ u * 32 + 32 ≤ a + k))

/-- Write bytes with one chaff mark for all: a unit is marked by a chaff byte, cleared when clean bytes cover it (R415). -/
def Core.swrite (c : Core) (a : Nat) (bs : List Byte) (chaff : Bool) : Core :=
  let c := c.sputN a bs
  { c with schaff := (unitsOf a bs.length).foldl (fun l u =>
      if chaff then setIns l u.1 else if u.2 then setDel l u.1 else l) c.schaff }

/-- Write bytes with a mark each. -/
def Core.swriteMarked (c : Core) (a : Nat) (bs : List (Byte × Bool)) : Core :=
  let c := c.sputN a (bs.map Prod.fst)
  { c with schaff := (unitsOf a bs.length).foldl (fun l u =>
      let inU := (bs.drop (u.1 * 32 - a)).take (32 - (a - u.1 * 32))
      if inU.any Prod.snd then setIns l u.1 else if u.2 then setDel l u.1 else l) c.schaff }

/-- The contents of scratch become undefined: a field reset (R72, Table 14-3). -/
def Core.scratchLost (c : Core) : Core := { c with scratch := [], undef := c.undef + 1, schaff := [] }

/-! ## Data of cancelled steps (R171) -/

/-- The place of a byte of scratch among the places of Config.undefByte. -/
def scrPlace (n a : Nat) : Nat := 0x1000000000000000 + n * 0x20000 + a

/-- Undefined bytes. -/
def State.undefBytes (s : State) (place len : Nat) : List Byte := (List.range len).map fun i => Config.undefByte (place + i) s.undefs

/-- Undefined 32-bit words. -/
def State.undefWords (s : State) (place k : Nat) : List Nat :=
  (List.range k).map fun i => leNat ((List.range 4).map fun j => Config.undefByte (place + 4 * i + j) s.undefs)

/-- Was the work item of core `n` cancelled (R171): what its started commands still write is undefined. -/
def State.workDead (s : State) (n : Nat) : Bool := match (s.core n).wi with | some w => w.dead | none => false

/-- Keep that an open step has written `len` bytes. -/
def State.noteStep (s : State) (ring : Option Nat) (step : Nat) (core : Option Nat) (addr len : Nat) : State :=
  match ring with
  | none => s
  | some r =>
    if len ≠ 0 && (s.ring r).steps.any (fun o => o.step = step) then
      let w : Wrote := { ring := r, step := step, core := core, addr := addr, len := len }
      { s with wrote := w :: s.wrote.filter (· ≠ w) }
    else s

/-- Keep that the work item of core `n` has written its scratch, or memory. -/
def State.noteItem (s : State) (n : Nat) (scratch : Bool) (addr len : Nat) : State :=
  match (s.core n).wi with
  | some w => s.noteStep w.ring w.step (if scratch then some n else none) addr len
  | none => s

/-- The data a cancelled step has written become undefined. -/
def State.spoil (s : State) (w : Wrote) : State :=
  match w.core with
  | some n => s.onCore n fun c => c.sputN w.addr (s.undefBytes (scrPlace n w.addr) w.len)
  | none => { s with mem := memSetN s.mem w.addr (s.undefBytes w.addr w.len) }

/-- A contribution of a cancelled step. -/
def State.spoilContrib (s : State) (ring : Nat) (steps : List Nat) (c : Contrib) : Contrib :=
  if c.ring = some ring && steps.contains c.step then { c with bits := leNat (s.undefBytes c.addr 8) } else c

/-- The data a message of a cancelled step carries. -/
def State.spoilMsg (s : State) (ring : Nat) (steps : List Nat) (m : Msg) : Msg :=
  if !m.comb.isEmpty then { m with comb := m.comb.map fun x => { x with con := s.spoilContrib ring steps x.con } }
  else if m.ring = some ring && steps.contains m.step then
    { m with data := m.data.map fun d => (d.1, Config.undefByte (vaultBase m.core + d.1) s.undefs, d.2.2) }
  else m

/-- The data that cancelled steps of a ring have written, or still have on their way within the module, become undefined (R171). -/
def State.spoilSteps (s : State) (ring : Nat) (steps : List Nat) : State :=
  if steps.isEmpty then s else
  let gone (w : Wrote) : Bool := w.ring = ring && steps.contains w.step
  let s := { s with undefs := s.undefs + 1 }
  let s := (s.wrote.filter gone).foldl State.spoil { s with wrote := s.wrote.filter fun w => !gone w }
  let msg := s.spoilMsg ring steps
  { s with
    cores := s.cores.map fun (x : Nat × Core) => (x.1, { x.2 with vqMesh := x.2.vqMesh.map msg, vqGran := x.2.vqGran.map msg }),
    mdq := s.mdq.map fun b => { b with msg := msg b.msg },
    contribs := s.contribs.map (s.spoilContrib ring steps),
    moves := s.moves.map fun m => if m.ring = some ring && steps.contains m.step then { m with dead := true } else m }

/-! ## Outstanding commands (R67, R154) -/

/-- Commands outstanding in queue q (0 matrix, 1 vector, 2 huller, 3 move, 4 sync): queued or not complete. -/
def State.outstanding (s : State) (n q : Nat) : Nat :=
  let c := s.core n
  if q = 0 then c.qm.length + (if c.shadow.isSome then 1 else 0) + (if c.active.isSome then 1 else 0) +
    (c.verify.filter fun v => match v with | .mtx _ => true | _ => false).length
  else if q = 1 then c.qv.length + (c.verify.filter fun v => match v with | .dot _ _ | .recompute _ _ _ _ => true | _ => false).length
  else if q = 2 then c.qh.length + c.hul.length + (c.verify.filter fun v => match v with | .bank _ _ _ _ _ _ => true | _ => false).length
  else if q = 3 then c.qmv.length + (s.moves.filter fun m => m.core = some n).length
  else c.qs.length + (if c.sync.isSome then 1 else 0)

/-- Outstanding commands of all five queues. -/
def State.outstandingAll (s : State) (n : Nat) : Nat :=
  s.outstanding n 0 + s.outstanding n 1 + s.outstanding n 2 + s.outstanding n 3 + s.outstanding n 4

/-- Depth of a queue (Table 3-2). -/
def queueDepth (q : Nat) : Nat := if q = 2 ∨ q = 3 then 16 else if q = 4 then 4 else 8

/-- Has queue q room (R67). A command keeps its place until it completes: the streaming matrix instruction is the one at the head, and
the loading one the next (R77); a huller command (R218), a move (R213), a WAIT (R261). -/
def State.hasRoom (s : State) (n q : Nat) : Bool :=
  let c := s.core n
  let used := if q = 0 then c.qm.length + one c.shadow.isSome + one c.active.isSome else if q = 1 then c.qv.length
    else if q = 2 then c.qh.length + c.hul.length
    else if q = 3 then c.qmv.length + (s.moves.filter fun m => m.core = some n).length else c.qs.length + one c.sync.isSome
  used < queueDepth q

/-- The commands waiting in queue q. -/
def Core.queueOf (c : Core) (q : Nat) : List Cmd :=
  if q = 0 then c.qm else if q = 1 then c.qv else if q = 2 then c.qh else if q = 3 then c.qmv else c.qs

/-- Replace the waiting commands of queue q. -/
def Core.setQueue (c : Core) (q : Nat) (l : List Cmd) : Core :=
  if q = 0 then { c with qm := l } else if q = 1 then { c with qv := l } else if q = 2 then { c with qh := l }
  else if q = 3 then { c with qmv := l } else { c with qs := l }

/-- The 14 bytes of a command that its CHECK covers (Table 5-12). -/
def cmdBytes (layer oper step kind op : Nat) (body : BitVec 40) : List Byte :=
  toLE 14 (body.toNat + 2 ^ 40 * (op % 16) + 2 ^ 44 * (kind % 16) + 2 ^ 48 * (step % 2 ^ 32) +
    2 ^ 80 * (oper % 65536) + 2 ^ 96 * (layer % 65536))

/-- CHECK of a command matches (R160). -/
def Cmd.checkOk (c : Cmd) : Bool := c.chk = moduleCheck (cmdBytes c.layer c.oper c.step c.kind c.op c.body)

/-- FRAME of a body, as a scratch address (R161). -/
def Cmd.frame (c : Cmd) : Nat := bitsOf c.body.toNat 28 12 * 32
/-- SUB of a body. -/
def Cmd.sub (c : Cmd) : Nat := bitsOf c.body.toNat 24 4

/-! ## Parameters in frames -/

/-- Scratch spans: (writes, first byte, end). -/
abbrev Span := Bool × Nat × Nat

/-- Class depth of a pairing, or none (Table 3-4); `mode` 0 WS, 1 IS, 2 OS. -/
def mtxClass (fs ft mode : Nat) : Option Nat :=
  let c32fp (t : Nat) : Bool := t = 4 || t = 5 || t = 8 || t = 9 || t = 0xA || t = 0xB
  if (fs = 2 ∧ ft = 2) ∨ (fs = 3 ∧ ft = 3) then some 16
  else if c32fp fs && c32fp ft then some 32
  else if (fs = 0x10 ∧ ft = 0x10) ∨ (fs = 0x0D ∧ ft = 0x0D) then some 32
  else if (fs = 0x0C && c32fp ft) || (ft = 0x0C && c32fp fs) then some 32
  else if (fs = 0x11 ∧ ft = 0x10) ∨ (fs = 0x10 ∧ ft = 0x11) then some 32
  else if (fs = 0x0C ∧ ft = 0x0C) ∨ (fs = 0x11 ∧ ft = 0x11) then some 64
  else if fs = 0x18 ∧ (ft = 0x10 ∨ ft = 0x0D) then if mode = 0 then some 128 else none
  else none

/-- MMA parameters as the frame and body give them (Tables 5-13, 5-14). -/
def mtxParse (c : Cmd) (f : List Byte) : MtxInst :=
  let b := c.body.toNat
  { cmd := c, env := ⟨false, false, false, false, 0, 0⟩, fmtS := fieldB f 0 1 % 64, fmtT := fieldB f 1 1 % 64,
    n := bitsOf b 17 11, mode := bitsOf b 15 2, acc := bitAt b 14, mAct := fieldB f 2 1 % 32, kAct := fieldB f 3 1,
    cAct := fieldB f 4 1 % 32, sA := fieldB f 8 4 % 0x20000, tA := fieldB f 12 4 % 0x20000,
    uA := fieldB f 16 4 % 0x20000, scA := fieldB f 20 4 % 0x20000, oA := fieldB f 24 4 % 0x20000,
    tile := [], tileSc := [], tileChaff := false, loaded := false, done := 0, cells := [], prior := [], sat := [],
    envFail := false, chaff := c.chaff }

/-- Bytes of a streamed vector or chunk: 32, or 128 in C128 (Table 3-7). -/
def MtxInst.tStride (i : MtxInst) : Nat := if i.fmtS = 0x18 then 128 else 32

/-- Bytes of the stationary region in WS and IS: 16 rows of 32 bytes; for BT2 one run of 410 (Table 3-7, R105). -/
def MtxInst.sLen (i : MtxInst) : Nat := if i.fmtS = 0x18 then 410 else 512

/-- Bytes of the output region. -/
def MtxInst.oLen (i : MtxInst) : Nat := if i.mode = 2 then 1024 else i.n * 64

/-- Is SC_ADDR read (R110). -/
def MtxInst.scaled (i : MtxInst) : Bool := etScaled i.fmtS || etScaled i.fmtT

/-- Class depth. -/
def MtxInst.depth (i : MtxInst) : Nat := (mtxClass i.fmtS i.fmtT i.mode).getD 16

/-- Bytes from SC_ADDR to the last scale byte the instruction reads (R110, Table 4-5), active part only (R78, R103). -/
def MtxInst.scLen (i : MtxInst) : Nat :=
  let kb := i.depth / 32
  if i.mode = 2 then
    let gs := (i.n * (i.depth / 16) + 31) / 32
    (gs - 1) * 32 + (if etScaled i.fmtT then 16 + i.cAct else i.mAct)
  else
    let lastB := (i.kAct + 31) / 32
    if etScaled i.fmtT then 64 + (i.n - 1) * kb + lastB
    else (i.mAct - 1) * kb + lastB

/-- Scratch spans of a matrix instruction: what it reads, then its output region (R82). -/
def MtxInst.reads (i : MtxInst) : List Span :=
  (if i.mode = 2 then [] else [(false, i.sA, i.sA + i.sLen)]) ++
  [(false, i.tA, i.tA + i.n * i.tStride)] ++
  (if i.mode = 2 then [(false, i.uA, i.uA + i.n * 32)] else []) ++
  (if i.scaled then [(false, i.scA, i.scA + i.scLen)] else [])
def MtxInst.spans (i : MtxInst) : List Span := i.reads ++ [(true, i.oA, i.oA + i.oLen)]

/-- A vector frame (Table 5-16) with the body's SUB and BCAST. -/
structure VecFrame where
  op : Nat
  sub : Nat
  bcast : Bool
  fA : Nat
  fB : Nat
  fD : Nat
  rmode : Nat
  sat : Bool
  aVault : Bool
  mulCh : Bool
  bCount : Nat
  pred : Nat
  count : Nat
  k : Nat
  aA : Nat
  bA : Nat
  dA : Nat
  asA : Nat
  bsA : Nat
  dsA : Nat
  mul : Nat
  seed : Nat
  scalar : Nat
  deriving DecidableEq, Repr

def vecParse (c : Cmd) (f : List Byte) : VecFrame :=
  let md := fieldB f 3 1
  let sh := fieldB f 4 1
  { op := c.op, sub := c.sub, bcast := bitAt c.body.toNat 23, fA := fieldB f 0 1 % 64, fB := fieldB f 1 1 % 64,
    fD := fieldB f 2 1 % 64, rmode := md % 8, sat := bitAt md 3, aVault := bitAt md 4, mulCh := bitAt md 5,
    bCount := sh % 16, pred := sh / 16, count := fieldB f 8 4, k := fieldB f 12 2, aA := fieldB f 16 5,
    bA := fieldB f 24 4, dA := fieldB f 28 4, asA := fieldB f 32 5, bsA := fieldB f 40 4, dsA := fieldB f 44 4,
    mul := fieldB f 48 4, seed := fieldB f 52 4, scalar := fieldB f 56 4 }

/-- Bytes of COUNT elements packed from position 0. -/
def packedLen (t n : Nat) : Nat :=
  if t = 0x18 then if n = 0 then 0 else (n - 1) / 2048 * 410 + (n - 1) % 2048 / 5 + 1
  else (n * etBits t + 7) / 8

/-- Regions of a vector command (R164, R631): A, B, D, AS, BS, DS, and the multipliers of MUL_CH, as (address, length);
length 0 where the operation does not use the region. -/
def VecFrame.regA (v : VecFrame) : Nat × Nat :=
  (v.aA, if v.op = 0 then (if v.fA = 0x18 then v.count / 16 * (v.k / 128) * 410 else v.count * rowBytes v.fA v.k)
    else if v.op = 4 then v.count * rowBytes v.fA v.k
    else if v.op = 5 then v.count * 2048 else packedLen v.fA v.count)
def VecFrame.regB (v : VecFrame) : Nat × Nat :=
  (v.bA, if v.op = 0 then v.bCount * rowBytes v.fB v.k
    else if v.op = 1 && !v.bcast then packedLen v.fB v.count else 0)
def VecFrame.regD (v : VecFrame) : Nat × Nat :=
  (v.dA, if v.op = 0 then v.bCount * v.count * 4 else if v.op = 4 then v.count * 4
    else if v.op = 5 then v.count * 410
    else if v.op = 3 && etMx v.fD then packedLen v.fD ((v.count + 31) / 32 * 32) else packedLen v.fD v.count)
def VecFrame.regAS (v : VecFrame) : Nat × Nat :=
  (v.asA, if v.op = 5 then v.count * 64
    else if !etScaled v.fA then 0
    else if v.op = 0 && v.fA = 0x18 then v.count / 16 * (v.k / 128) * 64
    else if v.op = 0 || v.op = 4 then v.count * ((v.k + 31) / 32)
    else if v.op = 3 then (v.count + 31) / 32 else 0)
def VecFrame.regBS (v : VecFrame) : Nat × Nat :=
  (v.bsA, if v.op = 0 && etScaled v.fB then v.bCount * ((v.k + 31) / 32) else 0)
def VecFrame.regDS (v : VecFrame) : Nat × Nat :=
  (v.dsA, if v.op = 5 then v.count * 64 else if v.op = 3 && etMx v.fD then (v.count + 31) / 32 else 0)
def VecFrame.regMul (v : VecFrame) : Nat × Nat :=
  (v.mul % 0x20000, if v.op = 3 && v.fA = 0x12 && v.mulCh then v.k * 4 else 0)

/-- Scratch spans of a vector command. -/
def VecFrame.spans (v : VecFrame) : List Span :=
  let r (w : Bool) (x : Nat × Nat) : List Span := if x.2 = 0 then [] else [(w, x.1, x.1 + x.2)]
  (if v.aVault then [] else r false v.regA ++ r false v.regAS) ++ r false v.regB ++ r false v.regBS ++ r false v.regMul ++
  (if v.op = 1 && (v.sub = 3 || v.sub = 7) then r false v.regD else []) ++ r true v.regD ++ r true v.regDS

/-- A huller command's parameters (Table 5-17). -/
def hulParse (c : Cmd) (f : List Byte) : HulCmd :=
  { cmd := c, env := ⟨false, false, false, false, 0, 0⟩, op := c.op, sub := c.sub, mask := BitVec.ofNat 32 (fieldB f 0 4),
    off := fieldB f 4 3 % 0x40000, len := fieldB f 8 4, fmtB := fieldB f 12 1 % 64, fmtQ := fieldB f 13 1 % 64,
    hd := fieldB f 14 2, qA := fieldB f 16 4, pA := fieldB f 20 4, scale := BitVec.ofNat 32 (fieldB f 24 4),
    pos := fieldB f 28 4, query := none, chaff := false, tasks := [] }

/-- Row stride of huller operands of a format (R224). -/
def hulRow (t hd : Nat) : Nat := (hd * (etBits t / 8) + 31) / 32 * 32
/-- Sheaf image size S (R224). -/
def HulCmd.sheaf (h : HulCmd) : Nat := (128 * hulRow h.fmtB h.hd + 255) / 256 * 256
/-- Query vectors G (R226). -/
def HulCmd.g (h : HulCmd) : Nat := if h.op ≤ 1 then h.sub + 1 else 1
/-- Banks named by the mask, rising. -/
def HulCmd.banks (h : HulCmd) : List Nat := (List.range 32).filter fun b => h.mask.getLsbD b
/-- Rows of one bank for DOTV and RED (R224). -/
def HulCmd.rows (h : HulCmd) : Nat := h.len / hulRow h.fmtB h.hd
/-- Record size of one bank (Table 7-8). -/
def HulCmd.recLen (h : HulCmd) : Nat :=
  if h.op = 0 then 32 + h.g * ((8 + 4 * h.hd + 31) / 32 * 32)
  else if h.op = 1 then 32 + h.g * ((4 * h.rows + 31) / 32 * 32)
  else if h.op = 2 then 32 + (4 * h.hd + 31) / 32 * 32
  else 0
/-- Query region and record region, as spans. -/
def HulCmd.qLen (h : HulCmd) : Nat := if h.op ≤ 1 then h.g * hulRow h.fmtQ h.hd else 0
def HulCmd.spans (h : HulCmd) : List Span :=
  (if h.query.isSome ∨ h.qLen = 0 then [] else [(false, h.qA, h.qA + h.qLen)]) ++
  (if h.recLen = 0 then [] else [(true, h.pA, h.pA + h.banks.length * h.recLen)])

/-- Scratch spans of a descriptor, when it lies in scratch. -/
def Desc.scratchSpans (x : Desc) (write : Bool) : List Span :=
  if x.kind = 2 then x.spans.map fun t => (write, t.2.1, t.2.2) else []

/-- Scratch spans of a move frame whose descriptors the partition's table holds. -/
def State.moveSpans (s : State) (p op : Nat) (f : List Byte) : List Span :=
  let get (i : Nat) (w : Bool) : List Span :=
    if s.descValid p i then (parseDesc (s.descBytes p i)).scratchSpans w else []
  get (fieldB f 0 2) false ++ get (fieldB f 2 2) true ++ (if op = 2 ∨ op = 3 then get (fieldB f 4 2) false else [])

/-- Scratch spans a queued command will access, its frame included, as far as its frame tells them now. -/
def State.cmdSpans (s : State) (n : Nat) (c : Cmd) : List Span :=
  let co := s.core n
  let fl := if c.kind = 2 ∨ c.kind = 3 then 64 else 32
  let f := co.sread n c.frame fl
  let frame : List Span := if c.kind = 5 ∧ c.op = 0 then [] else [(false, c.frame, c.frame + fl)]
  frame ++
  (if c.kind = 1 then (mtxParse c f).spans
   else if c.kind = 2 then (vecParse c f).spans
   else if c.kind = 3 then (hulParse c f).spans
   else if c.kind = 4 then s.moveSpans ((s.partOfCore n).getD 32) c.op f
   else [])

/-- Two spans conflict: they share a granule of 512 bytes and one of them writes (R69). -/
def Span.conflict (a b : Span) : Bool :=
  (a.1 || b.1) && decide (a.2.1 < a.2.2) && decide (b.2.1 < b.2.2) &&
  decide (a.2.1 / 512 ≤ (b.2.2 - 1) / 512) && decide (b.2.1 / 512 ≤ (a.2.2 - 1) / 512)

/-- The command a verification is of, and what it has read and written in scratch, which is held until the verification ends (R402). -/
def Verify.cmd : Verify → Cmd
  | .mtx i => i.cmd
  | .dot d _ => d
  | .recompute d _ _ _ => d
  | .bank d _ _ _ _ _ => d
def Verify.spans : Verify → List Span
  | .mtx i => i.spans
  | .dot d f => (vecParse d f).spans
  | .recompute d f _ _ => (vecParse d f).spans
  | .bank _ _ a e q k => [(false, q, q + k), (true, a, a + e.length)]

/-- Spans of the commands a core's units have taken, each with its place in program order. -/
def State.takenSpans (s : State) (n : Nat) : List (Nat × Span) :=
  let c := s.core n
  let at_ (seq : Nat) (l : List Span) : List (Nat × Span) := l.map fun x => (seq, x)
  (c.shadow.toList ++ c.active.toList).flatMap (fun i => at_ i.cmd.seq i.spans) ++
  c.hul.flatMap (fun h => at_ h.cmd.seq h.spans) ++
  c.verify.flatMap (fun v => at_ v.cmd.seq v.spans) ++
  (s.moves.filter fun x => x.core = some n).flatMap fun x =>
    at_ x.cmd.seq (x.src.scratchSpans false ++ x.dst.scratchSpans true ++ (match x.idx with | some d => d.scratchSpans false | none => []))

/-- Insert a command in program order. -/
def seqInsert (d : Cmd) : List Cmd → List Cmd
  | [] => [d]
  | x :: t => if d.seq < x.seq then d :: x :: t else x :: seqInsert d t

/-- The commands in a core's queues, in program order. -/
def Core.queued (c : Core) : List Cmd := (c.qm ++ c.qv ++ c.qh ++ c.qmv ++ c.qs).foldl (fun l d => seqInsert d l) []

/-- The whole of scratch, written: what a command may access whose frame is not yet all there. -/
def Span.all : Span := (true, 0, scratchEnd)

/-- Spans of a queued command. While an earlier access still has to write its frame (R161), what it will access is not known: any
granule. -/
def State.heldSpans (s : State) (n : Nat) (before : List (Nat × Span)) (d : Cmd) : List Span :=
  let fl := if d.kind = 2 ∨ d.kind = 3 then 64 else 32
  let open_ := (d.kind ≠ 5 || d.op ≠ 0) && before.any fun x => decide (x.1 < d.seq) && Span.conflict (false, d.frame, d.frame + fl) x.2
  if open_ then [(false, d.frame, d.frame + fl), Span.all] else s.cmdSpans n d

/-- Spans of every outstanding command of a core, each with its place in program order (R69). -/
def State.coreSpans (s : State) (n : Nat) : List (Nat × Span) :=
  (s.core n).queued.foldl (fun l d => l ++ (s.heldSpans n l d).map fun x => (d.seq, x)) (s.takenSpans n)

/-- Does the frame of a queued command still wait for an earlier write. -/
def State.frameOpen (s : State) (n : Nat) (d : Cmd) : Bool := (s.coreSpans n).contains (d.seq, Span.all)

/-- Spans of every outstanding command of a core earlier in program order than `seq`. -/
def State.earlierSpans (s : State) (n seq : Nat) : List Span :=
  ((s.coreSpans n).filter fun x => decide (x.1 < seq)).map Prod.snd

/-- May an access to spans of a core's scratch, at place `seq` of program order, begin (R69, R402). -/
def State.scratchFree (s : State) (n seq : Nat) (sp : List Span) : Bool :=
  let e := s.earlierSpans n seq
  sp.all fun a => e.all fun b => !Span.conflict a b

/-! ## Issue, errors and the end of work items -/

/-- Is a command of a core kept from starting: droop (R31), a stall or substitution (R43, R428), reset of the field; verification
(R403) or thermal hold (R536) of the core. -/
def State.startHeld (s : State) (n : Nat) : Bool :=
  let f := s.field (fieldOfCore n)
  f.droop || f.held || f.resetting || !(s.core n).verify.isEmpty || (s.core n).hold

/-- Does a core issue no new command: what keeps commands from starting, and a debug halt (R576: commands already issued complete). -/
def State.issueHeld (s : State) (n : Nat) : Bool := s.startHeld n || (s.field (fieldOfCore n)).halted

/-- Is the control processor of a core free to execute: it runs a work item, waits for no command, and its field neither is in reset nor
halted (R66, R576). It goes on past a FENCE or WAIT it has queued, which holds the later accesses of the core and not the control processor
(log 198, DEDUCED). -/
def State.cpFree (s : State) (n : Nat) : Bool :=
  let c := s.core n
  let f := s.field (fieldOfCore n)
  c.wi.isSome && c.wait.isNone && !f.resetting && !f.halted && !c.hold

/-- Is the line of the next instruction in the instruction cache (R73). -/
def Core.fetched (c : Core) : Bool := c.image.isNone || c.lines.contains (c.pc / 32)

/-- May the control processor of a core execute its next instruction: it is free, and the instruction's line is in the cache (R73). -/
def State.cpRuns (s : State) (n : Nat) : Bool := s.cpFree n && (s.core n).fetched

/-- A work item of a cancelled step fails: its first error is counted in the step's record (R171). -/
def State.lateError (s : State) (r step : Nat) : State :=
  s.onRing r fun x => { x with late := x.late.map fun (l : LateCpl) => if l.step = step then { l with count := l.count + 1 } else l }

/-- The work item of a core fails with a status (R171): the front end is told. A boot item belongs to no ring (R473);
its status stays with the core. -/
def State.itemError (s : State) (n status soft : Nat) : State :=
  let c := s.core n
  let first : Bool := c.status = 0
  let s := s.setCore n { c with status := if first then status else c.status }
  match c.wi with
  | some w =>
    match w.ring with
    | some r =>
      if !w.dead then s.stepError { ring := r, step := w.step, status := status, core := n, soft := soft, entry := some w.place, item := first }
      else if first then s.lateError r w.step
      else s
    | none => s
  | none => s

/-- End the work item at once with an error: the control processor stops, and its queued commands are discarded (R153,
R154, R171). -/
def State.endItem (s : State) (n status soft : Nat) : State :=
  let s := s.itemError n status soft
  s.onCore n fun c => { c with wait := some .ending, qm := [], qv := [], qh := [], qmv := [], qs := [] }

/-- A command fails: it writes nothing and completes with its status (R162, R171). -/
def State.failCmd (s : State) (n status : Nat) : State := s.itemError n status 0

/-- The step a core's work item belongs to consumes chaff (R417, R630). -/
def State.itemChaff (s : State) (n : Nat) : State :=
  match (s.core n).wi with
  | some w => s.consumeChaff w.ring w.step
  | none => s

/-- Local address of model descriptor i (R332). -/
def mdlAddr (i : Nat) : Nat := binBase 63 + 0xC00000 + i * 256

/-- Bits [31:0] of the TAG of a model descriptor; 0 for none (Table 10-8). -/
def State.mdlTag (s : State) (i : Nat) : Nat := if i < 4096 then leNat (s.rdN (mdlAddr i + 32) 4) else 0

/-- Bits [31:0] of the TAG of the model a core's work item runs under. -/
def State.itemTag (s : State) (n : Nat) : Nat := match (s.core n).wi with | some w => s.mdlTag w.model | none => 0

/-- A fault record with the place of a core's work: part, ring, step, the command's header, and the TAG of its model's descriptor
(R333). -/
def State.coreFault (s : State) (n cause : Nat) (c : Cmd) : FaultRec :=
  let f := (FaultRec.blank cause).atCore n
  let f := { f with layer := c.layer, oper := c.oper, step := c.step, tag := s.itemTag n }
  match (s.core n).wi with
  | some w => { f with part := w.part, ring := w.ring.getD 0xFF }
  | none => f

/-- What reading a command's frame gives (R628 steps 1 to 4). -/
inductive FrameRes where
  | ok (f : List Byte)
  | status (n : Nat)
  | fault
  deriving DecidableEq, Repr

/-- Has the frame at `a` of core `n` failed its check before in this step (R162). -/
def State.badFrameSeen (s : State) (n a : Nat) : Bool :=
  match (s.core n).wi with
  | some w => match w.ring with
    | some r => match (s.ring r).openStep w.step with
      | some o => o.badFrames.contains (n, a)
      | none => false
    | none => false
  | none => false

/-- Read and check a command's frame of `len` bytes: the place (R161), FRAME_CHK (R162). -/
def State.readFrame (s : State) (n : Nat) (c : Cmd) (len : Nat) : FrameRes :=
  if c.frame % len ≠ 0 then .status 0x0204
  else if scratchEnd < c.frame + len then .status 0x0303
  else
    let f := (s.core n).sread n c.frame len
    if checkOk f len then .ok f
    else if s.badFrameSeen n c.frame then .status 0x0202
    else .fault

/-- A confirmed fault FRAME of a core (Table 12-1), remembered for the replay (R162). -/
def State.frameFault (s : State) (n : Nat) (c : Cmd) : State :=
  let s := match (s.core n).wi with
    | some w => s.onStep w.ring w.step fun o => { o with badFrames := (n, c.frame) :: o.badFrames }
    | none => s
  s.confirm (s.coreFault n 4 c)

/-- Count of a core counter page (Table 17-12) by its index. -/
def State.coreCount (s : State) (n i k : Nat) : State := s.fadd F.coreCtr_COUNT (n * 64 + i) k

end Sys2Proof.Machine
end

