-- ==== Sys2Proof/Machine/Units.lean ====
section
/-!
DEFINITION. Units.lean: what the units of a core share: taking a command from a queue, the checks common to every kind
(R628), envelopes (R398 to R402), and the sums of checksum verification (R403 to R407).
-/
namespace Sys2Proof.Machine

open Host (Outcome)

/-! ## Order of accesses (R54, R57) -/

/-- Does a fence or WAIT earlier in program order hold an access of a core to memory: `coll` for the collective class,
`write` for a write. A WAIT and FENCE.ACQ and FENCE.FULL hold every later access of their classes; FENCE.REL holds later
writes only. -/
def State.orderHeld (s : State) (n seq : Nat) (coll write : Bool) : Bool :=
  let c := s.core n
  (c.sync.toList ++ c.qs).any fun d =>
    decide (d.seq < seq) &&
    (if d.op = 2 then true
     else if d.op = 0 then
       let b := d.body.toNat
       let covers := if coll then bitAt b 6 else bitAt b 4
       covers && (bitsOf b 0 2 ≠ 1 || write)
     else false)

/-- What an access to memory is for its order: an access like any other (R47), a read of a drill (R51), an access of a bank task (R222);
or any access, of a command whose frame is not yet all there (R161). -/
inductive AccessKind where
  | plain | drill | huller | any
  deriving DecidableEq, Repr

/-- A span of memory a command accesses: collective class (R267), write, first byte and end as global addresses. -/
structure MemSpan where
  kind : AccessKind
  coll : Bool
  write : Bool
  lo : Nat
  hi : Nat
  deriving DecidableEq, Repr

/-- The 56-bit global address of a local address of this module (R14). -/
def State.glob (s : State) (a : Nat) : Nat := s.selfId * 0x10000000000 + a

/-- The destination of Table 2-6 an address belongs to, numbered in address order. -/
def State.destOf (s : State) (a : Nat) : Nat :=
  if a / 0x10000000000 ≠ s.selfId then 200000 + a / 0x10000000000
  else
    let l := a % 0x10000000000
    if l < 0x3600000000 then l / 0x800000
    else if l < 0x8000000000 then 100000 + (l - 0x4000000000) / 0x1000000
    else if l < 0xF000000000 then 100100 else 100101

/-- Memory spans of a resolved descriptor. -/
def Desc.memSpans (x : Desc) (k : AccessKind) (coll write : Bool) : List MemSpan :=
  if x.kind = 2 then [] else x.spans.map fun t => ⟨k, coll, write, t.2.1, t.2.2⟩

/-- Do the writes of a move travel in the collective class: combining traffic of a core (Table 2-6); of the front end, combining into
another module (R267), its other accesses being requests (Table 5-7). -/
def State.collective (s : State) (core : Option Nat) (op sub : Nat) (dst : Desc) : Bool :=
  op = 3 && sub ≠ 0 && (core.isSome || dst.spans.any fun t => t.2.1 / 0x10000000000 ≠ s.selfId)

/-- Memory spans of a move: reads of its source and index, writes of its destination. -/
def State.memSpans (s : State) (core : Option Nat) (op sub : Nat) (src dst : Option Desc) (idx : Option Desc) : List MemSpan :=
  let k : AccessKind := if op = 4 then .drill else .plain
  let read (x : Option Desc) : List MemSpan := match x with
    | some d => d.memSpans k false false
    | none => []
  read src ++ (match dst with | some d => d.memSpans k (s.collective core op sub d) true | none => []) ++ read idx

/-- The range of a bank as a memory span. -/
def State.bankSpan (s : State) (n : Nat) (h : HulCmd) (b : Nat) : MemSpan :=
  let a := s.glob (vaultBase n + b * 0x40000 + h.off)
  ⟨.huller, false, h.op = 3, a, a + h.len⟩

/-- Memory spans a queued command will access, as its frame tells them now. -/
def State.cmdMem (s : State) (n : Nat) (c : Cmd) : List MemSpan :=
  let co := s.core n
  let f := co.sread n c.frame (if c.kind = 4 then 32 else 64)
  if c.kind = 2 then
    let v := vecParse c f
    if v.aVault then [v.regA, v.regAS].map fun x => ⟨.plain, false, false, s.glob x.1, s.glob (x.1 + x.2)⟩ else []
  else if c.kind = 3 then
    let h := hulParse c f
    h.banks.map (s.bankSpan n h)
  else if c.kind = 4 then
    let p := (s.partOfCore n).getD 32
    let get (i : Nat) : Option Desc := if s.descValid p i then some (s.resolve (some n) (parseDesc (s.descBytes p i))) else none
    s.memSpans (some n) c.op c.sub (get (fieldB f 0 2)) (get (fieldB f 2 2)) (if c.op = 2 ∨ c.op = 3 then get (fieldB f 4 2) else none)
  else []

/-- Memory spans of a queued command; of one whose frame an earlier access still has to write, any. -/
def State.queuedMem (s : State) (n : Nat) (c : Cmd) : List MemSpan :=
  if 2 ≤ c.kind && c.kind ≤ 4 && s.frameOpen n c then [⟨.any, false, true, 0, 1⟩, ⟨.any, true, true, 0, 1⟩, ⟨.any, false, false, 0, 1⟩]
  else s.cmdMem n c

/-- Memory spans of a move that are not yet performed: once it writes, it has read everything. -/
def State.moveMem (s : State) (m : Move) : List MemSpan :=
  let open_ (d : Desc) : Option Desc := if m.st = .writing then none else some d
  s.memSpans m.core m.op m.sub (open_ m.src) (some m.dst) (m.idx.bind open_)

/-- Memory spans of a core's outstanding commands earlier in program order than `seq`. -/
def State.earlierMem (s : State) (n seq : Nat) : List MemSpan :=
  let c := s.core n
  ((c.qv ++ c.qh ++ c.qmv).filter fun d => decide (d.seq < seq)).flatMap (s.queuedMem n) ++
  (c.hul.filter fun h => decide (h.cmd.seq < seq)).flatMap (fun h =>
    (h.tasks.filter fun t => t.st ≠ .ended).map fun t => s.bankSpan n h t.bank) ++
  (s.moves.filter fun m => m.core = some n && decide (m.cmd.seq < seq)).flatMap s.moveMem

/-- Must an access `a` wait for an earlier one `b` of its source: one class and one destination (R47); a drill read and a write, of any
class, to one burst (R51); a bank task and an access that overlaps it, one of the two a write (R222). -/
def State.memConflict (s : State) (a b : MemSpan) : Bool :=
  decide (a.lo < a.hi) && decide (b.lo < b.hi) &&
  (if a.kind = .any || b.kind = .any then true
   else if a.kind = .huller || b.kind = .huller then (a.write || b.write) && decide (a.lo < b.hi) && decide (b.lo < a.hi)
   else
     (a.coll == b.coll && decide (s.destOf a.lo ≤ s.destOf (b.hi - 1)) && decide (s.destOf b.lo ≤ s.destOf (a.hi - 1))) ||
     (a.kind = .drill && !a.write && b.write && decide (a.lo / 256 ≤ (b.hi - 1) / 256) && decide (b.lo / 256 ≤ (a.hi - 1) / 256)))

/-- Does a unit hold a new access: a substitution its range (Table 13-5), a pending reset of the seedstore controller or of the Oncon block what they
serve (R480). Bank tasks wait in their slots instead. -/
def State.spanHeld (s : State) (x : MemSpan) : Bool :=
  x.kind ≠ .huller && decide (x.lo < x.hi) &&
  (if x.lo / 0x10000000000 = s.selfId then
     s.retHolds (x.lo % 0x10000000000) (x.hi - x.lo) || s.blkHolds (x.lo % 0x10000000000 + (x.hi - x.lo))
   else match s.blk with | some b => b.kind = 2 | none => false)

/-- May accesses of a core at place `seq` of its program order be performed (R47, R222): no unit holds them, and no earlier access. -/
def State.memFree (s : State) (n seq : Nat) (sp : List MemSpan) : Bool :=
  let e := s.earlierMem n seq
  sp.all fun a => !s.spanHeld a && e.all fun b => !s.memConflict a b

/-- Does the field or the core hold an array step, a vector operation or a command start (R31, R43, R536, R576), the
verification of another command apart. -/
def State.stepHeld (s : State) (n : Nat) : Bool :=
  let f := s.field (fieldOfCore n)
  f.droop || f.held || f.resetting || (s.core n).hold

/-! ## Envelopes (R398 to R401) -/

/-- The default envelope (R399). -/
def Env.default : Env := { allowNan := false, allowInf := false, bound := false, satOk := false, maxAbs := 0, maxInt := 0 }

/-- An envelope entry (Table 12-2), if its bytes are good: CHECK, reserved bits, a positive finite MAX_ABS. -/
def Env.parse (b : List Byte) : Option Env :=
  let fl := fieldB b 0 1
  let m := fieldB b 4 4
  let ok := checkOk b 32 && fl < 16 && zeroB b 1 3 && zeroB b 12 18 && 0 < m && m ≤ 0x7F7FFFFF && fieldB b 8 4 < 0x80000000
  if ok then some ⟨bitAt fl 0, bitAt fl 1, bitAt fl 2, bitAt fl 3, BitVec.ofNat 32 m, fieldB b 8 4⟩ else none

/-- The envelope of a command with OPER `op` of partition `p` (R398, R399), and whether ENV_BAD counts it. -/
def State.envOf (s : State) (p op : Nat) : Env × Bool :=
  let n := s.fget F.envTable_COUNT p
  if n ≤ op then (Env.default, false)
  else
    let off := s.fget F.envTable_OFFSET p * 32 + op * 32
    match s.spRead p off 32 with
    | none => (Env.default, true)
    | some b =>
      if s.spChaff p off 32 then (Env.default, true)
      else match Env.parse b with
        | some e => (e, false)
        | none => (Env.default, true)

/-- Read the envelope of a command the core accepts (R400): the 64 most recent entries stay with the core. -/
def State.takeEnv (s : State) (n : Nat) (c : Cmd) : Env × State :=
  let p := match (s.core n).wi with
    | some w => w.part
    | none => 0
  let (e, bad) := s.envOf p c.oper
  let s := if bad then s.fadd F.envBad_COUNT p 1 else s
  (e, s.onCore n fun x => { x with envs := ((p, c.oper) :: x.envs.filter (· ≠ (p, c.oper))).take 64 })

/-- A floating-point output fails its envelope (Table 12-3). -/
def Env.failsFp (e : Env) (v : Num) : Bool :=
  match v with
  | .nan => !e.allowNan
  | .inf _ => !e.allowInf
  | .fin _ m x => e.bound && (f32 e.maxAbs.toNat).lt (.fin false m x)

/-- An INT32 output fails its envelope (Table 12-3), saturation apart. -/
def Env.failsInt (e : Env) (v : Nat) : Bool := e.bound && decide (e.maxInt < (signed v 32).natAbs)

/-! ## Starting a command -/

/-- The partition of a core's work item. -/
def State.itemPart (s : State) (n : Nat) : Nat :=
  match (s.core n).wi with
  | some w => w.part
  | none => 32

/-- What a unit finds when it takes the command at the head of its queue: nothing to do yet, or the command off the queue
with the state after the checks that failed it, or the command with its frame. -/
inductive Taken where
  | idle
  | done (s : State)
  | ok (s : State) (c : Cmd) (frame : List Byte)

/-- Take the head of queue `q` (kind q + 1) for the row of operation `op` (`subs`: the SUB values the row covers; none:
all). A head whose OP is not listed, beyond `opMax`, is taken by any row of the kind and fails with CMD_KIND; the frame
of `len` bytes is read and checked (R628 steps 1 to 3). -/
def State.take (s : State) (n q opMax op : Nat) (mine : Cmd → Bool) (len : Nat) : Taken :=
  let c := s.core n
  match c.queueOf q with
  | [] => .idle
  | d :: rest =>
    if s.startHeld n then .idle
    else if d.op ≤ opMax && !(d.op = op && mine d) then .idle
    else
      let s' := s.setCore n (c.setQueue q rest)
      if !d.checkOk then .done (s'.confirm (s.coreFault n 3 d))
      else if opMax < d.op then .done (s'.failCmd n 0x0203)
      else if len = 0 then .ok s' d []
      else if !s.scratchFree n d.seq [(false, d.frame, min scratchEnd (d.frame + len))] then .idle
      else match s.readFrame n d len with
        | .status e => .done (s'.failCmd n e)
        | .fault => .done (s'.frameFault n d)
        | .ok f => .ok s' d f

/-- Strike operands or outputs: flip bit `b` of word `i` for each listed pair. -/
def strike (flips : List (Nat × Nat)) (ws : List Nat) : List Nat :=
  (ws.zip (List.range ws.length)).map fun (w, i) =>
    flips.foldl (fun a f => if f.1 = i then a ^^^ 2 ^ f.2 else a) w

/-! ## Sums of checksum verification (R404, R405) -/

/-- Round to a 24-bit significand, nearest even, exponents unbounded (R405). -/
def Num.round24 : Num → Num
  | .fin neg m e =>
    if m < 2 ^ 24 then .fin neg m e
    else
      let k := log2 m - 23
      .fin neg (roundShift .rne neg m k) (e + k)
  | v => v

/-- Magnitude; zero for what is not finite. -/
def Num.mag : Num → Num
  | .fin _ m e => .fin false m e
  | _ => .fin false 0 0

/-- One check of Table 12-4: outputs after and before, the products of E, and the operand sums, which are terms of the check too.
`int`: an integer pairing, all exact. -/
def sumCheck (int : Bool) (after before prods sums : List Num) : Bool :=
  let r (v : Num) : Num := if int then v else v.round24
  let deltas := (after.zip before).map fun (a, b) => r (numSum [a, b.neg])
  let a := r (numSum deltas)
  let e := r (numSum prods)
  if int then a.eq e
  else if (prods ++ sums ++ after ++ before).any Num.nonFinite then a.nonFinite
  else if a.nonFinite then (Num.lt (f32 0x7F7FFFFF) e.mag)
  else
    let t := (numSum ((prods ++ after ++ before).map Num.mag)).round24
    let d := (numSum [a, e.neg]).mag
    !(Num.mul t (.fin false 1 (-16))).lt d

/-- A product of a weight factor with another factor under R404: exact zero when the weights are BT2 weights of 0 (their
blocks' scales not NaN); `ws` the weights summed. -/
def weightProd (bt2 int : Bool) (ws : List Num) (x : Num) : Num :=
  if bt2 && ws.all Num.isZero then .fin false 0 0
  else
    let w := match ws with
      | [v] => v
      | _ => if int then numSum ws else (numSum ws).round24
    w.mul x

/-- An operand sum (R405). -/
def opSum (int : Bool) (l : List Num) : Num := match l with
  | [v] => v
  | _ => if int then numSum l else (numSum l).round24

/-- First index of a list whose check fails, or none. -/
def firstFail (l : List Bool) : Option Nat :=
  (List.range l.length).find? fun i => !(l.getD i true)

/-- Verify an instruction in WS form (R404): `w i k` the stationary values of `rows` rows, `x n k` the streamed ones of
`n` vectors, `depth` positions, outputs `y n i` after and `y0 n i` before. Answers the first failing row and column. -/
def verifyWs (bt2 int : Bool) (rows n depth : Nat) (w x : Nat → Nat → Num) (y y0 : Nat → Nat → Num)
    (sat : Nat → Nat → Bool) : Option Nat × Option Nat :=
  let rs := List.range rows
  let ns := List.range n
  let ks := List.range depth
  let col (v : Nat) : Bool :=
    (int && rs.any (sat v)) ||
    sumCheck int (rs.map (y v)) (rs.map (y0 v)) (ks.map fun k => weightProd bt2 int (rs.map fun i => w i k) (x v k))
      (ks.map fun k => opSum int (rs.map fun i => w i k))
  let row (i : Nat) : Bool :=
    (int && ns.any fun v => sat v i) ||
    sumCheck int (ns.map fun v => y v i) (ns.map fun v => y0 v i)
      (ks.map fun k => weightProd bt2 int [w i k] (opSum int (ns.map fun v => x v k)))
      (ks.map fun k => opSum int (ns.map fun v => x v k))
  (firstFail (rs.map row), firstFail (ns.map col))

/-- The outcome of a verification (R407): it stood, or a confirmed fault ARITH. -/
def State.verified (s : State) (n : Nat) (c : Cmd) (ok : Bool) (row col bank : Nat) : State :=
  let f := s.coreFault n 1 c
  if ok then
    let p := s.itemPart n
    let s := if p < 32 then s.fadd F.envStood_COUNT p 1 else s
    s.faultRecord { f with cause := 0x10, outcome := 0 }
  else s.confirm { f with row := row, col := col, bank := bank }

/-- Count an envelope failure (ENV_FAIL, Table 12-13) and keep the command for its verification. -/
def State.suspect (s : State) (n : Nat) (v : Verify) : State :=
  let p := s.itemPart n
  let s := if p < 32 then s.fadd F.envFail_COUNT p 1 else s
  s.onCore n fun c => { c with verify := c.verify ++ [v] }

end Sys2Proof.Machine
end

