-- ==== Sys2Proof/Machine/Onc.lean ====
section
/-!
DEFINITION. Onc.lean: what commands of this module use of the Granary's ways out: the route sets, requests to other
modules with their transactions, messages to vaults, the seedstore cache.
-/
namespace Sys2Proof.Machine

/-! ## Routes and requests (R380 to R382, R387) -/

/-- The route entry of a module ID in a set (Table 11-9). -/
def State.routeEntry (s : State) (set dest : Nat) : Nat := alGet 0 s.link.routes (set * 65536 + dest)

/-- The entry of the active set. -/
def State.activeEntry (s : State) (dest : Nat) : Nat := s.routeEntry (s.fget F.routeCtl_ACTIVE 0) dest

/-- Has a module a valid entry in the active route set; this module always has. -/
def State.reachable (s : State) (dest : Nat) : Bool := dest = s.selfId || bitAt (s.activeEntry dest) 31

/-- Source identity on this module, as SRC_ID carries it: a core's number, 0x10000 + partition for a front end, 0x20000
for the re-shard engine, 0x30000 for the Reeve. DESIGN CHOICE: assumption 16. -/
def srcIdOf : Src → Nat
  | .core n => n
  | .frontEnd p => 0x10000 + p
  | .reshard => 0x20000
  | .reeve => 0x30000
  | .host f => 0x40000 + f
  | .remote _ u => u

/-- A packet from this module (R360): HOPS 63, LEVEL 0 (R381). -/
def State.newPacket (s : State) (type cls op dst addr bytes : Nat) (payload : List Byte) (poison : Nat) : Packet :=
  { type := type, cls := cls, level := 0, hops := 63, op := op, dst := dst, src := s.selfId, addr := addr, etype := 0,
    srcId := 0, txn := 0, bytes := bytes, poison := poison, payload := payload }

/-- Input of the router that the module's own cores and engines use, beside the twelve ports (R367, R380). -/
def ownInput : Nat := 12

/-- Put a packet into the router by an input. -/
def State.enter (s : State) (inp : Nat) (p : Packet) : State :=
  { s with link := { s.link with queue := s.link.queue ++ [{ inp := inp, pkt := p, up := false }] } }

/-- Put a packet of this module into the router. -/
def State.route (s : State) (p : Packet) : State := s.enter ownInput p

/-- Send a request and open its transaction (R387). -/
def State.request (s : State) (src : Src) (p : Packet) (move core ring : Option Nat) (step : Nat)
    (entry : Option ErrPlace := none) : State :=
  let t := s.link.nextTxn
  let p := { p with txn := t, srcId := srcIdOf src }
  let x : Txn := { txn := t, pkt := p, move := move, core := core, ring := ring, step := step, sent := s.time.elapsed,
                   at_ := match src with | .frontEnd p => s.feSeq p | _ => 0, entry := entry }
  { s with link := { s.link with nextTxn := (t + 1) % 0x100000000, txns := s.link.txns ++ [x] } } |>.route p

/-- POISON of a payload with a chaff mark for each byte (Table 11-3). -/
def poisonOf (marks : List Bool) : Nat :=
  (List.range 8).foldl (fun a f => if ((marks.drop (32 * f)).take 32).any id then a + 2 ^ f else a) 0

/-! ## Messages to vaults (R268, R269) -/

/-- The stamp of the core a message is addressed to (R269). -/
def State.stampOf (s : State) (n : Nat) : Stamp :=
  let c := s.core n
  let p := (s.partOfCore n).getD 0xFF
  match c.wi with
  | some w => { part := p, role := w.role, rank := n - w.firstCore, epoch := c.epoch }
  | none => { part := p, role := c.image.getD 0xFFFF, rank := 0xFFFF, epoch := c.epoch }

/-- Put a message at the vault interface of its target core: over the mesh, or from the Granary (R90). -/
def State.sendMsg (s : State) (m : Msg) (mesh : Bool) : State :=
  s.onCore m.core fun c => if mesh then { c with vqMesh := c.vqMesh ++ [m] } else { c with vqGran := c.vqGran ++ [m] }

/-! ## The seedstore cache (R253 to R256, Table 8-5) -/

/-- A request that touches the seedstore line at `line` (its first address): a line present is used and goes dirty when
written; an absent one is allocated for a read of a contiguous run under 4 KiB or a partial write, with cache bins in
force and no flush running. Sets are taken from the low bits of the line number (DESIGN CHOICE: assumption 17). -/
def State.ssTouch (s : State) (line : Nat) (write whole : Bool) (run : Nat) : State :=
  let bins := s.fget F.grnCacheStat_BINS 0
  match s.lines.find? fun l => l.addr = line with
  | some l => { s with lines := s.lines.filter (fun x => x.addr ≠ line) ++ [{ l with dirty := l.dirty || write }] }
  | none =>
    if bins = 0 ∨ s.flag F.grnCacheStat_FLUSH 0 ∨ (!write ∧ 4096 ≤ run) ∨ (write ∧ whole) then s
    else
      let sets := bins * 4096
      let mine := s.lines.filter fun l => l.addr / 256 % sets = line / 256 % sets
      let ls := if mine.length < 16 then s.lines else match mine with
        | o :: _ => s.lines.filter fun l => l.addr ≠ o.addr
        | [] => s.lines
      { s with lines := ls ++ [{ addr := line, dirty := write }] }

/-- A request of `n` bytes at a seedstore address touches its lines. -/
def State.ssTouchN (s : State) (a n : Nat) (write : Bool) (run : Nat) : State :=
  if n = 0 ∨ ¬ (0x8000000000 ≤ a ∧ a < 0xF000000000) then s else
  (List.range ((a + n - 1) / 256 - a / 256 + 1)).foldl (fun s i =>
    let l := (a / 256 + i) * 256
    s.ssTouch l write (decide (a ≤ l ∧ l + 256 ≤ a + n)) run) s

/-! ## Host bias (R599) -/

/-- The Granary removes the lines of a range from the host's caches before a requester of the module reaches them (R599). -/
def State.recall (s : State) (a n : Nat) : State :=
  let hit := s.host.lines.filter fun l => decide (l < a + n ∧ a < l + 64)
  if hit.isEmpty then s
  else { s with host := { s.host with lines := s.host.lines.filter fun l => !hit.contains l } }.emit (.other 5 hit)

/-- A requester of the module reaches `n` bytes of a bin or the seedstore: the host's lines are recalled, the cache is looked up. -/
def State.reach (s : State) (a n : Nat) (write : Bool) (run : Nat) : State :=
  if a < 0x4000000000 then s else (s.recall a n).ssTouchN a n write run

end Sys2Proof.Machine
end

