-- ==== Sys2Proof/Machine/MoveOps.lean ====
section
/-!
DEFINITION. MoveOps.lean: what the move engine, the drills and the front end share for moves: the checks at acceptance
(R627), iteration with clamping (R193, R194, R201), the elements read and written (R131, R186, R195), the ways out of a
move's bytes, and its course from acceptance to completion (R199, R200, R257, R272).
-/
namespace Sys2Proof.Machine

/-! ## Addresses and bytes a move works on

A scratch address is tagged with bit 60, so that it never meets a 56-bit global address. -/

/-- The tag of a scratch address. -/
def scrTag : Nat := 0x1000000000000000

/-- Address of a byte at an offset from BASE, and from SCALE_BASE. -/
def Desc.byteAt (x : Desc) (o : Int) : Nat := ((x.base : Int) + o).toNat + (if x.kind = 2 then scrTag else 0)
def Desc.scaleAt (x : Desc) (p : Int) : Nat := ((x.scaleBase : Int) + p / 32).toNat + (if x.kind = 2 then scrTag else 0)

/-- Module ID of a global address; none for scratch. -/
def moduleOf (a : Nat) : Option Nat := if scrTag ≤ a then none else some (a / 0x10000000000)

/-- Local part of a global address. -/
def localOf (a : Nat) : Nat := a % 0x10000000000

/-- Is an address on this module outside scratch. -/
def State.isLocal (s : State) (a : Nat) : Bool := moduleOf a = some s.selfId
/-- Is an address on another module. -/
def State.isRemote (s : State) (a : Nat) : Bool :=
  match moduleOf a with
  | some m => m ≠ s.selfId
  | none => false

/-- A byte a move reads, with its chaff. -/
def State.moveByte (s : State) (m : Move) (a : Nat) : Byte × Bool :=
  if scrTag ≤ a then
    let n := m.core.getD 0
    let c := s.core n
    (c.sget n (a - scrTag), c.schaff.contains ((a - scrTag) / 32))
  else if s.isLocal a then (s.rd8 (localOf a), s.isChaff (localOf a))
  else match m.got.find? fun x => x.1 = a with
    | some x => x.2
    | none => (0, false)

/-- The bytes position p touches, as offsets from BASE. -/
def touched (t : Nat) (p : Int) : List Int :=
  let (lo, hi) := byteSpan t p
  (List.range (hi - lo + 1).toNat).map fun (i : Nat) => lo + (i : Int)

/-- Digits a BT2 byte holds: 3 in the last byte of a run, else 5 (R105). -/
def bt2Last (p : Int) : Bool := p % 2048 / 5 = 409

/-- Storage bits at position p, and chaff among the bytes touched, scale included. -/
def Desc.element (x : Desc) (rd : Nat → Byte × Bool) (p : Int) : Nat × Bool :=
  let (b, sh, n) := placeI x.etype p
  let t := touched x.etype p
  let chaff := t.any (fun o => (rd (x.byteAt o)).2) || (etScaled x.etype && (rd (x.scaleAt p)).2)
  if x.etype = 0x18 then
    let v := bt2Trit (rd (x.byteAt b)).1 (bt2Last p) sh
    (if v = 1 then 1 else if v = -1 then 2 else 0, chaff)
  else
    let w := leNat ((List.range n).map fun (i : Nat) =>
      if t.contains (b + (i : Int)) then (rd (x.byteAt (b + (i : Int)))).1 else 0)
    (bitsOf w sh (etBits x.etype), chaff)

/-! ## Iteration (R193, R194, R201, R202) -/

/-- Every index of a space of the given extents, dimension 0 fastest. -/
def indices : List Nat → List (List Nat)
  | [] => [[]]
  | n :: t => (indices t).flatMap fun r => (List.range n).map fun i => i :: r

/-- Clamp an index to a tensor's extents, and whether it clamped. -/
def Desc.clamp (x : Desc) (i : List Nat) : List Nat × Bool :=
  let c := (List.range i.length).map fun d => min (i.getD d 0) (x.size d - 1)
  (c, c ≠ i)

/-- One iteration: the source index and the destination index, clamped; clamps counted for reads and writes; chaff from an
index element; j of R205, and the order within j. -/
structure MoveIt where
  src : List Nat
  dst : List Nat
  rd : Nat
  wr : Nat
  chaff : Bool
  j : Nat
  ord : Nat
  deriving DecidableEq, Repr

/-- Iterations of COPY, TCOPY and DRILL (R193). -/
def Move.copyIts (m : Move) : List MoveIt :=
  let r := max m.src.rank m.dst.rank
  let perm := (List.range r).map fun d => if m.op = 1 then m.perm.getD d d else d
  let inv (k : Nat) : Nat := (perm.zip (List.range r)).foldl (fun a x => if x.1 = k then x.2 else a) k
  let ext := (List.range r).map fun k => max (m.dst.size k) (m.src.size (inv k))
  (indices ext).map fun e =>
    let (si, sc) := m.src.clamp (perm.map fun k => e.getD k 0)
    let (di, dc) := m.dst.clamp e
    { src := si, dst := di, rd := one sc, wr := one dc, chaff := false, j := 0, ord := 0 }

/-- Value of an INT32 index element (R202), clamped to an axis of n elements: index, clamped, chaff. -/
def Desc.indexAt (x : Desc) (rd : Nat → Byte × Bool) (j n : Nat) : Nat × Bool × Bool :=
  let (raw, ch) := x.element rd (x.position [j])
  let v := signed raw 32
  let c : Int := if v < 0 then 0 else if (n : Int) ≤ v then (n : Int) - 1 else v
  (c.toNat, c ≠ v, ch)

/-- Iterations of GATHER and SCATTER (R201). -/
def Move.gatherIts (m : Move) (rd : Nat → Byte × Bool) : List MoveIt :=
  match m.idx with
  | none => []
  | some x =>
    let r := m.src.rank
    let a := r - 1
    let ext := (List.range a).map fun d => max (m.src.size d) (m.dst.size d)
    let sl := indices ext
    (List.range (x.size 0)).flatMap fun j =>
      let (k, kc, ch) := x.indexAt rd j (if m.op = 2 then m.src.size a else m.dst.size a)
      (sl.zip (List.range sl.length)).map fun (e, o) =>
        let (si, sc) := m.src.clamp e
        let (di, dc) := m.dst.clamp e
        let once := one (kc && o = 0)
        if m.op = 2 then { src := si ++ [k], dst := di ++ [j], rd := one sc + once, wr := one dc, chaff := ch, j := j, ord := o }
        else { src := si ++ [j], dst := di ++ [k], rd := one sc, wr := one dc + once, chaff := ch, j := j, ord := o }

/-- The iterations of a move. -/
def Move.its (m : Move) (rd : Nat → Byte × Bool) : List MoveIt :=
  if m.op = 2 ∨ m.op = 3 then m.gatherIts rd else m.copyIts

/-- Every position that an element of the tensor maps to. -/
def Desc.elementPositions (x : Desc) : List Int :=
  (indices ((List.range x.rank).map x.size)).map x.position

/-- Positions inside the block, vector or group that holds an element, but beyond the tensor's sizes (R186). -/
def Desc.outside (x : Desc) (i : List Nat) : List Int :=
  if 1 ≤ x.brank then
    (indices [x.blk 0, x.blk 1, x.blk 2]).filterMap fun r =>
      let i' := (List.range (max x.rank i.length)).map fun d =>
        if d < x.brank then i.getD d 0 / x.blk d * x.blk d + r.getD d 0 else i.getD d 0
      if (List.range x.brank).any fun d => decide (x.size d ≤ i'.getD d 0) then some (x.position i') else none
  else if x.grouped then
    (List.range 32).filterMap fun r =>
      let k := i.getD 0 0 / 32 * 32 + r
      if x.size 0 ≤ k then some (x.position (k :: i.drop 1)) else none
  else []

/-- Pad positions of the block, vector or group that holds an element: those no element maps to (R186); `own` is
`elementPositions`. -/
def Desc.pads (x : Desc) (own : List Int) (i : List Nat) : List Int := (x.outside i).filter fun p => !own.contains p

/-! ## Acceptance (R627) -/

/-- What the checks of a move answer: a status, a fault of the descriptor with a TAG (R181), or the descriptors to work with. -/
inductive MoveChk where
  | status (n : Nat)
  | fault (tag : Nat)
  | ok (src dst : Desc) (idx : Option Desc) (perm : List Nat) (overlap det : Nat) (chaff : Bool)
  deriving DecidableEq, Repr

/-- Bytes in the union of half-open spans. -/
def unionLen (l : List (Nat × Nat)) : Nat :=
  let sorted := l.foldl (fun a x =>
    let (lo, hi) := a.partition fun y => decide (y.1 ≤ x.1)
    lo ++ [x] ++ hi) []
  (sorted.foldl (fun (e, n) x => let b := max e x.1; if b < x.2 then (x.2, n + (x.2 - b)) else (e, n)) (0, 0)).2

/-- Spans of a descriptor as tagged half-open ranges. -/
def Desc.tagSpans (x : Desc) : List (Nat × Nat) :=
  x.spans.map fun t => if t.1 then (t.2.1 + scrTag, t.2.2 + scrTag) else (t.2.1, t.2.2)

/-- The overlap of read spans and write spans (R199). -/
def overlapOf (r w : List (Nat × Nat)) : Nat :=
  unionLen (r.flatMap fun a => w.filterMap fun b =>
    if max a.1 b.1 < min a.2 b.2 then some (max a.1 b.1, min a.2 b.2) else none)

/-- Bytes of one slice of a tensor, its last axis taken away (R206). -/
def Desc.sliceBytes (x : Desc) : Nat :=
  let n := (List.range (x.rank - 1)).foldl (fun a d => a * x.size d) 1
  if x.etype = 0x18 then (n + 4) / 5 else (n * etBits x.etype + 7) / 8

/-- The checks of R627, in their order, for a frame whose common checks passed. -/
def State.moveCheck (s : State) (core : Option Nat) (p op sub : Nat) (f : List Byte) : MoveChk :=
  let si := fieldB f 0 2
  let di := fieldB f 2 2
  let xi := fieldB f 4 2
  let two := op = 2 || op = 3
  let permW := fieldB f 6 3
  let det := op = 3 && bitAt (fieldB f 9 1) 0
  let ids := [si, di] ++ (if two then [xi] else [])
  if !s.descTableOk p then .status 0x0A02
  else if !(ids.all (s.descValid p)) then .status 0x0702
  else
    match ids.find? fun i => !checkOk (s.descBytes p i) 128 with
    | some i => .fault (parseDesc (s.descBytes p i)).tag
    | none =>
    let raw (i : Nat) : Desc := parseDesc (s.descBytes p i)
    let get (i : Nat) : Desc := s.resolve core (raw i)
    let a := get si
    let b := get di
    let x := get xi
    let all := [a, b] ++ (if two then [x] else [])
    let r := max a.rank b.rank
    let perm := (List.range r).map fun d => bitsOf permW (3 * d) 3
    let subByte (t : Nat) : Bool := decide (etBits t < 8) || etScaled t
    let fp (t : Nat) : Bool := t = 1 || t = 2 || t = 3
    let axis := a.rank - 1
    let writable (h : Nat) : Bool := match s.findAlloc p h with
      | some al => al.write
      | none => h = 0
    let overlap := overlapOf (a.tagSpans ++ (if two then x.tagSpans else [])) b.tagSpans
    let need := a.sliceBytes * x.size 0 + 16 * x.size 0
    let held := ((s.det.filter fun d => d.part = p).map DetRes.bytes).sum
    let area := s.fget F.descDet_SIZE p * 4096
    if core.isNone && all.any (fun d => d.kind ≠ 0) then .status 0x0823
    else if op = 4 && b.kind ≠ 2 then .status 0x0702
    else if op = 1 && !((List.range r).all fun k => perm.contains k) then .status 0x0703
    else if two && (x.etype ≠ 0x12 || x.rank ≠ 1 || a.rank ≠ b.rank ||
        x.size 0 ≠ (if op = 2 then b.size axis else a.size axis)) then .status 0x0824
    else if two && ([a, b].any fun d => subByte d.etype && d.brank = d.rank) then .status 0x0825
    else if op = 3 && sub ≠ 0 && (!(fp b.etype || b.etype = 0x12) || (b.etype = 0x12 && a.etype ≠ 0x12) || b.kind = 2) then
      .status 0x0826
    else if a.etype ≠ b.etype && !(fp a.etype && fp b.etype) then .status 0x0701
    else if b.kind ≠ 2 && !(writable b.alloc && writable b.scaleAlloc) then .status 0x0822
    else if all.any (fun d => d.kind ≠ 2 && d.spans.any fun t => !s.reachable (t.2.1 / 0x10000000000)) then .status 0x0A01
    else if 0x4000000 < overlap then .status 0x0821
    else if det && !s.descDetOk p then .status 0x0A02
    else if det && (area = 0 || area < held + need) then .status 0x0827
    else .ok a b (if two then some x else none) perm overlap (if det then need else 0)
      (ids.any fun i => s.spChaff p (s.fget F.descTable_OFFSET p * 4096 + i * 128) 128)

/-! ## Reading ahead: drills and remote data (R257) -/

/-- Does a move take a Granary drill (R257): its source lies in another plot's vault (any vault, for the front end), in the
seedstore or on another module. -/
def State.needsDrill (s : State) (m : Move) : Bool :=
  m.src.kind ≠ 2 && m.src.spans.any fun t =>
    s.isRemote t.2.1 ||
    (let l := localOf t.2.1
     (0x8000000000 ≤ l) || (decide (l < 0x3600000000) && (match m.core with
       | some n => plotOfCore (l / 0x800000) ≠ plotOfCore n
       | none => true)))

/-- Addresses a move reads, in iteration order: data bytes, scale bytes, index bytes. -/
def Move.reads (m : Move) (rd : Nat → Byte × Bool) : List Nat × List Nat × List Nat :=
  let its := m.its rd
  let ps := its.map fun i => m.src.position i.src
  (ps.flatMap fun p => (touched m.src.etype p).map m.src.byteAt,
   if etScaled m.src.etype then ps.map m.src.scaleAt else [],
   match m.idx with
   | some x => (List.range (x.size 0)).flatMap fun j => (touched x.etype (x.position [j])).map x.byteAt
   | none => [])

/-- Maximal runs of rising addresses, cut at multiples of `cut`. -/
def runsOf {α : Type} (cut : Nat) : List (Nat × α) → List (Nat × List α)
  | [] => []
  | (a, b) :: t =>
    match runsOf cut t with
    | (a', l) :: r => if a + 1 = a' ∧ a' % cut ≠ 0 then (a, b :: l) :: r else (a, [b]) :: (a', l) :: r
    | [] => [(a, [b])]

/-- Groups of entries in one aligned block of `cut` bytes. -/
def groupsOf {α : Type} (cut : Nat) : List (Nat × α) → List (Nat × List (Nat × α))
  | [] => []
  | (a, b) :: t =>
    match groupsOf cut t with
    | (k, l) :: r => if a / cut = k then (k, (a, b) :: l) :: r else (a / cut, [(a, b)]) :: (k, l) :: r
    | [] => [(a / cut, [(a, b)])]

/-- Change a move. -/
def State.onMove (s : State) (id : Nat) (f : Move → Move) : State :=
  { s with moves := s.moves.map fun m => if m.id = id then f m else m }

/-- Source of a move; OP 5 marks the copies of the re-shard engine (R340). -/
def Move.source (m : Move) : Src := match m.core with
  | some n => .core n
  | none => if m.op = 5 then .reshard else .frontEnd m.part

/-- Request the bytes of other modules among some addresses (R267: request class), each once, in the order in which the walk comes to them
(R257). -/
def State.requestReads (s : State) (m : Move) (as_ : List Nat) : State :=
  let want := (as_.filter s.isRemote).foldl (fun l a => if l.contains a then l else l ++ [a]) []
  let runs := runsOf 256 (want.map fun a => (a, ()))
  let s := runs.foldl (fun s r =>
    s.request m.source (s.newPacket 1 0 0 (r.1 / 0x10000000000) (localOf r.1) r.2.length [] 0) (some m.id) m.core m.ring m.step) s
  s.onMove m.id fun x => { x with waits := x.waits + runs.length }

/-! ## Writes -/

/-- Slots of the vault interface a write of bytes in one burst takes (R209, R210). -/
def State.wrSlots (s : State) (cells : List (Nat × Byte × Bool)) : Nat :=
  match cells with
  | [] => 0
  | (a, _) :: _ =>
    if !s.valid.contains (a / 256) then 1
    else if (groupsOf 32 (cells.map fun c => (c.1, ()))).all (fun g => g.2.length = 32) then 1 else 2

/-- Write cells at local addresses, each maximal run as one write. -/
def State.wrCells (s : State) (cells : List (Nat × Byte × Bool)) : State :=
  (runsOf 0x10000000000000 cells).foldl (fun s r => s.wrMarked r.1 r.2) s

/-- Keep that a step has written cells (R171). -/
def State.noteCells (s : State) (ring : Option Nat) (step : Nat) (cells : List (Nat × Byte × Bool)) : State :=
  (runsOf 0x10000000000000 cells).foldl (fun s r => s.noteStep ring step none r.1 r.2.length) s

/-- Give the bytes a move has written, in address order, to their places: scratch, the core's own vault, messages to other
vaults, bins, the seedstore, packets to other modules. A byte of a place the partition may not write, or for the re-shard engine of no mapped
region (R16), is not written, and the move keeps the status (R249). -/
def State.deliver (s : State) (m : Move) (cells : List (Nat × Byte × Bool)) : State :=
  let cells := if m.dead then cells.map (fun c => (c.1, Config.undefByte c.1 s.undefs, c.2.2)) else cells
  let scr := cells.filter fun c => decide (scrTag ≤ c.1)
  let rem := cells.filter fun c => s.isRemote c.1
  let loc := (cells.filter fun c => s.isLocal c.1).map fun c => (localOf c.1, c.2)
  let status (a : Nat) : Nat := if m.op = 5 then (if s.region a = .unmapped then 0x0A01 else 0) else s.access m.part a true
  let denied := loc.filter fun c => status c.1 ≠ 0
  let loc := loc.filter fun c => status c.1 = 0
  let s := match denied with
    | [] => s
    | c :: _ => s.onMove m.id fun x => { x with err := if x.err = 0 then status c.1 else x.err }
  let s := match m.core with
    | some n => (runsOf 0x40000000 (scr.map fun (c : Nat × Byte × Bool) => (c.1 - scrTag, c.2))).foldl (fun (s : State) (r : Nat × List (Byte × Bool)) =>
        (s.onCore n fun co => co.swriteMarked r.1 r.2).noteStep m.ring m.step (some n) r.1 r.2.length) s
    | none => s
  let own (c : Nat × Byte × Bool) : Bool := match m.core with
    | some n => decide (c.1 < 0x3600000000) && c.1 / 0x800000 = n
    | none => false
  let s := (groupsOf 256 (loc.filter own)).foldl (fun s g =>
    ((s.wrCells g.2).noteCells m.ring m.step g.2).coreCount (m.core.getD 0) 5 (s.wrSlots g.2)) s
  let others := groupsOf 256 (loc.filter fun c => decide (c.1 < 0x3600000000) && !own c)
  let s := others.foldl (fun s g =>
    let n := g.1 * 256 / 0x800000
    let msg : Msg := { src := m.source, moves := [m.id], comb := [], lo := 0, ring := m.ring, step := m.step, core := n, stamp := s.stampOf n,
                       data := g.2.map (fun c => (c.1 % 0x800000, c.2)), reply := none }
    s.sendMsg msg (match m.core with | some k => plotOfCore k = plotOfCore n | none => false)) s
  let grn := loc.filter fun c => decide (0x3600000000 ≤ c.1)
  let s := (runsOf 0x10000000000000 grn).foldl (fun s r =>
    ((s.reach r.1 r.2.length true r.2.length).wrMarked r.1 r.2).noteStep m.ring m.step none r.1 r.2.length) s
  let pk := runsOf 256 rem
  let s := pk.foldl (fun s r =>
    s.request m.source (s.newPacket 2 0 0 (r.1 / 0x10000000000) (localOf r.1) r.2.length (r.2.map Prod.fst) (poisonOf (r.2.map Prod.snd)))
      (some m.id) m.core m.ring m.step) s
  s.onMove m.id fun x => { x with msgs := x.msgs + others.length, waits := x.waits + pk.length }

/-! ## Elements written -/

/-- One element to write: its position, its storage bits, chaff, its scale byte, the source byte and digit it came from
(BT2), whether that is the last byte of its run, and the destination index. -/
structure MoveEl where
  p : Int
  raw : Nat
  chaff : Bool
  scale : Option Byte
  from_ : Nat
  digit : Nat
  last : Bool
  dst : List Nat
  it : MoveIt
  deriving DecidableEq, Repr

/-- Read the elements of a move, converted (R131); with the conversions that overflowed. -/
def Move.elements (m : Move) (rd : Nat → Byte × Bool) (cmdChaff : Bool) : List MoveEl × Nat :=
  let els := (m.its rd).map fun i =>
    let p := m.src.position i.src
    let (raw, ch) := m.src.element rd p
    let cv : CvtRes := if m.src.etype = m.dst.etype then ⟨raw, false, false⟩
      else convElem m.dst.etype .rne false (rawValue m.src.etype raw)
    let e : MoveEl :=
      { p := m.dst.position i.dst, raw := cv.bits, chaff := ch || i.chaff || cmdChaff,
        scale := if etScaled m.dst.etype then some (rd (m.src.scaleAt p)).1 else none,
        from_ := m.src.byteAt (placeI m.src.etype p).1, digit := (placeI m.src.etype p).2.1, last := bt2Last p, dst := i.dst, it := i }
    (e, cv.sat)
  (els.map Prod.fst, (els.filter Prod.snd).length)

/-- Bytes already written by the move, over memory. -/
def ovr (rd : Nat → Byte × Bool) (ov : List (Nat × Byte × Bool)) (a : Nat) : Byte × Bool :=
  match alFind ov a with
  | some x => x
  | none => rd a

/-- Put a digit into a BT2 byte (R107). -/
def bt2Put (old : Byte) (last : Bool) (d v : Nat) : Byte :=
  let o := if bt2Valid old last then old.toNat else 0
  BitVec.ofNat 8 (o - o / 3 ^ d % 3 * 3 ^ d + v * 3 ^ d)

/-- Positions that touch a byte, given by its offset from BASE. -/
def positionsOf (t : Nat) (o : Int) : List Int :=
  if t = 0x18 then
    let p := o / 410 * 2048 + o % 410 * 5
    (List.range (if bt2Last p then 3 else 5)).map fun (i : Nat) => p + (i : Int)
  else if etBits t = 4 then [2 * o, 2 * o + 1]
  else if etBits t = 6 then [4 * (o / 3) + o % 3, 4 * (o / 3) + o % 3 + 1]
  else [o / (etBits t / 8 : Nat)]

/-- Are all positions that touch a byte among some positions. -/
def wholeIn (t : Nat) (set : List Int) (o : Int) : Bool := (positionsOf t o).all set.contains

/-- The bytes that writing storage bits at a position changes: (address, byte, chaff), and the address of an invalid BT2
byte read by the merge. A byte whose every position is written (`whole`) is not merged: it keeps no chaff and is not
read (R107). -/
def Desc.put (x : Desc) (whole : Int → Bool) (rd : Nat → Byte × Bool) (p : Int) (raw : Nat) (chaff : Bool) :
    List (Nat × Byte × Bool) × List Nat :=
  let (b, sh, n) := placeI x.etype p
  let keep (o : Int) (ch : Bool) : Bool := ch && !whole o
  if x.etype = 0x18 then
    let a := x.byteAt b
    let (old, ch) := rd a
    ([(a, bt2Put old (bt2Last p) sh raw, chaff || keep b ch)], if whole b || bt2Valid old (bt2Last p) then [] else [a])
  else
    let t := touched x.etype p
    let w := etBits x.etype
    let old := leNat ((List.range n).map fun (i : Nat) => (rd (x.byteAt (b + (i : Int)))).1)
    let v := old - bitsOf old sh w * 2 ^ sh + raw % 2 ^ w * 2 ^ sh
    let part := w % 8 ≠ 0
    ((List.range n).filterMap fun (i : Nat) =>
      let o := b + (i : Int)
      if t.contains o then some (x.byteAt o, BitVec.ofNat 8 (v / 256 ^ i), chaff || (part && keep o (rd (x.byteAt o)).2))
      else none, [])

/-- Writes of a move, in issue order: each is the bytes it changes. -/
structure MoveOut where
  ov : List (Nat × Byte × Bool)
  log : List (List (Nat × Byte × Bool))
  bad : List Nat
  deriving DecidableEq, Repr

/-- Add a write. Chaff that an earlier write of the move gave a byte stays: it passes to every destination element written
from a marked source, those clamped onto an edge too (R195). -/
def MoveOut.add (o : MoveOut) (w : List (Nat × Byte × Bool)) (bad : List Nat) : MoveOut :=
  let w := w.map fun c => (c.1, c.2.1, c.2.2 || (match alFind o.ov c.1 with | some x => x.2 | none => false))
  { ov := w.foldl (fun v c => alPut v c.1 c.2) o.ov, log := o.log ++ [w], bad := bad.foldl setIns o.bad }

/-- Source bytes a BT2 destination byte takes whole (R131): the source byte, when every position of the destination byte is
written from one source byte, each keeping its place. -/
def wholeByte (els : List MoveEl) (p : Int) : Option Nat :=
  let b := p / 2048 * 2048 + p % 2048 / 5 * 5
  let k := if bt2Last p then 3 else 5
  let last (d : Nat) : Option MoveEl := els.foldl (fun a e => if e.p = b + (d : Int) then some e else a) none
  match last 0 with
  | none => none
  | some e0 =>
    if (List.range k).all fun d => match last d with
        | some e => e.from_ = e0.from_ && e.digit = d
        | none => false
    then some e0.from_ else none

/-- Positions a move writes: its elements' and their pads' (R186). -/
def Move.written (m : Move) (els : List MoveEl) : List Int :=
  let own := m.dst.elementPositions
  els.map MoveEl.p ++ els.flatMap fun e => m.dst.pads own e.dst

/-- The writes of every element in iteration order, pads of its block first (R186). -/
def Move.writes (m : Move) (rd : Nat → Byte × Bool) (els : List MoveEl) : MoveOut :=
  let x := m.dst
  let own := x.elementPositions
  let whole := wholeIn x.etype (m.written els)
  els.foldl (fun o e =>
    let o := (x.pads own e.dst).foldl (fun o p =>
      let (w, bad) := x.put whole (ovr rd o.ov) p 0 false
      o.add w bad) o
    let o := if x.etype = 0x18 then
        match wholeByte els e.p with
        | some a => o.add [(x.byteAt (placeI 0x18 e.p).1, (rd a).1, e.chaff)] []
        | none =>
          let (w, bad) := x.put whole (ovr rd o.ov) e.p e.raw e.chaff
          let src := if bt2Valid (rd e.from_).1 e.last then [] else [e.from_]
          o.add w (bad ++ src)
      else
        let (w, bad) := x.put whole (ovr rd o.ov) e.p e.raw e.chaff
        o.add w bad
    match e.scale with
    | some b => o.add [(x.scaleAt e.p, b, e.chaff)] []
    | none => o) ⟨[], [], []⟩

/-- What a DET scatter stages of an element (R205): its bytes as the move leaves them, where another module holds it; else
its positions with their storage bits, to be written when the step's contributions are combined, and the bytes that are
written whole. -/
def Move.detPut (m : Move) (rd : Nat → Byte × Bool) (els : List MoveEl) (o : MoveOut) (remote : Bool) (e : MoveEl) :
    List (Nat × Byte × Bool) × List (Int × Nat × Bool × List Int) :=
  let x := m.dst
  let whole := wholeIn x.etype (m.written els)
  let ps := (x.pads x.elementPositions e.dst).map (fun p => (p, 0)) ++ [(e.p, e.raw)]
  let scale := match e.scale with
    | some b => [(x.scaleAt e.p, b, (ovr rd o.ov (x.scaleAt e.p)).2)]
    | none => []
  let final (p : Int) : List (Nat × Byte × Bool) := (touched x.etype p).map fun q => (x.byteAt q, ovr rd o.ov (x.byteAt q))
  if remote then (ps.flatMap (fun y => final y.1) ++ scale, [])
  else if x.etype = 0x18 ∧ (wholeByte els e.p).isSome then
    (final e.p ++ scale, (ps.dropLast).map fun y => (y.1, y.2, false, (touched x.etype y.1).filter whole))
  else
    (scale, ps.map fun y =>
      (y.1, y.2, els.any (fun z => z.chaff && (touched x.etype z.p).any (touched x.etype y.1).contains),
        (touched x.etype y.1).filter whole))

/-- The destination bytes of other modules into which the move merges, so that they are read before they are written back
(R107). -/
def Move.merged (m : Move) (s : State) (rd : Nat → Byte × Bool) : List Nat :=
  let x := m.dst
  if x.kind ≠ 2 && (x.etype = 0x18 || etBits x.etype % 8 ≠ 0) && x.spans.any (fun t => s.isRemote t.2.1) then
    let own := x.elementPositions
    let ps := (m.its rd).flatMap fun i => x.position i.dst :: x.pads own i.dst
    (((ps.flatMap (touched x.etype)).filter fun o => !wholeIn x.etype ps o).map x.byteAt).filter s.isRemote
  else []

/-! ## Block checks (R409, R412) -/

/-- Pieces of a log of writes: consecutive writes into one 4 KiB block. -/
def piecesOf : List (List (Nat × Byte × Bool)) → List (Nat × List (List (Nat × Byte × Bool)))
  | [] => []
  | w :: t =>
    let k := (w.headD (0, 0, false)).1 / 4096
    match piecesOf t with
    | (k', l) :: r => if k = k' then (k, w :: l) :: r else (k, [w]) :: (k', l) :: r
    | [] => [(k, [w])]

/-- The block check value of a piece (R409). -/
def pieceCheck (k : Nat) (ws : List (List (Nat × Byte × Bool))) : BitVec 32 :=
  crc32c (toLE 7 (k * 4096) ++ ws.flatMap fun w =>
    toLE 2 ((w.headD (0, 0, false)).1 % 4096) ++ w.map fun c => c.2.1)

/-- Strike writes in flight: flip bit `f.2` of the data of write `f.1`. -/
def strikeLog (flips : List (Nat × Nat)) (log : List (List (Nat × Byte × Bool))) : List (List (Nat × Byte × Bool)) :=
  (log.zip (List.range log.length)).map fun (w, i) =>
    flips.foldl (fun w f => if f.1 = i then
      (w.zip (List.range w.length)).map fun (c, k) => if f.2 / 8 = k then (c.1, c.2.1 ^^^ BitVec.ofNat 8 (2 ^ (f.2 % 8)), c.2.2) else c
      else w) w

/-- The cells the writes leave, and the blocks whose check failed (their bytes carry chaff). -/
def settle (flips : List (Nat × Nat)) (log : List (List (Nat × Byte × Bool))) : List (Nat × Byte × Bool) × List Nat :=
  let put (ws : List (List (Nat × Byte × Bool))) : List (Nat × Byte × Bool) :=
    ws.flatten.foldl (fun v c => alPut v c.1 c.2) []
  if flips.isEmpty then (put log, [])
  else
    let st := strikeLog flips log
    let pairs := (piecesOf log).zip (piecesOf st)
    let bad := pairs.filterMap fun (a, b) => if pieceCheck a.1 a.2 = pieceCheck b.1 b.2 then none else some b.1
    let ws := pairs.flatMap fun (a, b) =>
      if pieceCheck a.1 a.2 = pieceCheck b.1 b.2 then b.2 else b.2.map fun w => w.map fun c => (c.1, c.2.1, true)
    (put ws, bad)

/-! ## The copy itself -/

/-- Bursts of vaults that a series of reads takes, adjacent ones together (R209, R214). -/
def readBursts : Option Nat → List Nat → List Nat
  | _, [] => []
  | last, a :: t => if last = some (a / 256) then readBursts last t else (a / 256) :: readBursts (some (a / 256)) t

/-- Elements of the innermost contiguous run of a descriptor (R255): a block, a vector of 32, else the elements of dimension 0 where they follow
one another, else one element. -/
def Desc.innerRun (x : Desc) : Nat := if 1 ≤ x.brank then x.blockLen else if x.v32 then 32 else if x.stride 0 = 1 then x.size 0 else 1

/-- The reads of a move reach bins and the seedstore (R254); `run`: bytes of the contiguous run of the descriptor that walks. -/
def State.reachReads (s : State) (run : Nat) (as_ : List Nat) : State :=
  (runsOf 0x10000000000000 ((as_.filter s.isLocal).map fun a => (localOf a, ()))).foldl (fun s r => s.reach r.1 r.2.length false run) s

/-- Count the bursts a move read in VAULT_RD of the cores that own the vaults. -/
def State.countReads (s : State) (as_ : List Nat) : State :=
  let l := (as_.filter s.isLocal).map localOf |>.filter fun a => decide (a < 0x3600000000)
  (readBursts none l).foldl (fun s b => s.coreCount (b * 256 / 0x800000) 4 1) s

/-- The partition's step consumes chaff through a move (R416). -/
def State.moveChaff (s : State) (m : Move) : State :=
  match m.core with
  | some n => s.itemChaff n
  | none => s.consumeChaff m.ring m.step

/-- A block check fault of a move (R412): a record at the place of the move with its source descriptor's TAG; `a`: where the bytes that failed
go, a tagged address. It is charged to the write port that receives them: the core's scratch, a vault's core, the Granary, which checks what
leaves for another module too (Table 12-1, R410, R411). -/
def State.moveFault (s : State) (m : Move) (a : Nat) : FaultRec :=
  let f := match m.core with
    | some n => s.coreFault n 6 m.cmd
    | none => { FaultRec.blank 6 with part := m.part, ring := m.ring.getD 0xFF, step := m.step, layer := m.cmd.layer, oper := m.cmd.oper }
  let port := if scrTag ≤ a then m.core.getD 0 else if s.isLocal a && localOf a < 0x3600000000 then localOf a / 0x800000 else unitGranary
  { f with tag := m.src.tag, addr := if scrTag ≤ a then 0 else a, charge := some port }

/-- A contribution for each iteration of a combining SCATTER (R203), in iteration order. -/
def Move.contributions (m : Move) (rd : Nat → Byte × Bool) (cmdChaff : Bool) : List (MoveIt × Contrib) :=
  let x := m.dst
  let own := x.elementPositions
  (m.its rd).map fun i =>
    let (raw, ch) := m.src.element rd (m.src.position i.src)
    (i, { src := m.source, move := some m.id, part := m.part, ring := m.ring, step := m.step, op := m.sub, etype := x.etype,
          stype := m.src.etype, addr := x.byteAt (placeI x.etype (x.position i.dst)).1, bits := raw,
          chaff := ch || i.chaff || cmdChaff,
          pads := (x.pads own i.dst).flatMap (fun p => (touched x.etype p).map x.byteAt), txn := none })

/-- A move that stands for the place a contribution came from; `id`: its own move, or a number no move has. -/
def Contrib.asMove (c : Contrib) (id : Nat) : Move :=
  { id := id, core := match c.src with | .core n => some n | _ => none, part := c.part, ring := c.ring, step := c.step,
    cmd := ⟨0, 0, 0, c.step, 4, 3, 0, 0, false⟩, op := 3, sub := c.op, src := parseDesc [], dst := parseDesc [], idx := none, perm := [],
    det := true, st := .writing, overlap := 0, staged := false, drill := false, flips := [], got := [], waits := 0, msgs := 0, err := 0,
    chaff := false, since := 0, entry := none, dead := false }

/-- Zero the pads of a contribution at these addresses: those that do not lie in the burst or word it combines into (R186). -/
def State.zeroPads (s : State) (c : Contrib) (pads : List Nat) : State :=
  if pads.isEmpty then s else s.deliver (c.asMove (c.move.getD s.nextMove)) ((pads.foldl setIns []).map fun a => (a, 0, false))

/-- Send contributions to the Granaries they are for: this module's, or others' as COMBINE packets carrying the element in the destination's
format (R267, Table 11-4), each followed by writes of its zero pads, which the packet has no room for (R186). Without DET they export the
step (R421). -/
def State.sendContribs (s : State) (cs : List Contrib) (id : Option Nat) : State :=
  let s := { s with contribs := s.contribs ++ (cs.filter fun c => s.isLocal c.addr).map fun c => { c with pads := c.pads.filter s.isLocal } }
  let s := (cs.filter fun c => s.isLocal c.addr).foldl (fun s c => s.zeroPads c (c.pads.filter fun a => !s.isLocal a)) s
  (cs.filter fun c => s.isRemote c.addr).foldl (fun s c =>
    let v := if c.stype = c.etype then c.bits else (convElem c.etype .rne false (rawValue c.stype c.bits)).bits
    let k := etBits c.etype / 8
    let p := s.newPacket 4 1 c.op (c.addr / 0x10000000000) (localOf c.addr) k (toLE k v) (one c.chaff)
    let core := match c.src with | .core n => some n | _ => none
    let s := s.request c.src { p with etype := c.etype } c.move core c.ring c.step
    let s := match id with
      | some i => (s.onMove i fun x => { x with waits := x.waits + 1 }).onStep c.ring c.step fun o => { o with exported := true }
      | none => s
    s.zeroPads c c.pads) s

/-- Perform a move whose data are all at hand: read everything, then write everything (R197). -/
def State.performMove (s : State) (m : Move) : State :=
  let rd := s.moveByte m
  let (da, sa, xa) := m.reads rd
  let srcDenied := (da ++ sa ++ xa).filter fun a => s.isLocal a && s.access m.part (localOf a) false ≠ 0
  match srcDenied with
  | a :: _ => s.onMove m.id fun x => { x with st := .writing, err := if x.err = 0 then s.access m.part (localOf a) false else x.err }
  | [] =>
    let s := ((s.countReads da).countReads sa).countReads xa
    let s := (s.reachReads (packedLen m.src.etype m.src.innerRun) da).reachReads ((m.src.innerRun + 31) / 32) sa
    let s := match m.idx with
      | some x => s.reachReads (packedLen x.etype x.innerRun) xa
      | none => s
    let its := m.its rd
    let nr := (its.map MoveIt.rd).sum
    let nw := (its.map MoveIt.wr).sum
    let cnt (s : State) (core fe k : Nat) : State :=
      if k = 0 then s else match m.core with
        | some n => s.coreCount n core k
        | none => if fe = 0 then s.fadd F.feClampRd_CLAMP_RD m.part k else if fe = 1 then s.fadd F.feClampWr_CLAMP_WR m.part k else s
    let s := cnt (cnt s 13 0 nr) 14 1 nw
    let (els, sat) := m.elements rd m.chaff
    let anyChaff := m.chaff || els.any MoveEl.chaff
    let s := if anyChaff then s.moveChaff m else s
    let s := s.onMove m.id fun x => { x with st := .writing }
    let issuer := match m.core with | some n => n | none => 27648
    let stage (s : State) (items : List DetItem) : State :=
      { s with det := s.det.map fun d => if some d.ring = m.ring && d.step = m.step then { d with items := d.items ++ items } else d }
    if m.op = 3 ∧ m.sub ≠ 0 then
      let all := m.contributions rd m.chaff
      let struck (i : Nat) : Bool := m.flips.any fun f => f.1 = i
      -- a contribution struck in flight fails its check before it is combined (R410)
      let s := match ((List.range all.length).filter struck).head?.bind fun i => all[i]? with
        | some (_, c) => s.confirm { s.moveFault m c.addr with charge := some unitGranary }
        | none => s
      let cs := ((all.zip (List.range all.length)).filter fun x => !struck x.2).map Prod.fst
      if m.det then
        stage s (cs.map fun (i, c) => { issuer := issuer, seq := m.cmd.seq, j := i.j, ord := i.ord, op := m.sub, con := { c with move := none }, bytes := [] })
      else s.sendContribs (cs.map fun c => if m.dead then { c.2 with bits := leNat (s.undefBytes c.2.addr 8) } else c.2) (some m.id)
    else
      let s := cnt s 11 2 sat
      let o := m.writes rd els
      let s := if o.bad.isEmpty then s else
        let s := cnt s 8 2 o.bad.length
        match m.core with
        | some n => s.warning n 0x0101
        | none => s.onStep m.ring m.step fun x => if x.warn = 0 then { x with warn := 0x0101 } else x
      let (cells, bad) := settle m.flips o.log
      let s := bad.foldl (fun s k => s.confirm (s.moveFault m (k * 4096))) s
      if m.det then
        -- each element's bytes with their key
        stage s ((els.map fun e =>
          let a := m.dst.byteAt (placeI m.dst.etype e.p).1
          let (w, puts) := m.detPut rd els o (s.isRemote a) e
          let con : Contrib := { src := m.source, move := none, part := m.part, ring := m.ring, step := m.step, op := 0,
                                 etype := m.dst.etype, stype := m.dst.etype, addr := a, bits := e.raw,
                                 chaff := e.chaff, pads := [], txn := none }
          { issuer := issuer, seq := m.cmd.seq, j := e.it.j, ord := e.it.ord, op := 0, con := con, bytes := w,
            dst := some m.dst, puts := puts }))
      else s.deliver m cells

/-! ## The course of a move -/

/-- Staging pool in use (R198, R200). -/
def State.stagingUsed (s : State) : Nat := ((s.moves.filter fun m => m.staged).map Move.overlap).sum

/-- Bring a move as far as it goes by itself: it waits for staging space and a Granary drill until they are granted, then
for the data of other modules, then it is performed. -/
def State.advanceMove (s : State) (id : Nat) : State :=
  match s.moves.find? fun m => m.id = id with
  | none => s
  | some m =>
    if 0 < m.overlap && !m.staged then s.onMove id fun x => { x with st := .staging }
    else if s.needsDrill m && !m.drill then s.onMove id fun x => { x with st := .drill }
    else
      let rd := s.moveByte m
      let have_ (a : Nat) : Bool := m.got.any fun x => x.1 = a
      let missing (l : List Nat) : List Nat := l.filter fun a => s.isRemote a && !have_ a
      let xa := match m.idx with
        | some x => (List.range (x.size 0)).flatMap fun j => (touched x.etype (x.position [j])).map x.byteAt
        | none => []
      -- index elements first: they tell the rest
      let need := if missing xa = [] then (let (da, sa, _) := m.reads rd; missing (da ++ sa ++ m.merged s rd)) else missing xa
      if 0 < m.waits then s.onMove id fun x => { x with st := .remote }
      else if need ≠ [] && m.err = 0 then (s.requestReads m need).onMove id fun x => { x with st := .remote }
      else if m.err ≠ 0 then s.onMove id fun x => { x with st := .writing }
      else s.performMove m

/-- Accept a move whose checks gave these descriptors: it takes its reservations and starts. -/
def State.acceptMove (s : State) (core ring : Option Nat) (part step : Nat) (cmd : Cmd) (op sub : Nat) (det : Bool)
    (src dst : Desc) (idx : Option Desc) (perm : List Nat) (overlap need : Nat) (chaff : Bool) (flips : List (Nat × Nat))
    (entry : Option ErrPlace := none) : State :=
  let id := s.nextMove
  let m : Move :=
    { id := id, core := core, part := part, ring := ring, step := step, cmd := cmd, op := op, sub := sub, src := src, dst := dst,
      idx := idx, perm := perm, det := det, st := .staging, overlap := (overlap + 4095) / 4096 * 4096, staged := false,
      drill := false, flips := flips, got := [], waits := 0, msgs := 0, err := 0, chaff := chaff,
      since := s.time.elapsed, entry := entry, dead := false }
  let s := { s with moves := s.moves ++ [m], nextMove := id + 1 }
  let s := if !det then s else
    let r := ring.getD 128
    if s.det.any fun d => d.ring = r && d.step = step then
      { s with det := s.det.map fun d => if d.ring = r && d.step = step then { d with bytes := d.bytes + need } else d }
    else { s with det := s.det ++ [{ part := part, ring := r, step := step, bytes := need, items := [] }] }
  s.advanceMove id

end Sys2Proof.Machine
end

