-- ==== Sys2Proof/Machine/SyncOps.lean ====
section
/-!
DEFINITION. SyncOps.lean: what cores and the front end share of fences and semaphores (R54 to R58, R167, R259 to R261,
R419 to R421).
-/
namespace Sys2Proof.Machine

/-- Value of the semaphore at a local address. -/
def State.semValue (s : State) (a : Nat) : Nat := leNat (s.rdN a 8)

/-- Is a local address one a semaphore of the partition may lie at (R56, R259): aligned, in a SCRATCH bin of the partition. -/
def State.semOk (s : State) (p a : Nat) : Bool := a % 8 = 0 && s.access p a false = 0 && (match s.region a with | .bin _ _ => true | _ => false)

/-- Put a signal into the ledger of its step (R419); the 1,025th overflows it, and the step is exported (R421). -/
def State.ledger (s : State) (ring : Option Nat) (step : Nat) (e : LedgerEnt) : State :=
  s.onStep ring step fun o =>
    if o.ledger.length < 1024 then { o with ledger := o.ledger ++ [e] } else { o with exported := true }

/-- Perform a signal on a semaphore of this module (R57, R167): an ADD reads the semaphore, so that chaff stays with it. -/
def State.signalLocal (s : State) (a : Nat) (set : Bool) (v : Nat) (chaff : Bool) : State :=
  let old := s.semValue a
  let new := if set then v else (old + v) % 2 ^ 64
  let ch := chaff || (!set && s.isChaff a)
  s.wrMarked a ((toLE 8 new).map fun b => (b, ch))

/-- Status of the checks R167 makes of a SEM_ADDR (a 56-bit global address) and SUB, in its order; 0 when they pass. -/
def State.semCheck (s : State) (p addr sub : Nat) (wait : Bool) : Nat :=
  let here := addr / 0x10000000000 = s.selfId
  if addr % 8 ≠ 0 ∨ (wait && !here) ∨ (here && !s.semOk p (localOf addr)) then 0x0901
  else if 1 < sub then 0x0903
  else if !s.reachable (addr / 0x10000000000) then 0x0A01
  else if !wait && here && s.engineArea p (localOf addr) then 0x0A02
  else 0

/-- Reserved bytes of a semaphore frame (Table 5-20, R167). -/
def semRsvd (f : List Byte) (wait : Bool) : Bool :=
  !zeroB f 7 1 || !zeroB f 20 10 || (!wait && !zeroB f 16 4)

/-- Send a SIGNAL to another module (Table 11-4); SET exports the step (R421). -/
def State.signalRemote (s : State) (src : Src) (core ring : Option Nat) (step addr : Nat) (set : Bool) (v : Nat) (chaff : Bool)
    (entry : Option ErrPlace := none) : State :=
  let p := s.newPacket 3 0 (one set) (addr / 0x10000000000) (localOf addr) 8 (toLE 8 v) (one chaff)
  let s := s.request src p none core ring step entry
  if set then s.onStep ring step fun o => { o with exported := true } else s

/-- Is a wait over: its semaphore holds the awaited value or poison, or has held it since the wait began (R57, R420). -/
def State.waitMet (s : State) (w : SemWait) : Bool := w.met.isSome || w.reached (s.semValue w.sem)

/-! ## What a fence waits for (R54) -/

/-- Earlier accesses of a core that are not performed: those before place `seq` of its program order. For reads alone, a
move that has read everything no longer counts. -/
def State.coreAccesses (s : State) (n seq : Nat) (readsOnly : Bool) : List MemSpan :=
  let c := s.core n
  let queued := ((c.qv ++ c.qh ++ c.qmv).filter fun d => decide (d.seq < seq)).flatMap (s.queuedMem n) ++
    (c.hul.filter fun h => decide (h.cmd.seq < seq)).flatMap fun h =>
      (h.tasks.filter fun t => t.st ≠ .ended).map fun t => s.bankSpan n h t.bank
  let moves := (s.moves.filter fun m => m.core = some n && decide (m.cmd.seq < seq) && !(readsOnly && m.st = .writing)).flatMap s.moveMem
  let all := queued ++ moves
  if readsOnly then all.filter fun x => !x.write else all

/-- Are accesses of a core before `seq` outstanding in the classes named (request, collective). -/
def State.coreOpen (s : State) (n seq : Nat) (req coll readsOnly : Bool) : Bool :=
  (s.coreAccesses n seq readsOnly).any fun x => if x.coll then coll else req

/-- Are accesses of a partition's front end outstanding that it issued before place `at_` of its order: moves, remote signals, and in the
management class the completion records of its four rings. -/
def State.feOpen (s : State) (p at_ : Nat) (req coll mgmt readsOnly : Bool) : Bool :=
  (s.moves.any fun m => m.core.isNone && m.ring.isSome && m.part = p && decide (m.cmd.seq < at_) &&
    (s.moveMem m).any fun x => (if x.coll then coll else req) && !(readsOnly && x.write)) ||
  (!readsOnly && req && s.link.txns.any fun t => t.core.isNone && t.move.isNone && decide (t.at_ ≤ at_) &&
    (match t.ring with | some r => partOfRing r = p | none => false)) ||
  (!readsOnly && mgmt && (List.range 4).any fun k => (s.ring (4 * p + k)).held.any fun x => decide (x.1 ≤ at_))

end Sys2Proof.Machine
end

