-- ==== Sys2Proof/Machine/HostOps.lean ====
section
/-!
DEFINITION. HostOps.lean: interrupts to the host, the status registers of the host functions, and the state the module is
in as a whole (R431, R557, R592, R597, R602, Table 18-11).
-/
namespace Sys2Proof.Machine

/-! ## The module's state as a whole -/

/-- BRING_STATUS.STATE (Table 14-8): 0 RUNNING, 1 DONE, 2 FAILED, 3 READY, 4 RECOVERY, 5 FAILSAFE, 6 UNREADY. -/
def State.bringState (s : State) : Nat := s.fget F.bringStatus_STATE 0
/-- STATE is READY. -/
def State.isReady (s : State) : Bool := s.bringState = 3
/-- The module is in its fail-safe state (R431). -/
def State.isFailsafe (s : State) : Bool := s.flag F.intStatus_FAILSAFE 0
/-- The module has declared itself unready (R429). -/
def State.isUnready (s : State) : Bool := s.flag F.intStatus_UNREADY 0
/-- Sleep state (Table 16-9): 0 S0, 1 S1, 2 S2, 3 S4. -/
def State.sleep (s : State) : Nat := s.fget F.sleepStat_STATE 0

/-- An unmasked bit of ALERT_STATUS stands (R557). -/
def State.alert (s : State) : Bool :=
  s.flag F.alertStatus_FAILSAFE 0 || s.flag F.alertStatus_UNREADY 0 ||
  (let mask := s.fget F.alertMask_MASK 0
   let bits := s.regWord R.alertStatus 0
   (List.range 7).any fun i => bitAt bits i && !bitAt mask i)

/-- ALERT# is asserted: through a warm reset it keeps its level (R482, R557). -/
def State.alertOn (s : State) : Bool := s.rst.alert.getD s.alert

/-! ## Identity (R587, Table 18-2) -/

/-- What a host function says it is. -/
structure FnIdentity where
  vendor : Nat
  device : Nat
  classCode : Nat
  revision : Nat
  subVendor : Nat
  subId : Nat
  deriving DecidableEq, Repr

/-- The identity of a function (0: the PF): Table 18-2, with the subsystem IDs of CONFIG. -/
def State.identity (s : State) (fn : Nat) : FnIdentity :=
  { vendor := 0x1F2E, device := if fn = 0 then (match s.partNo with | .a64 => 0x0810 | .a128 => 0x0811) else 0x0818,
    classCode := 0x120000, revision := 1,
    subVendor := match s.seed.image with | some i => i.subVendor | none => 0,
    subId := match s.seed.image with | some i => i.subId | none => 0 }

/-- The vendor ID as the header of a message of type 0x7E carries it, its high byte first. -/
def State.mctpVendor (s : State) : List Byte := (toLE 2 (s.identity 0).vendor).reverse

/-! ## MSI-X (R597) -/

/-- Vectors of a function (Table 18-1). -/
def vectorsOf (fn : Nat) : Nat := if fn = 0 then 256 else 16

/-- Send an MSI-X message; with the link down it is dropped and counted (R603). -/
def State.msix (s : State) (fn v : Nat) : State :=
  if s.host.link then s.emit (.msix fn v) else s.fadd F.hostErrCnt_COUNT 0 1

/-- Raise a vector of a function (R597): beyond the table it is vector 0; masked, it becomes pending. A function in D3hot or
stopped by a reset raises none (R601, R602). -/
def State.raiseVector (s : State) (fn v : Nat) : State :=
  let v := if v < vectorsOf fn then v else 0
  if s.host.d3.contains fn || s.host.off.contains fn then s
  else if s.host.unmasked.contains (fn * 256 + v) then s.msix fn v
  else { s with host := { s.host with pend := setIns s.host.pend (fn * 256 + v) } }

/-- The host link is down: what waits there is lost, and the host holds no line (R603). -/
def State.linkDown (s : State) : State :=
  { s with host := { s.host with link := false, speed := 0, flit := false, cxl := false, lines := [], held := [] } }

/-! ## HIF_STATUS and HIF_FN_STATUS -/

/-- The partition a virtual function owns. -/
def State.partOfFn (s : State) (fn : Nat) : Option Nat :=
  (s.parts.find? fun x => x.2.owner = fn).map Prod.fst

/-- The word HIF_FN_STATUS[f] shows (Table 18-11). -/
def State.fnStatus (s : State) (fn : Nat) : Nat :=
  let p := s.partOfFn fn
  one (s.isReady && (fn = 0 || p.isSome)) * 2 ^ 31 + one s.isUnready * 2 ^ 30 + one s.isFailsafe * 2 ^ 29 +
  one (s.sleep = 2) * 2 ^ 28 + one p.isSome * 2 ^ 7 + (if fn = 0 then 0 else p.getD 0)

/-- Bring the status registers of one function up to date; vector 0 is raised on a change (R597). -/
def State.refreshFn (s : State) (fn : Nat) : State :=
  let w := s.fnStatus fn
  if s.regWord R.hifFnStatus fn = w then s
  else
    let s := R.hifFnStatus.fields.foldl (fun s f => s.fset f fn (f.of w)) s
    s.raiseVector fn 0

/-- Bring HIF_STATUS and every HIF_FN_STATUS up to date. -/
def State.refreshHif (s : State) : State :=
  let s := s.fset F.hifStatus_READY 0 (one s.isReady) |>.fset F.hifStatus_DEVICE_FAULT 0 (one s.isFailsafe)
    |>.fset F.hifStatus_UNREADY 0 (one s.isUnready) |>.fset F.hifStatus_S2 0 (one (s.sleep = 2))
    |>.fset F.hifStatus_PARTS 0 s.parts.length
  (List.range 33).foldl State.refreshFn s

/-- Log a refused host request (R591): counted; the first is kept. -/
def State.hostRefuse (s : State) (kind fn addr : Nat) : State :=
  let s := s.fadd F.hostErrCnt_COUNT 0 1
  if s.flag F.hostErrLog_VALID 0 then s
  else s.fset F.hostErrLog_VALID 0 1 |>.fset F.hostErrLog_KIND 0 kind |>.fset F.hostErrLog_FN 0 fn
    |>.fset F.hostErrLog_ADDR 0 addr

end Sys2Proof.Machine
end

