-- ==== Sys2Proof/Machine/StreamOps.lean ====
section
/-!
DEFINITION. StreamOps.lean: stream contexts and model descriptors as they lie in the Granary, with their checks (R314 to
R317, R332, R333).
-/
namespace Sys2Proof.Machine

/-! ## Stream contexts (Table 10-1) -/

/-- Local address of context k. -/
def ctxAddr (k : Nat) : Nat := 0x4033000000 + k * 0x40

/-- A stream context. -/
structure Ctx where
  state : Nat
  part : Nat
  model : Nat
  kvSlot : Nat
  position : Nat
  limit : Nat
  lastStep : Nat
  steps : Nat
  tag : Nat
  holdStep : Nat
  holdJob : Bool
  holdBy : Bool
  holdRing : Nat
  termCode : Nat
  holdAdv : Nat
  deriving DecidableEq, Repr

/-- A FREE context: every field zero. -/
def Ctx.free : Ctx := ⟨0, 0, 0, 0, 0, 0, 0, 0, 0, 0, false, false, 0, 0, 0⟩

/-- The 64 bytes of a context with its CHECK (R315, R317). -/
def Ctx.bytes (c : Ctx) : List Byte :=
  withCheck (toLE 1 c.state ++ toLE 1 c.part ++ toLE 2 c.model ++ toLE 4 c.kvSlot ++ toLE 4 c.position ++ toLE 4 c.limit ++
    toLE 4 c.lastStep ++ toLE 4 c.steps ++ toLE 8 c.tag ++ toLE 4 c.holdStep ++
    toLE 1 (one c.holdBy + 2 * one c.holdJob) ++ toLE 1 c.holdRing ++ toLE 2 c.termCode ++ toLE 4 c.holdAdv ++
    List.replicate 18 0)

/-- The fields of 64 bytes. -/
def Ctx.parse (b : List Byte) : Ctx :=
  let h := fieldB b 36 1
  { state := fieldB b 0 1, part := fieldB b 1 1, model := fieldB b 2 2, kvSlot := fieldB b 4 4, position := fieldB b 8 4,
    limit := fieldB b 12 4, lastStep := fieldB b 16 4, steps := fieldB b 20 4, tag := fieldB b 24 8, holdStep := fieldB b 32 4,
    holdBy := bitAt h 0, holdJob := bitAt h 1, holdRing := fieldB b 37 1, termCode := fieldB b 38 2, holdAdv := fieldB b 40 4 }

/-- Bytes of context k. -/
def State.ctxBytes (s : State) (k : Nat) : List Byte := s.rdN (ctxAddr k) 64

/-- Does the CHECK of context k hold (R317). A context that nothing has written since its bin was zeroed is FREE. -/
def State.ctxIntact (s : State) (k : Nat) : Bool := checkOk (s.ctxBytes k) 64 || zeroB (s.ctxBytes k) 0 64

/-- Context k; with the table disabled every context behaves as FREE (R314). -/
def State.ctx (s : State) (k : Nat) : Ctx := if s.strmOn then Ctx.parse (s.ctxBytes k) else Ctx.free

/-- Write context k. -/
def State.setCtx (s : State) (k : Nat) (c : Ctx) : State := s.wr (ctxAddr k) c.bytes

/-- Is a stream held by the step. -/
def Ctx.heldBy (c : Ctx) (ring step : Nat) : Bool := c.holdBy && c.holdRing = ring && c.holdStep = step

/-- Release the hold of a step. -/
def Ctx.release (c : Ctx) : Ctx := { c with holdBy := false, holdStep := 0, holdRing := 0, holdAdv := 0 }

/-! ## Model descriptors (Table 10-8) -/

/-- Bytes of descriptor i. -/
def State.mdlBytes (s : State) (i : Nat) : List Byte := s.rdN (mdlAddr i) 256

/-- Does the CHECK of descriptor i hold (R431); one never written is EMPTY. -/
def State.mdlIntact (s : State) (i : Nat) : Bool := checkOk (s.mdlBytes i) 256 || zeroB (s.mdlBytes i) 0 256

/-- Fields of a model descriptor. -/
structure Mdl where
  state : Nat
  part : Nat
  hasKv : Bool
  roleBase : Nat
  roleCount : Nat
  kvMap : Nat
  modList : Nat
  modules : Nat
  selfRank : Nat
  streams : Nat
  tag : Nat
  deriving DecidableEq, Repr

def Mdl.parse (b : List Byte) : Mdl :=
  { state := fieldB b 0 1, part := fieldB b 1 1, hasKv := bitAt (fieldB b 2 2) 0, roleBase := fieldB b 4 2,
    roleCount := fieldB b 6 2, kvMap := fieldB b 8 4, modList := fieldB b 12 4, modules := fieldB b 16 4,
    selfRank := fieldB b 20 4, streams := fieldB b 24 4, tag := fieldB b 32 8 }

/-- Descriptor i. -/
def State.mdl (s : State) (i : Nat) : Mdl := Mdl.parse (s.mdlBytes i)

/-- Is descriptor i RESIDENT in the partition (R332). -/
def State.mdlResident (s : State) (p i : Nat) : Bool := i < 4096 && (s.mdl i).state = 1 && (s.mdl i).part = p

/-- Change bytes of a stored descriptor; the module recomputes CHECK (R333). -/
def State.setMdl (s : State) (i : Nat) (b : List Byte) : State := s.wr (mdlAddr i) (withCheck (sliceB b 0 254))

/-- Put a count into STREAMS of a descriptor. -/
def State.mdlStreams (s : State) (i n : Nat) : State := s.setMdl i (putB (s.mdlBytes i) 24 (toLE 4 n))

/-- Raise or lower STREAMS of a descriptor by one (R321). -/
def State.mdlUp (s : State) (i : Nat) : State := s.mdlStreams i ((s.mdl i).streams + 1)
def State.mdlDown (s : State) (i : Nat) : State := s.mdlStreams i ((s.mdl i).streams - 1)

/-- Module ID at a rank of a descriptor's module list (R337). -/
def State.moduleAt (s : State) (p : Nat) (m : Mdl) (rank : Nat) : Option Nat :=
  if rank < m.modules then (s.spRead p (m.modList + 2 * rank) 2).map leNat else none

end Sys2Proof.Machine
end

