-- ==== Sys2Proof/Machine/ReshardOps.lean ====
section
/-!
DEFINITION. ReshardOps.lean: KV maps (R279 to R292, R310), the checks of a re-shard job and the copies it makes (R338 to
R346), and its course as far as holds and copies go by themselves.
-/
namespace Sys2Proof.Machine

/-! ## KV maps -/

/-- A KV map header (Table 9-2). -/
structure KvMap where
  kind : Nat
  etype : Nat
  hd : Nat
  heads : Nat
  layers : Nat
  maxPos : Nat
  slots : Nat
  cores : Nat
  modules : Nat
  place : Nat
  base : Nat
  region : Nat
  deriving DecidableEq, Repr

def KvMap.parse (b : List Byte) : KvMap :=
  { kind := fieldB b 0 1, etype := fieldB b 1 1 % 64, hd := fieldB b 2 2, heads := fieldB b 4 2, layers := fieldB b 6 2,
    maxPos := fieldB b 8 4, slots := fieldB b 12 4, cores := fieldB b 16 4, modules := fieldB b 20 2,
    place := fieldB b 24 4 % 0x40000000, base := fieldB b 28 7, region := fieldB b 36 8 }

/-- The header's CHECK, KIND and reserved bytes are good (MAP_INVALID of Table 10-12). -/
def kvHeaderOk (b : List Byte) : Bool :=
  checkOk b 64 && fieldB b 0 1 ≤ 2 && fieldB b 1 1 < 64 && zeroB b 22 2 && fieldB b 24 4 < 0x40000000 && zeroB b 35 1 && zeroB b 44 18

/-- Row stride and sheaf size of a map's element type (R224, R279). -/
def KvMap.rs (m : KvMap) : Nat := hulRow m.etype m.hd
def KvMap.sheaf (m : KvMap) : Nat := (128 * m.rs + 255) / 256 * 256

/-- Index of a sequence's placement entry; for CONTIG of its stream slot's (R291). -/
def KvMap.entryOf (m : KvMap) (slot layer head : Nat) : Nat :=
  if m.kind = 2 then slot else (slot * m.layers + layer) * m.heads + head

/-- A placement entry (Table 9-3). -/
structure Place where
  mask : Nat
  off : Nat
  spb : Nat
  valid : Bool
  first : Nat
  rank : Nat
  fill : Nat
  deriving DecidableEq, Repr

def Place.parse (b : List Byte) : Place :=
  { mask := fieldB b 0 4, off := fieldB b 4 2 % 1024, spb := fieldB b 6 1, valid := bitAt (fieldB b 7 1) 0, first := fieldB b 8 2,
    rank := fieldB b 10 2, fill := fieldB b 12 4 }

/-- The scratchpad offset of placement entry i. -/
def KvMap.entryOff (m : KvMap) (i : Nat) : Nat := m.place + 16 * i

/-- Placement entry i, if it lies in the partition's scratchpad. -/
def State.place_ (s : State) (p : Nat) (m : KvMap) (i : Nat) : Option Place := (s.spRead p (m.entryOff i) 16).map Place.parse

/-- Banks of a mask, rising. -/
def maskBanks (mask : Nat) : List Nat := (List.range 32).filter fun b => bitAt mask b

/-- The rules of R292 for an entry of a map of descriptor `d`. The named cores lie within the partition on each module of the group: its rank
names a module of the list (R338); of this module the partition's cores are known, of another it is not for this module to say. -/
def State.placeOk (s : State) (p : Nat) (d : Mdl) (m : KvMap) (e : Place) : Bool :=
  if !e.valid then true
  else if 0x40000 < e.off * 256 + e.spb * m.sheaf || m.maxPos < e.fill then false
  else if m.kind = 2 then true
  else
    let mods := if m.kind = 1 then m.modules else 1
    let cores := if m.kind = 1 then m.cores else 1
    let n := if m.kind = 1 then cores * mods else 1
    decide (m.maxPos ≤ n * (maskBanks e.mask).length * e.spb * 64) &&
    (List.range mods).all fun k =>
      match s.moduleAt p d (e.rank + k) with
      | none => false
      | some mo => if mo = s.selfId then (match s.partOf p with
          | some q => decide (q.first ≤ e.first ∧ e.first + cores ≤ q.first + q.count)
          | none => false)
        else decide (e.first + cores ≤ 27648)

/-- Global address of sheaf j of a sequence placed by `e` (R286, R288, R289, R338): none where the module list ends. -/
def State.sheafAddr (s : State) (p : Nat) (d : Mdl) (m : KvMap) (e : Place) (j : Nat) : Option Nat :=
  let n := if m.kind = 1 then m.cores * m.modules else 1
  let r := j % n
  let z := j / n
  let core := e.first + (if m.kind = 1 then r % m.cores else 0)
  let rank := e.rank + (if m.kind = 1 then r / m.cores else 0)
  let spb := max e.spb 1
  match s.moduleAt p d rank, (maskBanks e.mask)[z / spb]? with
  | some mo, some b => some (mo * 0x10000000000 + vaultBase core + b * 0x40000 + e.off * 256 + z % spb * m.sheaf)
  | _, _ => none

/-- Global address of the key (c = 0) or value (c = 1) row of a position in a CONTIG map (R310). -/
def KvMap.contigRow (m : KvMap) (slot layer c pos head : Nat) : Nat :=
  m.base + slot * m.region + ((((layer * 2 + c) * m.maxPos + pos) * m.heads + head) * m.hd) * (etBits m.etype / 8)

/-- The copies one sequence needs (R344): source, target, bytes. -/
def State.seqCopies (s : State) (p : Nat) (ds dt : Mdl) (a b : KvMap) (sa sb layer head : Nat) : List (Nat × Nat × Nat) :=
  match s.place_ p a (a.entryOf sa layer head), s.place_ p b (b.entryOf sb layer head) with
  | some ea, some eb =>
    let fill := ea.fill
    if a.kind ≠ 2 ∧ b.kind ≠ 2 then
      (List.range ((fill + 63) / 64)).filterMap fun j =>
        match s.sheafAddr p ds a ea j, s.sheafAddr p dt b eb j with
        | some x, some y => some (x, y, a.sheaf)
        | _, _ => none
    else
      let row (m : KvMap) (d : Mdl) (e : Place) (slot c pos : Nat) : Option Nat :=
        if m.kind = 2 then some (m.contigRow slot layer c pos head)
        else (s.sheafAddr p d m e (pos / 64)).map fun x => x + (c * 64 + pos % 64) * m.rs
      (List.range fill).flatMap fun pos => [0, 1].filterMap fun c =>
        match row a ds ea sa c pos, row b dt eb sb c pos with
        | some x, some y => some (x, y, a.hd * (etBits a.etype / 8))
        | _, _ => none
  | _, _ => []

/-- Layers and heads of a map. -/
def KvMap.seqs (m : KvMap) : List (Nat × Nat) :=
  (List.range m.layers).flatMap fun l => (List.range m.heads).map fun h => (l, h)

/-! ## The checks at START (R342, Table 10-12) -/

/-- A job whose record passed, or the code of the first check that fails. -/
inductive RshChk where
  | code (n : Nat)
  | ok (j : RshJob)
  deriving DecidableEq, Repr

/-- Check the job record of a partition in the order of Table 10-12 and build the job. -/
def State.rshCheck (s : State) (p : Nat) : RshChk :=
  let off := s.fget F.rshJob_OFFSET p * 64
  match s.spRead p off 64 with
  | none => .code 0x20
  | some h =>
    let count := fieldB h 8 4
    let peers := fieldB h 6 2
    let tmo := fieldB h 12 4
    let semOff := fieldB h 16 4
    let plOff := fieldB h 20 4
    let semBase := fieldB h 24 8
    let bad := fieldB h 0 1 ≠ 1 || !zeroB h 1 1 || !zeroB h 36 26 || decide (0x40000000 ≤ semOff) || decide (0x40000000 ≤ plOff) ||
      !checkOk h 64 || count = 0 || decide (4096 < count) || peers = 0 || tmo = 0 || decide (1000000 < tmo) || semOff % 8 ≠ 0 ||
      !s.spHas p off (64 + 8 * count) || !s.spHas p plOff (2 * peers) || !s.spHas p semOff 8 ||
      decide (poison ≤ semBase + peers)
    if bad then .code 0x20 else
    match s.spRead p (off + 64) (8 * count), s.spRead p plOff (2 * peers), s.spAddr p semOff with
    | some eb, some pb, some sem =>
      let raw := (List.range count).map fun i => (fieldB eb (8 * i) 4, fieldB eb (8 * i + 4) 4)
      let mods := (List.range peers).map fun i => fieldB pb (2 * i) 2
      if (raw.any fun e => decide (0x200000 ≤ e.1) || decide (0x200000 ≤ e.2)) || !mods.contains s.selfId then .code 0x20 else
      let si := fieldB h 2 2
      let di := fieldB h 4 2
      let ds := s.mdl si
      let dt := s.mdl di
      if !(s.mdlResident p si && s.mdlResident p di && ds.hasKv && dt.hasKv) then .code 0x21 else
      match s.spRead p ds.kvMap 64, s.spRead p dt.kvMap 64 with
      | some ha, some hb =>
        let a := KvMap.parse ha
        let b := KvMap.parse hb
        let srcSlot (k : Nat) : Nat := (s.ctx k).kvSlot
        let places (m : KvMap) (slot : Nat) : List (Option Place) :=
          if m.kind = 2 then [s.place_ p m slot] else m.seqs.map fun q => s.place_ p m (m.entryOf slot q.1 q.2)
        let good (d : Mdl) (m : KvMap) (slot : Nat) : Bool := (places m slot).all fun e => match e with
          | some x => s.placeOk p d m x
          | none => false
        if !kvHeaderOk ha || !kvHeaderOk hb || (raw.any fun e => !good ds a (srcSlot e.1) || (decide (e.2 < b.slots) && !good dt b e.2)) then
          .code 0x22
        else if a.etype ≠ b.etype || a.hd ≠ b.hd || a.heads ≠ b.heads || a.layers ≠ b.layers ||
            (raw.any fun e => decide (b.slots ≤ e.2) ||
              ((places b e.2).any fun x => match x with | some y => !y.valid | none => true) ||
              ((places a (srcSlot e.1)).any fun x => match x with | some y => decide (b.maxPos < y.fill) | none => true)) then
          .code 0x23
        else if !s.strmOn || (raw.any fun e => let c := s.ctx e.1
              c.state ≠ 1 || c.part ≠ p || c.model ≠ si || c.holdJob || (raw.filter fun x => x.1 = e.1).length ≠ 1) ||
            (s.rsh.any fun j => j.st ≠ .queued && j.entries.any fun x => raw.any fun e => e.1 = x.1) then
          .code 0x24
        else
          -- a stream whose target place is its source place: nothing of it is copied or written (R345, R346)
          let same (e : Nat × Nat) : Bool := ds.kvMap = dt.kvMap && srcSlot e.1 = e.2
          let here (c : Nat × Nat × Nat) : Bool := c.1 / 0x10000000000 = s.selfId
          let all := raw.map fun e => if same e then [] else
            a.seqs.flatMap fun q => s.seqCopies p ds dt a b (srcSlot e.1) e.2 q.1 q.2
          let plan := all.map fun l => l.filter here
          let fillOf (slot l hh : Nat) : Nat := ((s.place_ p a (a.entryOf slot l hh)).map Place.fill).getD 0
          let fills := (raw.filter fun e => !same e).flatMap fun e =>
            if b.kind = 2 then [(b.entryOff e.2 + 12, fillOf (srcSlot e.1) 0 0)]
            else b.seqs.map fun q => (b.entryOff (b.entryOf e.2 q.1 q.2) + 12, fillOf (srcSlot e.1) q.1 q.2)
          .ok { part := p, st := .queued, src := si, dst := di, entries := raw, peers := mods, sem := sem, semBase := semBase,
                timeout := tmo, plan := plan, fills := fills, tag := fieldB h 32 4,
                places := (all.flatten.filter fun c => c.2.1 / 0x10000000000 = s.selfId).map fun c => (localOf c.2.1, c.2.2),
                openFills := fills.map Prod.fst, held := 0, moves := [], abort := 0,
                since := 0 }
      | _, _ => .code 0x22
    | _, _, _ => .code 0x20

/-! ## The course of a job -/

/-- The re-shard job of a partition. -/
def State.rshOf (s : State) (p : Nat) : Option RshJob := s.rsh.find? fun j => j.part = p

/-- Change the job of a partition. -/
def State.onRsh (s : State) (p : Nat) (f : RshJob → RshJob) : State :=
  { s with rsh := s.rsh.map fun j => if j.part = p then f j else j }

/-- End a job with a code (Table 10-13). -/
def State.rshEnd (s : State) (p code : Nat) : State :=
  { s with rsh := s.rsh.filter fun j => j.part ≠ p, moves := s.moves.filter fun m => !(m.op = 5 && m.part = p) }
    |>.fset F.rshStatus_CODE p code |>.fset F.rshStatus_RUNNING p 0

/-- The move that stands for the copies of one stream of a job. -/
def rshMove (id part : Nat) : Move :=
  { id := id, core := none, part := part, ring := none, step := 0, cmd := ⟨0, 0, 0, 0, 4, 0, 0, 0, false⟩, op := 5, sub := 0,
    src := parseDesc [], dst := parseDesc [], idx := none, perm := [], det := false, st := .writing, overlap := 0, staged := false,
    drill := false, flips := [], got := [], waits := 0, msgs := 0, err := 0, chaff := false, since := 0, entry := none, dead := false }

/-- Copy one piece: its bytes as they stand, with their chaff, to their target (R344); every access passes the cache lookup (R254). A piece of no
mapped region is not read (R16). -/
def State.rshCopy (s : State) (m : Move) (c : Nat × Nat × Nat) : State :=
  let l := localOf c.1
  if (List.range c.2.2).any fun i => s.region (l + i) = .unmapped then s.onMove m.id fun x => { x with err := 0x0A01 }
  else
  let s := s.reach l c.2.2 false c.2.2
  s.deliver m ((List.range c.2.2).map fun i => (c.2.1 + i, s.rd8 (l + i), s.isChaff (l + i)))

/-- Copy what one stream has on this module. -/
def State.rshStream (s : State) (p : Nat) (plan : List (Nat × Nat × Nat)) : State :=
  let id := s.nextMove
  let m := rshMove id p
  let s := { s with moves := s.moves ++ [m], nextMove := id + 1 }.onRsh p fun j => { j with moves := j.moves ++ [id] }
  let s := plan.foldl (fun (s : State) c => s.rshCopy m c) s
  s.countReads (plan.flatMap fun c => (List.range c.2.2).map fun i => c.1 + i)

/-- Jobs that have a place (R340). -/
def State.rshPlaced (s : State) : Nat := (s.rsh.filter fun j => j.st ≠ .queued).length

end Sys2Proof.Machine
end

