-- ==== Sys2Proof/Machine/LinkOps.lean ====
section
/-!
DEFINITION. LinkOps.lean: Oncon packets and control flits as bytes (R359 to R363), port states and credits (R366 to R373),
the topology sweep (R379), and a link that breaks (R386 to R389).
-/
namespace Sys2Proof.Machine

/-! ## Packets and control flits as bytes -/

/-- Payload flits of a packet. -/
def Packet.len (p : Packet) : Nat := (p.payload.length + 31) / 32

/-- Header bytes 0 to 27 (Table 11-3). -/
def Packet.header (p : Packet) (seq : Nat) (shared : Bool) : List Byte :=
  toLE 1 p.type ++ toLE 1 (p.cls % 4 + p.level % 4 * 4 + one shared * 16) ++ toLE 1 (p.hops % 64) ++
  toLE 1 (p.len + p.op % 16 * 16) ++ toLE 2 p.dst ++ toLE 2 p.src ++ toLE 5 p.addr ++ toLE 1 (p.etype % 64) ++ toLE 2 (seq % 4096) ++
  toLE 4 p.srcId ++ toLE 4 p.txn ++ toLE 2 p.bytes ++ toLE 1 p.poison ++ toLE 1 0

/-- The flits of a packet as sent: header, CRC, payload (R360, R362). -/
def Packet.wire (p : Packet) (seq : Nat) (shared : Bool) : List Byte :=
  let h := p.header seq shared
  let pay := sliceB p.payload 0 (p.len * 32)
  h ++ toLE 4 (crc32c (h ++ pay)).toNat ++ pay

/-- The packet that flits spell. -/
def Packet.parse (b : List Byte) : Packet :=
  { type := fieldB b 0 1, cls := fieldB b 1 1 % 4, level := fieldB b 1 1 / 4 % 4, hops := fieldB b 2 1 % 64, op := fieldB b 3 1 / 16,
    dst := fieldB b 4 2, src := fieldB b 6 2, addr := fieldB b 8 5, etype := fieldB b 13 1 % 64, srcId := fieldB b 16 4,
    txn := fieldB b 20 4, bytes := fieldB b 24 2, poison := fieldB b 26 1, payload := sliceB b 32 (fieldB b 3 1 % 16 * 32) }

/-- The CRC of received flits holds (R362). -/
def wireCrcOk (b : List Byte) : Bool :=
  fieldB b 28 4 = (crc32c (sliceB b 0 28 ++ sliceB b 32 (fieldB b 3 1 % 16 * 32))).toNat

/-- State of a port (Table 11-6): 0 DOWN, 1 TRAINING, 2 HELLO, 3 UP, 4 DEGRADED, 5 FI_TX, 6 FI_RX. -/
def State.portState (s : State) (p : Nat) : Nat := s.fget F.portStat_STATE p
/-- Is a port UP. -/
def State.portUp (s : State) (p : Nat) : Bool := s.portState p = 3
/-- A port beyond its registers. -/
def State.port (s : State) (p : Nat) : PortSt := alGet PortSt.fresh s.link.ports p
/-- Put a port. -/
def State.setPort (s : State) (p : Nat) (x : PortSt) : State := { s with link := { s.link with ports := alPut s.link.ports p x } }
/-- Change a port. -/
def State.onPort (s : State) (p : Nat) (f : PortSt → PortSt) : State := s.setPort p (f (s.port p))

/-- The control flit a port sends now (Table 11-5). -/
def State.controlFlit (s : State) (p : Nat) : List Byte :=
  let x := s.port p
  let st := s.portState p
  let ct := if st = 2 then 2 else if 4 ≤ st then 5 else 1
  let reason := if ct = 5 then s.fget F.portStat_FI_REASON p else 0
  let ack := (x.rxSeq + 4095) % 4096 + one x.nak * 0x8000
  let hello := if ct = 2 then toLE 6 (s.selfId + p * 0x10000 + s.link.topoId % 0x10000000 * 0x100000) else toLE 6 0
  let b := toLE 1 ct ++ toLE 1 reason ++ toLE 2 ack ++ (List.range 16).flatMap (fun i => toLE 1 (alGet 0 x.rxDed i)) ++
    toLE 2 x.rxSh ++ hello
  b ++ toLE 4 (crc32c b).toNat

/-- Send a control flit (R363). -/
def State.sendControl (s : State) (p : Nat) : State :=
  (s.onPort p fun x => { x with run := 0 }).emit (.packet p true (s.controlFlit p))

/-! ## Credits, sending and replay (R366 to R368) -/

/-- Class and level of a packet as one number. -/
def Packet.lane (p : Packet) : Nat := p.cls % 4 * 4 + p.level % 4

/-- Flits of a packet. -/
def Packet.flits (p : Packet) : Nat := 1 + p.len

/-- The credit a packet would take: none, dedicated (false) or shared (true) (R366). The retry buffer must hold it (R368). -/
def PortSt.credit (x : PortSt) (p : Packet) : Option Bool :=
  let used := (x.retry.map fun t => t.pkt.flits).sum
  if 2048 ≤ x.retry.length ∨ 12288 < used + p.flits then none
  else if alGet 0 x.dedUsed p.lane + p.flits ≤ 16 then some false
  else if x.shUsed + p.flits ≤ 12032 then some true
  else none

/-- Give a packet's flits to a port; a control flit goes before them where they would end a run of more than 63 packet flits (R363). -/
def State.sendPacket (s : State) (port : Nat) (t : TxPkt) : State :=
  let s := if 63 < (s.port port).run + t.pkt.flits then s.sendControl port else s
  (s.onPort port fun x => { x with run := x.run + t.pkt.flits }).emit (.packet port false (t.pkt.wire t.seq t.shared))

/-- A packet as it leaves the router: HOPS one less, LEVEL raised where its route says so (R381). -/
def Hop.leaving (h : Hop) : Packet := { h.pkt with hops := h.pkt.hops - 1, level := h.pkt.level + one h.up }

/-- Send a packet on a port with the credit it takes: it enters the retry buffer with the next SEQ. -/
def State.sendOn (s : State) (port : Nat) (p : Packet) (shared : Bool) : State :=
  let x0 := s.port port
  let x : PortSt := if shared then { x0 with shUsed := x0.shUsed + p.flits }
    else { x0 with dedUsed := alPut x0.dedUsed p.lane (alGet 0 x0.dedUsed p.lane + p.flits) }
  let t : TxPkt := { pkt := p, seq := x.txSeq, shared := shared, resends := 0, last := s.time.elapsed }
  (s.setPort port { x with retry := x.retry ++ [t], txSeq := (x.txSeq + 1) % 4096 }).sendPacket port t

/-- One turn of an output port: the next of its 16 queues, in round robin, that has a packet and credit for it sends its
oldest packet (R367); with none to send the port sends a control flit (R363). -/
def State.portTurn (s : State) (port : Nat) : State :=
  let x := s.port port
  if !s.portUp port then s else
  let ready (l : Nat) : Option Hop :=
    match x.out.find? fun h => h.leaving.lane = l with
    | some h => if (x.credit h.leaving).isSome then some h else none
    | none => none
  match (((List.range 16).map fun i => (x.rr + 1 + i) % 16).filterMap ready).head? with
  | none => s.sendControl port
  | some h => (s.setPort port { x with out := x.out.erase h, rr := h.leaving.lane }).sendOn port h.leaving ((x.credit h.leaving).getD false)

/-! ## Ports leaving and entering states -/

/-- Put a port into a state. A port that leaves UP sets BROKE (Table 11-15); the packets waiting in it go back to their place in the router,
before every packet that came later (R53, R376); a break notice of its own that waits in it is lost (Table 11-12). -/
def State.setPortState (s : State) (p st : Nat) : State :=
  if s.portUp p && st ≠ 3 then
    let x := s.port p
    let s := (s.fset F.portStat_STATE p st).fset F.portStat_BROKE p 1
    let notice (h : Hop) : Bool := h.pkt.type = 8 && h.pkt.op = 3
    let s := s.fadd F.hopDrop_COUNT 0 (x.out.filter notice).length
    { s with link := { s.link with queue := x.out.filter (fun h => !notice h) ++ s.link.queue, ports := alPut s.link.ports p { x with out := [] } } }
  else s.fset F.portStat_STATE p st

/-- The cause of FI_TX that a reason leaves with the port: RESET, TOPOLOGY and LOST are the port's own; fail-safe, unready and FORCE_FI stand in
registers (Table 11-8). -/
def ownCause (x : PortSt) (reason : Nat) : Nat := if 5 ≤ reason then reason else x.cause

/-- The cause of FI_TX present at a port: a reason of Table 11-8, 0 for none (R373). -/
def State.fiCause (s : State) (p : Nat) : Nat :=
  if s.isFailsafe then 1 else if s.isUnready then 2 else if s.flag F.portCtl_FORCE_FI p then 4 else (s.port p).cause

/-- Make a port send FAULT_IDLE with a reason (R373). -/
def State.faultIdleTx (s : State) (p reason : Nat) : State :=
  (((s.setPortState p 5).fset F.portStat_FI_REASON p reason).onPort p fun x => { x with cause := ownCause x reason }).sendControl p

/-- A port goes to TRAINING with a fresh link (R358); the codewords of the last 10 s still count (R371). -/
def State.train (s : State) (p : Nat) : State :=
  let x := s.port p
  (s.setPortState p 1).setPort p { PortSt.fresh with signal := x.signal, fec := x.fec }

/-- A port that is to train trains, or sends FAULT_IDLE while a cause for it is present (R358, R373). -/
def State.startPort (s : State) (p : Nat) : State := match s.fiCause p with | 0 => s.train p | r => s.faultIdleTx p r

/-- Fail-safe, unready and the reset of the Oncon block apply to all twelve ports at once (R373). -/
def State.allFaultIdle (s : State) (reason : Nat) : State :=
  (List.range 12).foldl (fun s p => s.faultIdleTx p reason) s

/-! ## Routes (R376, R380) -/

/-- PORT_A and PORT_B of a route entry (Table 11-9). -/
def routeA (e : Nat) : Nat := bitsOf e 20 4
def routeB (e : Nat) : Nat := bitsOf e 16 4

/-- Has a valid entry to another module lost every port it names (R386 step 4). -/
def State.routeLost (s : State) : Bool :=
  let set := s.fget F.routeCtl_ACTIVE 0
  s.link.routes.any fun r =>
    r.1 / 65536 = set && bitAt r.2 31 && !bitAt r.2 30 && !s.portUp (routeA r.2) && !(routeB r.2 ≠ 0xF && s.portUp (routeB r.2))

/-! ## The topology sweep (R379, R389) -/

/-- Send SWEEP_REQ packets up to 64 outstanding; with nothing left to ask and no answer awaited the sweep ends. -/
def State.sweepFill (s : State) : State :=
  match s.link.sweep with
  | none => s
  | some w =>
    if w.todo.isEmpty && w.asked.isEmpty then
      let s := { s with link := { s.link with sweep := none } }.fset F.sweepStat_RUNNING 0 0
      match w.differ with
      | none => s.fset F.sweepStat_RESULT 0 1
      | some m => (s.fset F.sweepStat_RESULT 0 2).fset F.sweepFirst_MODULE 0 m
    else
      let k := 64 - w.asked.length
      let now := w.todo.take k
      let s := { s with link := { s.link with sweep := some { w with todo := w.todo.drop k, asked := w.asked ++ now } } }
      now.foldl (fun s m => s.route { s.newPacket 8 3 1 m 0 0 [] 0 with op := 1 }) s

/-- Begin a sweep: every module with a valid entry in the active route set, in rising ID. -/
def State.sweepBegin (s : State) : State :=
  let set := s.fget F.routeCtl_ACTIVE 0
  let ms := (s.link.routes.filter fun r => r.1 / 65536 = set && bitAt r.2 31).map fun r => r.1 % 65536
  let s := (s.fset F.sweepStat_RUNNING 0 1).fset F.sweepStat_VISITED 0 0 |>.fset F.sweepStat_RESULT 0 0
  { s with link := { s.link with sweep := some { todo := ms, asked := [], differ := none } } }.sweepFill

/-- A break reaches the origin of a running sweep (R389). -/
def State.sweepBreak (s : State) : State :=
  if s.link.sweep.isNone then s
  else
    let n := s.fget F.sweepStat_RESTARTS 0
    if n < 3 then (s.fset F.sweepStat_RESTARTS 0 (n + 1)).sweepBegin
    else { s with link := { s.link with sweep := none } }.fset F.sweepStat_RUNNING 0 0 |>.fset F.sweepStat_RESULT 0 3

/-! ## A link breaks (R386 to R388) -/

/-- A fault LINK_BROKEN of a step (R387). -/
def State.linkFault (s : State) (ring step port : Nat) : State :=
  s.confirm { FaultRec.blank 0xB with part := partOfRing ring, ring := ring, step := step, port := port }

/-- A SIGNAL of the re-shard engine is lost: the job whose semaphores it addresses aborts (R349). -/
def State.rshLost (s : State) (t : Txn) : State :=
  if t.pkt.srcId ≠ srcIdOf .reshard then s
  else { s with rsh := s.rsh.map fun j => if j.sem = t.pkt.addr && j.abort = 0 then { j with abort := 0x30 } else j }

/-- A link breaks: re-shard jobs with transfers outstanding abort (R349). -/
def State.rshBreak (s : State) : State :=
  let out := s.link.txns.filter fun t => t.pkt.srcId = srcIdOf .reshard
  let hit (j : RshJob) : Bool := out.any fun t => (match t.move with | some i => j.moves.contains i | none => j.sem = t.pkt.addr)
  { s with rsh := s.rsh.map fun j => if hit j && j.abort = 0 then { j with abort := 0x30 } else j }

/-- A BREAK notice takes effect on this module: open steps with an Oncon transaction or a WAIT outstanding are faulted (R387), and re-shard
jobs abort (R349); NO_ROUTE sets PENDING (R388); a running sweep restarts (R389). `port`: the port that broke or by which the notice came. -/
def State.breakHere (s : State) (noRoute : Bool) (port : Nat) : State :=
  let s := if noRoute then s.fset F.routeCtl_PENDING 0 1 else s
  let s := s.sweepBreak.rshBreak
  s.rings.foldl (fun s r => r.2.steps.foldl (fun s o =>
    if (s.link.txns.any fun t => t.ring = some r.1 && t.step = o.step) || (s.waits.any fun w => w.ring = some r.1 && w.step = o.step) then
      s.linkFault r.1 o.step port
    else s) s) s

/-- Send a BREAK notice on every UP port but one (R386 step 4). Its payload holds module, port, flags, epoch. -/
def State.flood (s : State) (module port epoch : Nat) (noRoute : Bool) (except : Option Nat) : State :=
  (List.range 12).foldl (fun s p =>
    if s.portUp p && some p ≠ except then
      let pk := { s.newPacket 8 3 3 (s.fget F.portNbr_MODULE p) 0 0 (toLE 2 module ++ toLE 1 port ++ toLE 1 (one noRoute) ++ toLE 4 epoch) 0 with src := module }
      s.onPort p fun x => { x with out := x.out ++ [{ inp := ownInput, pkt := pk, up := false }] }
    else s) s

/-- A port leaves UP by a break (R386): into `st`, with an ABORT for every request or collective packet of its retry buffer to
its source and for every response to its destination, a LINK_BREAK event, a BREAK notice, and the faults of R387. -/
def State.breakPort (s : State) (p st reason : Nat) : State :=
  let left := s.portState p
  let retry := (s.port p).retry
  let s := s.setPortState p st
  let s := if reason = 0 then s else s.fset F.portStat_FI_REASON p reason
  let s := (s.onPort p fun x => { x with retry := [], cause := if st = 5 then ownCause x reason else x.cause }).sendControl p
  let s := retry.foldl (fun (s : State) t =>
    let k := t.pkt
    if k.cls = 3 ∨ k.type = 7 then s.fadd F.hopDrop_COUNT 0 1
    else
      let dst := if k.cls = 2 then k.dst else k.src
      s.route { s.newPacket 7 2 0 dst 0 0 [] 0 with txn := k.txn, srcId := k.srcId }) s
  let nbr := s.regWord R.portNbr p
  let s := s.event 6 [p, nbr, left, s.fget F.portStat_FI_REASON p]
  let s := s.almanac 7 [p, 0xFF, 6]
  let lost := s.routeLost
  let e := s.link.epoch + 1
  let s := { s with link := { s.link with epoch := e, breaks := s.link.breaks ++ [(s.selfId, p, e)] } }
  (s.flood s.selfId p e lost none).breakHere lost p

end Sys2Proof.Machine
end

