-- ==== Sys2Proof/Machine/SafeOps.lean ====
section
/-!
DEFINITION. SafeOps.lean: the two states only a reset leaves: fail-safe (R431) and unready (R429, R430); and how work on
the cores and in the move engine is stopped (R171, Table 12-7).
-/
namespace Sys2Proof.Machine

/-! ## Stopping work -/

/-- Stop a work item on a core: its control processor stops, a WAIT is abandoned, commands that have not started are
discarded (R171). What the units have started goes on, and the work item then ends. -/
def Core.stop (c : Core) : Core :=
  { c with wait := some .ending, qm := [], qv := [], qh := [], qmv := [], qs := [],
           sync := match c.sync with | some d => if d.op = 2 then none else some d | none => none }

/-- Stop the work items of some steps of a ring. `dead`: the steps are cancelled, and the work items no longer count. -/
def State.stopItems (s : State) (ring : Nat) (steps : List Nat) (dead : Bool) : State :=
  let mine (w : WorkItem) : Bool := w.ring = some ring && steps.contains w.step && !w.dead
  let stop (c : Core) : Core :=
    let c := { c with queue := c.queue.filter fun w => !mine w }
    match c.wi with
    | some w => if mine w then { c.stop with wi := some { w with dead := dead } } else c
    | none => c
  let of (x : SemWait) : Bool := x.ring = some ring && steps.contains x.step
  let begun (m : Move) : Bool := !(m.ring = some ring && steps.contains m.step) || (m.st ≠ .staging && m.st ≠ .drill)
  { s with cores := s.cores.map (fun (x : Nat × Core) => (x.1, stop x.2)), waits := s.waits.filter (fun x => !of x), moves := s.moves.filter begun }.endReleases

/-- Does work of a step remain anywhere: work items, moves, contributions, messages, transactions, staged elements. -/
def State.stepBusy (s : State) (ring step : Nat) : Bool :=
  let of (r : Option Nat) (k : Nat) : Bool := r = some ring && k = step
  let msg (m : Msg) : Bool := of m.ring m.step || m.comb.any fun x => of x.con.ring x.con.step
  (s.cores.any fun x => (x.2.vqMesh ++ x.2.vqGran).any msg || (match x.2.wi with
      | some w => of w.ring w.step && !w.dead
      | none => false) || x.2.queue.any fun w => of w.ring w.step) ||
  s.moves.any (fun m => of m.ring m.step) || s.contribs.any (fun c => of c.ring c.step) || s.mdq.any (fun b => msg b.msg) ||
  s.link.txns.any (fun t => of t.ring t.step)

/-! ## Fail-safe (R431) -/

/-- Drop every step and every command of every core without a record: open steps are abandoned (R431). -/
def State.abandon (s : State) : State :=
  let clear (c : Core) : Core := { c with queue := [], wi := none, wait := none, sync := none, qm := [], qv := [], qh := [], qmv := [], qs := [], shadow := none, active := none, hul := [], verify := [] }
  let s := { s with cores := s.cores.map (fun (x : Nat × Core) => (x.1, clear x.2)), moves := [], waits := [], contribs := [], det := [], errQ := [], faultQ := [], wrote := [] }.endReleases
  s.rings.foldl (fun (s : State) (x : Nat × Ring) =>
    (s.setRing x.1 { x.2 with steps := [], hold := none, replay := none, discard := [], next := none, fetched := none, late := none }).ringState x.1) s

/-- Enter the fail-safe state: every port sends FAULT_IDLE with reason FAILSAFE, the host function reports Device Fault, ALERT#
and INT_STATUS.FAILSAFE are set, open steps are abandoned, a FAILSAFE event is sent. Body: the cause (0x20 a control
structure, 0x21 the seed image, 0x22 a sensor) and what it concerns. -/
def State.failSafe (s : State) (cause what : Nat) : State :=
  if s.isFailsafe then s
  else
    let s := ((s.fset F.intStatus_FAILSAFE 0 1).fset F.bringStatus_STATE 0 5).fset F.seedStat_CONFIRMABLE 0 0
    let s := (s.allFaultIdle 1).abandon.fset F.alertStatus_FAILSAFE 0 1
    (s.event 3 [cause, what]).refreshHif

/-- A CHECK mismatch on a structure the module keeps for itself (R431): fault record CTRL_CHECK, and fail-safe. `addr`: its
local address; `tag`: bits [31:0] of the TAG it holds, 0 for none. -/
def State.ctrlFail (s : State) (addr tag : Nat) : State :=
  if s.isFailsafe then s
  else (s.faultRecord { FaultRec.blank 0x20 with outcome := 6, addr := s.glob addr, tag := tag % 2 ^ 32 }).failSafe 0x20 addr

/-- A word of the Reeve store reads uncorrectably (R248): a control-structure check failure. The store has no module-local address, so the
record names none. -/
def State.storeFail (s : State) : State :=
  if s.isFailsafe then s
  else (s.faultRecord { FaultRec.blank 0x20 with outcome := 6 }).failSafe 0x20 0

/-- Read context k: fail-safe if its CHECK fails (R317). -/
def State.ctxVerify (s : State) (k : Nat) : State := if !s.strmOn || s.ctxIntact k then s else s.ctrlFail (ctxAddr k) (s.ctx k).tag

/-- Read model descriptor i: fail-safe if its CHECK fails (R431). -/
def State.mdlVerify (s : State) (i : Nat) : State := if s.mdlIntact i then s else s.ctrlFail (mdlAddr i) (s.mdl i).tag

/-! ## Holds of re-shard jobs (R343, R351) -/

/-- Take holds in list order while the next stream is free (step 3 of Table 10-14); with every hold taken the copies are
made (step 4). `fuel` counts the entries left. -/
def State.rshHolds (s : State) (p : Nat) : Nat → State
  | 0 => s
  | fuel + 1 =>
    match s.rshOf p with
    | none => s
    | some j =>
      if j.st ≠ .holding then s else
      match j.entries[j.held]? with
      | some e =>
        let s := s.ctxVerify e.1
        let c := s.ctx e.1
        if s.isFailsafe || c.holdBy then s
        else ((s.setCtx e.1 { c with holdJob := true }).onRsh p fun j => { j with held := j.held + 1 }).rshHolds p fuel
      | none =>
        let s := (s.onRsh p fun j => { j with st := .moving }).fset F.rshStatus_CODE p 0x11
        j.plan.foldl (fun (s : State) c => s.rshStream p c) s

/-- A step's hold on a stream has been released: a job that waits for it goes on (R343, R351). -/
def State.rshWake (s : State) : State :=
  (s.rsh.filter fun j => j.st = .holding).foldl (fun (s : State) j => s.rshHolds j.part (j.entries.length + 1)) s

end Sys2Proof.Machine
end

