-- ==== Sys2Proof/Machine/RingOps.lean ====
section
/-!
DEFINITION. RingOps.lean: completion records (R141, R170, R632), cancelling steps and halting a ring (R171, R172), the commit
of a step (R146, R329, R331, R417), unready (R429).
-/
namespace Sys2Proof.Machine

/-! ## Sizes and places -/

/-- Entries of a submission ring, records of a completion ring (Table 5-3). -/
def State.ringSize (s : State) (r : Nat) : Nat := 2 ^ s.fget F.ringCfg_RING_LOG2 r
def State.cplSize (s : State) (r : Nat) : Nat := 2 ^ s.fget F.ringCfg_CPL_LOG2 r

/-- Function that owns a ring's partition (R594). -/
def State.ringFn (s : State) (r : Nat) : Nat := ((s.partOf (partOfRing r)).map Part.owner).getD 0

/-- Is the owning function of a ring in D3hot or stopped (R601, R602). -/
def State.ringQuiet (s : State) (r : Nat) : Bool :=
  s.host.d3.contains (s.ringFn r) || s.host.off.contains (s.ringFn r)

/-- Scratchpad offset of a ring's start, when it lies in the Granary. -/
def State.ringOff (s : State) (r : Nat) : Option Nat :=
  if s.flag F.ringBase_LOC r then some (s.fget F.ringBase_ADDR r % 0x40000 * 4096) else none
def State.cplOff (s : State) (r : Nat) : Option Nat :=
  if s.flag F.cplBase_LOC r then some (s.fget F.cplBase_ADDR r % 0x40000 * 4096) else none

/-! ## Completion records -/

/-- The 16 bytes of a completion record (Table 5-22). -/
def CplRec.bytes (c : CplRec) (phase : Bool) : List Byte :=
  toLE 4 c.step ++ toLE 2 c.status ++ toLE 1 c.type ++ toLE 1 (one c.warn + 2 * one phase + 4 * one c.irq) ++ toLE 4 c.entry ++
  toLE 2 c.core ++ toLE 2 c.detail

/-- Records in a completion ring that the runtime has yet to consume. -/
def State.cplUsed (s : State) (r : Nat) : Nat :=
  let m := 2 * s.cplSize r
  (s.fget F.cplTail_TAIL r + m - s.fget F.cplHead_HEAD r % m) % m

/-- Status that tells why a completion record cannot be written (R632): 0 when it can. -/
def State.cplBlocked (s : State) (r : Nat) : Nat :=
  match s.cplOff r with
  | some o => if s.spHas (partOfRing r) o (s.cplSize r * 16) then 0 else 0x0A02
  | none => if s.host.link then 0 else 0x0B08

/-- Write a completion record at CPL_TAIL and raise the ring's vector if it asks for it (R138, R170). -/
def State.putCpl (s : State) (r : Nat) (c : CplRec) : State :=
  let n := s.cplSize r
  let t := s.fget F.cplTail_TAIL r
  let b := c.bytes (decide (t < n))
  let s := match s.cplOff r with
    | some o => s.spWrite (partOfRing r) (o + t % n * 16) b
    | none => s.emit (.cpl (s.ringFn r) r (t % n) b)
  let s := s.fset F.cplTail_TAIL r ((t + 1) % (2 * n))
  if s.flag F.ringCfg_IRQ r && (c.irq || c.status ≠ 0) then s.raiseVector (s.ringFn r) (s.fget F.ringCfg_VECTOR r) else s

/-- Does a ring hold its records back: it is full (R141), its function is in D3hot (R602). -/
def State.cplWaits (s : State) (r : Nat) : Bool := s.cplSize r ≤ s.cplUsed r || s.ringQuiet r

/-- Write a completion record, or hold it behind what holds the ring's records. One whose turn has come and that cannot be written is lost
(R632): CPL_WRITE_FAIL carries that out. -/
def State.writeCpl (s : State) (r : Nat) (c : CplRec) : State :=
  let x := s.ring r
  if !x.held.isEmpty || s.cplWaits r || s.cplBlocked r ≠ 0 then
    s.setRing r { x with held := x.held ++ [(s.feSeq (partOfRing r), c)], since := if x.held.isEmpty then s.time.elapsed else x.since,
                         lost := if x.held.isEmpty && !s.cplWaits r then some (s.cplBlocked r) else x.lost }
  else s.putCpl r c

/-- Write records held, as far as there is room. None is written once the first has been lost. -/
def State.flushCpl (s : State) (r : Nat) : Nat → State
  | 0 => s
  | n + 1 =>
    match (s.ring r).held with
    | [] => s
    | (_, c) :: t =>
      if s.cplWaits r || (s.ring r).lost.isSome then s
      else if s.cplBlocked r ≠ 0 then s.onRing r fun x => { x with lost := some (s.cplBlocked r) }
      else ((s.onRing r fun x => { x with held := t }).putCpl r c).flushCpl r n

/-! ## Streams of a step (R329 to R331) -/

/-- Change every context a step holds. -/
def State.onHeld (s : State) (ring : Nat) (o : OpenStep) (f : Ctx → Ctx) : State :=
  o.live.foldl (fun (s : State) k =>
    let s := s.ctxVerify k
    let c := s.ctx k
    if s.strmOn && c.heldBy ring o.step then s.setCtx k (f c) else s) s

/-- A cancelled step releases its holds (R330). -/
def State.releaseHolds (s : State) (ring : Nat) (o : OpenStep) : State := s.onHeld ring o Ctx.release

/-- A commit advances the streams the step holds (R329). -/
def Ctx.commit (c : Ctx) (step : Nat) : Ctx :=
  { c with position := (c.position + c.holdAdv) % 2 ^ 32, lastStep := step, steps := min (c.steps + 1) 0xFFFFFFFF }.release

/-! ## Cancelling and halting (R171, R172) -/

/-- Number a COMMIT index has before the COMMIT is read. -/
def noIdx : Nat := 0x20000

/-- Halt a ring (R172). -/
def State.halt (s : State) (r code step : Nat) : State :=
  ((s.fset F.ringState_HALTED r 1).fset F.ringState_ERR_CODE r code).fset F.ringState_ERR_STEP r step

/-- Cancel the open steps `gone` of a ring, without records: work stopped, holds and reservations released, the ring's own
hold dropped. Entries up to the COMMITs not read yet will be discarded (R172). -/
def State.dropSteps (s : State) (r : Nat) (gone : List OpenStep) : State :=
  let ids := gone.map OpenStep.step
  let s := (s.stopItems r ids true).spoilSteps r ids
  let s := { s with det := s.det.filter fun d => !(d.ring = r && ids.contains d.step) }
  let s := gone.foldl (fun (s : State) o => s.releaseHolds r o) s
  let held (h : RingHold) : Bool := match h with
    | .fence _ _ st _ => ids.contains st
    | .wait st _ _ _ _ => ids.contains st
  let unread := (gone.filter fun o => o.commitIdx = noIdx).map OpenStep.step
  let s := s.onRing r fun x =>
    let d := unread.foldl (fun l k => if l.contains k then l else l ++ [k]) x.discard
    { x with steps := x.steps.filter (fun o => !ids.contains o.step), replay := none, fetched := none,
             hold := (match x.hold with | some h => if held h then none else some h | none => none),
             discard := d, next := if d.isEmpty then none else x.next }
  (s.rshWake).ringState r

/-- The entry the record of a step names that no entry of its own ends: its COMMIT, or, before that is read, its first entry (R170). -/
def OpenStep.place (o : OpenStep) : ErrPlace := if o.commitIdx = noIdx then o.head else ⟨2, o.commitIdx, o.commitIrq⟩

/-- The completion record of a step that ends with a status, without a core and without failing work items (R170). -/
def OpenStep.record (o : OpenStep) (status : Nat) : CplRec :=
  { step := o.step, status := status, type := o.place.type, warn := false, irq := o.place.irq, entry := o.place.entry, core := 0xFFFF, detail := 0 }

/-- Write the records that wait for the started work of a cancelled step, once that is complete, or at once (`now`): DETAIL counts its failing
work items, or holds the DCI_SOFT value (R170, R171). -/
def State.flushLate (s : State) (r : Nat) (now : Bool) : State :=
  match (s.ring r).late with
  | none => s
  | some l =>
    let busy := s.cores.any fun x => match x.2.wi with | some w => w.ring = some r && w.step = l.step | none => false
    if busy && !now then s else
    let s := s.onRing r fun x => { x with late := none }
    match l.recs with
    | [] => s
    | c :: t => t.foldl (fun (s : State) c => s.writeCpl r c)
        (s.writeCpl r (if c.status = 0x0305 then c else { c with detail := min 0xFFFF l.count }))

/-- Cancel the open step `step` of a ring and every later one with a status, and halt the ring; their records follow once the work the step had
started is complete (R170 to R172). `at_`: the entry that failed, or whose work item failed; otherwise the record names the step's COMMIT. -/
def State.cancelFrom (s : State) (r step status core soft : Nat) (at_ : Option ErrPlace) : State :=
  match (s.ring r).steps.dropWhile fun o => o.step ≠ step with
  | [] => s
  | o :: later =>
    let s := s.flushLate r true
    let ids := step :: later.map OpenStep.step
    let n := one (core ≠ 0xFFFF) + (s.errQ.filter fun e => e.ring = r && e.step = step && e.item).length
    let s := { s with errQ := s.errQ.filter fun e => !(e.ring = r && ids.contains e.step) }
    let s := s.dropSteps r (o :: later)
    let p := at_.getD o.place
    let c : CplRec := { o.record status with type := p.type, irq := p.irq, entry := p.entry, core := core, detail := soft }
    let l : LateCpl := { step := step, count := n, recs := c :: later.map fun x => x.record 0x0B09 }
    ((s.onRing r fun x => { x with late := some l }).flushLate r false).halt r status step

/-! ## Commit (R146, R329, R417) -/

/-- May the oldest open step of a ring commit (R146). The work of a step that is being closed has stopped: what it staged is dropped (R421). -/
def State.canCommit (s : State) (r : Nat) (o : OpenStep) : Bool :=
  o.commitTaken && o.items = 0 && o.entries = 0 && (o.st = .run || o.st = .closing) && !s.stepBusy r o.step &&
  !(s.faultQ.any fun f => f.ring = r && f.step = o.step) && !(s.errQ.any fun e => e.ring = r && e.step = o.step) &&
  (o.detDone || o.st = .closing || !(s.det.any fun d => d.ring = r && d.step = o.step))

/-- Terminate the contexts a step holds with a status (R331). -/
def State.terminate (s : State) (r : Nat) (o : OpenStep) (status : Nat) : State :=
  let p := partOfRing r
  let n := (o.live.filter fun k => s.strmOn && (s.ctx k).heldBy r o.step).length
  (s.onHeld r o fun c => { c.release with state := 2, termCode := status }).fadd F.terminated_COUNT p n

/-- Commit the oldest open step: with chaff it closes with STATUS CHAFF (R417). -/
def State.commitStep (s : State) (r : Nat) (o : OpenStep) : State :=
  let s := { s with det := s.det.filter (fun d => !(d.ring = r && d.step = o.step)), wrote := s.wrote.filter fun w => !(w.ring = r && w.step = o.step) }
  let s := if o.chaff then (s.terminate r o 0x0C01).fadd F.chaffSteps_COUNT (partOfRing r) 1
    else s.onHeld r o fun c => c.commit o.step
  let s := s.onRing r fun x => { x with steps := x.steps.filter fun y => y.step ≠ o.step }
  let s := s.writeCpl r { step := o.step, status := if o.chaff then 0x0C01 else 0, type := 2, warn := o.warn ≠ 0 && !o.chaff,
                          irq := o.commitIrq, entry := o.commitIdx, core := 0xFFFF, detail := 0 }
  s.rshWake.ringState r

/-! ## Unready (R429, Table 12-11) -/

/-- Cancel every open step of a ring with UNREADY and halt it. -/
def State.unreadyRing (s : State) (r : Nat) : State :=
  let steps := (s.ring r).steps
  let s := (s.flushLate r true).dropSteps r steps
  let s := steps.foldl (fun (s : State) x => s.writeCpl r (x.record 0x0C03)) s
  s.halt r 0x0C03 ((steps.map OpenStep.step).headD 0)

/-- The module declares itself unready. `kind`, `id`: the unit that could not be restored. -/
def State.unready (s : State) (kind id : Nat) (f : FaultRec) : State :=
  if s.isUnready || s.isFailsafe then s
  else
    let s := ((s.fset F.intStatus_UNREADY 0 1).fset F.bringStatus_STATE 0 6).fset F.seedStat_CONFIRMABLE 0 0
    let s := s.allFaultIdle 2
    let s := (List.range 128).foldl (fun (s : State) r => s.unreadyRing r) s
    let s := { s with errQ := [], faultQ := [], subst := [] }
    let s := (s.fset F.alertStatus_UNREADY 0 1).event 2 [kind, id]
    (s.faultRecord { f with cause := 0x21, outcome := 5 }).refreshHif

end Sys2Proof.Machine
end

