-- ==== Sys2Proof/Machine/ThermalOps.lean ====
section
/-!
DEFINITION. ThermalOps.lean: what several chapters share of power, temperature, field resets and wakes: levels (R523 to R525),
the plot cap (R219), bands (R237 to R239), where cores lie (R11 to R13), the reset of a field (R43, Table 14-3), waking (R541).
-/
namespace Sys2Proof.Machine

/-- Change the power state. -/
def State.onPower (s : State) (f : PowerSt → PowerSt) : State := { s with power := f s.power }

/-! ## Levels -/

/-- Voltage (mV), step rate at 60 °C (Mstep/s), body bias (mV) and memory assist of a performance level (Table 16-2). -/
def levelOf (l : Nat) : Nat × Nat × Nat × Bool :=
  match l with
  | 0 => (850, 950, 0, false)
  | 1 => (800, 880, 0, false)
  | 2 => (750, 800, 0, false)
  | 3 => (700, 720, 50, false)
  | 4 => (650, 630, 50, false)
  | 5 => (600, 530, 50, true)
  | 6 => (570, 460, 100, true)
  | _ => (550, 400, 100, true)

/-- The target voltage of the core domains now, in mV: a change moves it 5 mV each µs from the voltage it began from (R525). -/
def State.voltNow (s : State) : Nat :=
  let v := (levelOf (s.fget F.plStat_LEVEL 0)).1
  let d := (s.time.elapsed - s.power.ramp) / 200
  if !s.flag F.plStat_MOVING 0 then s.power.volt
  else if s.power.volt ≤ v then min v (s.power.volt + d) else max v (s.power.volt - d)

/-- Put the level in force that REQ and CEIL give (R524), while the module is in S0 and enters no sleep state (Table 16-8). When
the voltage rises, body bias and memory assist change first; a new target starts from the voltage reached (R525). -/
def State.applyLevel (s : State) : State :=
  let old := s.fget F.plStat_LEVEL 0
  let new := max (s.fget F.plCtl_REQ 0) (s.fget F.plCtl_CEIL 0)
  if new = old || s.sleep ≠ 0 || s.flag F.sleepStat_ENTERING 0 then s
  else
    let (v, _, b, a) := levelOf new
    let now := s.voltNow
    let s := ((s.fset F.plStat_LEVEL 0 new).fset F.plStat_MOVING 0 1).onPower fun p => { p with volt := now, ramp := s.time.elapsed }
    if s.power.volt < v then s.onPower fun p => { p with bias := b, assist := a } else s

/-- A POWER event (Table 17-7): kind 0 CEIL change, 1 phase fallow, 2 crack, 3 budget message missing; plot; detail. -/
def State.powerEvent (s : State) (kind plot detail : Nat) : State := s.event 8 [kind, plot, detail]

/-! ## Huller budget of a plot (R219, R220) -/

/-- Effective huller budget (units of 0.1 mW) and plot cap, from HUL_PLOT_LIMIT and the share in force. -/
def State.hulBudget (s : State) (p : Nat) : State :=
  let limit := s.fget F.hulPlotLimit_LIMIT p * 1000
  let b := match alFind s.power.hulShare p with
    | some x => min limit x
    | none => limit
  (s.fset F.hulPlotStat_BUDGET p (b / 1000)).fset F.hulPlotStat_CAP p (max 6912 (min 55296 (b / 64)))

/-! ## Bands (R237, R238); temperatures are in quarter °C above −40 °C, as CORE_TEMP holds them -/

/-- Encoding of a temperature in °C. -/
def tempOf (c : Nat) : Nat := (c + 40) * 4

/-- Lower edge of a band, in °C (Table 7-9). -/
def bandEdge (b : Nat) : Nat := if b = 0 then 0 else if b = 1 then 60 else if b = 2 then 75 else if b = 3 then 85 else 95

/-- The estimate of layer 0 of a core's vault in µK above −40 °C: diode − k_p × P_p (R237). -/
def State.layer0 (s : State) (n : Nat) : Nat :=
  s.fget F.coreTemp_TEMP n * 250000 - alGet 0 s.power.kp (plotOfCore n) * s.fget F.plotPwr_POWER (plotOfCore n)

/-- The band of an estimate. -/
def bandOf (t : Nat) : Nat :=
  let at_ (b : Nat) : Bool := (bandEdge b + 40) * 1000000 ≤ t
  if at_ 4 then 4 else if at_ 3 then 3 else if at_ 2 then 2 else if at_ 1 then 1 else 0

/-- The band an estimate may fall to from `b`: each edge crossed is 2 °C or more above it (R239). -/
def bandFall (t : Nat) : Nat → Nat
  | 0 => 0
  | b + 1 => if t + 2000000 ≤ (bandEdge (b + 1) + 40) * 1000000 then bandFall t b else b + 1

/-- Highest diode temperature of a field's cores, if one is valid. -/
def State.fieldTemp (s : State) (fid : Nat) : Option Nat :=
  let l := ((List.range 24).map fun i => fid * 24 + i).filter fun n => s.flag F.coreTemp_VALID n
  if l.isEmpty then none else some ((l.map fun n => s.fget F.coreTemp_TEMP n).foldl max 0)

/-- A diode of a field shows `t`: it counts for the rate window under way (R37). -/
def State.windowHot (s : State) (n t : Nat) : State :=
  let f := s.field (fieldOfCore n)
  s.setField (fieldOfCore n) { f with hot := some (max t (f.hot.getD 0)) }

/-- The vaults recalibrate at `t`: pending falls of band take effect (R239), and the next recalibration falls 1 ms later (R30). -/
def State.recalibrate (s : State) (t : Nat) : State :=
  let s := s.power.falls.foldl (fun (s : State) (x : Nat × Nat) => s.fset F.vaultBand_BAND x.1 x.2) s
  s.onPower fun p => { p with falls := [], recal := some (t + 1000000) }

/-! ## Stall timers (R38 to R42, R451) -/

/-- Put a stall bound in force for requests raised from now on (R40). -/
def State.setBound (s : State) (v : Nat) : State :=
  { s.fset F.stallCtl_BOUND_US 0 v with bounds := (s.time.elapsed, v) :: s.bounds }

/-- Suspend the stall timers of what a pause concerns, unless they are. -/
def State.pause (s : State) (p : PauseOf) : State :=
  if s.pauses.any fun x => x.of = p && x.until_.isNone then s
  else { s with pauses := { of := p, from_ := s.time.elapsed, until_ := none } :: s.pauses }

/-- The stall timers of what a pause concerns go on. -/
def State.unpause (s : State) (p : PauseOf) : State :=
  { s with pauses := s.pauses.map fun x => if x.of = p && x.until_.isNone then { x with until_ := some s.time.elapsed } else x }

/-! ## Places of cores (R11 to R13) -/

/-- Grid position of a core in its plot: its field's column and row times 5, plus its physical slot. -/
def State.gridOf (s : State) (n : Nat) : Nat × Nat :=
  let f := fieldOfCore n % 288
  let slot := if alFind s.spare (fieldOfCore n) = some n then 24 else n % 24
  (f % 24 * 5 + slot % 5, f / 24 * 5 + slot / 5)

/-- The active core at a grid position of a plot. -/
def State.coreAt (s : State) (plot x y : Nat) : Option Nat :=
  let f := plot * 288 + y / 5 * 24 + x / 5
  let slot := y % 5 * 5 + x % 5
  if slot = 24 then alFind s.spare f
  else if alFind s.spare f = some (f * 24 + slot) then none else some (f * 24 + slot)

/-- Cores left, right, above and below a core in its plot. -/
def State.neighbours (s : State) (n : Nat) : List Nat :=
  let (x, y) := s.gridOf n
  let p := plotOfCore n
  ((if 0 < x then [s.coreAt p (x - 1) y] else []) ++ (if x < 119 then [s.coreAt p (x + 1) y] else []) ++
   (if 0 < y then [s.coreAt p x (y - 1)] else []) ++ (if y < 59 then [s.coreAt p x (y + 1)] else [])).filterMap id

/-! ## The reset of a field (R43, R268, Table 14-3) -/

/-- A core after its field's reset: registers and commands are gone, scratch contents undefined, the code image to be fetched
again, the epoch one higher. Work items not begun stay queued. -/
def Core.fieldReset (c : Core) : Core :=
  { Core.fresh with queue := c.queue, epoch := (c.epoch + 1) % 65536, scratch := [], undef := c.undef + 1, image := c.image,
                    instrCount := c.instrCount, hold := c.hold, vqMesh := c.vqMesh, vqGran := c.vqGran, nextSeq := c.nextSeq }

/-- Reset a field: the work items in progress on its cores end, and their steps consume chaff; moves, waits and commands of its
cores end. Its rate register shows no full window (R36), and no halt of it goes on. -/
def State.resetField (s : State) (fid : Nat) : State :=
  let cores := (List.range 24).map fun i => fid * 24 + i
  let s := cores.foldl (fun (s : State) n =>
    let c := s.core n
    let s := match c.wi with
      | some w => if w.dead then s else s.onStep w.ring w.step fun o => { o with items := o.items - 1, chaff := true }
      | none => s
    s.setCore n c.fieldReset) s
  let inF (c : Option Nat) : Bool := match c with | some n => cores.contains n | none => false
  let s := { s with moves := s.moves.filter (fun m => !inF m.core), waits := s.waits.filter (fun w => !inF w.core) }.endReleases
  ((s.fset F.fieldRate_VALID fid 0).unpause (.field fid)).setField fid
    { s.field fid with resetting := true, held := true, halted := false, slow := 0, hot := none }

/-! ## Wakes (R540, R541, R543) -/

/-- A wake source acts: from S1 or S2 the module begins its exit; during an entry the wake is held. -/
def State.wakeUp (s : State) : State :=
  if s.flag F.sleepStat_ENTERING 0 then s.onPower fun p => { p with wake := true }
  else if s.sleep = 1 ∨ s.sleep = 2 then s.fset F.sleepStat_EXITING 0 1 else s

/-- A reset of any scope, during an entry, ends it ABANDONED (Table 16-8). -/
def State.endEntry (s : State) : State :=
  if s.power.sleep.isNone then s
  else ((s.fset F.sleepStat_ENTERING 0 0).fset F.sleepStat_RESULT 0 4).onPower fun p => { p with sleep := none, wake := false }

/-- Shed load (step 1 of Table 15-8): plots, seedstore, Oncon and PCIe are off. Work is lost. -/
def State.shedLoad (s : State) : State :=
  let s := s.abandon
  let s := (List.range 12).foldl (fun (s : State) p => s.setPortState p 0) s
  { s.linkDown with power := { s.power with shed := true } }

/-! ## Writing Almanac records (R500, R504, R507) -/

/-- LENGTH of a record's body by kind (Table 15-7), a multiple of 16. -/
def almLen (k : Nat) : Nat := if k = 1 then 64 else if k = 2 then 48 else if k = 0xC then 208 else if k = 0xF0 ∨ k = 0xF1 then 304 else if k = 0xE0 then 32 else 16

/-- Bytes of a record on the flash (Table 15-6). -/
def almSize (k : Nat) : Nat := 32 + almLen k + 16

/-- Append a committed record: a record does not cross a segment (R500). -/
def AlmSt.append (a : AlmSt) (r : AlmRec) : AlmSt :=
  if 65536 < a.used + almSize r.kind then { a with segs := a.segs ++ [[r]], used := 32 + almSize r.kind }
  else match a.segs.reverse with
    | [] => { a with segs := [[r]], used := 32 + almSize r.kind }
    | h :: t => { a with segs := (( h ++ [r]) :: t).reverse, used := a.used + almSize r.kind }

/-- Put a record in its place by SEQ. -/
def almPlace (r : AlmRec) : List AlmRec → List AlmRec
  | [] => [r]
  | h :: t => if h.seq ≤ r.seq then h :: almPlace r t else r :: h :: t

/-- Committed records, in SEQ order (R503). -/
def AlmSt.log (a : AlmSt) : List AlmRec := a.segs.flatten.foldl (fun l r => almPlace r l) []

/-- Keep the Almanac registers (Table 15-10). -/
def State.almRegs (s : State) : State :=
  ((((s.fset F.almStat_QUEUED 0 s.alm.queue.length).fset F.almStat_FREE_SEG 0 (512 - s.alm.segs.length)).fset F.almErases_MAX 0
    ((s.alm.erases + 511) / 512)).fset F.almErases_MIN 0 (s.alm.erases / 512))

/-- Commit a record with the next SEQ (R501). -/
def State.almWrite (s : State) (r : AlmRec) : State :=
  let n := s.fget F.almSeq_SEQ 0 + 1
  ({ s with alm := s.alm.append { r with seq := n } }.fset F.almSeq_SEQ 0 n).almRegs

/-- The flash work of an emergency commit (steps 2 to 5 of Table 15-8): a download or verification is abandoned; up to 7 queued records
are written, map kinds first; a HOLDUP record has the number not written, which ALM_DROPPED counts too. -/
def State.emergencyFlash (s : State) : State :=
  let q := (s.alm.queue.filter fun r => almMapKind r.kind) ++ s.alm.queue.filter fun r => !almMapKind r.kind
  let lost := q.length - 7
  let hold : AlmRec :=
    { kind := 0xB, seq := 0, time := s.time.counter, undisc := s.time.undisc, copied := false, emergency := false, boot := s.alm.boot,
      body := [lost] }
  let s := { s with alm := { s.alm with queue := [] }, seed := { s.seed with upd := none, stage := 0 } }
  let s := (((q.take 7).map fun (r : AlmRec) => { r with emergency := true }) ++ [hold]).foldl (fun (s : State) r => s.almWrite r) s
  s.fadd F.almDropped_COUNT 0 lost

end Sys2Proof.Machine
end

