-- ==== Sys2Proof/Machine/Links.lean ====
section
/-!
DEFINITION. Links.lean: Headland lanes and mesh flits (R354, R355, R395), Oncon port states, training, control flits, retry and
link errors (R358, R363, R368 to R374, R377).
-/
namespace Sys2Proof.Machine

open Host (Outcome)

/-! ## Headland and mesh -/

/-- Place of a lane in the table of a plot's link: outward lanes, then inward ones; 64 to 67 are the spares of a direction. -/
def hlKey (inward : Bool) (lane : Nat) : Nat := lane + 1000 * one inward

/-- The Headland link of a plot. -/
def State.headland (s : State) (plot : Nat) : HlSt := alGet HlSt.fresh s.link.headland plot
/-- Put the Headland link of a plot. -/
def State.setHeadland (s : State) (plot : Nat) (x : HlSt) : State :=
  { s with link := { s.link with headland := alPut s.link.headland plot x } }

/-- A lane of a link. -/
def HlSt.lane (x : HlSt) (k : Nat) : LaneSt := alGet LaneSt.fresh x.lanes k

/-- Flits of a class that the receiving end of a lane can still take: its credits (R353). -/
def LaneSt.credits (l : LaneSt) (cls : Nat) : Nat := Config.hlBuffer cls - (alGet [] l.recv cls).length

/-- A lane has failed and another carries on: the flits held on it come first there, in their order (R354). -/
def HlSt.swap (x : HlSt) (k spare : Nat) : HlSt :=
  let origin := match x.subst.find? fun y => y.2 = k with | some y => y.1 | none => k
  let a := x.lane k
  let b := x.lane spare
  { lanes := alPut (alDel x.lanes k) spare { resends := 0, replay := a.replay ++ b.replay, recv := a.recv ++ b.recv },
    failed := setIns x.failed k, subst := alPut x.subst origin spare }

/-- The lane a packet's flits use now (R353 to R355): its own, or the one that carries on for it. -/
def HlSt.carrier (x : HlSt) (inward : Bool) (f : HlFlit) : Nat :=
  let own := hlKey inward (Config.hlLane f.src f.dst f.cls).val
  alGet own x.subst own

/-- Move a failed Headland lane's traffic to a free spare of its direction, with its record (R354); none without one. -/
def State.laneSwap (s : State) (plot : Nat) (inward : Bool) (lane : Nat) : State × Bool :=
  let fld := if inward then F.hlStat_SPARE_IN else F.hlStat_SPARE_OUT
  let used := s.fget fld plot
  let x := s.headland plot
  match (List.range 4).find? fun i => !bitAt used i && !x.failed.contains (hlKey inward (64 + i)) && lane ≠ 64 + i with
  | some i =>
    (((s.setHeadland plot (x.swap (hlKey inward lane) (hlKey inward (64 + i)))).fset fld plot (used + 2 ^ i)).almanac 3
      [6, plot * 65536 + hlKey inward lane, 64 + i, 0], true)
  | none => (s.setHeadland plot { x with failed := setIns x.failed (hlKey inward lane) }, false)

/-- A Headland lane has failed: without a spare the link goes on with its other lanes and the module is unready (R355). The lowest of them takes
the failed one's flits (DESIGN CHOICE: assumption 178). -/
def State.laneFail (s : State) (plot : Nat) (inward : Bool) (lane : Nat) : State :=
  match s.laneSwap plot inward lane with
  | (s, true) => s
  | (s, false) =>
    let x := s.headland plot
    let s := match (List.range 68).find? fun i => !x.failed.contains (hlKey inward i) && (i < 64 || bitAt (s.fget (if inward then F.hlStat_SPARE_IN else F.hlStat_SPARE_OUT) plot) (i - 64)) with
      | some i => s.setHeadland plot (x.swap (hlKey inward lane) (hlKey inward i))
      | none => s
    let s := (s.fset F.hlStat_UNREPAIRED plot 1).almanac 7 [16 + plot, hlKey inward lane, 8]
    s.unready 6 (plot * 65536 + hlKey inward lane) { FaultRec.blank 0x21 with plot := plot, port := plot }

/-- A lane's receiving end takes a flit: into the receive buffer of its class until its packet is complete (R353). -/
def LaneSt.take (l : LaneSt) (f : HlFlit) : LaneSt :=
  { l with resends := 0, replay := l.replay.drop 1, recv := if f.last then alDel l.recv f.cls else alPut l.recv f.cls (alGet [] l.recv f.cls ++ [f]) }

/-- A flit arrives on the lane of its packet (R353, R354), its bytes as `got`. The oldest flit held comes first; one that comes while another
is held is held behind it, up to 16. On a check mismatch the flit is held and asked for again; one that fails on its eighth resend marks
the lane as failed. -/
def execHeadlandFlitReceive (plot : PlotId) (inward : Bool) (lane : Nat) (flit : HlFlit) (got : List Byte) (s : State) :
    Outcome State Fault Refusal :=
  let p := plot.val
  let x := s.headland p
  let k := hlKey inward lane
  let l := x.lane k
  let put (l : LaneSt) : State := s.setHeadland p { x with lanes := alPut x.lanes k l }
  if 68 ≤ lane || x.failed.contains k || x.carrier inward flit ≠ k then .next s
  else if !l.replay.isEmpty && l.replay.head? ≠ some flit then
    .next (if l.replay.length < 16 && !l.replay.contains flit then put { l with replay := l.replay ++ [flit] } else s)
  else if moduleCheck (sliceB got 0 32) = flit.chk then .next (put (l.take flit))
  else if l.resends < 8 then
    .next ((put { l with resends := l.resends + 1, replay := flit :: l.replay.drop 1 }).fset F.hlStat_RESENDS p
      (min 255 (s.fget F.hlStat_RESENDS p + 1)))
  else .next (s.laneFail p inward lane)

/-- A flit arrives at a field router (R395): on a check mismatch it is asked for again, up to 8 times; one that fails its check after that is
delivered as chaff, to memory or to the work that asked for it, and is a confirmed fault PATH of the step that sent it, charged to the
sending router. -/
def execMeshFlitReceive (fid : FieldId) (flit : MeshFlit) (s : State) : Outcome State Fault Refusal :=
  let k := fid.val * 65536 + flit.from_
  let n := alGet 0 s.link.mesh k
  let put (m : List (Nat × Nat)) : State := { s with link := { s.link with mesh := m } }
  if moduleCheck (sliceB flit.bytes 0 32) = flit.chk then .next (put (alDel s.link.mesh k))
  else if n < 8 then .next (put (alPut s.link.mesh k (n + 1)))
  else
    let f := { FaultRec.blank 7 with plot := flit.from_ / 288, field := flit.from_ % 288, ring := flit.ring.getD 0xFF, step := flit.step,
                                     part := match flit.ring with | some r => partOfRing r | none => 0xFF }
    let s := put (alDel s.link.mesh k)
    let s := match flit.dest with
      | some a => s.wrMarked a ((sliceB flit.bytes 0 32).map fun b => (b, true))
      | none => s.consumeChaff flit.ring flit.step
    .next (s.confirm f)

/-! ## Port controls and training -/

/-- PORT_CTL.ENABLE set to 1: a port that is DOWN trains, or sends FAULT_IDLE for a cause that is present (R358, R373). -/
def execPortEnable (port : PortId) (s : State) : Outcome State Fault Refusal :=
  let s := s.fset F.portCtl_ENABLE port 1
  if s.portState port = 0 then .next (s.startPort port) else .next s

/-- PORT_CTL.RETRAIN: to TRAINING from any state but FI_TX with its cause present (Table 11-15). -/
def execPortRetrain (port : PortId) (s : State) : Outcome State Fault Refusal :=
  if s.portState port = 5 && s.fiCause port ≠ 0 then .next s else .next (s.startPort port)

/-- PORT_CTL.FORCE_FI written: the port sends FAULT_IDLE with reason FIRMWARE, one in FI_TX already going on with its reason; or that cause
is no longer present (R373). -/
def execPortForceFi (port : PortId) (on : Bool) (s : State) : Outcome State Fault Refusal :=
  let s := s.fset F.portCtl_FORCE_FI port (one on)
  .next (if on && s.portState port ≠ 5 then s.faultIdleTx port 4 else s)

/-- The lane a direction substitutes: none bad, one bad active lane, or more than its spare mends. -/
def laneSub (bad : BitVec 9) : Nat × Bool :=
  match (List.range 8).filter fun i => bad.getLsbD i with
  | [] => (0xF, false)
  | [i] => (i, bad.getLsbD 8)
  | i :: _ => (i, true)

/-- The receiver detects a partner's signal. A port in TRAINING measures its lanes: a bad one is replaced by the spare (R358). In FI_TX
the cause LOST is cleared (Table 11-6). `rxBad`, `txBad`: lanes whose symbol error ratio exceeds 10⁻⁵, the spare at bit 8. -/
def execPartnerSignalDetect (port : PortId) (rxBad txBad : BitVec 9) (s : State) : Outcome State Fault Refusal :=
  let s := s.onPort port fun x => { x with signal := true }
  let st := s.portState port
  if st = 1 then
    let (r, rf) := laneSub rxBad
    let (t, tf) := laneSub txBad
    let s := (s.fset F.portStat_RX_SUB port r).fset F.portStat_TX_SUB port t
    .next (s.onPort port fun x => { x with measured := true, twoBad := rf || tf })
  else if st = 5 then .next (s.onPort port fun x => { x with cause := if x.cause = 7 then 0 else x.cause })
  else .next s

/-- Is an Oncon lane of the seed image's spare map (R378). `key`: the lane, with 16 added when received. -/
def State.oncMapped (s : State) (p key : Nat) : Bool := match s.seed.image with | some i => i.oncLanes.contains (p, key) | none => false

/-- Training ends: to HELLO, or DOWN with TRAIN_FAIL where a direction needs two spares (R358). A substitution
that is not in the spare map is recorded (R378). -/
def execTrainingDone (port : PortId) (s : State) : Outcome State Fault Refusal :=
  let p := port.val
  if s.portState p ≠ 1 || !(s.port p).signal || !(s.port p).measured then .next s
  else if (s.port p).twoBad then .next ((s.fset F.portStat_STATE p 0).fset F.portStat_TRAIN_FAIL p 1)
  else
    let r := s.fget F.portStat_RX_SUB p
    let t := s.fget F.portStat_TX_SUB p
    let s := if r = 0xF || s.oncMapped p (16 + r) then s else s.almanac 3 [7, p * 256 + 16 + r, 8, 0]
    let s := if t = 0xF || s.oncMapped p t then s else s.almanac 3 [7, p * 256 + t, 8, 0]
    .next ((s.fset F.portStat_STATE p 2).sendControl p)

/-! ## Control flits -/

/-- A control flit is intact (Table 11-5). -/
def ctlOk (b : List Byte) (ctype : Nat) : Bool :=
  fieldB b 28 4 = (crc32c (sliceB b 0 28)).toNat && fieldB b 0 1 = ctype && bitsOf (fieldB b 2 2) 12 3 = 0

/-- Send again every packet of the retry buffer from its `i`-th on (R368); a packet that would need its ninth resend degrades the port
instead (R370). -/
def State.replayFrom (s : State) (p i : Nat) : State :=
  let x := s.port p
  let l := x.retry.drop i
  if l.any fun t => decide (8 ≤ t.resends) then s.breakPort p 4 3
  else
    let x : PortSt := { x with retry := x.retry.take i ++ l.map fun t => { t with resends := t.resends + 1, last := s.time.elapsed } }
    let s := (s.setPort p x).fadd F.retry_COUNT p l.length
    l.foldl (fun (s : State) t => s.sendPacket p t) s

/-- Give a port turns while it has a packet and credit (R367). -/
def State.portTurns (s : State) (p : Nat) : Nat → State
  | 0 => s
  | n + 1 => (s.portTurn p).portTurns p n

/-- Take the acknowledgement and credits of a control flit: ACK covers every packet up to its SEQ; credits are cumulative. -/
def PortSt.ackWith (x : PortSt) (b : List Byte) : PortSt :=
  let ack := bitsOf (fieldB b 2 2) 0 12
  let keep := match x.retry.findIdx? fun t => t.seq = ack with
    | some i => x.retry.drop (i + 1)
    | none => x.retry
  let ded := (List.range 16).foldl (fun (m : List (Nat × Nat)) k =>
    let d := (fieldB b (4 + k) 1 + 256 - alGet 0 x.dedSeen k % 256) % 256
    if d = 0 then m else alPut m k (alGet 0 m k - d)) x.dedUsed
  let seen := (List.range 16).foldl (fun (m : List (Nat × Nat)) k => alPut m k (fieldB b (4 + k) 1)) x.dedSeen
  let sc := fieldB b 20 2
  { x with retry := keep, dedUsed := ded, dedSeen := seen, shUsed := x.shUsed - (sc + 65536 - x.shSeen % 65536) % 65536, shSeen := sc }

/-- A port that is UP takes a control flit of any type (Table 11-5): acknowledgement, credits, and on a NAK a replay from ACK + 1, once while
the NAK stands with one ACK (R368). -/
def State.takeControl (s : State) (p : Nat) (flit : List Byte) : State :=
  let s := s.onPort p fun x => x.ackWith flit
  let ack := bitsOf (fieldB flit 2 2) 0 12
  if !bitAt (fieldB flit 2 2) 15 then s.onPort p fun x => { x with naked := none }
  else if (s.port p).retry.isEmpty || (s.port p).naked = some ack then s
  else (s.onPort p fun x => { x with naked := some ack }).replayFrom p 0

/-- A HELLO arrives: a port in HELLO records its neighbour and enters UP (R377); one that is UP takes its acknowledgement and credits. -/
def execHello (port : PortId) (flit : List Byte) (s : State) : Outcome State Fault Refusal :=
  if !ctlOk flit 2 then .next s
  else if s.portUp port then .next (s.takeControl port flit)
  else if s.portState port ≠ 2 then .next s
  else
    let h := fieldB flit 22 6
    let s := (((s.fset F.portNbr_TOPO_ID port (bitsOf h 20 28)).fset F.portNbr_VALID port 1).fset F.portNbr_PORT port (bitsOf h 16 4)).fset
      F.portNbr_MODULE port (bitsOf h 0 16)
    .next ((s.sendControl port).fset F.portStat_STATE port 3)

/-- An IDLE flit arrives at a port that is UP: acknowledgement, credits, and on NAK a replay (R363, R368); the port then sends what it has
credit for. `fixed`: symbols the FEC has corrected since the last one (Table 11-15). -/
def execIdle (port : PortId) (flit : List Byte) (fixed : Nat) (s : State) : Outcome State Fault Refusal :=
  let p := port.val
  let s := s.fadd F.fecCorr_COUNT p fixed
  if !s.portUp p || !ctlOk flit 1 then .next s
  else
    let s := s.takeControl p flit
    .next (s.portTurns p ((s.port p).out.length + 1))

/-- A FAULT_IDLE arrives at a port that is UP: acknowledgement, then FI_RX, and the link is broken (R374, R386). -/
def execFaultIdle (port : PortId) (flit : List Byte) (s : State) : Outcome State Fault Refusal :=
  if s.portUp port && ctlOk flit 5 then .next ((s.onPort port fun x => x.ackWith flit).breakPort port 6 (fieldB flit 1 1)) else .next s

/-- A port's receiver loses lock: while UP it enters FI_TX with reason LOST (R372, R373). -/
def execLossOfLock (port : PortId) (s : State) : Outcome State Fault Refusal :=
  let s := s.onPort port fun x => { x with signal := false }
  if s.portUp port then .next (s.breakPort port 5 7) else .next s

/-! ## Errors and retries -/

/-- 4 µs have passed since the last sending of an unacknowledged packet: replay from it (R369). -/
def execRetryTimeout (port : PortId) (s : State) : Outcome State Fault Refusal :=
  let p := port.val
  if !s.portUp p then .next s else
  match (s.port p).retry.findIdx? fun t => decide (t.last + 4000 ≤ s.time.elapsed) with
  | some i => .next (s.replayFrom p i)
  | none => .next s

/-- Ask for a replay of what follows the last good packet (R368); while a NAK stands, later packets are discarded without another. -/
def State.sendNak (s : State) (p : Nat) : State :=
  if (s.port p).nak then s else (s.onPort p fun x => { x with nak := true }).sendControl p

/-- An uncorrectable FEC codeword at a port (R371): counted; more than 16 within 10 s set MARGINAL, with an event and a LINK record (R561). A packet lying in it is asked for
again (R368). -/
def execFecUncorrectable (port : PortId) (s : State) : Outcome State Fault Refusal :=
  let p := port.val
  let now := s.time.elapsed
  let s := s.fadd F.fecUncorr_COUNT p 1
  let l := ((s.port p).fec.filter fun t => decide (now < t + 10000000000)) ++ [now]
  let s := s.onPort p fun x => { x with fec := l }
  let s := if 16 < l.length && !s.flag F.portStat_MARGINAL p then
      ((s.fset F.portStat_MARGINAL p 1).event 7 [p, s.fget F.fecUncorr_COUNT p, s.fget F.fecCorr_COUNT p]).almanac 7 [p, 0xFF, 7]
    else s
  .next (if s.portUp p then s.sendNak p else s)

end Sys2Proof.Machine
end

