-- ==== Sys2Proof/Machine/Replay.lean ====
section
/-!
DEFINITION. Replay.lean: confirmed faults, step replay, permanent units and the substitution of a core (R387, R388, R394, R419
to R429, R45).
-/
namespace Sys2Proof.Machine

open Host (Outcome)

/-! ## Units faults are charged to (Table 12-1, R427) -/

/-- The unit a confirmed fault is charged to: a core's logical number, or one of the numbers above; none for causes that count for
no compute unit (R427). A block check is charged to the receiving write port, which the fault names. -/
def FaultRec.unit (f : FaultRec) : Option Nat :=
  if f.cause = 0xA ∨ f.cause = 0xB ∨ f.cause = 0x10 ∨ f.cause = 0x11 then none
  else if f.cause = 9 then some unitGranary
  else if f.cause = 6 then f.charge
  else if f.core ≠ 0xFFFF then some f.core
  else if f.field ≠ 0xFFFF then some (unitField (f.plot * 288 + f.field))
  else some unitFrontEnd

/-- 30 days in nanoseconds. -/
def days30 : Nat := 2592000000000000

/-- A fault counts in the history of its unit (R427). -/
def State.noteFault (s : State) (u : Nat) : State :=
  let now := s.time.counter
  { s with history := (s.history.filter fun h => decide (now - h.2 ≤ days30)) ++ [(u, now)] }

/-- Confirmed faults of a unit within 30 days. -/
def State.faultsOf (s : State) (u : Nat) : Nat :=
  (s.history.filter fun h => decide (h.1 = u ∧ s.time.counter - h.2 ≤ days30)).length

/-- What charging a fault leads to: class of the record (Table 12-14) and whether the module becomes unready. -/
structure Charge where
  cls : Nat
  subst : Bool
  unready : Bool
  deriving DecidableEq, Repr

/-- Make a core permanent: it waits for its field's spare; with the spare in use the module becomes unready (R428). -/
def State.makePermanent (s : State) (n cause : Nat) : State × Charge :=
  let fid := fieldOfCore n
  if (alFind s.subst n).isSome then (s, ⟨2, true, false⟩)
  else
    let s := s.almanac 5 [1, n, 1]
    if (alFind s.spare fid).isSome || s.subst.any fun x => fieldOfCore x.1 = fid then (s, ⟨1, false, true⟩)
    else ({ s with subst := alPut s.subst n cause }.setField fid { s.field fid with held := true }, ⟨1, true, false⟩)

/-- Charge a confirmed fault to its unit (R427). `again`: it recurs at a unit an earlier replay of the step was charged to. A unit without a
spare has no unit kind in R503: its CLASS record carries kind 0. -/
def State.charge (s : State) (f : FaultRec) (again : Nat → Bool) : State × Charge :=
  match f.unit with
  | none => (s, ⟨0, false, false⟩)
  | some u =>
    let s := s.noteFault u
    if again u || 3 ≤ s.faultsOf u then
      if u < 27648 then s.makePermanent u f.cause else (s.almanac 5 [0, u, 1], ⟨1, false, true⟩)
    else (s, ⟨0, false, false⟩)

/-! ## A confirmed fault (steps 1 and 2 of Table 12-7, R421, R424, Table 12-8) -/

/-- Stop the open steps of a ring from `step` on, for a replay. -/
def State.stopFrom (s : State) (r step : Nat) : State :=
  let ids := ((s.ring r).steps.dropWhile fun o => o.step ≠ step).map OpenStep.step
  let s := s.stopItems r ids false
  let s := { s with errQ := s.errQ.filter fun e => !(e.ring = r && ids.contains e.step) }
  let mine (h : RingHold) : Bool := match h with
    | .fence _ _ st _ => ids.contains st
    | .wait st _ _ _ _ => ids.contains st
  (s.onRing r fun x =>
    { x with steps := x.steps.map (fun o => if ids.contains o.step && o.st ≠ .stopped true then { o with st := .stopped false } else o),
             hold := (match x.hold with | some h => if mine h then none else some h | none => none) }).ringState r

/-- Set every semaphore of a step's ledger to the poison value (R421 step 1). -/
def State.poisonLedger (s : State) (r : Nat) (o : OpenStep) : State :=
  o.ledger.foldl (fun (s : State) e =>
    if e.addr / 0x10000000000 = s.selfId then s.signalLocal (localOf e.addr) true poison false
    else s.signalRemote (.frontEnd (partOfRing r)) none (some r) o.step e.addr true poison false) s

/-- Close an exported step with CHAFF (R421): its semaphores are poisoned, it stops with every later one, and consumes chaff. -/
def State.closeExported (s : State) (r : Nat) (o : OpenStep) : State :=
  let s := s.poisonLedger r o
  let s := s.stopFrom r o.step
  let fe := (s.moves.filter fun m => m.core.isNone && m.ring = some r && m.step = o.step).length
  s.onStep (some r) o.step fun x => { x with st := .closing, chaff := true, entries := fe }

/-- The bound of R424. -/
def State.replayMax (s : State) : Nat :=
  let m := s.fget F.intCtl_REPLAY_MAX 0
  if m = 0 ∨ 8 < m then 4 else m

/-- A confirmed fault reaches the front end of its step's partition (R394, R421 to R427, Table 12-8). -/
def execFaultConfirmed (s : State) : Outcome State Fault Refusal :=
  match s.faultQ with
  | [] => .next s
  | f :: rest =>
    let s := { s with faultQ := rest }
    match (s.ring f.ring).openStep f.step with
    | none =>
      let (s, c) := s.charge f fun _ => false
      let f := { f with outcome := 7, cls := c.cls }
      let s := s.faultRecord f
      .next (if c.unready then s.unready (if f.core = 0xFFFF then 0 else 1) (f.unit.getD 0) f else s)
    | some o =>
      let f := { f with replay := o.replays }
      let running := o.st = .run
      let (s, c) := s.charge f fun u => running && o.charged.contains u
      let s := s.onStep (some f.ring) f.step fun x =>
        { x with charged := (match f.unit with | some u => x.charged ++ [u] | none => x.charged), broken := x.broken || f.cause = 0xB }
      let f := { f with cls := c.cls }
      if c.unready then
        let s := s.faultRecord { f with outcome := 5 }
        .next (s.unready (if f.core = 0xFFFF then 0 else 1) (f.unit.getD 0) f)
      else if o.st = .closing then .next (s.faultRecord { f with outcome := 4 })
      else if !running then .next (s.faultRecord { f with outcome := if c.subst then 2 else 1 })
      else if o.exported && f.cause ≠ 0xB then .next ((s.faultRecord { f with outcome := 4 }).closeExported f.ring o)
      else if s.replayMax ≤ o.replays then
        let s := (s.faultRecord { f with outcome := 3 }).fadd F.limits_COUNT (partOfRing f.ring) 1
        .next (s.cancelFrom f.ring f.step 0x0C02 (if f.core = 0xFFFF then 0xFFFF else f.core) 0 none)
      else
        let s := s.faultRecord { f with outcome := if c.subst then 2 else 1 }
        let s := s.onStep (some f.ring) f.step fun x => { x with replays := x.replays + 1 }
        .next (s.stopFrom f.ring f.step)

/-! ## Quiet and restored (steps 3 to 6 of Table 12-7) -/

/-- Is an open step stopped. -/
def OpenStep.isStopped (o : OpenStep) : Bool := match o.st with | .stopped _ => true | _ => false

/-- Every transaction of the ring's stopped steps has ended, and a link fault has its routes again (step 3 of Table 12-7). -/
def execReplayQuiesced (ring : RingId) (s : State) : Outcome State Fault Refusal :=
  let r := ring.val
  let l := (s.ring r).steps.filter OpenStep.isStopped
  if l.any (fun o => s.stepBusy r o.step) || (l.any OpenStep.broken && s.flag F.routeCtl_PENDING 0) then .next s
  else .next (s.onRing r fun x => { x with steps := x.steps.map fun o => if o.isStopped then { o with st := .stopped true } else o })

/-- Restore the semaphores of this module a step has signalled, and send to those of other modules the two's complement of its ADDs
(Table 12-6). -/
def State.undoLedger (s : State) (r : Nat) (o : OpenStep) : State :=
  let here (e : LedgerEnt) : Bool := e.addr / 0x10000000000 = s.selfId
  let s1 := (o.ledger.filter here).reverse.foldl (fun (s : State) e => s.signalLocal (localOf e.addr) true e.before false) s
  let far := o.ledger.filter fun e => !here e && !e.set
  let sums := far.foldl (fun (m : List (Nat × Nat)) e => alPut m e.addr (alGet 0 m e.addr + e.value)) []
  let s2 := sums.foldl (fun (s : State) (x : Nat × Nat) =>
    s.signalRemote (.frontEnd (partOfRing r)) none (some r) o.step x.1 false ((2 ^ 64 - x.2 % 2 ^ 64) % 2 ^ 64) false) s1
  s2.onStep (some r) o.step fun x => { x with ledger := [] }

/-- A stopped step begins again. -/
def OpenStep.again (o : OpenStep) : OpenStep :=
  { o with st := .run, broken := false, chaff := false, warn := 0, items := 0, entries := 0, commitTaken := false, retaken := 0,
           detDone := false, placed := [] }

/-- The restorations of Table 12-6 are made, remote ones acknowledged; a permanent core has its spare; a link fault has its routes (R388); the ring's stopped steps are
taken again from their first entries (steps 4 to 6 of Table 12-7). -/
def execReplayRestored (ring : RingId) (s : State) : Outcome State Fault Refusal :=
  let r := ring.val
  let l := (s.ring r).steps.filter OpenStep.isStopped
  if l.isEmpty || l.any (fun o => o.st ≠ .stopped true) || (s.ring r).steps.any (fun o => o.st = .closing) ||
      s.subst.any (fun x => s.partOfCore x.1 = some (partOfRing r)) || (l.any OpenStep.broken && s.flag F.routeCtl_PENDING 0) then .next s
  else
    let s := l.reverse.foldl (fun (s : State) o => s.undoLedger r o) s
    if l.any fun o => s.stepBusy r o.step then .next s
    else
      let ids := l.map OpenStep.step
      let s := { s with det := s.det.filter fun d => !(d.ring = r && ids.contains d.step) }
      let s := s.fadd F.replays_COUNT (partOfRing r) l.length
      let start := match l with | o :: _ => o.head.entry | [] => 0
      .next ((s.onRing r fun x =>
        let before := x.steps.filter fun o => !o.isStopped
        { x with steps := x.steps.map (fun o => if o.isStopped then o.again else o), fetched := none,
                 replay := if before.any (fun o => !o.commitTaken) then x.replay else some start }).ringState r)

/-! ## Substitution of a core (Table 12-10) -/

/-- The core stands on a spare position, which carries its own diode (R536): nothing of the broken one goes on (R240, R242). -/
def State.ownDiode (s : State) (n : Nat) : State :=
  ((((s.fset F.coreTemp_VALID n 0).fset F.coreTemp_SUBST n 0).fset F.coreTemp_THROTTLED n 0).fset F.vaultBand_DIODE_FAIL n 0).onPower fun p =>
    { p with broken := setDel p.broken n, throttle := alDel p.throttle n }

/-- The copy to the spare's vault position is done: the map changes, the field is reset, the Almanac is written. -/
def execCoreSubstitutionDone (core : CoreId) (s : State) : Outcome State Fault Refusal :=
  let n := core.val
  match alFind s.subst n with
  | none => .next s
  | some cause =>
    let fid := fieldOfCore n
    let s := { s with subst := alDel s.subst n, spare := alPut s.spare fid n }
    let s := (s.onCore n fun c => { c with epoch := (c.epoch + 1) % 65536, hold := false }).ownDiode n
    let s := s.resetField fid
    let s := s.fset F.intStatus_SPARES_FREE 0 (s.fget F.intStatus_SPARES_FREE 0 - 1)
    .next (s.almanac 3 [1, n, fid, cause])

end Sys2Proof.Machine
end

