-- ==== Sys2Proof/Machine/Reshard.lean ====
section
/-!
DEFINITION. Reshard.lean: the re-shard engine (R340 to R351).
-/
namespace Sys2Proof.Machine

open Host (Outcome)

/-- A job gets a place: it takes its holds, and copies when it has them all (Table 10-14). -/
def State.rshPlace (s : State) (p : Nat) : State :=
  let n := match s.rshOf p with | some j => j.entries.length | none => 0
  ((s.onRsh p fun j => { j with st := .holding }).fset F.rshStatus_CODE p 0x10).rshHolds p (n + 1)

/-- Does a reset of the engine refuse new work (R480). -/
def State.rshBlocked (s : State) : Bool := match s.blk with | some b => b.kind = 5 | none => false

/-- Stream contexts and model descriptors a job record names. -/
def State.rshNamed (s : State) (p : Nat) : List Nat × List Nat :=
  let off := s.fget F.rshJob_OFFSET p * 64
  match s.spRead p off 64 with
  | none => ([], [])
  | some h =>
    let eb := (s.spRead p (off + 64) (8 * fieldB h 8 4)).getD []
    ((List.range (eb.length / 8)).map fun i => fieldB eb (8 * i) 4, [fieldB h 2 2, fieldB h 4 2].filter (· < 4096))

/-- The descriptors and contexts that the engine reads at START have good CHECKs, or the module goes fail-safe (R317, R431). -/
def State.rshVerify (s : State) (p : Nat) : State :=
  match s.rshCheck p with
  | .code 0x20 => s
  | _ =>
    let (ks, ms) := s.rshNamed p
    ks.foldl State.ctxVerify (ms.foldl State.mdlVerify s)

/-- RSH_CMD START (R340, R342): ignored with ERR while a job of the partition runs. -/
def execRshStart (p : PartId) (s : State) : Outcome State Fault Refusal :=
  let p := p.val
  if s.rshBlocked then .next s
  else if s.flag F.rshStatus_RUNNING p then .next (s.fset F.rshStatus_ERR p 1)
  else
    let s := (s.fset F.rshStatus_DONE p 0).rshVerify p
    if s.isFailsafe then .next s else
    match s.rshCheck p with
    | .code n => .next (s.fset F.rshStatus_CODE p n)
    | .ok j =>
      let full := 4 ≤ s.rshPlaced || s.rsh.any fun x => x.st = .queued
      let s := ({ s with rsh := s.rsh ++ [j] }.fset F.rshStatus_RUNNING p 1).fset F.rshStatus_CODE p 0x0F
      .next (if full then s else s.rshPlace p)

/-- The first job that waits for one of the four places gets it (R340). -/
def execRshJobPlace (s : State) : Outcome State Fault Refusal :=
  match s.rsh.find? fun j => j.st = .queued with
  | some j => if s.rshPlaced < 4 && !s.rshBlocked then .next (s.rshPlace j.part) else .next s
  | none => .next s

/-- Release the holds a job has taken. -/
def State.rshRelease (s : State) (j : RshJob) : State :=
  (j.entries.take j.held).foldl (fun (s : State) e =>
    let s := s.ctxVerify e.1
    s.setCtx e.1 { s.ctx e.1 with holdJob := false }) s

/-- What an abort leaves undefined (R349): the target places on this module and the target FILL values. -/
def State.rshUndefined (s : State) (j : RshJob) : State :=
  let s := { s with undefs := s.undefs + 1 }
  let s := j.places.foldl (fun (s : State) c => { s with mem := memSetN s.mem c.1 (s.undefBytes c.1 c.2) }) s
  j.openFills.foldl (fun (s : State) o => match s.spAddr j.part o with
    | some a => { s with mem := memSetN s.mem a (s.undefBytes a 4) }
    | none => s) s

/-- An abort whose writes are all performed or failed (R349): the peers' semaphores are poisoned, the holds released; target places and
FILL values are undefined. -/
def State.rshAbortNow (s : State) (p code : Nat) : State :=
  match s.rshOf p with
  | none => s
  | some j =>
    let peers := (j.peers.filter fun m => m ≠ s.selfId && s.reachable m).foldl setIns []
    let s := peers.foldl (fun (s : State) m =>
      s.signalRemote .reshard none none 0 (m * 0x10000000000 + j.sem) true poison false) s
    if s.isFailsafe then s else ((s.rshRelease j).rshEnd p code).rshUndefined j

/-- Copies of a job not complete. -/
def State.rshOpen (s : State) (j : RshJob) : Bool :=
  j.moves.any fun id => s.moves.any fun m => m.id = id && (0 < m.msgs || 0 < m.waits)

/-- Abort a job with a code, once the writes it has issued are performed or failed. -/
def State.rshAbortWith (s : State) (p code : Nat) : State :=
  match s.rshOf p with
  | none => s
  | some j => if s.rshOpen j then s.onRsh p fun x => { x with abort := code } else s.rshAbortNow p code

/-- RSH_CMD ABORT (R349). -/
def execRshAbort (p : PartId) (s : State) : Outcome State Fault Refusal := .next (s.rshAbortWith p 0x33)

/-- Copies of a job complete: DONE counts their streams; with every copy complete each module of the job is signalled (step 5 of
Table 10-14), or the job aborts. `mismatch`: how often running the Granary's arithmetic units disagreed on the signal to this module, the second
time leaving the semaphore unchanged (R397). -/
def execRshMoveDone (p : PartId) (mismatch : Nat) (s : State) : Outcome State Fault Refusal :=
  let p := p.val
  match s.rshOf p with
  | none => .next s
  | some j =>
    if j.st ≠ .moving then .next s else
    let fin (id : Nat) : Bool := match s.moves.find? fun m => m.id = id with
      | some m => m.msgs = 0 && m.waits = 0
      | none => true
    let ended := j.moves.filter fin
    let failed := s.moves.any fun m => ended.contains m.id && m.err ≠ 0
    let rest := j.moves.filter fun id => !fin id
    let code := if j.abort ≠ 0 then j.abort else if failed then 0x30 else 0
    let s := { s with moves := s.moves.filter fun m => !ended.contains m.id }.fadd F.rshStatus_DONE p
      (ended.filter fun id => s.moves.any fun m => m.id = id && m.err = 0).length
    let s := s.onRsh p fun x => { x with moves := rest, abort := code }
    if !rest.isEmpty then .next s
    else if code ≠ 0 then .next (s.rshAbortNow p code)
    else
      let s := j.peers.foldl (fun (s : State) m =>
        if m = s.selfId then
          (if 2 ≤ mismatch then s.confirm (granaryFault p none 0 (s.glob j.sem)) else s.signalLocal j.sem false 1 false)
        else s.signalRemote .reshard none none 0 (m * 0x10000000000 + j.sem) false 1 false) s
      .next ((s.onRsh p fun x => { x with st := .waiting, since := s.time.elapsed }).fset F.rshStatus_CODE p 0x12)

/-- Step 7: contexts, stream counts and FILL values change, holds are released. -/
def State.rshFinish (s : State) (j : RshJob) : State :=
  let s := j.entries.foldl (fun (s : State) e =>
    let s := ((s.ctxVerify e.1).mdlVerify j.src).mdlVerify j.dst
    if s.isFailsafe then s
    else ((s.setCtx e.1 { s.ctx e.1 with model := j.dst, kvSlot := e.2, holdJob := false }).mdlDown j.src).mdlUp j.dst) s
  if s.isFailsafe then s
  else (j.fills.foldl (fun (s : State) f => s.spWrite j.part f.1 (toLE 4 f.2)) s).rshEnd j.part 1

/-- The job semaphore has reached SEM_BASE + PEERS (step 7), or reads all ones, or a signal of the job was lost at a broken link (R349). -/
def execRshWaitDone (p : PartId) (s : State) : Outcome State Fault Refusal :=
  match s.rshOf p with
  | none => .next s
  | some j =>
    let v := s.semValue j.sem
    if j.st ≠ .waiting then .next s
    else if j.abort ≠ 0 then .next (s.rshAbortNow p j.abort)
    else if v = poison then .next (s.rshAbortNow p 0x31)
    else if j.semBase + j.peers.length ≤ v then .next (s.rshFinish j)
    else .next s

/-- TIMEOUT_US has elapsed in step 6 (R349). -/
def execRshTimeout (p : PartId) (s : State) : Outcome State Fault Refusal :=
  match s.rshOf p with
  | none => .next s
  | some j =>
    if j.st ≠ .waiting ∨ s.time.elapsed < j.since + j.timeout * 1000 ∨ j.semBase + j.peers.length ≤ s.semValue j.sem then .next s
    else .next (s.rshAbortNow p 0x32)

end Sys2Proof.Machine
end

