-- ==== Sys2Proof/Machine/Rings.lean ====
section
/-!
DEFINITION. Rings.lean: the registers of a submission ring (R136 to R141, R172).
-/
namespace Sys2Proof.Machine

open Host (Outcome)

/-- A write to RING_BASE, or to CPL_BASE (R137). -/
def execRingBaseWrite (ring : RingId) (cpl : Bool) (val : W64) (s : State) : Outcome State Fault Refusal :=
  let v := val.toNat
  if s.flag F.ringCfg_ENABLE ring then .next s
  else if bitAt v 0 && bitsOf v 30 34 ≠ 0 then .next (s.fset F.ringCtl_BASE_ERR ring 1)
  else if cpl then .next ((s.fset F.cplBase_ADDR ring (v / 4096)).fset F.cplBase_LOC ring (v % 2))
  else .next ((s.fset F.ringBase_ADDR ring (v / 4096)).fset F.ringBase_LOC ring (v % 2))

/-- A size outside 6 to 16 is taken as 6 (Table 5-3). -/
def logOf (v : Nat) : Nat := if 6 ≤ v ∧ v ≤ 16 then v else 6

/-- Put the four indices of a ring to 0. -/
def State.zeroIndices (s : State) (r : Nat) : State :=
  (((s.fset F.ringHead_HEAD r 0).fset F.cplTail_TAIL r 0).fset F.cplHead_HEAD r 0).onRing r fun x => { x with tail := 0 }

/-- A write to RING_CFG (R138). Until the module is READY no ring can be enabled (R463). -/
def execRingCfgWrite (ring : RingId) (val : W32) (s : State) : Outcome State Fault Refusal :=
  let v := val.toNat
  let r := ring.val
  let cl := logOf (bitsOf v 24 5)
  let rl := logOf (bitsOf v 16 5)
  let on := s.flag F.ringCfg_ENABLE r
  let s := if !on && s.flag F.ringState_IDLE r && (cl ≠ s.fget F.ringCfg_CPL_LOG2 r || rl ≠ s.fget F.ringCfg_RING_LOG2 r) then
      ((s.fset F.ringCfg_CPL_LOG2 r cl).fset F.ringCfg_RING_LOG2 r rl).zeroIndices r
    else s
  let s := (s.fset F.ringCfg_VECTOR r (bitsOf v 8 8)).fset F.ringCfg_IRQ r (bitsOf v 1 1)
  if bitAt v 0 && !on && !s.isReady then .next s
  else if bitAt v 0 then
    .next ((s.fset F.ringCfg_ENABLE r 1).onRing r fun x =>
      { x with disabling := false, next := if on then x.next else none, fetched := if on then x.fetched else none })
  else if on then .next ((s.onRing r fun x => { x with disabling := true }).ringState r)
  else .next s

/-- The descriptor commands under way complete: their results are in CODE (R176, Table 6-4). -/
def State.descDone (s : State) (mine : Nat → Bool) : State :=
  let (done, rest) := s.descJobs.partition fun j => mine j.part
  done.foldl (fun (s : State) j => (s.fset F.descStatus_BUSY j.part 0).fset F.descStatus_CODE j.part j.code) { s with descJobs := rest }

/-- A doorbell write (R139, R604), after every descriptor command written before it (R178): it wakes the module (R540, R543). One to a partition that does not exist is ignored. -/
def State.doorbell (s : State) (ring : RingId) (val : W32) : State :=
  let t := bitsOf val.toNat 0 17
  let n := s.ringSize ring
  let head := s.fget F.ringHead_HEAD ring
  let s := s.descDone fun p => p = partOfRing ring
  if (s.partOf (partOfRing ring)).isNone then s
  else if 2 * n ≤ t ∨ n < (t + 2 * n - head) % (2 * n) then s.fset F.ringCtl_DB_ERR ring 1
  else (s.onRing ring fun x => { x with tail := t, since := if head = x.tail then s.time.elapsed else x.since }).wakeUp

/-- A write to CPL_HEAD: records held are written as far as there is room (R141). -/
def execCplHeadWrite (ring : RingId) (val : W32) (s : State) : Outcome State Fault Refusal :=
  let s := s.fset F.cplHead_HEAD ring (bitsOf val.toNat 0 17)
  .next (s.flushCpl ring (s.ring ring).held.length)

/-- Cancel every step of a ring without records and put its indices to 0 (RESET of Table 5-4). -/
def State.resetRing (s : State) (r : Nat) : State :=
  let s := s.dropSteps r (s.ring r).steps
  let s := { s with errQ := s.errQ.filter fun e => e.ring ≠ r }
  let s := s.onRing r fun x => { x with held := [], next := none, discard := [], hold := none, lost := none, late := none }
  ((((s.zeroIndices r).fset F.ringState_HALTED r 0).fset F.ringState_ERR_CODE r 0).fset F.ringState_ERR_STEP r 0).ringState r

/-- RING_CTL.RESET (Table 5-4). -/
def execRingReset (ring : RingId) (s : State) : Outcome State Fault Refusal := .next (s.resetRing ring)

/-- RING_CTL.RESUME (R172): ignored unless the ring is halted, and while the module is unready (Table 12-11). -/
def execRingResume (ring : RingId) (s : State) : Outcome State Fault Refusal :=
  if s.flag F.ringState_HALTED ring && !s.isUnready && !s.isFailsafe then .next ((s.flushLate ring true).fset F.ringState_HALTED ring 0)
  else .next s

end Sys2Proof.Machine
end

