-- ==== Sys2Proof/Machine/ResetOps.lean ====
section
/-!
DEFINITION. ResetOps.lean: the scopes of reset (R456, R458, Table 14-3, R483), the activation journal (R491) and the registers that
show it (Table 15-10).
-/
namespace Sys2Proof.Machine

/-! ## The journal (R491) -/

/-- Keep SEED_STAT (Table 15-10): slots as 0 A, 1 B, 3 none. -/
def State.seedRegs (s : State) : State :=
  let j := s.seed.journal
  let slot (n : Nat) : Nat := if n ≤ 1 then n else 3
  let conf := s.isReady && j.trial ≤ 1 && s.seed.booted = j.trial
  [(F.seedStat_BOOTED, s.seed.booted), (F.seedStat_ACTIVE, slot j.active), (F.seedStat_TRIAL, slot j.trial), (F.seedStat_TRIALS, j.trials),
   (F.seedStat_STATE_A, j.stateA), (F.seedStat_STATE_B, j.stateB), (F.seedStat_CONFIRMABLE, one conf),
   (F.seedStat_DEV0_FALLOW, one (s.seed.fallow.contains 0)), (F.seedStat_DEV1_FALLOW, one (s.seed.fallow.contains 1)),
   (F.seedStat_UPDATE, s.seed.stage)].foldl
    (fun (s : State) x => s.fset x.1 0 x.2) s

/-- State of slot A (0) or B (1) in the journal. -/
def Journal.slot (j : Journal) (k : Nat) : Nat := if k = 0 then j.stateA else j.stateB
/-- Put the state of a slot. -/
def Journal.setSlot (j : Journal) (k v : Nat) : Journal := if k = 0 then { j with stateA := v } else { j with stateB := v }

/-- Write an ACTIVATE record (R491): 80 bytes in the control region, a ring of 64 KiB segments. -/
def State.journalWrite (s : State) (j : Journal) : State :=
  let a := s.alm
  let a := if 65536 < a.ctlUsed + 80 then { a with control := a.control + 1, ctlUsed := 112 } else { a with ctlUsed := a.ctlUsed + 80 }
  ({ s with seed := { s.seed with journal := j }, alm := a }).seedRegs

/-- A flash device becomes fallow (R486): SUBST record; with both fallow the module becomes unready. -/
def State.deviceFallow (s : State) (d : Nat) : State :=
  if s.seed.fallow.contains d then s
  else
    let s := ({ s with seed := { s.seed with fallow := setIns s.seed.fallow d } }.almanac 3 [0xA, d, 0xFFFF, 0]).seedRegs
    if s.seed.fallow.length = 2 then s.unready 0xA d (FaultRec.blank 0x21) else s

/-! ## Scopes -/

/-- Is a register in the host interface block (Table 18-8). -/
def RegDef.host (r : RegDef) : Bool := r.base < 0x10000

/-- Register fields of the host interface block that a host reset clears (R458). -/
def hostIds : List Nat := (((regTable.filter RegDef.host).flatMap RegDef.fields).filter fun f => !f.kept).map Fld.id

/-- How often the scratch of every core has become undefined, after one more time for all of them. -/
def State.nextScr (s : State) : Nat := s.scr + (s.cores.map fun x => x.2.undef).foldl max 0 + 1

/-- Keep what no reset changes: the flash, the part, the pins, the commands waiting and what the module has sent out. `base`: the rest. -/
def State.keepFlash (s base : State) : State :=
  { base with
    pending := s.pending, partNo := s.partNo, out := s.out, scr := s.nextScr,
    alm := { s.alm with queue := [], tokens := 1024, refill := s.time.elapsed },
    seed := { s.seed with upd := none, stage := 0, image := none, booted := 3 }, rst := s.rst,
    history := s.history, nextMove := s.nextMove, undefs := s.undefs }

/-- A cold reset (Table 14-3): everything restarts, the Reeve too. Vaults and seedstore lie as they are until STEP_VAULT. -/
def State.coldReset (s : State) : State :=
  let b := s.keepFlash State.reset
  let b := { b with
    regs := [], mem := s.mem, valid := s.valid, chaff := s.chaff.filter (fun a => decide (a < 0x8000000000)),
    time := { b.time with elapsed := s.time.elapsed }, ecc := { b.ecc with history := s.ecc.history },
    power := { b.power with tripped := s.power.tripped, volt := s.power.volt, dutyAt := s.time.elapsed, dutyFrom := s.time.elapsed },
    rst := { s.rst with cold := true, job := none, alert := none } }
  ((b.fset F.almSeq_SEQ 0 (s.fget F.almSeq_SEQ 0)).almRegs).seedRegs

/-- An Oncon port through a warm reset (R482): one that was trained keeps its lock and sends FAULT_IDLE with reason RESET. -/
def State.warmPort (s old : State) (p : Nat) : State :=
  let st := old.portState p
  if 2 ≤ st then
    let s := ((s.fset F.portStat_TX_SUB p (old.fget F.portStat_TX_SUB p)).fset F.portStat_RX_SUB p (old.fget F.portStat_RX_SUB p)).setPort p
      { PortSt.fresh with signal := (old.port p).signal }
    s.faultIdleTx p 5
  else s.setPort p { PortSt.fresh with signal := (old.port p).signal }

/-- A warm reset (Table 14-3): everything but the Reeve, the management endpoint, its Ethernet port and the time counter. -/
def State.warmReset (s : State) : State :=
  let b := s.keepFlash State.reset
  let b := { b with
    regs := s.regs.filter (fun x => keptIds.contains (x.1 % 1024)), cfg := s.cfg, time := s.time, mem := s.mem, valid := s.valid, chaff := s.chaff,
    ecc := s.ecc, ret := { s.ret with job := none, waiting := none }, mgmt := s.mgmt, obs := { s.obs with glean := none, wfg := none, edges := none, dbg := none, stale := [], lost := [] }, alm := s.alm, strmOn := s.strmOn, spare := s.spare,
    seed := { s.seed with booted := 3, stage := if s.seed.stage = 4 then 0 else s.seed.stage }, scatterSat := s.scatterSat,
    link := { b.link with routes := s.link.routes, headland := s.link.headland, epoch := s.link.epoch, breaks := s.link.breaks, nextTxn := s.link.nextTxn },
    host := { b.host with link := s.host.link, speed := s.host.speed, flit := s.host.flit, cxl := s.host.cxl },
    power := { b.power with tripped := s.power.tripped, fallow := s.power.fallow, coolAt := none, kp := s.power.kp, isolated := s.power.isolated,
                             dutyAt := s.time.elapsed, dutyFrom := s.time.elapsed },
    rst := { s.rst with job := none, alert := if s.rst.warm || s.rst.perst then some s.alertOn else none } }
  let b := (List.range 12).foldl (fun (b : State) p => b.warmPort s p) b
  ((b.fset F.almSeq_SEQ 0 (s.fget F.almSeq_SEQ 0)).almRegs).seedRegs

/-- A host reset (Table 14-3): the host interface restarts; rings are reset and disabled. -/
def State.hostReset (s : State) : State :=
  let ids := hostIds
  let s := { s with regs := s.regs.filter (fun x => !ids.contains (x.1 % 1024)),
                    host := { s.host with widthErr := false, d3 := [], off := [], unmasked := [], pend := [], hdm := false, lines := [], held := [] } }
  ((List.range 128).foldl (fun (s : State) r => (s.resetRing r).fset F.ringCfg_ENABLE r 0) s).refreshHif

/-- Is a reset or its bring-up under way (R483). -/
def State.bringing (s : State) : Bool := s.bringState ≤ 2

/-- Take a reset of cold or warm scope (R456, R483): one that meets another or its bring-up is merged with it. `bits`: its bits of
RST_CAUSE.CAUSE. A block reset and a sleep entry under way
end ABANDONED (Tables 14-12, 16-8). -/
def State.takeReset (s : State) (cold : Bool) (bits : Nat) : State :=
  let merged := s.bringing
  let wide := cold || (merged && s.rst.cold)
  let cause := if merged then Nat.lor (s.fget F.rstCause_CAUSE 0) bits else bits
  let warm := min 0xFFFF (s.fget F.rstCause_WARM_COUNT 0 + 1)
  let blk := s.blk.isSome
  let entry := s.power.sleep.isSome
  let t := if wide then s.coldReset else { s with rst := { s.rst with cold := false } }.warmReset
  let t := ((t.fset F.rstCause_CAUSE 0 cause).fset F.rstCause_GLITCHES 0 0).fset F.rstCause_WARM_COUNT 0 (if wide then 0 else warm)
  let t := if blk then t.fset F.blkStatus_RESULT 0 4 else t
  (if entry then t.fset F.sleepStat_RESULT 0 4 else t).refreshHif

end Sys2Proof.Machine
end

