-- ==== Sys2Proof/Machine/BlockReset.lean ====
section
/-!
DEFINITION. BlockReset.lean: resetting one block (R479 to R481, Tables 14-10, 14-11).
-/
namespace Sys2Proof.Machine

open Host (Outcome)

/-- Load the result of a block reset. -/
def State.blkResult (s : State) (r : Nat) : State := (s.fset F.blkStatus_RESULT 0 r).fset F.blkStatus_BUSY 0 0

/-- A BLK_RST write for a block of kind `kind`, whose TARGET is in range or not (R481); `unit` is the instance. A sleep entry ends ABANDONED (Table 16-8). -/
def State.blkStart (s : State) (kind : Nat) (good : Bool) (unit : Nat) : State :=
  if s.flag F.blkStatus_BUSY 0 then s.fset F.blkStatus_LOST 0 1
  else if !s.isReady then s.fset F.blkStatus_RESULT 0 2
  else if !good then s.fset F.blkStatus_RESULT 0 3
  else { s.endEntry.fset F.blkStatus_BUSY 0 1 with blk := some { kind := kind, target := unit, since := s.time.elapsed } }

/-- BLK_RST of a field: plot in [10:9], field index below 288 in [8:0]. -/
def execBlkRstField (target : BitVec 24) (s : State) : Outcome State Fault Refusal :=
  let t := target.toNat
  .next (s.blkStart 1 (t / 2048 = 0 && t % 512 < 288) (bitsOf t 9 2 * 288 + t % 512))

/-- BLK_RST of the Oncon block. -/
def execBlkRstOncon (target : BitVec 24) (s : State) : Outcome State Fault Refusal := .next (s.blkStart 2 (target = 0) 0)
/-- BLK_RST of the host interface. -/
def execBlkRstHost (target : BitVec 24) (s : State) : Outcome State Fault Refusal := .next (s.blkStart 3 (target = 0) 0)
/-- BLK_RST of the seedstore controller. -/
def execBlkRstSeedstore (target : BitVec 24) (s : State) : Outcome State Fault Refusal := .next (s.blkStart 4 (target = 0) 0)
/-- BLK_RST of the re-shard engine. -/
def execBlkRstReshard (target : BitVec 24) (s : State) : Outcome State Fault Refusal := .next (s.blkStart 5 (target = 0) 0)

/-- Cores of a field. -/
def coresOf (fid : Nat) : List Nat := (List.range 24).map fun i => fid * 24 + i

/-- Is the block idle (Table 14-10). The write-back of dirty seedstore lines is a step of its own here. -/
def State.blkIdle (s : State) (b : BlkJob) : Bool :=
  match b.kind with
  | 1 => (coresOf b.target).all fun n => (s.core n).wi.isNone
  | 2 => s.link.txns.isEmpty && (List.range 12).all fun p => (s.port p).retry.isEmpty
  | 3 => s.host.held.all fun h => decide (b.since < h.since)
  | 5 => s.rsh.all fun j => j.st = .queued
  | _ => true

/-- Has an open step placed a work item in a field since it opened. -/
def OpenStep.inField (o : OpenStep) (fid : Nat) : Bool :=
  o.placed.any fun x => decide (x.1 < (fid + 1) * 24 ∧ fid * 24 < x.1 + x.2)

/-- The reset of a field by command: steps with work there are cancelled with CANCELLED and their rings halt (Table 14-10). -/
def State.blkField (s : State) (fid : Nat) : State :=
  let s := s.rings.foldl (fun (s : State) (x : Nat × Ring) =>
    match x.2.steps.find? fun o => o.inField fid with
    | some o => s.cancelFrom x.1 o.step 0x0B09 0xFFFF 0 none
    | none => s) s
  s.resetField fid

/-- The reset of the Oncon block: ports that were UP break with reason RESET, and every port trains. -/
def State.blkOncon (s : State) : State :=
  let s := (List.range 12).foldl (fun (s : State) p => if s.portUp p then s.breakPort p 5 5 else s.faultIdleTx p 5) s
  (List.range 12).foldl (fun (s : State) p => if s.flag F.portCtl_ENABLE p then (s.onPort p fun x => { x with cause := 0 }).startPort p else s.setPortState p 0) s

/-- The reset of the seedstore controller: cache lines are invalidated; forced, the burst of each dirty line carries chaff, as far as the
chaff list has room (R415, Table 14-11). -/
def State.blkSeedstore (s : State) (forced : Bool) : State :=
  let dirty := if forced then (s.lines.filter Line.dirty).map Line.addr else []
  let s := dirty.foldl (fun (s : State) a =>
    if s.chaff.contains a then s
    else if s.ssChaff < 65536 then { s with chaff := setIns s.chaff a } else s.fadd F.chaffRefused_COUNT 0 1) s
  { s with lines := [] }

/-- Reset the block and release it (steps 4 and 5 of Table 14-11). -/
def State.blkReset (s : State) (b : BlkJob) (forced : Bool) : State :=
  let s := { s with blk := none }
  let s := match b.kind with
    | 1 => s.blkField b.target
    | 2 => s.blkOncon
    | 3 =>
      let later := s.host.held.filter fun (h : HeldReq) => decide (b.since < h.since)
      let t := s.hostReset
      { t with host := { t.host with held := later } }
    | 4 => s.blkSeedstore forced
    | _ => (s.rsh.map RshJob.part).foldl (fun (s : State) p => s.rshAbortNow p 0x33) s
  let r := one forced
  let value := b.kind * 16777216 + (if b.kind = 1 then b.target / 288 * 512 + b.target % 288 else 0)
  ((s.blkResult r).almanac 9 [value, r]).event 0xB [value, r]

/-- The block becomes idle: it is reset cleanly. -/
def execBlockIdleReached (s : State) : Outcome State Fault Refusal :=
  match s.blk with
  | some b => if s.blkIdle b then .next (s.blkReset b false) else .next s
  | none => .next s

/-- IDLE_US has elapsed and the block is not idle: it is reset by force. -/
def execBlockIdleTimeout (s : State) : Outcome State Fault Refusal :=
  match s.blk with
  | some b =>
    let t := s.fget F.blkIdle_IDLE_US 0
    let us := if 10 ≤ t ∧ t ≤ 10000 then t else 100
    if s.time.elapsed < b.since + us * 1000 then .next s else .next (s.blkReset b true)
  | none => .next s

end Sys2Proof.Machine
end

