-- ==== Sys2Proof/Machine/Dci.lean ====
section
/-!
DEFINITION. Dci.lean: the DCI instructions that compute, load, store and branch (R153, Table 5-10). Operand `cp` says that
the doubled arithmetic or the parity of the control processor did not agree (R396): the instruction then writes no result
and a fault with cause CP_CHECK is confirmed.
-/
namespace Sys2Proof.Machine

open Host (Outcome)

/-- Move past an instruction; past the image's last one the work item ends with DCI_BRANCH (R154). -/
def State.advance (s : State) (n : Nat) : State :=
  let c := s.core n
  let s := s.setCore n { c with pc := c.pc + 1 }
  if c.pc + 1 < c.instrCount then s else s.endItem n 0x0304 0

/-- Continue at an instruction index; outside the image the work item ends with DCI_BRANCH (R154). -/
def State.jump (s : State) (n : Nat) (target : Int) : State :=
  if 0 ≤ target ∧ target < (s.core n).instrCount then s.onCore n fun c => { c with pc := target.toNat }
  else s.endItem n 0x0304 0

/-- The control processor's checks failed: a confirmed fault CP_CHECK (R396). -/
def State.cpFault (s : State) (n : Nat) : State :=
  let c := s.core n
  let f := (FaultRec.blank 8).atCore n
  match c.wi with
  | some w => s.confirm { f with part := w.part, ring := w.ring.getD 0xFF, step := w.step, layer := c.layer, oper := c.oper, tag := s.itemTag n }
  | none => s

/-- One instruction of a running control processor: nothing where it cannot execute; the fault of R396; else its effect. -/
def State.dci (s : State) (n : Nat) (cp : Bool) (f : State → State) : Outcome State Fault Refusal :=
  if s.cpRuns n then .next (if cp then s.cpFault n else f s) else .next s

/-- A value into s[RD], the program counter past the instruction. -/
def State.result (s : State) (n : Nat) (rd : Reg) (v : W64) (chaff : Bool) : State :=
  (s.onCore n fun c => c.setReg rd v chaff).advance n

/-- R format: s[RD] = f(s[RA], s[RB]). -/
def State.alu (s : State) (n : Nat) (rd ra rb : Reg) (f : W64 → W64 → W64) : State :=
  let c := s.core n
  s.result n rd (f (c.reg ra) (c.reg rb)) (c.tag ra || c.tag rb)

/-- I format: s[RD] = f(s[RA], IMM), IMM sign-extended. -/
def State.alui (s : State) (n : Nat) (rd ra : Reg) (imm : Imm) (f : W64 → W64 → W64) : State :=
  let c := s.core n
  s.result n rd (f (c.reg ra) (imm.signExtend 64)) (c.tag ra)

/-- An illegal instruction ends the work item with DCI_ILLEGAL (R152, R153). -/
def State.illegal (s : State) (n : Nat) : State := s.endItem n 0x0301 0

/-- 1 or 0. -/
def boolW (b : Bool) : W64 := if b then 1 else 0

/-- Shift amount bits [5:0]. -/
def shamt (v : W64) : Nat := v.toNat % 64

/-- The signed lesser and greater of two words. -/
def minS (a b : W64) : W64 := if a.slt b then a else b
def maxS (a b : W64) : W64 := if a.slt b then b else a

/-- High 64 bits of the signed and the unsigned product. -/
def mulHS (a b : W64) : W64 := BitVec.ofInt 64 (a.toInt * b.toInt / 2 ^ 64)
def mulHU (a b : W64) : W64 := BitVec.ofNat 64 (a.toNat * b.toNat / 2 ^ 64)

/-- DCI ADD (R153). -/
def execAdd (core : CoreId) (rd ra rb : Reg) (cp : Bool) (s : State) : Outcome State Fault Refusal :=
  s.dci core cp fun s => s.alu core rd ra rb (· + ·)

/-- DCI SUB (R153). -/
def execSub (core : CoreId) (rd ra rb : Reg) (cp : Bool) (s : State) : Outcome State Fault Refusal :=
  s.dci core cp fun s => s.alu core rd ra rb (· - ·)

/-- DCI AND (R153). -/
def execAnd (core : CoreId) (rd ra rb : Reg) (cp : Bool) (s : State) : Outcome State Fault Refusal :=
  s.dci core cp fun s => s.alu core rd ra rb (· &&& ·)

/-- DCI OR (R153). -/
def execOr (core : CoreId) (rd ra rb : Reg) (cp : Bool) (s : State) : Outcome State Fault Refusal :=
  s.dci core cp fun s => s.alu core rd ra rb (· ||| ·)

/-- DCI XOR (R153). -/
def execXor (core : CoreId) (rd ra rb : Reg) (cp : Bool) (s : State) : Outcome State Fault Refusal :=
  s.dci core cp fun s => s.alu core rd ra rb (· ^^^ ·)

/-- DCI SLL (R153): shift left by s[RB][5:0]. -/
def execSll (core : CoreId) (rd ra rb : Reg) (cp : Bool) (s : State) : Outcome State Fault Refusal :=
  s.dci core cp fun s => s.alu core rd ra rb fun a b => a <<< shamt b

/-- DCI SRL (R153): shift right, zero filled, by s[RB][5:0]. -/
def execSrl (core : CoreId) (rd ra rb : Reg) (cp : Bool) (s : State) : Outcome State Fault Refusal :=
  s.dci core cp fun s => s.alu core rd ra rb fun a b => a >>> shamt b

/-- DCI SRA (R153): shift right, sign filled, by s[RB][5:0]. -/
def execSra (core : CoreId) (rd ra rb : Reg) (cp : Bool) (s : State) : Outcome State Fault Refusal :=
  s.dci core cp fun s => s.alu core rd ra rb fun a b => a.sshiftRight (shamt b)

/-- DCI MUL (R153): low 64 bits of the product. -/
def execMul (core : CoreId) (rd ra rb : Reg) (cp : Bool) (s : State) : Outcome State Fault Refusal :=
  s.dci core cp fun s => s.alu core rd ra rb (· * ·)

/-- DCI MULHU (R153). -/
def execMulhu (core : CoreId) (rd ra rb : Reg) (cp : Bool) (s : State) : Outcome State Fault Refusal :=
  s.dci core cp fun s => s.alu core rd ra rb mulHU

/-- DCI MULH (R153). -/
def execMulh (core : CoreId) (rd ra rb : Reg) (cp : Bool) (s : State) : Outcome State Fault Refusal :=
  s.dci core cp fun s => s.alu core rd ra rb mulHS

/-- DCI SLT (R153). -/
def execSlt (core : CoreId) (rd ra rb : Reg) (cp : Bool) (s : State) : Outcome State Fault Refusal :=
  s.dci core cp fun s => s.alu core rd ra rb fun a b => boolW (a.slt b)

/-- DCI SLTU (R153). -/
def execSltu (core : CoreId) (rd ra rb : Reg) (cp : Bool) (s : State) : Outcome State Fault Refusal :=
  s.dci core cp fun s => s.alu core rd ra rb fun a b => boolW (a.ult b)

/-- DCI MIN (R153): signed. -/
def execMin (core : CoreId) (rd ra rb : Reg) (cp : Bool) (s : State) : Outcome State Fault Refusal :=
  s.dci core cp fun s => s.alu core rd ra rb minS

/-- DCI MAX (R153): signed. -/
def execMax (core : CoreId) (rd ra rb : Reg) (cp : Bool) (s : State) : Outcome State Fault Refusal :=
  s.dci core cp fun s => s.alu core rd ra rb maxS

/-- DCI ADDI (R153). -/
def execAddi (core : CoreId) (rd ra : Reg) (imm : Imm) (cp : Bool) (s : State) : Outcome State Fault Refusal :=
  s.dci core cp fun s => s.alui core rd ra imm (· + ·)

/-- DCI ANDI (R153). -/
def execAndi (core : CoreId) (rd ra : Reg) (imm : Imm) (cp : Bool) (s : State) : Outcome State Fault Refusal :=
  s.dci core cp fun s => s.alui core rd ra imm (· &&& ·)

/-- DCI ORI (R153). -/
def execOri (core : CoreId) (rd ra : Reg) (imm : Imm) (cp : Bool) (s : State) : Outcome State Fault Refusal :=
  s.dci core cp fun s => s.alui core rd ra imm (· ||| ·)

/-- DCI XORI (R153). -/
def execXori (core : CoreId) (rd ra : Reg) (imm : Imm) (cp : Bool) (s : State) : Outcome State Fault Refusal :=
  s.dci core cp fun s => s.alui core rd ra imm (· ^^^ ·)

/-- An immediate shift: IMM[39:6] must be 0 (R153). -/
def State.shifti (s : State) (n : Nat) (rd ra : Reg) (imm : Imm) (f : W64 → Nat → W64) : State :=
  if imm.toNat < 64 then s.alui n rd ra imm fun a _ => f a imm.toNat else s.illegal n

/-- DCI SLLI (R153). -/
def execSlli (core : CoreId) (rd ra : Reg) (imm : Imm) (cp : Bool) (s : State) : Outcome State Fault Refusal :=
  s.dci core cp fun s => s.shifti core rd ra imm fun a k => a <<< k

/-- DCI SRLI (R153). -/
def execSrli (core : CoreId) (rd ra : Reg) (imm : Imm) (cp : Bool) (s : State) : Outcome State Fault Refusal :=
  s.dci core cp fun s => s.shifti core rd ra imm fun a k => a >>> k

/-- DCI SRAI (R153). -/
def execSrai (core : CoreId) (rd ra : Reg) (imm : Imm) (cp : Bool) (s : State) : Outcome State Fault Refusal :=
  s.dci core cp fun s => s.shifti core rd ra imm fun a k => a.sshiftRight k

/-- DCI SLTI (R153). -/
def execSlti (core : CoreId) (rd ra : Reg) (imm : Imm) (cp : Bool) (s : State) : Outcome State Fault Refusal :=
  s.dci core cp fun s => s.alui core rd ra imm fun a b => boolW (a.slt b)

/-- DCI SLTIU (R153). -/
def execSltiu (core : CoreId) (rd ra : Reg) (imm : Imm) (cp : Bool) (s : State) : Outcome State Fault Refusal :=
  s.dci core cp fun s => s.alui core rd ra imm fun a b => boolW (a.ult b)

/-- DCI LIH (R153): s[RA][39:0] with IMM[23:0] in bits [63:40]; IMM[39:24] must be 0. -/
def execLih (core : CoreId) (rd ra : Reg) (imm : Imm) (cp : Bool) (s : State) : Outcome State Fault Refusal :=
  s.dci core cp fun s =>
    if imm.toNat < 0x1000000 then
      s.alui core rd ra imm fun a _ => (a &&& 0xFFFFFFFFFF) ||| (BitVec.ofNat 64 imm.toNat <<< 40)
    else s.illegal core

/-- Scratch address of a load or store: s[RA] + IMM. -/
def Core.addr (c : Core) (ra : Reg) (imm : Imm) : Nat := (c.reg ra + imm.signExtend 64).toNat

/-- What a scalar scratch access at an address meets (R154): the status that ends the work item, or none. -/
def scratchStatus (a k : Nat) : Option Nat :=
  if a % k ≠ 0 then some 0x0302 else if scratchEnd < a + k then some 0x0303 else none

/-- A load of k bytes (R153, R154, R630): it waits for earlier writers of its granule (R69). -/
def State.load (s : State) (n : Nat) (rd ra : Reg) (imm : Imm) (k : Nat) (ext : Nat → W64) : State :=
  let c := s.core n
  let a := c.addr ra imm
  match scratchStatus a k with
  | some st => s.endItem n st 0
  | none =>
    if s.scratchFree n c.nextSeq [(false, a, a + k)] then
      let ch := c.schaffIn a k
      let s := if ch then s.itemChaff n else s
      s.result n rd (ext (leNat (c.sread n a k))) (ch || c.tag ra)
    else s

/-- A store of the low k bytes of s[RD] (R153, R154, R630): it waits for earlier accesses to its granule (R69). -/
def State.store (s : State) (n : Nat) (rd ra : Reg) (imm : Imm) (k : Nat) : State :=
  let c := s.core n
  let a := c.addr ra imm
  match scratchStatus a k with
  | some st => s.endItem n st 0
  | none =>
    if s.scratchFree n c.nextSeq [(true, a, a + k)] then
      ((s.setCore n (c.swrite a (toLE k (c.reg rd).toNat) (c.tag rd || c.tag ra))).noteItem n true a k).advance n
    else s

/-- Sign extension of w bits, and zero extension. -/
def sext (w v : Nat) : W64 := BitVec.ofInt 64 (signed v w)
def zext (v : Nat) : W64 := BitVec.ofNat 64 v

/-- DCI LDB (R153). -/
def execLdb (core : CoreId) (rd ra : Reg) (imm : Imm) (cp : Bool) (s : State) : Outcome State Fault Refusal :=
  s.dci core cp fun s => s.load core rd ra imm 1 (sext 8)

/-- DCI LDH (R153). -/
def execLdh (core : CoreId) (rd ra : Reg) (imm : Imm) (cp : Bool) (s : State) : Outcome State Fault Refusal :=
  s.dci core cp fun s => s.load core rd ra imm 2 (sext 16)

/-- DCI LDW (R153). -/
def execLdw (core : CoreId) (rd ra : Reg) (imm : Imm) (cp : Bool) (s : State) : Outcome State Fault Refusal :=
  s.dci core cp fun s => s.load core rd ra imm 4 (sext 32)

/-- DCI LDD (R153). -/
def execLdd (core : CoreId) (rd ra : Reg) (imm : Imm) (cp : Bool) (s : State) : Outcome State Fault Refusal :=
  s.dci core cp fun s => s.load core rd ra imm 8 zext

/-- DCI LDBU (R153). -/
def execLdbu (core : CoreId) (rd ra : Reg) (imm : Imm) (cp : Bool) (s : State) : Outcome State Fault Refusal :=
  s.dci core cp fun s => s.load core rd ra imm 1 zext

/-- DCI LDHU (R153). -/
def execLdhu (core : CoreId) (rd ra : Reg) (imm : Imm) (cp : Bool) (s : State) : Outcome State Fault Refusal :=
  s.dci core cp fun s => s.load core rd ra imm 2 zext

/-- DCI LDWU (R153). -/
def execLdwu (core : CoreId) (rd ra : Reg) (imm : Imm) (cp : Bool) (s : State) : Outcome State Fault Refusal :=
  s.dci core cp fun s => s.load core rd ra imm 4 zext

/-- DCI STB (R153). -/
def execStb (core : CoreId) (rd ra : Reg) (imm : Imm) (cp : Bool) (s : State) : Outcome State Fault Refusal :=
  s.dci core cp fun s => s.store core rd ra imm 1

/-- DCI STH (R153). -/
def execSth (core : CoreId) (rd ra : Reg) (imm : Imm) (cp : Bool) (s : State) : Outcome State Fault Refusal :=
  s.dci core cp fun s => s.store core rd ra imm 2

/-- DCI STW (R153). -/
def execStw (core : CoreId) (rd ra : Reg) (imm : Imm) (cp : Bool) (s : State) : Outcome State Fault Refusal :=
  s.dci core cp fun s => s.store core rd ra imm 4

/-- DCI STD (R153). -/
def execStd (core : CoreId) (rd ra : Reg) (imm : Imm) (cp : Bool) (s : State) : Outcome State Fault Refusal :=
  s.dci core cp fun s => s.store core rd ra imm 8

/-- A branch: PC + OFF when the comparison holds, else past the instruction (R153). -/
def State.branch (s : State) (n : Nat) (ra rb : Reg) (off : Imm) (f : W64 → W64 → Bool) : State :=
  let c := s.core n
  if f (c.reg ra) (c.reg rb) then s.jump n ((c.pc : Int) + off.toInt) else s.advance n

/-- DCI BEQ (R153). -/
def execBeq (core : CoreId) (ra rb : Reg) (off : Imm) (cp : Bool) (s : State) : Outcome State Fault Refusal :=
  s.dci core cp fun s => s.branch core ra rb off (· == ·)

/-- DCI BNE (R153). -/
def execBne (core : CoreId) (ra rb : Reg) (off : Imm) (cp : Bool) (s : State) : Outcome State Fault Refusal :=
  s.dci core cp fun s => s.branch core ra rb off (· != ·)

/-- DCI BLT (R153). -/
def execBlt (core : CoreId) (ra rb : Reg) (off : Imm) (cp : Bool) (s : State) : Outcome State Fault Refusal :=
  s.dci core cp fun s => s.branch core ra rb off fun a b => a.slt b

/-- DCI BGE (R153). -/
def execBge (core : CoreId) (ra rb : Reg) (off : Imm) (cp : Bool) (s : State) : Outcome State Fault Refusal :=
  s.dci core cp fun s => s.branch core ra rb off fun a b => !a.slt b

/-- DCI BLTU (R153). -/
def execBltu (core : CoreId) (ra rb : Reg) (off : Imm) (cp : Bool) (s : State) : Outcome State Fault Refusal :=
  s.dci core cp fun s => s.branch core ra rb off fun a b => a.ult b

/-- DCI BGEU (R153). -/
def execBgeu (core : CoreId) (ra rb : Reg) (off : Imm) (cp : Bool) (s : State) : Outcome State Fault Refusal :=
  s.dci core cp fun s => s.branch core ra rb off fun a b => !a.ult b

/-- Link PC + 1 into s[RD] and continue at a target (R153). The work item ends with DCI_BRANCH outside the image. -/
def State.linkJump (s : State) (n : Nat) (rd : Reg) (chaff : Bool) (target : Int) : State :=
  (s.onCore n fun c => c.setReg rd (BitVec.ofNat 64 (c.pc + 1)) chaff).jump n target

/-- DCI JAL (R153): PC + IMM. -/
def execJal (core : CoreId) (rd : Reg) (imm : Imm) (cp : Bool) (s : State) : Outcome State Fault Refusal :=
  s.dci core cp fun s => s.linkJump core rd false (((s.core core).pc : Int) + imm.toInt)

/-- DCI JALR (R153): s[RA] + IMM, read before the link is written. -/
def execJalr (core : CoreId) (rd ra : Reg) (imm : Imm) (cp : Bool) (s : State) : Outcome State Fault Refusal :=
  s.dci core cp fun s => s.linkJump core rd ((s.core core).tag ra) ((s.core core).reg ra + imm.signExtend 64).toInt

end Sys2Proof.Machine
end

