-- ==== Sys2Proof/Machine/Control.lean ====
section
/-!
DEFINITION. Control.lean: work items, the instruction cache, the DCI instructions that issue, wait and read CSRs, and the
end of a work item (R73, R149 to R158).
-/
namespace Sys2Proof.Machine

open Host (Outcome)

/-! ## Role code images (R629) -/

/-- First byte of the role code images: the system bin. Images lie one after another there, in index order. -/
def roleBase : Nat := binBase 63

/-- Local address of a role image. -/
def State.roleAddr (s : State) (role : Nat) : Nat := roleBase + (s.roles.getD role (0, 0)).1

/-- INSTR_COUNT and ENTRY_COUNT of a role image (Table 5-23). -/
def State.roleInstrs (s : State) (role : Nat) : Nat := leNat (s.rdN (s.roleAddr role) 4)
def State.roleEntries (s : State) (role : Nat) : Nat := leNat (s.rdN (s.roleAddr role + 4) 2)
/-- Entry table[i] of a role image. -/
def State.roleEntry (s : State) (role i : Nat) : Nat := leNat (s.rdN (s.roleAddr role + 16 + 4 * i) 4)

/-- The array gates with its state kept after 1 µs with an empty matrix queue (R91). -/
def execArrayGate (core : CoreId) (s : State) : Outcome State Fault Refusal :=
  let c := s.core core
  if s.outstanding core 0 = 0 then .next (s.setCore core { c with gated := true, wake := 0 }) else .next s

/-- A line of the core's code image enters its instruction cache (R73): 256-byte lines, in 16 sets of four ways. DESIGN CHOICE (log 197): a line
lies in set (line mod 16), and in a full set the line filled longest ago leaves. -/
def execIcacheFill (core : CoreId) (line : Nat) (s : State) : Outcome State Fault Refusal :=
  let c := s.core core
  if c.image.isSome && line * 32 < c.instrCount && !c.lines.contains line then
    let set := c.lines.filter fun x => x % 16 = line % 16
    let ls := if set.length < 4 then c.lines else match set with
      | o :: _ => c.lines.filter (· ≠ o)
      | [] => c.lines
    .next (s.setCore core { c with lines := ls ++ [line] })
  else .next s

/-- State of a core at the start of a work item (Table 5-8): registers, tags, program counter, CSRs. Scratch stays. -/
def Core.begin (c : Core) (n : Nat) (w : WorkItem) (pc : Nat) : Core :=
  { c with
    wi := some w, wait := none, status := 0, warn := 0, layer := w.layer, oper := w.oper, pc := pc, regChaff := [],
    regs := [(1, BitVec.ofNat 64 (n - w.firstCore)), (2, w.arg0), (3, w.arg1), (4, w.arg2), (5, w.arg3),
             (6, BitVec.ofNat 64 w.batch)] }

/-- The code image changes (R73, R268): every line is discarded and the role epoch rises, with wrap. -/
def Core.changeImage (c : Core) (role instrs : Nat) : Core :=
  if c.image = some role then { c with instrCount := instrs }
  else { c with image := some role, instrCount := instrs, lines := [], epoch := (c.epoch + 1) % 65536 }

/-- The control processor takes its next work item (R149, R151). -/
def execWorkItemStart (core : CoreId) (s : State) : Outcome State Fault Refusal :=
  let c := s.core core
  let f := s.field (fieldOfCore core)
  match c.wi, c.queue with
  | none, w :: rest =>
    if f.resetting || f.halted || (match s.blk with | some b => b.kind = 1 && b.target = fieldOfCore core | none => false) then .next s else
    let c := { c with queue := rest }
    if s.roles.length ≤ w.role then
      .next ((s.setCore core (c.begin core w 0)).endItem core 0x0B03 0)
    else if s.roleEntries w.role ≤ w.entry then
      .next ((s.setCore core (c.begin core w 0)).endItem core 0x0B04 0)
    else
      let c := c.changeImage w.role (s.roleInstrs w.role)
      .next (s.setCore core (c.begin core w (s.roleEntry w.role w.entry)))
  | _, _ => .next s

/-- After END, once every queue is empty and every command complete, the work item ends (R157). -/
def execWorkItemEnd (core : CoreId) (s : State) : Outcome State Fault Refusal :=
  let c := s.core core
  match c.wi, c.wait with
  | some w, some .ending =>
    if s.outstandingAll core = 0 then
      let s := (s.setCore core { c with wi := none, wait := none }).coreCount core 3 1
      match w.ring with
      | some r => if w.dead then .next (s.flushLate r false) else .next ((s.onStep (some r) w.step fun o => { o with items := o.items - 1 }).ringState r)
      | none => .next { s with bootEnd := s.bootEnd ++ [(core.val, c.status)] }
    else .next s
  | _, _ => .next s

/-! ## Issue -/

/-- The command a CMD instruction forms (R158, R630). -/
def Core.form (c : Core) (kind op : BitVec 4) (ra : Reg) (body : Imm) : Cmd :=
  let step := (c.wi.map WorkItem.step).getD 0
  let b : BitVec 40 := (c.reg ra).setWidth 40 ||| body
  { seq := c.nextSeq, layer := c.layer, oper := c.oper, step := step, kind := kind.toNat, op := op.toNat, body := b,
    chk := moduleCheck (cmdBytes c.layer c.oper step kind.toNat op.toNat b), chaff := c.tag ra }

/-- Place a command in the queue of its kind (Table 5-12: kinds 1 to 5 are queues 0 to 4). -/
def State.place (s : State) (n : Nat) (d : Cmd) : State :=
  let q := d.kind - 1
  (s.onCore n fun c => c.setQueue q (c.queueOf q ++ [d])).coreCount n 2 1

/-- DCI CMD (R158, R67): form the command, and place it, or hold it while the queue is full. -/
def execCmd (core : CoreId) (kind op : BitVec 4) (ra : Reg) (body : Imm) (cp : Bool) (s : State) : Outcome State Fault Refusal :=
  let c := s.core core
  if !s.cpRuns core then .next s
  else if cp then .next (s.cpFault core)
  else if kind = 0 ∨ 5 < kind.toNat then .next (s.endItem core 0x0203 0)
  else if s.issueHeld core then .next s
  else
    let d := c.form kind op ra body
    let s := if d.chaff then s.itemChaff core else s
    let s := s.onCore core fun c => { c with nextSeq := c.nextSeq + 1 }
    if s.hasRoom core (d.kind - 1) then .next ((s.place core d).advance core)
    else .next (s.onCore core fun c => { c with wait := some (.full d), since := s.time.elapsed })

/-- A command held by a full queue is placed once there is room (R67). -/
def execQueueSpaceIssue (core : CoreId) (s : State) : Outcome State Fault Refusal :=
  let c := s.core core
  match c.wait with
  | some (.full d) =>
    if s.hasRoom core (d.kind - 1) && !s.issueHeld core then
      .next (((s.setCore core { c with wait := none }).place core d).advance core)
    else .next s
  | _ => .next s

/-! ## Waits, frames, CSRs -/

/-- Commands outstanding that WAITQ Q counts; none for the illegal values 5 and 6 (R154). -/
def State.waitCount (s : State) (n : Nat) (q : BitVec 3) : Option Nat :=
  if q = 5 ∨ q = 6 then none
  else if q = 7 then some (s.outstandingAll n) else some (s.outstanding n q.toNat)

/-- DCI WAITQ (R154). -/
def execWaitq (core : CoreId) (q : BitVec 3) (imm : Imm) (s : State) : Outcome State Fault Refusal :=
  if !s.cpRuns core then .next s else
  match s.waitCount core q with
  | none => .next (s.illegal core)
  | some k =>
    if k ≤ imm.toNat then .next (s.advance core)
    else .next (s.onCore core fun c => { c with wait := some (.waitq q.toNat imm.toNat) })

/-- The outstanding count falls to the limit and the control processor goes on (R154). -/
def execWaitqSatisfied (core : CoreId) (s : State) : Outcome State Fault Refusal :=
  let c := s.core core
  match c.wait with
  | some (.waitq q imm) =>
    match s.waitCount core (BitVec.ofNat 3 q) with
    | some k => if k ≤ imm then .next ((s.setCore core { c with wait := none }).advance core) else .next s
    | none => .next s
  | _ => .next s

/-- DCI FCHK (R154, R161): the module check of the frame's other bytes into its last two. -/
def execFchk (core : CoreId) (ra : Reg) (q : BitVec 3) (imm : Imm) (cp : Bool) (s : State) : Outcome State Fault Refusal :=
  let c := s.core core
  if !s.cpRuns core then .next s else if cp then .next (s.cpFault core) else
  let k := if q.getLsbD 0 then 64 else 32
  let a := c.addr ra imm
  match scratchStatus a k with
  | some st => .next (s.endItem core st 0)
  | none =>
    if s.scratchFree core c.nextSeq [(true, a, a + k)] then
      let ch := c.schaffIn a k
      let s := if ch then s.itemChaff core else s
      .next (((s.setCore core (c.swrite (a + k - 2) (toLE 2 (moduleCheck (c.sread core a (k - 2))).toNat)
        (ch || c.tag ra))).noteItem core true (a + k - 2) 2).advance core)
    else .next s

/-- The value of a CSR (Table 5-11), or none for an unlisted number. -/
def State.csr (s : State) (n i : Nat) : Option W64 :=
  let c := s.core n
  let w (v : Nat) : Option W64 := some (BitVec.ofNat 64 v)
  match c.wi with
  | none => none
  | some x =>
    if i = 0 then w c.layer
    else if i = 1 then w c.oper
    else if i = 2 then w x.step
    else if i = 3 then w (n - x.firstCore)
    else if i = 4 then w n
    else if i = 5 then w x.part
    else if i = 6 then w x.model
    else if i = 7 then w ((x.ring.map (· % 4)).getD 0)
    else if 0x10 ≤ i ∧ i ≤ 0x14 then w (s.outstanding n (i - 0x10))
    else if i = 0x18 then w c.warn
    else if i = 0x20 then w s.timeNs
    else if i = 0x21 then w c.timeS
    else none

/-- DCI CSRR (R153, R155): IMM[39:12] must be 0; an unlisted number is illegal. A read of TIME_NS latches TIME_S. -/
def execCsrr (core : CoreId) (rd : Reg) (imm : Imm) (cp : Bool) (s : State) : Outcome State Fault Refusal :=
  s.dci core cp fun s =>
    match s.csr core imm.toNat with
    | some v =>
      let s := if imm.toNat = 0x20 then s.onCore core fun c => { c with timeS := s.timeS } else s
      s.result core rd v false
    | none => s.illegal core

/-- DCI CSRW (R155): LAYER and OPER are the RW CSRs; any other number is illegal. -/
def execCsrw (core : CoreId) (ra : Reg) (imm : Imm) (cp : Bool) (s : State) : Outcome State Fault Refusal :=
  s.dci core cp fun s =>
    let v := ((s.core core).reg ra).toNat % 65536
    if imm.toNat = 0 then (s.onCore core fun c => { c with layer := v }).advance core
    else if imm.toNat = 1 then (s.onCore core fun c => { c with oper := v }).advance core
    else s.illegal core

/-- DCI ERR (R153): the work item ends with DCI_SOFT and detail s[RA][15:0]. -/
def execErr (core : CoreId) (ra : Reg) (cp : Bool) (s : State) : Outcome State Fault Refusal :=
  s.dci core cp fun s => s.endItem core 0x0305 (((s.core core).reg ra).toNat % 65536)

/-- DCI END (R157): the work item waits for its commands to complete. -/
def execEndItem (core : CoreId) (s : State) : Outcome State Fault Refusal :=
  if s.cpRuns core then .next (s.onCore core fun c => { c with wait := some .ending }) else .next s

/-- Is a DCI word legal: a listed OPC, zero reserved bits (R152, R153), WAITQ's Q (R154), CSR numbers (R155). -/
def dciLegal (w : W64) : Bool :=
  let v := w.toNat
  let opc := bitsOf v 56 8
  let imm := bitsOf v 0 40
  let rFmt := bitsOf v 0 41 = 0
  let iFmt := bitsOf v 40 6 = 0
  let csrs := imm ≤ 7 || (0x10 ≤ imm && imm ≤ 0x14) || imm = 0x18 || imm = 0x20 || imm = 0x21
  if 0x01 ≤ opc ∧ opc ≤ 0x0F then rFmt
  else if opc = 0x11 ∨ (0x13 ≤ opc ∧ opc ≤ 0x15) ∨ opc = 0x1C ∨ opc = 0x1D then iFmt
  else if 0x16 ≤ opc ∧ opc ≤ 0x18 then iFmt && imm < 64
  else if opc = 0x1F then iFmt && imm < 0x1000000
  else if (0x20 ≤ opc ∧ opc ≤ 0x26) ∨ (0x28 ≤ opc ∧ opc ≤ 0x2B) then iFmt
  else if 0x30 ≤ opc ∧ opc ≤ 0x35 then iFmt
  else if opc = 0x36 ∨ opc = 0x37 then iFmt
  else if opc = 0x40 then bitsOf v 40 3 = 0
  else if opc = 0x48 then bitsOf v 40 3 = 0 && bitsOf v 43 3 ≠ 5 && bitsOf v 43 3 ≠ 6
  else if opc = 0x49 then bitsOf v 40 3 = 0
  else if opc = 0x4A then iFmt && csrs
  else if opc = 0x4B then iFmt && imm ≤ 1
  else if opc = 0x4E ∨ opc = 0x4F then iFmt
  else false

/-- A word the control processor fetches that is no legal instruction ends the work item with DCI_ILLEGAL (R152, R153). -/
def execDciIllegalInstruction (core : CoreId) (word : W64) (s : State) : Outcome State Fault Refusal :=
  if s.cpRuns core && !dciLegal word then .next (s.illegal core) else .next s

end Sys2Proof.Machine
end

