-- ==== Sys2Proof/Machine/Moves.lean ====
section
/-!
DEFINITION. Moves.lean: the move commands of a core (R166), the grants of staging space and Granary drills, and the
completion of moves (R192 to R206, R257, R272).
-/
namespace Sys2Proof.Machine

open Host (Outcome)

/-- Reserved bits of a move command: body [23:0], SUB of COPY, TCOPY, GATHER and DRILL, SUB above 3 of SCATTER, and of its
frame (R166, Table 5-18). -/
def moveRsvd (op sub : Nat) (f : List Byte) : Bool :=
  (if op = 3 then decide (3 < sub) else sub ≠ 0) || bitsOf (fieldB f 6 3) 18 6 ≠ 0 || fieldB f 9 1 / 2 ≠ 0 || !zeroB f 10 20

/-- The move engine, or the drill for DRILL, takes the move command at the head of its queue (R166, R192). -/
def State.moveCmd (s : State) (n op sub : Nat) (flips : List (Nat × Nat)) : State :=
  match s.take n 3 4 op (fun d => op ≠ 3 || d.sub = sub || 3 < d.sub) 32 with
  | .idle => s
  | .done s => s
  | .ok s1 d f =>
    if bitsOf d.body.toNat 0 24 ≠ 0 || moveRsvd op d.sub f then s1.failCmd n 0x0205 else
    let p := s.itemPart n
    match s.moveCheck (some n) p op d.sub f with
    | .status e => s1.failCmd n e
    | .fault tag => s1.confirm { s1.coreFault n 5 d with tag := tag }
    | .ok a b x perm ov need ch =>
      let det := op = 3 && bitAt (fieldB f 9 1) 0
      let coll := s.collective (some n) op d.sub b
      let scr := a.scratchSpans false ++ b.scratchSpans true ++ (match x with | some i => i.scratchSpans false | none => [])
      let mem := s.memSpans (some n) op d.sub (some a) (some b) x
      if !s.scratchFree n d.seq scr || !s.memFree n d.seq mem ||
          (a.kind ≠ 2 && s.orderHeld n d.seq false false) || (b.kind ≠ 2 && s.orderHeld n d.seq coll true) ||
          (op = 4 && s.moves.any fun m => m.core = some n && m.op = 4) then s
      else
        let c := s1.core n
        let chaff := d.chaff || ch || c.schaffIn d.frame 32
        let (ring, step) := match c.wi with
          | some w => (w.ring, w.step)
          | none => (none, 0)
        let s2 := if chaff then s1.itemChaff n else s1
        s2.acceptMove (some n) ring p step d op d.sub det a b x perm ov need chaff flips

/-- COPY (R193). `flips` here and below: data bits a transient flips in flight: (write in issue order, bit of its data). -/
def execCopy (core : CoreId) (flips : List (Nat × Nat)) (s : State) : Outcome State Fault Refusal := .next (s.moveCmd core 0 0 flips)
/-- TCOPY (R193). -/
def execTcopy (core : CoreId) (flips : List (Nat × Nat)) (s : State) : Outcome State Fault Refusal := .next (s.moveCmd core 1 0 flips)
/-- GATHER (R201). -/
def execGather (core : CoreId) (flips : List (Nat × Nat)) (s : State) : Outcome State Fault Refusal := .next (s.moveCmd core 2 0 flips)
/-- SCATTER REPLACE (R201, R203). -/
def execScatterReplace (core : CoreId) (flips : List (Nat × Nat)) (s : State) : Outcome State Fault Refusal := .next (s.moveCmd core 3 0 flips)
/-- SCATTER ADD (R203). -/
def execScatterAdd (core : CoreId) (flips : List (Nat × Nat)) (s : State) : Outcome State Fault Refusal := .next (s.moveCmd core 3 1 flips)
/-- SCATTER MAX (R203). -/
def execScatterMax (core : CoreId) (flips : List (Nat × Nat)) (s : State) : Outcome State Fault Refusal := .next (s.moveCmd core 3 2 flips)
/-- SCATTER MIN (R203). -/
def execScatterMin (core : CoreId) (flips : List (Nat × Nat)) (s : State) : Outcome State Fault Refusal := .next (s.moveCmd core 3 3 flips)
/-- DRILL (R166, R212, R213). -/
def execDrill (core : CoreId) (flips : List (Nat × Nat)) (s : State) : Outcome State Fault Refusal := .next (s.moveCmd core 4 0 flips)

/-- The staging pool of 64 MiB gives space to the first move that waits for it, in acceptance order (R198, R200). -/
def execStagingSpaceGrant (s : State) : Outcome State Fault Refusal :=
  match s.moves.find? fun m => m.st = .staging && !m.staged with
  | some m =>
    if s.stagingUsed + m.overlap ≤ 0x4000000 then
      .next ((s.onMove m.id fun x => { x with staged := true }).advanceMove m.id)
    else .next s
  | none => .next s

/-- One of the 128 Granary drills goes to the first move that waits for one, in acceptance order (R257). -/
def execGranaryDrillGrant (s : State) : Outcome State Fault Refusal :=
  match s.moves.find? fun m => m.st = .drill && !m.drill with
  | some m =>
    if (s.moves.filter fun x => x.drill).length < 128 then
      .next ((s.onMove m.id fun x => { x with drill := true }).advanceMove m.id)
    else .next s
  | none => .next s

/-- A move completes when all it wrote is performed or logged (R272): its staging space and drill are free again, and its
status, if any, is reported (R171, R627). -/
def execMoveComplete (id : Nat) (s : State) : Outcome State Fault Refusal :=
  match s.moves.find? fun m => m.id = id with
  | none => .next s
  | some m =>
    if m.op = 5 || m.st ≠ .writing || 0 < m.msgs || 0 < m.waits || s.contribs.any (fun c => c.move = some id) then .next s
    else
      let s := { s with moves := s.moves.filter fun x => x.id ≠ id }.endReleases
      match m.core with
      | some n => .next (if m.err = 0 then s else s.failCmd n m.err)
      | none =>
        let s := s.onStep m.ring m.step fun o => { o with entries := o.entries - 1 }
        .next (if m.err = 0 then s else
          s.stepError { ring := m.ring.getD 128, step := m.step, status := m.err, core := 0xFFFF, soft := 0, entry := m.entry, item := false })

end Sys2Proof.Machine
end

