-- ==== Sys2Proof/Machine/Sync.lean ====
section
/-!
DEFINITION. Sync.lean: fences, signals and waits of a core's sync unit (R54, R57, R167), and the end of fences and waits.
-/
namespace Sys2Proof.Machine

open Host (Outcome)

/-- The sync unit takes a FENCE (Table 5-19). A fence that covers none of the core's classes is performed at once; another
stands in the unit until FENCE_COMPLETE. -/
def State.fenceCmd (s : State) (n type : Nat) : State :=
  if (s.core n).sync.isSome then s else
  match s.take n 4 2 0 (fun d => bitsOf d.body.toNat 0 2 = type || bitsOf d.body.toNat 0 2 = 0) 0 with
  | .idle => s
  | .done s => s
  | .ok s1 d _ =>
    let b := d.body.toNat
    if bitsOf b 2 2 ≠ 0 ∨ bitsOf b 8 32 ≠ 0 then s1.failCmd n 0x0205
    else if bitsOf b 0 2 = 0 then s1.failCmd n 0x0903
    else
      let s1 := if d.chaff then s1.itemChaff n else s1
      if bitAt b 4 || bitAt b 6 then s1.onCore n fun c => { c with sync := some d, since := s.time.elapsed } else s1

/-- FENCE.REL (R54). -/
def execFenceRel (core : CoreId) (s : State) : Outcome State Fault Refusal := .next (s.fenceCmd core 1)
/-- FENCE.ACQ (R54). -/
def execFenceAcq (core : CoreId) (s : State) : Outcome State Fault Refusal := .next (s.fenceCmd core 2)
/-- FENCE.FULL (R54). -/
def execFenceFull (core : CoreId) (s : State) : Outcome State Fault Refusal := .next (s.fenceCmd core 3)

/-- A step's fence entry is performed: its ring goes on (R135). -/
def State.endHold (s : State) (r step : Nat) : State :=
  ((s.onRing r fun x => { x with hold := none }).onStep (some r) step fun o => { o with entries := o.entries - 1 }).ringState r

/-- What a fence waited for has been acknowledged (R54): the core's sync unit, or a ring of the front end, goes on. The
re-shard engine's fences end inside its job. -/
def execFenceComplete (src : Src) (s : State) : Outcome State Fault Refusal :=
  match src with
  | .core n =>
    match (s.core n).sync with
    | some d =>
      let b := d.body.toNat
      let type := bitsOf b 0 2
      -- remote signals of the core are earlier writes of the request class
      if d.op = 0 && !s.coreOpen n d.seq (bitAt b 4) (bitAt b 6) (type = 2) then
        .next (s.onCore n fun c => { c with sync := none })
      else .next s
    | none => .next s
  | .frontEnd p =>
    match (List.range 4).find? fun k => match (s.ring (p * 4 + k)).hold with
      | some (.fence type mask _ at_) => !s.feOpen p at_ (bitAt mask 0) (bitAt mask 2) (bitAt mask 3) (type = 2)
      | _ => false with
    | some k => match (s.ring (p * 4 + k)).hold with
      | some (.fence _ _ step _) => .next (s.endHold (p * 4 + k) step)
      | _ => .next s
    | none => .next s
  | _ => .next s

/-- The sync unit takes a SIGNAL, once every earlier access of the core is performed (R57). A second disagreement of the
Granary's units leaves the semaphore unchanged and is a fault GRN_ALU (R397). -/
def State.signalCmd (s : State) (n : Nat) (set : Bool) (mismatch : Nat) : State :=
  if (s.core n).sync.isSome then s else
  match s.take n 4 2 1 (fun d => d.sub = one set || 1 < d.sub) 32 with
  | .idle => s
  | .done s => s
  | .ok s1 d f =>
    if bitsOf d.body.toNat 0 24 ≠ 0 || semRsvd f false then s1.failCmd n 0x0205 else
    let p := s.itemPart n
    let addr := fieldB f 0 7
    let e := s.semCheck p addr d.sub false
    if e ≠ 0 then s1.failCmd n e
    else if s.coreOpen n d.seq true true false || !(s.core n).verify.isEmpty then s
    else
      let c := s1.core n
      let ch := d.chaff || c.schaffIn d.frame 32
      let s2 := if ch then s1.itemChaff n else s1
      let (ring, step) := match c.wi with
        | some w => (w.ring, w.step)
        | none => (none, 0)
      let v := fieldB f 8 8
      let here := addr / 0x10000000000 = s.selfId
      let a := localOf addr
      if here && 2 ≤ mismatch then s2.confirm { s2.coreFault n 9 d with addr := addr }
      else
        let s2 := s2.ledger ring step { addr := addr, set := set, value := v, before := if here then s.semValue a else 0 }
        if here then s2.signalLocal a set v ch
        else (s2.signalRemote (.core n) (some n) ring step addr set v ch).onCore n fun c => { c with sync := some d, since := s.time.elapsed }

/-- SIGNAL ADD (R167). -/
def execSignalAdd (core : CoreId) (mismatch : Nat) (s : State) : Outcome State Fault Refusal := .next (s.signalCmd core false mismatch)
/-- SIGNAL SET (R167). -/
def execSignalSet (core : CoreId) (mismatch : Nat) (s : State) : Outcome State Fault Refusal := .next (s.signalCmd core true mismatch)

/-- The sync unit takes a WAIT, which enters the wait table (R261). -/
def State.waitCmd (s : State) (n : Nat) (eq : Bool) : State :=
  if (s.core n).sync.isSome then s else
  match s.take n 4 2 2 (fun d => d.sub = one eq || 1 < d.sub) 32 with
  | .idle => s
  | .done s => s
  | .ok s1 d f =>
    if bitsOf d.body.toNat 0 24 ≠ 0 || semRsvd f true then s1.failCmd n 0x0205 else
    let addr := fieldB f 0 7
    let e := s.semCheck (s.itemPart n) addr d.sub true
    if e ≠ 0 then s1.failCmd n e
    else
      let c := s1.core n
      let s2 := if d.chaff || c.schaffIn d.frame 32 then s1.itemChaff n else s1
      let t := fieldB f 16 4
      let w : SemWait :=
        { since := s.time.elapsed, core := some n, ring := match c.wi with | some w => w.ring | none => none, step := d.step, sem := localOf addr,
          value := fieldB f 8 8, eq := eq, deadline := if t = 0 then none else some (s.time.elapsed + t * 1000), met := none, entry := none }
      { s2 with waits := s2.waits ++ [w] }.onCore n fun c => { c with sync := some d, since := s.time.elapsed }

/-- WAIT GE (R167). -/
def execWaitGe (core : CoreId) (s : State) : Outcome State Fault Refusal := .next (s.waitCmd core false)
/-- WAIT EQ (R167). -/
def execWaitEq (core : CoreId) (s : State) : Outcome State Fault Refusal := .next (s.waitCmd core true)

/-- The wait of a waiter in the wait table. -/
def State.waitOf (s : State) (who : Waiter) : Option SemWait :=
  match who with
  | .core n => s.waits.find? fun w => w.core = some n.val
  | .ring r => s.waits.find? fun w => w.core.isNone && w.ring = some r.val

/-- A semaphore has reached the awaited value, or is poisoned: the wait completes (R57, R420); on a poisoned or chaff
semaphore its step consumes chaff. -/
def execSemWaitComplete (who : Waiter) (s : State) : Outcome State Fault Refusal :=
  match s.waitOf who with
  | none => .next s
  | some w =>
    if !s.waitMet w then .next s else
    let ch := w.met.getD (s.semValue w.sem = poison || s.isChaff w.sem)
    let s := { s with waits := s.waits.erase w }
    match who with
    | .core n =>
      let s := if ch then s.itemChaff n else s
      .next (s.onCore n fun c => { c with sync := none })
    | .ring r =>
      let s := if ch then s.consumeChaff (some r.val) w.step else s
      .next (s.endHold r w.step)

/-- A WAIT with a bound has not completed in time: it fails with SEM_TIMEOUT (R167). -/
def execSemTimeout (who : Waiter) (s : State) : Outcome State Fault Refusal :=
  match s.waitOf who with
  | none => .next s
  | some w =>
    match w.deadline with
    | none => .next s
    | some t =>
      if s.time.elapsed < t ∨ s.waitMet w then .next s else
      let s := { s with waits := s.waits.erase w }
      match who with
      | .core n => .next ((s.onCore n fun c => { c with sync := none }).failCmd n 0x0902)
      | .ring r =>
        .next ((s.endHold r w.step).stepError
          { ring := r, step := w.step, status := 0x0902, core := 0xFFFF, soft := 0, entry := w.entry, item := false })

end Sys2Proof.Machine
end

