-- ==== Sys2Proof/Machine/Entries.lean ====
section
/-!
DEFINITION. Entries.lean: the command front end takes entries from a submission ring (R133 to R150, R325 to R327, R422,
R628, R632), commits steps and reports errors.
-/
namespace Sys2Proof.Machine

open Host (Outcome)

/-! ## Reading entries -/

/-- Ring index the front end reads next: in a replay the place it has reached, else RING_HEAD (R422). -/
def State.readIdx (s : State) (r : Nat) : Nat := ((s.ring r).replay).getD (s.fget F.ringHead_HEAD r)

/-- Is there an entry the front end may read from the ring: the ring runs, nothing holds it, an entry is available. -/
def State.ringOpen (s : State) (r : Nat) : Bool :=
  let x := s.ring r
  (s.partOf (partOfRing r)).isSome && s.flag F.ringCfg_ENABLE r && !s.flag F.ringState_HALTED r && !x.disabling &&
  !s.ringQuiet r && !s.isUnready && !s.isFailsafe && s.sleep = 0 && x.held.isEmpty && x.hold.isNone &&
  !(x.steps.any fun o => match o.st with | .stopped _ => true | _ => false) &&
  (x.replay.isSome || s.fget F.ringHead_HEAD r ≠ x.tail)

/-- The entry at the place read next: from Granary scratchpad, or as the host's memory gives it (R137), which has given it already if it was
read and had to wait. None when it cannot be read: the link is down, the ring lies beyond the partition's bins, or the bytes carry chaff (R632). -/
def State.entryAt (s : State) (r : Nat) (given : List Byte) : Option (List Byte) :=
  let n := s.ringSize r
  let p := partOfRing r
  match s.ringOff r with
  | some o =>
    let a := o + s.readIdx r % n * 64
    if !s.spHas p o (n * 64) || s.spChaff p a 64 then none else s.spRead p a 64
  | none =>
    match (s.ring r).fetched with
    | some e => some e
    | none => if s.host.link then some (sliceB given 0 64) else none

/-- TYPE, STEP, LAYER and OPER of an entry (Table 5-5). -/
def entType (e : List Byte) : Nat := fieldB e 0 1
def entStep (e : List Byte) : Nat := fieldB e 8 4
def entIrq (e : List Byte) : Bool := bitAt (fieldB e 1 1) 0
def entAfter (e : List Byte) : Bool := bitAt (fieldB e 1 1) 1

/-- The 64 bytes of the entry at the head of a ring in host memory arrive for a row of their type, and wait to be taken (R134). -/
def State.fetch (s : State) (r : Nat) (mine : Nat → Bool) (given : List Byte) : State :=
  if (s.ringOff r).isNone && s.ringOpen r && s.host.link && (s.ring r).fetched.isNone && mine (entType (sliceB given 0 64)) then
    s.onRing r fun x => { x with fetched := some (sliceB given 0 64) }
  else s

/-- The step whose entries the front end is taking: the first open one whose COMMIT it has not taken. -/
def Ring.cur (x : Ring) : Option OpenStep := x.steps.find? fun o => !o.commitTaken

/-- Go past the entry read: its partition has had its turn (R134). -/
def State.nextEntry (s : State) (r : Nat) : State :=
  let n := 2 * s.ringSize r
  let s := { s with served := partOfRing r, ready := s.ready.filter fun x => x.1 ≠ r }.onRing r fun x => { x with since := s.time.elapsed, fetched := none }
  match (s.ring r).replay with
  | some i =>
    let j := (i + 1) % n
    s.onRing r fun x => { x with replay := if j = s.fget F.ringHead_HEAD r then none else some j }
  | none => s.fset F.ringHead_HEAD r ((s.fget F.ringHead_HEAD r + 1) % n)

/-- The reserved bits every entry has (Table 5-5), and a range of its body. -/
def entRsvd (e : List Byte) (lo : Nat) : Bool := fieldB e 1 1 / 4 ≠ 0 || !zeroB e 6 2 || !zeroB e lo (62 - lo)

/-- Does an entry carry the step number R144 asks for. -/
def Ring.orderOk (x : Ring) (e : List Byte) : Bool :=
  match x.cur with
  | some o => o.step = entStep e
  | none => x.replay.isNone && (match x.next with | some n => n = entStep e | none => true)

/-- The ring halts with a status because of an entry read (R142 to R144, R171, R172). The step the entry belongs to is
cancelled with every later one; an entry that would have opened its step leaves the rest of that step to be discarded. -/
def State.entryErr (s : State) (r : Nat) (e : List Byte) (status : Nat) : State :=
  let idx := s.readIdx r
  let x := s.ring r
  let t := entType e
  let at_ : ErrPlace := { type := t, entry := idx, irq := entIrq e }
  let s := s.nextEntry r
  let alone (s : State) (step errStep : Nat) : State :=
    (s.writeCpl r { step := step, status := status, type := t, warn := false, irq := at_.irq, entry := idx, core := 0xFFFF, detail := 0 }).halt
      r status errStep
  let isCommit := t = 2 && status ≠ 0x0B02 && status ≠ 0x0B07
  let gone := if x.replay.isNone then x.discard.head? else none
  if t = 7 && status ≠ 0x0B02 then
    alone s (fieldB e 12 4) (gone.getD ((x.cur.map OpenStep.step).getD (x.next.getD 0)))
  else if gone.isSome then alone s (gone.getD 0) (gone.getD 0)
  else
    match x.cur with
    | some o =>
      let s := if isCommit then s.onStep (some r) o.step fun y => { y with commitIdx := idx } else s
      s.cancelFrom r o.step status 0xFFFF 0 (some at_)
    | none =>
      if status = 0x0B02 then alone s (x.next.getD 0) (x.next.getD 0)
      else if status = 0x0B07 then alone s (entStep e) (entStep e)
      else
        let s := s.onRing r fun y => { y with discard := if isCommit then [] else [entStep e], next := if isCommit then none else y.next }
        alone s (entStep e) (entStep e)

/-- What reading the entry at a ring's head gives a row of entry type: nothing to do, or done with, or the entry with the
common checks passed. -/
inductive EntTake where
  | idle
  | done (s : State)
  | ok (e : List Byte)

/-- Does AFTER_COMMIT hold an entry: an earlier step of its ring is open (Table 5-5). -/
def Ring.afterHeld (x : Ring) (e : List Byte) : Bool := entAfter e && x.steps.any OpenStep.commitTaken

/-- Read the entry at a ring's head for the types `mine` names: CHECK (R142), discarding after a cancel (R172) or in a
step closed for an export (R421), TYPE, AFTER_COMMIT and the four open steps (R145). -/
def State.headEntry (s : State) (r : Nat) (mine : Nat → Bool) (given : List Byte) : EntTake :=
  if !s.ringOpen r then .idle else
  match s.entryAt r given with
  | none => .idle
  | some e =>
    let x := s.ring r
    let t := entType e
    if !mine t then .idle
    else if !checkOk e 64 then .done (s.entryErr r e 0x0B02)
    else if x.discard ≠ [] && x.replay.isNone then
      if t = 7 then if x.afterHeld e then .idle else .ok e
      else if x.discard.contains (entStep e) then
        let s := s.nextEntry r
        if t = 2 then
          let d := x.discard.erase (entStep e)
          .done (s.onRing r fun y => { y with discard := d, next := if d.isEmpty then none else y.next })
        else .done s
      else .done (s.entryErr r e 0x0B07)
    else
      match x.cur with
      | some o =>
        if o.st = .closing && t ≠ 7 then
          let idx := s.readIdx r
          let s := s.nextEntry r
          if t = 2 then
            .done (((s.onStep (some r) o.step fun y => { y with commitTaken := true, commitIdx := idx, commitIrq := entIrq e }).onRing r
              fun y => { y with next := some ((o.step + 1) % 2 ^ 32) }))
          else .done s
        else if t = 0 || 7 < t then .done (s.entryErr r e 0x0B01)
        else if x.afterHeld e then .idle
        else .ok e
      | none =>
        if t = 0 || 7 < t then .done (s.entryErr r e 0x0B01)
        else if x.afterHeld e then .idle
        else if t ≠ 7 && 4 ≤ x.steps.length then .idle
        else .ok e

/-- Does the work queue of a core of a DISPATCH lack room (R149). -/
def State.dispatchHeld (s : State) (e : List Byte) : Bool :=
  (List.range (fieldB e 18 2)).any fun i => decide (32 ≤ (s.core (fieldB e 16 2 + i)).queue.length)

/-- Does a unit (R451, R480), or an earlier access of the front end of those R47 orders before it, hold a MOVE entry with these accesses. -/
def State.moveHeld (s : State) (p : Nat) (mem : List MemSpan) : Bool :=
  let earlier := (s.moves.filter fun m => m.core.isNone && m.ring.isSome && m.part = p).flatMap s.moveMem
  mem.any fun u => s.spanHeld u || earlier.any fun v => s.memConflict u v

/-- Does a rule hold an entry that has passed the common checks: a DISPATCH a full work queue (R149), a MOVE entry an earlier access (R47), a SIGNAL
every earlier access of the front end (R57). -/
def State.entryHeld (s : State) (r : Nat) (e : List Byte) : Bool :=
  let t := entType e
  let p := partOfRing r
  let op := fieldB e 12 1
  if t = 1 then s.dispatchHeld e
  else if t = 3 then
    match s.moveCheck none p op (fieldB e 13 1) (sliceB e 16 30) with
    | .ok a b x _ _ _ _ => s.moveHeld p (s.memSpans none op (fieldB e 13 1) (some a) (some b) x)
    | _ => false
  else if t = 5 && op = 1 then s.feOpen p (s.feSeq p) true true true false
  else false

/-- Is the entry at a ring's head ready (R134): it has been read, and no rule holds it. -/
def State.entryReady (s : State) (r : Nat) : Bool :=
  if (s.ringOff r).isNone && (s.ring r).fetched.isNone then false
  else
    match s.headEntry r (fun _ => true) [] with
    | .idle => false
    | .done _ => true
    | .ok e => !s.entryHeld r e

/-- The rings whose head entry is ready now, each with the module time since which it is. -/
def State.readyNow (s : State) : List (Nat × Nat) :=
  (s.rings.filter fun x => s.entryReady x.1).map fun x => (x.1, alGet s.time.elapsed s.ready x.1)

/-- Module time since which the head entry of a ring has been ready. -/
def State.readyAt (s : State) (r : Nat) : Nat := alGet s.time.elapsed s.ready r

/-- The ring the front end of a partition serves next (R134), of those with an entry ready, highest class first: a lower class whose entry has been
ready for 50 µs, the longest ready first, else the highest class. -/
def State.ringNext (s : State) : List Nat → Option Nat
  | [] => none
  | hi :: lower =>
    let old := lower.filter fun q => decide (s.readyAt q + 50000 ≤ s.time.elapsed)
    some ((old.find? fun q => old.all fun x => decide (s.readyAt q ≤ s.readyAt x)).getD hi)

/-- Is it the turn of a ring's head entry (R134): the partitions with ready entries are served in round robin after the one served last. -/
def State.entryTurn (s : State) (r : Nat) : Bool :=
  let p := partOfRing r
  let turn (q : Nat) : Nat := (partOfRing q + 31 - s.served) % 32
  s.ringNext (((List.range 4).map (4 * p + ·)).filter fun q => q = r || s.entryReady q) = some r &&
  s.rings.all fun x => partOfRing x.1 = p || decide (turn r < turn x.1) || !s.entryReady x.1

/-- Read the entry at a ring's head, when it is its turn; an entry that has to wait stays read. -/
def State.takeEntry (s : State) (r : Nat) (mine : Nat → Bool) (given : List Byte) : EntTake :=
  match (if s.entryTurn r then s.headEntry r mine given else .idle) with
  | .idle => .done (s.fetch r mine given)
  | t => t

/-- An open step that nothing has been done for yet. -/
def OpenStep.fresh (step : Nat) (head : ErrPlace) : OpenStep :=
  { step := step, st := .run, head := head, commitTaken := false, commitIdx := noIdx, commitIrq := false, items := 0, entries := 0,
    replays := 0, chaff := false, warn := 0, exported := false, ledger := [], models := [], retaken := 0,
    batches := [], live := [], badFrames := [], detDone := false, charged := [], broken := false, placed := [] }

/-- Take an entry: its step is opened if it is not open (R144), and the front end goes past it. -/
def State.accept (s : State) (r : Nat) (e : List Byte) : State :=
  let idx := s.readIdx r
  let s := match (s.ring r).cur with
    | some _ => s
    | none => s.onRing r fun x => { x with steps := x.steps ++ [OpenStep.fresh (entStep e) ⟨entType e, idx, entIrq e⟩] }
  (s.nextEntry r).ringState r

/-- One more front-end entry of a step in progress. -/
def State.addEntry (s : State) (r : Nat) (e : List Byte) : State :=
  s.onStep (some r) (entStep e) fun o => { o with entries := o.entries + 1 }

/-! ## DISPATCH (R148 to R150, R325 to R327) -/

/-- Resolve one batch entry at scratchpad offset `a` (R326). -/
def State.resolveEntry (s : State) (r step model a : Nat) : State :=
  let p := partOfRing r
  match s.spRead p a 8 with
  | none => s
  | some b =>
    let k := fieldB b 0 4 % 0x200000
    let adv := fieldB b 4 2
    let s := s.ctxVerify k
    let c := s.ctx k
    let count := match (s.ring r).openStep step with | some o => o.live.length | none => 0
    let res : Nat :=
      if !s.strmOn ∨ c.state = 0 then 1
      else if c.part ≠ p then 2
      else if c.state ≠ 1 then 1
      else if c.model ≠ model then 4
      else if c.holdJob then 3
      else if c.holdBy then (if c.heldBy r step then 0 else 3)
      else if c.limit < c.position + adv then 5
      else if 16384 ≤ count then 6
      else 0
    let s := if res = 0 ∧ !c.holdBy then
        (s.setCtx k { c with holdBy := true, holdStep := step, holdRing := r, holdAdv := adv }).onStep (some r) step fun o =>
          { o with live := o.live ++ [k] }
      else s
    (s.spWrite p (a + 6) (toLE 1 res)).spWrite p (a + 8) (if res = 0 then toLE 4 c.position ++ toLE 4 c.kvSlot else List.replicate 8 0)

/-- Offset and number of entries of a batch list, or the status of its reading (R325): of the header COUNT is read, of each entry its stream and
ADVANCE. -/
def State.batchOf (s : State) (p batch : Nat) : Nat ⊕ (Nat × Nat) :=
  let off := batch * 64
  match s.spRead p off 16 with
  | none => .inl 0x0A02
  | some h =>
    let n := fieldB h 0 2 % 4096 + 1
    if !s.spHas p off (16 + 16 * n) then .inl 0x0A02
    else if s.spChaff p off 2 || (List.range n).any fun i => s.spChaff p (off + 16 + 16 * i) 6 then .inl 0x0B08
    else .inr (off, n)

/-- Place a work item of a DISPATCH on each core (R148). -/
def State.placeItems (s : State) (w : WorkItem) (first count : Nat) : State :=
  (List.range count).foldl (fun (s : State) i => s.onCore (first + i) fun c => { c with queue := c.queue ++ [w] }) s

/-- DISPATCH. The entry waits while a core's work queue is full (R149). -/
def execDispatch (ring : RingId) (bytes : List Byte) (s : State) : Outcome State Fault Refusal :=
  let r := ring.val
  match s.takeEntry r (· = 1) bytes with
  | .idle => .next s
  | .done s => .next s
  | .ok e =>
    let p := partOfRing r
    let x := s.ring r
    let first := fieldB e 16 2
    let count := fieldB e 18 2
    let model := fieldB e 20 2
    let batch := fieldB e 56 4
    let owned := match s.partOf p with
      | some q => decide (1 ≤ count ∧ q.first ≤ first ∧ first + count ≤ q.first + q.count)
      | none => false
    let again := x.replay.isSome
    let kept := match x.cur with | some o => o.models[o.retaken]? | none => none
    let before := ((s.partOf p).bind Part.model).getD 0xFFFF
    let force := if again then kept.getD before else if model = 0xFFFF then before else model
    let s := if model ≠ 0xFFFF && model < 4096 && !again then s.mdlVerify model else s
    if s.isFailsafe then .next s
    else if entRsvd e 60 || !zeroB e 22 2 then .next (s.entryErr r e 0x0205)
    else if !x.orderOk e then .next (s.entryErr r e 0x0B07)
    else if !owned then .next (s.entryErr r e 0x0B05)
    else if !again && model ≠ 0xFFFF && !s.mdlResident p model then .next (s.entryErr r e 0x0B06)
    else
      match (if batch = 0 || again then Sum.inr (0, 0) else s.batchOf p batch) with
      | .inl st => .next (s.entryErr r e st)
      | .inr (off, n) =>
        if s.dispatchHeld e then .next (s.fetch r (· = 1) bytes)
        else
          let place : ErrPlace := ⟨1, s.readIdx r, entIrq e⟩
          let s := s.accept r e
          let step := entStep e
          let s := { s with parts := s.parts.map fun (y : Nat × Part) => if y.1 = p then (y.1, { y.2 with model := if force = 0xFFFF then none else some force }) else y }
          let s := s.onStep (some r) step fun o =>
            { o with models := if again then o.models else o.models ++ [force], retaken := o.retaken + 1, items := o.items + count, placed := o.placed ++ [(first, count)],
                     batches := if batch = 0 ∨ again then o.batches else o.batches ++ [off] }
          let s := if again then s else (List.range n).foldl (fun (s : State) i => s.resolveEntry r step force (off + 16 + 16 * i)) s
          if s.isFailsafe then .next s
          else
            let role := fieldB e 12 2
            let d := s.mdl force
            let img := if force = 0xFFFF then role else if role < d.roleCount then d.roleBase + role else s.roles.length
            let w : WorkItem :=
              { ring := some r, part := p, step := step, layer := fieldB e 2 2, oper := fieldB e 4 2, role := img, entry := fieldB e 14 2,
                firstCore := first, arg0 := BitVec.ofNat 64 (fieldB e 24 8), arg1 := BitVec.ofNat 64 (fieldB e 32 8),
                arg2 := BitVec.ofNat 64 (fieldB e 40 8), arg3 := BitVec.ofNat 64 (fieldB e 48 8), batch := batch, model := force,
                dead := false, place := place }
            .next (s.placeItems w first count)

/-! ## COMMIT, FENCE, NOP, MARK -/

/-- The front end takes its next place in its issue order (R135, R205). -/
def State.feNext (s : State) (p : Nat) : Nat × State :=
  (s.feSeq p, { s with parts := s.parts.map fun (y : Nat × Part) => if y.1 = p then (y.1, { y.2 with feSeq := y.2.feSeq + 1 }) else y })

/-- COMMIT: closes the step (R144, R146). -/
def execCommitEntry (ring : RingId) (bytes : List Byte) (s : State) : Outcome State Fault Refusal :=
  let r := ring.val
  match s.takeEntry r (· = 2) bytes with
  | .idle => .next s
  | .done s => .next s
  | .ok e =>
    if entRsvd e 12 then .next (s.entryErr r e 0x0205)
    else if !(s.ring r).orderOk e then .next (s.entryErr r e 0x0B07)
    else
      let idx := s.readIdx r
      let s := s.accept r e
      .next (((s.onStep (some r) (entStep e) fun o => { o with commitTaken := true, commitIdx := idx, commitIrq := entIrq e }).onRing r
        fun x => { x with next := some ((entStep e + 1) % 2 ^ 32), replay := if x.steps.all OpenStep.commitTaken then none else x.replay }))

/-- FENCE entry: it holds its ring until what it waits for is acknowledged (R54, R135); a MASK without the request, collective and
management classes finds nothing to wait for. -/
def execFenceEntry (ring : RingId) (bytes : List Byte) (s : State) : Outcome State Fault Refusal :=
  let r := ring.val
  match s.takeEntry r (· = 4) bytes with
  | .idle => .next s
  | .done s => .next s
  | .ok e =>
    let type := fieldB e 12 1
    let mask := fieldB e 13 1
    if entRsvd e 14 || 3 < type || 15 < mask then .next (s.entryErr r e 0x0205)
    else if !(s.ring r).orderOk e then .next (s.entryErr r e 0x0B07)
    else if type = 0 then .next (s.entryErr r e 0x0903)
    else
      let s := s.accept r e
      if bitAt mask 0 || bitAt mask 2 || bitAt mask 3 then
        let (seq, s) := s.feNext (partOfRing r)
        .next (((s.addEntry r e).onRing r fun x => { x with hold := some (.fence type mask (entStep e) seq) }).ringState r)
      else .next s

/-- NOP entry. -/
def execNopEntry (ring : RingId) (bytes : List Byte) (s : State) : Outcome State Fault Refusal :=
  let r := ring.val
  match s.takeEntry r (· = 6) bytes with
  | .idle => .next s
  | .done s => .next s
  | .ok e =>
    if entRsvd e 12 then .next (s.entryErr r e 0x0205)
    else if !(s.ring r).orderOk e then .next (s.entryErr r e 0x0B07)
    else .next (s.accept r e)

/-- MARK: a completion record with its TAG; a replay does not perform it again. -/
def execMark (ring : RingId) (bytes : List Byte) (s : State) : Outcome State Fault Refusal :=
  let r := ring.val
  match s.takeEntry r (· = 7) bytes with
  | .idle => .next s
  | .done s => .next s
  | .ok e =>
    if entRsvd e 16 then .next (s.entryErr r e 0x0205)
    else
      let idx := s.readIdx r
      let again := (s.ring r).replay.isSome
      let s := s.nextEntry r
      if again then .next s
      else .next (s.writeCpl r { step := fieldB e 12 4, status := 0, type := 7, warn := false, irq := entIrq e, entry := idx,
                                 core := 0xFFFF, detail := 0 })

/-- An entry whose TYPE is not listed (R143). -/
def execUnlistedEntryType (ring : RingId) (bytes : List Byte) (s : State) : Outcome State Fault Refusal :=
  match s.takeEntry ring (fun t => t = 0 || 7 < t) bytes with
  | .idle => .next s
  | .done s => .next s
  | .ok _ => .next s

/-! ## MOVE and SEM -/

/-- MOVE entry: checked as a move of the front end (R143, R627); it waits for earlier accesses of the front end that R47 orders
before it. -/
def execMoveEntry (ring : RingId) (bytes : List Byte) (s : State) : Outcome State Fault Refusal :=
  let r := ring.val
  match s.takeEntry r (· = 3) bytes with
  | .idle => .next s
  | .done s => .next s
  | .ok e =>
    let p := partOfRing r
    let op := fieldB e 12 1
    let sub := fieldB e 13 1
    let f := sliceB e 16 30
    if 4 < op then .next (s.entryErr r e 0x0203)
    else if entRsvd e 46 || !zeroB e 14 2 || moveRsvd op sub f then .next (s.entryErr r e 0x0205)
    else if !(s.ring r).orderOk e then .next (s.entryErr r e 0x0B07)
    else
      match s.moveCheck none p op sub f with
      | .status st => .next (s.entryErr r e st)
      | .fault tag =>
        let s := s.accept r e
        .next (s.confirm { FaultRec.blank 5 with part := p, ring := r, step := entStep e, layer := fieldB e 2 2, oper := fieldB e 4 2, tag := tag })
      | .ok a b x perm ov need ch =>
        let det := op = 3 && bitAt (fieldB f 9 1) 0
        if s.moveHeld p (s.memSpans none op sub (some a) (some b) x) then .next (s.fetch r (· = 3) bytes)
        else
          let place : ErrPlace := ⟨3, s.readIdx r, entIrq e⟩
          let s := (s.accept r e).addEntry r e
          let (seq, s) := s.feNext p
          let s := if ch then s.consumeChaff (some r) (entStep e) else s
          let cmd : Cmd := { seq := seq, layer := fieldB e 2 2, oper := fieldB e 4 2, step := entStep e, kind := 4, op := op,
                             body := 0, chk := 0, chaff := false }
          .next (s.acceptMove none (some r) p (entStep e) cmd op sub det a b x perm ov need ch [] (some place))

/-- Checks a SEM entry shares: OP (any row of the type handles an OP not listed), reserved bits, step order, then R167; 0 when
they pass. -/
def State.semEntryCheck (s : State) (r : Nat) (e : List Byte) (wait : Bool) : Nat :=
  let op := fieldB e 12 1
  let f := sliceB e 16 30
  if op ≠ 1 ∧ op ≠ 2 then 0x0203
  else if entRsvd e 46 || !zeroB e 14 2 || semRsvd f wait then 0x0205
  else if !(s.ring r).orderOk e then 0x0B07
  else s.semCheck (partOfRing r) (fieldB f 0 7) (fieldB e 13 1) wait

/-- SEM entry with SIGNAL (R57, R167): performed after every earlier access of the front end. A second disagreement of the
Granary's units is a fault GRN_ALU (R397). -/
def execSemSignalEntry (ring : RingId) (bytes : List Byte) (mismatch : Nat) (s : State) : Outcome State Fault Refusal :=
  let r := ring.val
  match s.takeEntry r (· = 5) bytes with
  | .idle => .next s
  | .done s => .next s
  | .ok e =>
    if fieldB e 12 1 = 2 then .next s else
    let p := partOfRing r
    let st := s.semEntryCheck r e false
    if st ≠ 0 then .next (s.entryErr r e st)
    else if s.feOpen p (s.feSeq p) true true true false then .next (s.fetch r (· = 5) bytes)
    else
      let f := sliceB e 16 30
      let addr := fieldB f 0 7
      let set := fieldB e 13 1 = 1
      let v := fieldB f 8 8
      let here := addr / 0x10000000000 = s.selfId
      let a := localOf addr
      let place : ErrPlace := ⟨5, s.readIdx r, entIrq e⟩
      let s := s.accept r e
      if here && 2 ≤ mismatch then
        .next (s.confirm { FaultRec.blank 9 with part := p, ring := r, step := entStep e, layer := fieldB e 2 2, oper := fieldB e 4 2,
                                                 addr := addr })
      else
        let s := s.ledger (some r) (entStep e) { addr := addr, set := set, value := v, before := if here then s.semValue a else 0 }
        .next (if here then s.signalLocal a set v false
          else s.signalRemote (.frontEnd p) none (some r) (entStep e) addr set v false (some place))

/-- SEM entry with WAIT (R57, R135, R167). -/
def execSemWaitEntry (ring : RingId) (bytes : List Byte) (s : State) : Outcome State Fault Refusal :=
  let r := ring.val
  match s.takeEntry r (· = 5) bytes with
  | .idle => .next s
  | .done s => .next s
  | .ok e =>
    if fieldB e 12 1 ≠ 2 then .next s else
    let st := s.semEntryCheck r e true
    if st ≠ 0 then .next (s.entryErr r e st)
    else
      let f := sliceB e 16 30
      let t := fieldB f 16 4
      let sem := localOf (fieldB f 0 7)
      let value := fieldB f 8 8
      let dl := if t = 0 then none else some (s.time.elapsed + t * 1000)
      let w : SemWait :=
        { since := s.time.elapsed, core := none, ring := some r, step := entStep e, sem := sem, value := value, eq := fieldB e 13 1 = 1,
          deadline := dl, met := none, entry := some ⟨5, s.readIdx r, entIrq e⟩ }
      let s := (s.accept r e).addEntry r e
      let s := { s with waits := s.waits ++ [w] }
      .next ((s.onRing r fun x => { x with hold := some (.wait (entStep e) sem value (fieldB e 13 1) dl) }).ringState r)

/-! ## Commit, errors, rings that cannot be read or written -/

/-- The oldest open step commits (R146). -/
def execStepCommit (ring : RingId) (s : State) : Outcome State Fault Refusal :=
  match (s.ring ring).steps with
  | o :: _ => if s.canCommit ring o && !s.isFailsafe then .next (s.commitStep ring o) else .next s
  | [] => .next s

/-- An entry of a submission ring cannot be read (R632): the link is down, the host answered with an error or poisoned data, the
scratchpad bytes carry chaff (RING_FETCH), or the ring lies beyond the partition's bins (NOT_OWNED). -/
def execRingReadFail (ring : RingId) (s : State) : Outcome State Fault Refusal :=
  let r := ring.val
  let x := s.ring r
  let idx := s.readIdx r
  if !s.ringOpen r then .next s else
  let p := partOfRing r
  let n := s.ringSize r
  let status := match s.ringOff r with
    | some o => if !s.spHas p o (n * 64) then 0x0A02 else if s.spChaff p (o + idx % n * 64) 64 then 0x0B08 else 0
    | none => if x.fetched.isSome then 0 else 0x0B08
  if status = 0 then .next s
  else
    match x.cur with
    | some o => .next (s.cancelFrom r o.step status 0xFFFF 0 (some { type := 0, entry := idx, irq := false }))
    | none =>
      let step := x.next.getD 0
      .next ((s.writeCpl r { step := step, status := status, type := 0, warn := false, irq := false, entry := idx, core := 0xFFFF,
                             detail := 0 }).halt r status step)

/-- A completion record cannot be written (R632): it and those behind it are lost, the ring halts, and its open steps are cancelled
without records. -/
def execCplWriteFail (ring : RingId) (s : State) : Outcome State Fault Refusal :=
  let r := ring.val
  let x := s.ring r
  match x.held, x.lost with
  | (_, c) :: _, some code =>
    let lost := x.held.length + x.steps.length
    let s := (s.onRing r fun y => { y with held := [], lost := none }).dropSteps r x.steps
    let s := if code = 0x0B08 then s.fadd F.hostErrCnt_COUNT 0 lost else s
    .next (s.halt r code c.step)
  | _, _ => .next s

/-- An error of a command, work item or entry reaches the front end (R171). An error of a step that is being stopped for a replay is
discarded (Table 12-8). -/
def execCmdErrorReport (s : State) : Outcome State Fault Refusal :=
  match s.errQ with
  | [] => .next s
  | e :: rest =>
    let s := { s with errQ := rest }
    match (s.ring e.ring).openStep e.step with
    | some o =>
      if o.st = .run then
        .next (s.cancelFrom e.ring e.step e.status e.core e.soft e.entry)
      else .next s
    | none => .next s

end Sys2Proof.Machine
end

