-- ==== Sys2Proof/Machine/TimeOps.lean ====
section
/-!
DEFINITION. TimeOps.lean: the module time counter, its states and its corrections (R60, R62, R562 to R566).
-/
namespace Sys2Proof.Machine

/-- Change the PTP clock. -/
def State.onPtp (s : State) (f : PtpSt → PtpSt) : State := { s with time := { s.time with ptp := f s.time.ptp } }

/-- TIME_UNC (R566). -/
def State.timeUnc (s : State) : Nat :=
  let p := s.time.ptp
  match s.time.state with
  | 2 => p.mags.foldl max 0 + 25
  | 3 => min 0xFFFFFFFF (p.held + 2 * ((s.time.elapsed - p.lastSync) / 1000000))
  | _ => 0xFFFFFFFF

/-- A TIME event: state, offset in ns, uncertainty (Table 17-7). -/
def State.timeEvent (s : State) (off : Int) : State := s.event 0xC [s.time.state, (off % 2 ^ 64).toNat, s.timeUnc]

/-- Enter a time state (Table 17-8): a TIME event on each change; ALERT_STATUS.TIME on a fall from LOCKED (R557); the first LOCKED clears
UNDISC (R564); the uncertainty is held on leaving LOCKED (R566); ACQUIRING begins to count Sync intervals. -/
def State.toTime (s : State) (st : Nat) (off : Int) : State :=
  let old := s.time.state
  if st = old then s
  else
    let unc := s.timeUnc
    let s := if old = 2 then (s.fset F.alertStatus_TIME 0 1).onPtp fun p => { p with held := unc } else s
    let s := if st = 1 then s.onPtp fun p => { p with mags := [] } else s
    { s with time := { s.time with state := st, undisc := s.time.undisc && st ≠ 2 } }.timeEvent off

/-- One nanosecond passes (R60): the counter adds it, and every 2,000 ns the slew adds one more or leaves one out (R565, 500 ppm). Module
time elapses by the increments of the counter. -/
def State.tick (s : State) : State :=
  let t := s.time
  if t.slew = 0 then { s with time := { t with elapsed := t.elapsed + 1, counter := t.counter + 1, tick := 0 } }
  else if t.tick < 1999 then { s with time := { t with elapsed := t.elapsed + 1, counter := t.counter + 1, tick := t.tick + 1 } }
  else if 0 < t.slew then { s with time := { t with elapsed := t.elapsed + 2, counter := t.counter + 2, tick := 0, slew := t.slew - 1 } }
  else { s with time := { t with tick := 0, slew := t.slew + 1 } }

/-- Is a data set better: smaller at the first place that differs. -/
def betterSet : List Nat → List Nat → Bool
  | a :: s, b :: t => if a = b then betterSet s t else a < b
  | _, _ => false

/-- The best of the masters announced. -/
def bestMaster : List (Nat × List Nat) → Option (Nat × List Nat)
  | [] => none
  | x :: t => match bestMaster t with
    | none => some x
    | some y => if betterSet y.2 x.2 then some y else some x

/-- A master is selected (Table 17-8): from LOCKED a change of master goes through HOLDOVER. -/
def State.selectMaster (s : State) (id : Nat) : State :=
  if s.time.ptp.master = some id then s
  else
    let s := s.onPtp fun p => { p with master := some id, waiting := none, lastSync := s.time.elapsed }
    let s := if s.time.state = 2 then s.toTime 3 0 else s
    if s.time.state = 1 then s.onPtp fun p => { p with mags := [] } else s.toTime 1 0

/-- A Sync is complete: `behind` ns lie between the module and the master. The counter steps forward or slews, never backward (R565). -/
def State.synced (s : State) (behind : Int) : State :=
  let s := s.onPtp fun p => { p with mags := (behind.natAbs :: p.mags).take 16, lastSync := s.time.elapsed, waiting := none }
  let s :=
    if 100000 < behind || (1000 < behind && s.time.undisc) then
      { s with time := { s.time with counter := s.time.counter + behind.toNat, slew := 0, tick := 0 } }.timeEvent behind
    else { s with time := { s.time with slew := behind } }
  if s.time.state = 1 && s.time.ptp.mags.length = 16 && s.time.ptp.mags.all (· < 1000) then s.toTime 2 behind else s

end Sys2Proof.Machine
end

