-- ==== Sys2Proof/Machine/Mctp.lean ====
section
/-!
DEFINITION. Mctp.lean: the management endpoint: MCTP control, PLDM FRU data, sensors and event receiver (R549, R550, R554 to R556).
Answers are MCTP control (type 0) and PLDM (type 1) messages with the completion codes of DSP0236 and DSP0240.
-/
namespace Sys2Proof.Machine

open Host (Outcome)

/-- Change the management state. -/
def State.onMgmt (s : State) (f : MgmtSt → MgmtSt) : State := { s with mgmt := f s.mgmt }

/-- MCTP control Set Endpoint ID: 0 and 0xFF name no endpoint. -/
def execSetEndpointId (eid : BitVec 8) (s : State) : Outcome State Fault Refusal :=
  if eid = 0 || eid = 0xFF then .next (s.emit (.mgmt 0 2 []))
  else .next ((s.onMgmt fun m => { m with eid := eid.toNat }).emit (.mgmt 0 0 [0, eid]))

/-- MCTP control Get Endpoint ID. -/
def execGetEndpointId (s : State) : Outcome State Fault Refusal := .next (s.emit (.mgmt 0 0 (toLE 1 s.mgmt.eid)))

/-- MCTP control Get Endpoint UUID. -/
def execGetEndpointUuid (s : State) : Outcome State Fault Refusal := .next (s.emit (.mgmt 0 0 Config.uuid))

/-- MCTP control Get MCTP Version Support: 1.3. -/
def execGetMctpVersionSupport (s : State) : Outcome State Fault Refusal := .next (s.emit (.mgmt 0 0 [1, 0xF1, 0xF3, 0xFF, 0x00]))

/-- MCTP control Get Message Type Support: the types of Table 17-1 beside MCTP control. -/
def execGetMessageTypeSupport (s : State) : Outcome State Fault Refusal := .next (s.emit (.mgmt 0 0 [3, 0x01, 0x05, 0x7E]))

/-- A message of any other type is discarded (R550). -/
def execMctpUnsupportedType (_type : BitVec 8) (s : State) : Outcome State Fault Refusal := .next s

/-- SETDASA or ENTDAA assigns an I3C dynamic address: until the next cold reset the endpoint answers only over I3C (R549). -/
def execI3cDynamicAddress (addr : BitVec 7) (s : State) : Outcome State Fault Refusal := .next (s.onMgmt fun m => { m with i3c := some addr.toNat })

/-- The SMBus address the endpoint answers at: 0x68 + offset (R466), until it has an I3C dynamic address (R549). -/
def State.smbusAddr (s : State) : Option Nat := if s.mgmt.i3c.isSome then none else some (0x68 + s.fget F.optselStat_OFFSET 0)

/-- Bytes of ASCII text. -/
def ascii (x : String) : List Byte := x.toList.map fun c => BitVec.ofNat 8 c.toNat

/-- Identification data (Table 17-3). -/
def State.fru (s : State) : List Byte :=
  let (part, gib) := match s.partNo with | .a64 => ("HJX-PW1-A64", 64) | .a128 => ("HJX-PW1-A128", 128)
  ascii "Hjelex" ++ ascii part ++ toLE 1 gib ++ Config.serial ++ Config.madeOn ++ Config.mac ++ toLE 2 s.moduleId ++ toLE 1 (one s.hasId)

/-- PLDM GetFRURecordTable (R554). -/
def execGetFruRecordTable (s : State) : Outcome State Fault Refusal := .next (s.emit (.mgmt 1 0 s.fru))

/-- PLDM SetEventReceiver (R556). -/
def execSetEventReceiver (s : State) : Outcome State Fault Refusal :=
  .next ((s.onMgmt fun m => { m with receiver := true }).emit (.mgmt 1 0 []))

/-- PLDM PollForPlatformEventMessage (R556): the oldest pending event, if any. -/
def execPollForPlatformEventMessage (s : State) : Outcome State Fault Refusal :=
  match s.mgmt.poll with
  | [] => .next (s.emit (.mgmt 1 0 []))
  | e :: t => .next ((s.onMgmt fun m => { m with poll := t }).emit (.pldmEvent e))

/-- The hottest diode of a plot, in quarter °C above −40 °C. -/
def State.plotHot (s : State) (p : Nat) : Nat :=
  ((s.regs.filter fun x => x.1 % 1024 = F.coreTemp_TEMP.id && plotOfCore (x.1 / 1024) = p).map Prod.snd).foldl max 0

/-- Is the core domain unpowered: before STEP_POWER, load shed, S4. -/
def State.coreOff (s : State) : Bool := s.power.shed || s.sleep = 3 || (s.bringState ≤ 2 && s.fget F.bringStatus_STEP 0 < 4)

/-- Thresholds a numeric sensor's PDR reports (Table 17-4), in the unit the model holds the sensor in: low or not, then warning, critical, fatal. -/
def sensorLimits (id : Nat) : Option (Bool × Option Nat × Option Nat × Option Nat) :=
  if id = 1 then some (true, some 41000, some 40000, none)
  else if id = 2 then some (false, some 85000, some 95000, none)
  else if id = 6 then some (false, some 430, some 450, none)
  else if 7 ≤ id && id ≤ 11 then some (false, some (tempOf 100), some (tempOf 105), some (tempOf 115))
  else if id = 16 then some (false, some (tempOf 95), some (tempOf 100), none)
  else if id = 17 then some (false, some 1000, none, none)
  else if id ≤ 18 && 1 ≤ id then some (false, none, none, none)
  else none

/-- What a PLDM sensor reports (Table 17-4): a numeric one the value of the last refresh, none while Unavailable; a state sensor its present state:
module state, sleep state, thermal trip, time state, the Oncon ports'. -/
def State.sensor (s : State) (id : Nat) : Option Nat :=
  if id = 32 then some s.bringState
  else if id = 33 then some s.sleep
  else if id = 34 then some (one s.power.tripped)
  else if id = 35 then some s.time.state
  else if 36 ≤ id && id ≤ 47 then some (s.portState (id - 36))
  else alFind s.mgmt.sensors id

/-- Numeric sensors are refreshed (R555, Table 17-4) from the controllers' own monitors: input voltage (mV), input current (mA), input
power (mW), hottest seedstore device; the others from what the controllers hold. One whose source is unpowered is Unavailable. -/
def execPldmSensorRefresh (vin iin pin ss : Nat) (s : State) : Outcome State Fault Refusal :=
  let always := [(1, vin), (2, iin), (3, pin), (4, s.fget F.capStat_CAP_W 0), (5, s.fget F.capStat_RTH 0), (6, s.fget F.coolIn_INLET 0)]
  let core := [(7, s.fget F.hotStat_TEMP 0)] ++ ((List.range 4).map fun p => (8 + p, s.plotHot p)) ++
    ((List.range 4).map fun p => (12 + p, s.fget F.plotPwr_POWER p)) ++ [(16, ss), (18, s.fget F.plStat_LEVEL 0)]
  let l := always ++ (if s.coreOff then [] else core) ++ [(17, s.timeUnc)]
  .next (s.onMgmt fun m => { m with sensors := l.foldl (fun t x => alPut t x.1 x.2) [] })

end Sys2Proof.Machine
end

