-- ==== Sys2Proof/Machine/Observe.lean ====
section
/-!
DEFINITION. Observe.lean: telemetry converters, gleans and traces (R567 to R575), and the waits a report records (R578, R579).
-/
namespace Sys2Proof.Machine

open Host (Outcome)

/-- Change the observation state. -/
def State.onObs (s : State) (f : ObsSt → ObsSt) : State := { s with obs := f s.obs }

/-! ## Telemetry converters -/

/-- Channels a converter can sample (Table 17-11). -/
def tlmChannel (c : Nat) : Bool :=
  (1 ≤ c && c ≤ 0xC) || (0x10 ≤ c && c ≤ 0x15) || c = 0x18 || (0x20 ≤ c && c ≤ 0x27)

/-- A write to TLM_CFG (R568): an AVG above 8 is taken as 8 (Table 17-10); a change of CHAN or AVG clears VALID and marks the next two samples STALE. -/
def execTlmCfgWrite (conv : Fin 16) (val : W32) (s : State) : Outcome State Fault Refusal :=
  let c := conv.val
  let avg := min 8 (bitsOf val.toNat 8 4)
  let chan := bitsOf val.toNat 0 8
  if s.fget F.tlmCfg_AVG c = avg && s.fget F.tlmCfg_CHAN c = chan then .next s
  else .next ((((s.fset F.tlmCfg_AVG c avg).fset F.tlmCfg_CHAN c chan).fset F.tlmSample_VALID c 0).onObs fun o => { o with stale := alPut o.stale c 2 })

/-- A sample of 2^AVG conversions completes (R567): TLM_SAMPLE takes it whole. A converter on no channel samples nothing. -/
def execTlmSampleDone (conv : Fin 16) (value : BitVec 16) (s : State) : Outcome State Fault Refusal :=
  let c := conv.val
  if !tlmChannel (s.fget F.tlmCfg_CHAN c) then .next s
  else
    let n := alGet 0 s.obs.stale c
    let s := (((s.fset F.tlmSample_VALUE c value.toNat).fset F.tlmSample_VALID c 1).fset F.tlmSample_STALE c (one (0 < n))).fadd F.tlmSample_SEQ c 1
    .next (s.onObs fun o => { o with stale := alPut o.stale c (n - 1) })

/-! ## Gleans (R570, R571) -/

/-- Is a field one 64-bit counter (R570): a 64-bit RO field that counts. -/
def isCounter (f : Fld) : Bool :=
  f.width = 64 && f.acc = .ro && !([F.partInfo0_INFO, F.partInfo1_INFO, F.bringDetail_DETAIL, F.almSeq_SEQ].map Fld.id).contains f.id

/-- Numbers of the counter fields. -/
def counterIds : List Nat := ((regTable.flatMap RegDef.fields).filter isCounter).map Fld.id

/-- The unit that holds a counter: a field, 2,000 for the other blocks, 2,001 for the Reeve, which always runs. -/
def unitOfKey (k : Nat) : Nat :=
  if k % 1024 = F.coreCtr_COUNT.id then fieldOfCore (k / 1024 / 64)
  else if k % 1024 = F.almDropped_COUNT.id || k % 1024 = F.traceDrop_COUNT.id then 2001 else 2000

/-- Units that are in reset, unpowered or in S2 (R571): 3,000 stands for every field. -/
def State.unitsOff (s : State) : List Nat :=
  (if s.coreOff || s.sleep = 2 then [3000] else (s.fields.filter fun x => x.2.resetting).map Prod.fst) ++
  (if s.sleep = 3 || s.power.shed then [2000] else [])

/-- Is a unit among those off. -/
def unitOff (off : List Nat) (u : Nat) : Bool := off.contains u || (u < 1152 && off.contains 3000)

/-- The tag word of a time (Table 17-13), with VALID set. -/
def tagOf (t : Nat) (undisc : Bool) : Nat :=
  2 ^ 63 + one undisc * 2 ^ 62 + t / 1000000000 % 2 ^ 30 * 2 ^ 32 + t % 1000000000

/-- Start a glean at time `t` (R571). -/
def State.gleanAt (s : State) (t : Nat) : State := (s.fset F.gleanStat_PENDING 0 1).onObs fun o => { o with glean := some t }

/-- A write to GLEAN_CTL (R571): while PENDING it is ignored and sets LOST; a T less than 10 µs or more than 1 s ahead sets REFUSED. -/
def execGleanGo (val : W32) (s : State) : Outcome State Fault Refusal :=
  let ns := bitsOf val.toNat 0 30
  if s.obs.glean.isSome then .next (s.fset F.gleanStat_LOST 0 1)
  else
    let s := s.fset F.gleanCtl_NS 0 ns
    let t := s.fget F.gleanTS_S 0 * 1000000000 + ns
    let now := s.time.counter
    if !bitAt val.toNat 31 then .next s
    else if t < now + 10000 || now + 1000000000 < t then .next (s.fset F.gleanStat_REFUSED 0 1)
    else .next (s.gleanAt t)

/-! ## The waits a report records (Table 17-18) -/

/-- An edge with no flag set; `began`: elapsed module time at which the wait began (R565). -/
def State.edge (s : State) (fk fi tk ti reason detail began step : Nat) : WfgEdge :=
  { fromKind := fk, toKind := tk, cycle := false, unsignalled := false, remote := tk = 8, reason := reason, fromId := fi, toId := ti,
    detail := detail, age := s.time.elapsed - began, step := step }

/-- Waits of a core: a semaphore is in the wait table; a fence, a full queue, a full work queue. -/
def State.coreEdges (s : State) (x : Nat × Core) : List WfgEdge :=
  let (n, c) := x
  let step := match c.wi with | some w => w.step | none => 0
  let fence := match c.sync with
    | some d =>
      if d.op = 0 then
        let first : Nat := match s.coreAccesses n d.seq false with | a :: _ => a.lo | [] => 0
        [s.edge 1 n 9 first 2 (bitsOf d.body.toNat 4 4) c.since step]
      else []
    | none => []
  let full := match c.wait with | some (.full d) => [s.edge 1 n 9 (d.kind - 1) 3 (d.kind - 1) c.since step] | _ => []
  fence ++ full ++ (if 32 ≤ c.queue.length then [s.edge 1 n 9 n 4 32 c.since step] else [])

/-- Is a signal to the semaphore at a local address in flight (R580): a SIGNAL waits in a core's sync queue, or a SIGNAL packet in the router. -/
def State.signalComing (s : State) (a : Nat) : Bool :=
  (s.cores.any fun x => x.2.qs.any fun d => d.op = 1 && fieldB (x.2.sread x.1 d.frame 32) 0 7 = s.glob a) ||
  s.link.queue.any fun h => h.pkt.type = 3 && h.pkt.dst = s.selfId && h.pkt.addr = a

/-- Waits in the semaphore table, of cores and of rings. -/
def State.semEdge (s : State) (w : SemWait) : WfgEdge :=
  let (k, i) := match w.core with | some n => (1, n) | none => (2, w.ring.getD 0)
  { s.edge k i 7 (s.glob w.sem) (if k = 1 then 1 else 5) w.value w.since w.step with unsignalled := !s.waitMet w && !s.signalComing w.sem }

/-- Does AFTER_COMMIT hold the entry at a ring's head, as far as it has been read. -/
def State.afterCommitWait (s : State) (r : Nat) : Bool :=
  s.ringOpen r && (match s.entryAt r [] with | some e => checkOk e 64 && (s.ring r).afterHeld e | none => false)

/-- Waits of a ring: completion ring full, step limit, AFTER_COMMIT, FENCE entry. The detail numbers the reason. -/
def State.ringEdges (s : State) (x : Nat × Ring) : List WfgEdge :=
  let (r, g) := x
  let step := match g.steps with | o :: _ => o.step | [] => 0
  (if g.held.isEmpty then [] else [s.edge 2 r 9 r 5 1 g.since step]) ++
  (if 4 ≤ g.steps.length then [s.edge 2 r 9 r 5 2 g.since step] else []) ++
  (if s.afterCommitWait r then [s.edge 2 r 9 r 5 3 g.since step] else []) ++
  (match g.hold with | some (.fence _ mask st _) => [s.edge 2 r 9 mask 5 4 g.since st] | _ => [])

/-- Every open wait of the module. -/
def State.waitEdges (s : State) : List WfgEdge :=
  let rsh := s.rsh.filterMap fun j => match j.st with
    | .holding => some (s.edge 3 j.part 9 ((j.entries.map Prod.fst).getD j.held 0) 6 1 j.since 0)
    | .waiting => some (s.edge 3 j.part 8 (j.peers.headD 0) 6 2 j.since 0)
    | _ => none
  let ports := (List.range 12).filterMap fun p => match (s.port p).out with
    | q :: _ => some (s.edge 4 p 8 (s.fget F.portNbr_MODULE p) 7 q.leaving.lane s.time.elapsed 0)
    | [] => none
  let txns := s.link.txns.map fun t =>
    let (k, i) := match t.core, t.ring with | some n, _ => (1, n) | none, some r => (2, r) | none, none => (3, 0)
    s.edge k i 8 t.pkt.dst 8 t.txn t.sent t.step
  let moves := (s.moves.filter fun m => m.st = .staging).map fun m => s.edge 5 0 9 0 9 m.overlap m.since m.step
  let mdq := if s.mdq.length < 7168 then [] else [s.edge 6 0 9 0 9 1 ((s.mdq.map Bounced.since).headD 0) 0]
  s.waits.map s.semEdge ++ s.cores.flatMap s.coreEdges ++ s.rings.flatMap s.ringEdges ++ rsh ++ ports ++ txns ++ moves ++ mdq

/-- The time copies reach T (R571): every unit that can act copies its counters and writes its tag, in one action; the waits of a report
taken at that glean are recorded (R578). -/
def execGleanTimeReached (s : State) : Outcome State Fault Refusal :=
  match s.obs.glean with
  | none => .next s
  | some t =>
    if s.time.counter < t then .next s
    else
      let ids := counterIds
      let off := s.unitsOff
      let kept := s.obs.shadow.filter fun x => unitOff off (unitOfKey x.1)
      let new := s.regs.filter fun x => ids.contains (x.1 % 1024) && !unitOff off (unitOfKey x.1)
      let edges := match s.obs.wfg with | some _ => some s.waitEdges | none => s.obs.edges
      let s := s.onObs fun o => { o with glean := none, shadow := kept.foldl (fun l x => alPut l x.1 x.2) new,
                                         tag := tagOf t s.time.undisc, bad := off, edges := edges }
      .next ((s.fset F.gleanStat_PENDING 0 0).fadd F.gleanStat_SEQ 0 1)

/-! ## Traces (R573 to R575) -/

/-- Scratchpad offset and size of the trace buffer, in bytes. -/
def State.traceArea (s : State) : Nat × Nat := (s.fget F.traceBuf_OFFSET 0 * 4096, s.fget F.traceBuf_SIZE 0 * 4096)

/-- A write to TRACE_CTL (R573): one that sets ENABLE with a buffer outside the partition's scratchpad is ignored and sets BUF_ERR. A session
starts with HEAD 0. -/
def execTraceCtlWrite (val : W32) (s : State) : Outcome State Fault Refusal :=
  let w := val.toNat
  let (off, size) := s.traceArea
  let part := s.fget F.traceBuf_PART 0
  if bitAt w 0 && !((s.partOf part).isSome && s.spHas part off size) then .next (s.fset F.traceCtl_BUF_ERR 0 1)
  else
    let s := if bitAt w 0 && !s.flag F.traceCtl_ENABLE 0 then
        ((s.fset F.traceStat_HEAD 0 0).fset F.traceStat_FULL 0 (one (size = 0))).onObs fun o => { o with lost := [] }
      else s
    .next (s.writeReg R.traceCtl 0 w)

/-- TAG of a trace record (Table 17-16): of a move's source descriptor (R180), bits [31:0] of a model's for WI_START (R333), a MARK's own; else 0. -/
def State.traceTag (s : State) (x : TraceRec) : Nat :=
  if x.kind = 0x0B then x.ref
  else if x.kind = 4 then s.mdlTag x.ref
  else if x.kind ≤ 3 && x.unit / 16 = 4 then
    (if s.descValid (partOfRing x.ring) x.ref then (parseDesc (s.descBytes (partOfRing x.ring) x.ref)).tag else 0)
  else 0

/-- The 32 bytes of a trace record (Table 17-16). -/
def traceBytes (x : TraceRec) (tag : Nat) (undisc lost : Bool) : List Byte :=
  toLE 1 x.kind ++ toLE 1 (one undisc + 2 * one lost) ++ toLE 2 x.core ++ toLE 2 x.layer ++ toLE 2 x.oper ++ toLE 4 x.step ++ toLE 1 x.ring ++
  toLE 1 x.unit ++ toLE 2 x.status ++ toLE 4 tag ++ toLE 4 (x.time % 1000000000) ++ toLE 6 (x.time / 1000000000) ++ toLE 2 x.detail

/-- Is a record one the session traces (R574): its partition, kind, layer and operator. -/
def State.traced (s : State) (x : TraceRec) : Bool :=
  s.flag F.traceCtl_ENABLE 0 && partOfRing x.ring = s.fget F.traceBuf_PART 0 && 1 ≤ x.kind && bitAt (s.fget F.traceFilt_KINDS 0) (x.kind - 1) &&
  s.fget F.traceFilt_LAYER_LO 0 ≤ x.layer && x.layer ≤ s.fget F.traceFilt_LAYER_HI 0 &&
  (s.flag F.traceFilt_OPER_ALL 0 || s.fget F.traceFilt_OPER 0 = x.oper)

/-- A unit's record is stored in the buffer, or dropped (R574, R575). `full`: the source's FIFO had no room; with LOSSLESS the source's
cores held issue for `held` ns until it had (log 213). The records of one source come in the order of their times (R62): one with a time before the last,
or later than the present, is no record the source can have formed. -/
def execTraceRecordStore (rec : TraceRec) (full : Bool) (held : Nat) (s : State) : Outcome State Fault Refusal :=
  let lossless := s.flag F.traceCtl_LOSSLESS 0
  let src := if rec.core = 0xFFFF then 2000 else fieldOfCore rec.core
  let (off, size) := s.traceArea
  let head := s.fget F.traceStat_HEAD 0
  let drop (s : State) : State := (s.fadd F.traceDrop_COUNT 0 1).onObs fun o => { o with lost := setIns o.lost src }
  if !s.traced rec || rec.time < alGet 0 s.obs.traceAt src || s.time.counter < rec.time then .next s
  else if (full && !lossless) || s.flag F.traceStat_FULL 0 then .next (drop s)
  else
    let s := s.onObs fun o => { o with traceAt := alPut o.traceAt src rec.time }
    let s := if full && src < 1152 then (List.range 24).foldl (fun (s : State) i => s.fadd F.coreCtr_COUNT ((src * 24 + i) * 64 + 25) held) s else s
    let s := s.spWrite (s.fget F.traceBuf_PART 0) (off + head * 32) (traceBytes rec (s.traceTag rec) s.time.undisc (s.obs.lost.contains src))
    let s := s.onObs fun o => { o with lost := setDel o.lost src }
    if (head + 1) * 32 < size then .next (s.fset F.traceStat_HEAD 0 (head + 1))
    else if s.flag F.traceCtl_WRAP 0 then .next (s.fset F.traceStat_HEAD 0 0)
    else .next ((s.fset F.traceStat_HEAD 0 (head + 1)).fset F.traceStat_FULL 0 1)

end Sys2Proof.Machine
end

