-- ==== Sys2Proof/Machine/Debug.lean ====
section
/-!
DEFINITION. Debug.lean: the debug halt (R576, R577) and the wait-for graph report (R578 to R582).
-/
namespace Sys2Proof.Machine

open Host (Outcome)

/-! ## Debug halt -/

/-- CONFIG permits debug. -/
def State.debugOk (s : State) : Bool := match s.seed.image with | some i => i.debug | none => false

/-- A write to DBG_CTL (Table 17-17): it acts only with the key; DENIED when CONFIG forbids debug or the field index is invalid. The
stall timers of a halted field are suspended until it resumes (Table 2-4). -/
def State.dbgCtl (s : State) (key : BitVec 16) (plot : PlotId) (index : Nat) (halt : Bool) : State :=
  if key ≠ 0xDB60 then s
  else if !s.debugOk || 288 ≤ index then s.fset F.dbgStat_DENIED 0 1
  else
    let fid := plot.val * 288 + index
    let s := { s with obs := { s.obs with dbg := some fid } }.setField fid { s.field fid with halted := halt }
    if halt then s.pause (.field fid) else s.unpause (.field fid)

/-- DBG_CTL with HALT = 1: the control processors of the field stop at their next instruction boundary. -/
def execDebugHalt (key : BitVec 16) (plot : PlotId) (index : Nat) (s : State) : Outcome State Fault Refusal := .next (s.dbgCtl key plot index true)

/-- DBG_CTL with HALT = 0: the field resumes. -/
def execDebugResume (key : BitVec 16) (plot : PlotId) (index : Nat) (s : State) : Outcome State Fault Refusal := .next (s.dbgCtl key plot index false)

/-- The core DBG_CORE names, when its field is halted. -/
def State.dbgTarget (s : State) : Option Nat :=
  let n := s.fget F.dbgCore_CORE 0
  if n < 27648 && (s.field (fieldOfCore n)).halted then some n else none

/-- A write to DBG_DATA (R576): s1 to s31, the program counter or a RW CSR of a halted core; s0 and RO CSRs ignore it. -/
def execDbgDataWrite (val : W64) (s : State) : Outcome State Fault Refusal :=
  let i := s.fget F.dbgCore_INDEX 0
  match s.dbgTarget with
  | none => .next s
  | some n =>
    if i = 0 then .next s
    else if i < 32 then .next (s.onCore n fun c => { c with regs := alPut c.regs i val, regChaff := setDel c.regChaff i })
    else if i = 32 then .next (s.onCore n fun c => { c with pc := val.toNat })
    else if i = 64 then .next (s.onCore n fun c => { c with layer := val.toNat % 65536 })
    else if i = 65 then .next (s.onCore n fun c => { c with oper := val.toNat % 65536 })
    else .next s

/-- What DBG_DATA reads. -/
def State.dbgRead (s : State) : Nat :=
  let i := s.fget F.dbgCore_INDEX 0
  match s.dbgTarget with
  | none => 0
  | some n =>
    if i < 32 then (alGet 0 (s.core n).regs i).toNat
    else if i = 32 then (s.core n).pc
    else if 64 ≤ i then ((s.csr n (i - 64)).map BitVec.toNat).getD 0 else 0

/-! ## The wait-for graph -/

/-- Begin a report (R578): a glean 20 µs ahead, or the one already pending. -/
def State.wfgStart (s : State) (auto : Bool) : State :=
  let t := s.obs.glean.getD (s.time.counter + 20000)
  let s := if s.obs.glean.isSome then s else s.gleanAt t
  (s.fset F.wfgCtl_BUSY 0 1).onObs fun o => { o with wfg := some (t, auto), edges := none }

/-- A write to WFG_CTL: GO takes a report; one made while BUSY is ignored. -/
def execWfgGo (val : W32) (s : State) : Outcome State Fault Refusal :=
  let s := s.fset F.wfgCtl_AUTO_MS 0 (bitsOf val.toNat 0 16)
  if bitAt val.toNat 31 && !s.flag F.wfgCtl_BUSY 0 then .next (s.wfgStart false) else .next s

/-- What names a wait: reason, waiter, and when it began. -/
def State.waitName (s : State) (e : WfgEdge) : Nat × Nat × Nat := (e.reason * 16 + e.fromKind, e.fromId, s.time.elapsed - e.age)

/-- A wait has lasted longer than AUTO_MS: a report is taken, once for a wait (R578). -/
def execWfgAuto (s : State) : Outcome State Fault Refusal :=
  let ms := s.fget F.wfgCtl_AUTO_MS 0
  let old := s.waitEdges.filter fun e => ms * 1000000 < e.age && !s.obs.seen.contains (s.waitName e)
  if ms = 0 || s.flag F.wfgCtl_BUSY 0 || old.isEmpty then .next s
  else .next (((s.onObs fun o => { o with seen := o.seen ++ old.map s.waitName }).fset F.alertStatus_WFG 0 1).wfgStart true)

/-- Is an edge's head reached from a node, over at most `n` edges. -/
def reaches (es : List WfgEdge) (goal : Nat × Nat) : Nat → List (Nat × Nat) → Bool
  | 0, seen => seen.contains goal
  | n + 1, seen =>
    seen.contains goal ||
      reaches es goal n ((seen ++ (es.filter fun e => seen.contains (e.fromKind, e.fromId)).map fun e => (e.toKind, e.toId)).eraseDups)

/-- Mark the edges that lie on a cycle of edges of this module (R580). -/
def markCycles (es : List WfgEdge) : List WfgEdge :=
  let here := es.filter fun e => !e.remote
  es.map fun e => { e with cycle := !e.remote && reaches here (e.fromKind, e.fromId) here.length [(e.toKind, e.toId)] }

/-- The 32 bytes of an edge (Table 17-19). -/
def WfgEdge.bytes (e : WfgEdge) : List Byte :=
  toLE 1 e.fromKind ++ toLE 1 e.toKind ++ toLE 1 (one e.cycle + 2 * one e.unsignalled + 4 * one e.remote) ++ toLE 1 e.reason ++ toLE 4 e.fromId ++
  toLE 8 e.toId ++ toLE 8 e.detail ++ toLE 4 (min 0xFFFFFFFF (e.age / 1000)) ++ toLE 4 e.step

/-- Put an edge before the first that is younger. -/
def placeOld (e : WfgEdge) : List WfgEdge → List WfgEdge
  | [] => [e]
  | x :: t => if x.age < e.age then e :: x :: t else x :: placeOld e t

/-- The report is complete (R580 to R582): edges on cycles first, the rest in order of age; header and WFG event. -/
def execWfgReportDone (s : State) : Outcome State Fault Refusal :=
  match s.obs.edges, s.obs.wfg with
  | some es, some (t, auto) =>
    let es := markCycles es
    let all := es.filter WfgEdge.cycle ++ (es.filter fun e => !e.cycle).foldl (fun l e => placeOld e l) []
    let ovr := 16384 < all.length
    let list := all.take 16384
    let cyc := (list.filter WfgEdge.cycle).length
    let head := withCheck (toLE 6 (t / 1000000000) ++ toLE 2 0 ++ toLE 4 (t % 1000000000) ++ toLE 2 list.length ++
      toLE 1 (one ovr + 2 * one s.time.undisc + 4 * one auto) ++ toLE 1 0 ++ toLE 2 cyc ++ toLE 2 (s.fget F.gleanStat_SEQ 0) ++ toLE 10 0)
    let report := head :: list.map WfgEdge.bytes
    let s := s.onObs fun o => { o with wfg := none, edges := none, report := report }
    .next ((s.fset F.wfgCtl_BUSY 0 0).event 0xD (((report.take 45).flatMap id).map BitVec.toNat))
  | _, _ => .next s

/-- The 32 bytes WFG_DATA shows: the entry WFG_IDX names, zero beyond the report. -/
def State.wfgEntry (s : State) : List Byte := sliceB (s.obs.report.getD (s.fget F.wfgIdx_INDEX 0) []) 0 32

/-- A read of `size` bytes at byte `off` of WFG_DATA (R582): a read of the last word advances WFG_IDX. `bad`: the word of the Reeve store
that holds it reads uncorrectably (R248). -/
def execWfgDataRead (src : Src) (off size : Nat) (bad : Bool) (s : State) : Outcome State Fault Refusal :=
  if (size ≠ 4 && size ≠ 8) || off % size ≠ 0 || 32 < off + size then .next s
  else if bad then
    let t := s.storeFail.emit (.answer src 0 (s.badBytes off size))
    .next { t with undefs := t.undefs + 1 }
  else
    let s' := s.emit (.answer src 0 (sliceB s.wfgEntry off size))
    .next (if off + size = 32 then s'.fadd F.wfgIdx_INDEX 0 1 else s')

end Sys2Proof.Machine
end

