-- ==== Sys2Proof/Machine/Ecc.lean ====
section
/-!
DEFINITION. Ecc.lean: events of protected words and their logs, scrub-rewrites, the Harrows, retirement (R439 to R454).
-/
namespace Sys2Proof.Machine

open Host (Outcome)

/-! ## Log tables (R442, R443) -/

/-- Free a log entry. -/
def State.logFree (s : State) (i : Nat) : State :=
  let e := logEnt i
  [e.valid, e.kind, e.perm, e.rewritten, e.unit, e.word, e.place, e.count, e.last, e.first].foldl (fun (s : State) f => s.fset f e.copy 0) s

/-- The entry an event of a word goes to (R442): its own, a free one, or the one with PERM = 0 whose last event is oldest. -/
def State.logPick (s : State) (a : Nat) : Option Nat :=
  let l := logOfWord a
  match l.find? fun i => s.logIs i a with
  | some i => some i
  | none =>
    match l.find? fun i => !s.flag (logEnt i).valid (logEnt i).copy with
    | some i => some i
    | none =>
      let last (i : Nat) : Nat := s.fget (logEnt i).last (logEnt i).copy
      (l.filter fun i => !s.flag (logEnt i).perm (logEnt i).copy).foldl (fun (b : Option Nat) i =>
        match b with
        | some j => if last i < last j then some i else some j
        | none => some i) none

/-! ## Events (R439 to R442, R453) -/

/-- The time an event is stamped with: the latest in the Almanac while the time is undisciplined (R441). -/
def State.eccTime (s : State) (e : EccEvent) : Nat :=
  if s.time.undisc then (s.alm.log.map AlmRec.time).foldl max 0 else e.time

/-- The Reeve classifies an event and logs it (R440, R442, R453). -/
def execEventClassify (s : State) : Outcome State Fault Refusal :=
  match s.ecc.events with
  | [] => .next s
  | e :: rest =>
    let t := s.eccTime e
    let hist := s.ecc.history ++ [(e.addr, t)]
    let n := (hist.filter fun h => decide (h.1 = e.addr ∧ t - h.2 ≤ 2592000000000000)).length
    let perm := e.scrubbed || 3 ≤ n
    let s := { s with ecc := { s.ecc with events := rest, history := hist } }
    let sec := t / 1000000000 % 2 ^ 32
    let known := (logOfWord e.addr).any fun i => s.logIs i e.addr && s.flag (logEnt i).perm (logEnt i).copy
    let (u, w) := wordPlace e.addr
    let (s, body) := match s.logPick e.addr with
      | some i =>
        let x := logEnt i
        let own := s.logIs i e.addr
        let s := if own then s else s.logFree i
        let s := (((s.fset x.valid x.copy 1).fset x.unit x.copy u).fset x.word x.copy w).fset x.place x.copy e.place
        let s := if e.uncorr then s.fset x.kind x.copy 1 else s
        let s := if perm then s.fset x.perm x.copy 1 else s
        let s := (s.fset x.rewritten x.copy 0).fset x.count x.copy (min 255 (s.fget x.count x.copy + 1))
        let s := (if own then s else s.fset x.first x.copy sec).fset x.last x.copy sec
        let s := { s with ecc := { s.ecc with lastAt := alPut s.ecc.lastAt i s.time.elapsed } }
        (s, s.logWords i)
      | none => (s.fadd F.logOvf_COUNT 0 1, [e.addr, sec])
    let s := s.almanac 2 (body ++ [e.src])
    if perm && !known then
      .next ((s.almanac 5 [if e.addr < 0x3600000000 then 3 else 5, e.addr, 1]).event 0xA (body ++ [s.regWord R.retStatus 0]))
    else .next s

/-- Does a huller task compute or wait in the bank of a vault address: the Harrow starts no scrub of that bank (R235). -/
def State.bankTaken (s : State) (a : Nat) : Bool :=
  a < 0x3600000000 && (s.core (a / 0x800000)).hul.any fun h => h.tasks.any fun t => t.bank = a % 0x800000 / 0x40000 && t.st ≠ .ended

/-- The Harrow rewrites the word queued longest, of those whose bank no huller task has, with its corrected data (R445): its next error is a
new event. In a vault it reads the word's burst again and writes it back, a slot each (R209). -/
def execScrubRewrite (s : State) : Outcome State Fault Refusal :=
  match s.ecc.rewrite.find? fun w => !s.bankTaken w with
  | none => .next s
  | some w =>
    let s := if w < 0x3600000000 then (s.coreCount (w / 0x800000) 4 1).coreCount (w / 0x800000) 5 1 else s
    let s := { s with ecc := { s.ecc with rewrite := s.ecc.rewrite.erase w, seen := setDel s.ecc.seen w, scrubbed := setIns s.ecc.scrubbed w } }
    match (logOfWord w).find? fun i => s.logIs i w with
    | some i => .next (s.fset (logEnt i).rewritten (logEnt i).copy 1)
    | none => .next s

/-! ## The Harrows (R445, R446) -/

/-- Detecting source of a Harrow read. -/
def srcHarrow : Nat := 0x50000

/-- A pass has ended: BEHIND when it took longer than its period. -/
def State.passEnd (s : State) (h : HarrowPos) (period : Nat) : HarrowPos × State :=
  ({ next := 0, passes := h.passes + 1, since := s.time.elapsed }, if h.since + period < s.time.elapsed then s.fset F.harrowStat_BEHIND 0 1 else s)

/-- A period of HARROW_CTL: a value outside 1 to `hi` is taken as the default `d` (Table 13-2). -/
def harrowPeriod (v hi d : Nat) : Nat := if 1 ≤ v ∧ v ≤ hi then v else d

/-- Nanoseconds of an hour. -/
def hourNs : Nat := 3600000000000

/-- Put the place of a vault's Harrow; PASSES counts the passes every vault has completed. -/
def State.setVaultHarrow (s : State) (n : Nat) (h : HarrowPos) : State :=
  let l := alPut s.ecc.vaultHarrow n h
  let p := if l.length < 27648 then 0 else l.foldl (fun m x => min m x.2.passes) h.passes
  { s with ecc := { s.ecc with vaultHarrow := l } }.fset F.harrowStat_PASSES 0 p

/-- The Harrow of a vault reads the next valid burst of its pass, which costs a burst slot (R209); it waits while a huller task has the bank
(R235). `ecc`: what the code finds in word `word` of it; `vbad`: its valid
bits disagree (R438). -/
def execHarrowVaultRead (core : CoreId) (word : Fin 8) (ecc : Ecc) (vbad : Bool) (s : State) : Outcome State Fault Refusal :=
  let n := core.val
  if s.flag F.harrowCtl_PAUSE 0 then .next s
  else
    let h := alGet ⟨0, 0, 0⟩ s.ecc.vaultHarrow n
    let period := harrowPeriod (s.fget F.harrowCtl_VAULT_PERIOD_H 0) 168 24 * hourNs
    match s.valid.find? fun b => decide (n * 32768 + h.next ≤ b ∧ b < (n + 1) * 32768) with
    | none =>
      let (h, s) := s.passEnd h period
      .next (s.setVaultHarrow n h)
    | some b =>
      if s.bankTaken (b * 256) then .next s else
      let s := if vbad then s.countEcc (b * 256) false else s
      let s := (s.coreCount n 4 1).eccRead (b * 256 + word.val * 32) ecc srcHarrow 0xFF
      .next (s.setVaultHarrow n { h with next := b % 32768 + 1 })

/-- The Granary Harrow reads the next word of its pass. -/
def execHarrowGranaryRead (ecc : Ecc) (s : State) : Outcome State Fault Refusal :=
  if s.flag F.harrowCtl_PAUSE 0 then .next s
  else
    let h := s.ecc.grnHarrow
    let s := s.eccRead (0x4000000000 + h.next * 8) ecc srcHarrow 0xFF
    let (h, s) := if h.next + 1 < 0x8000000 then ({ h with next := h.next + 1 }, s) else s.passEnd h (harrowPeriod (s.fget F.harrowCtl_GRN_PERIOD_H 0) 24 1 * hourNs)
    .next { s with ecc := { s.ecc with grnHarrow := h } }

/-- The seedstore Harrow reads the next burst of its pass; one whose line is present in the cache is skipped (R446). -/
def execHarrowSeedstoreRead (ecc : Ecc) (s : State) : Outcome State Fault Refusal :=
  if s.flag F.harrowCtl_PAUSE 0 then .next s
  else
    let h := s.ecc.ssHarrow
    let a := 0x8000000000 + h.next * 256
    let s := if s.lines.any fun l => l.addr = a then s else (s.ssRead a ecc 0xFF).1
    let (h, s) := if (h.next + 1) * 256 < s.partNo.capacity then ({ h with next := h.next + 1 }, s)
      else s.passEnd h (harrowPeriod (s.fget F.harrowCtl_SS_PERIOD_D 0) 14 7 * 24 * hourNs)
    .next { s with ecc := { s.ecc with ssHarrow := h } }

/-! ## Freeing log entries -/

/-- An entry with PERM = 0 is freed 30 days of elapsed module time after its last event (R442, R565). -/
def execLogEntryAgeOut (idx : Nat) (s : State) : Outcome State Fault Refusal :=
  let e := logEnt idx
  if 144 ≤ idx || !s.flag e.valid e.copy || s.flag e.perm e.copy then .next s
  else if s.time.elapsed < alGet 0 s.ecc.lastAt idx + 2592000000000000 then .next s
  else .next (s.logFree idx)

/-- LOG_CLR: the entry named is freed unless it is permanent (Table 13-2). -/
def execLogClr (val : W32) (s : State) : Outcome State Fault Refusal :=
  let v := val.toNat
  let i := bitsOf v 0 5
  let idx := if bitAt v 31 then 128 + i else bitsOf v 5 2 * 32 + i
  let e := logEnt idx
  if 144 ≤ idx || s.flag e.perm e.copy then .next s else .next (s.logFree idx)

/-! ## Retirement (R448 to R452) -/

/-- Spare rows in use in a bank. -/
def State.rowsUsed (s : State) (n b : Nat) : Nat := alGet 0 s.ret.rows (n * 32 + b)

/-- Load the result of a retirement. -/
def State.retResult (s : State) (r : Nat) : State := (s.fset F.retStatus_RESULT 0 r).fset F.retStatus_BUSY 0 0

/-- The units a substitution holds, numbered as in `RetSt.gone`: a bank, the four banks of a layer slice, or a bin. -/
def RetJob.units (j : RetJob) : List Nat :=
  if j.scope = 3 then [884736 + j.target]
  else if j.scope = 1 then [j.target * 32 + j.bank]
  else (List.range 4).map fun i => j.target * 32 + j.bank / 4 * 4 + i

/-- A substitution begins (step 1 of Table 13-5): the stall watch does not time the handshakes it holds (R451). -/
def State.retStart (s : State) (j : RetJob) : State :=
  j.units.foldl (fun (s : State) u => s.pause (.unit u)) { s with ret := { s.ret with job := some j } }

/-- A RET_CMD write of one scope (Tables 13-3, 13-4): lost while BUSY; in S2 it waits for S0 (R451). With no spare row left a PAGE is
done as a BANK. -/
def State.retCmd (s : State) (scope : Nat) (val : W32) : State :=
  let v := val.toNat
  let row := bitsOf v 21 7
  let bank := bitsOf v 16 5
  let target := bitsOf v 0 16
  if bitsOf v 30 2 ≠ scope then s
  else if s.flag F.retStatus_BUSY 0 then s.fset F.retStatus_LOST 0 1
  else if (if scope = 3 then 64 ≤ target else 27648 ≤ target) then s.retResult 4
  else
    let j : RetJob := { value := v, scope := if scope = 1 ∧ 8 ≤ s.rowsUsed target bank then 2 else scope, row := row, bank := bank, target := target }
    let s := s.fset F.retStatus_BUSY 0 1
    if s.sleep = 2 then { s with ret := { s.ret with waiting := some j } } else s.retStart j

/-- RET_CMD with SCOPE PAGE. -/
def execRetirePage (val : W32) (s : State) : Outcome State Fault Refusal := .next (s.retCmd 1 val)
/-- RET_CMD with SCOPE BANK. -/
def execRetireBank (val : W32) (s : State) : Outcome State Fault Refusal := .next (s.retCmd 2 val)
/-- RET_CMD with SCOPE BIN. -/
def execRetireBin (val : W32) (s : State) : Outcome State Fault Refusal := .next (s.retCmd 3 val)

/-- Does a running huller task lie in a bank a substitution waits for (step 2 of Table 13-5). -/
def State.retRunning (s : State) (j : RetJob) : Bool :=
  j.scope ≠ 3 && (s.core j.target).hul.any fun h => h.tasks.any fun t =>
    t.st = .computing && (if j.scope = 1 then t.bank = j.bank else t.bank / 4 = j.bank / 4)

/-- The copy of a substitution is done: the map is switched, entries of the words retired are freed, RESULT is loaded (steps 4 and 5 of
Table 13-5). Without a spare the unit is retired without a substitute and the module becomes unready (R452). -/
def execRetireCopyDone (s : State) : Outcome State Fault Refusal :=
  match s.ret.job with
  | none => .next s
  | some j =>
    if s.retRunning j then .next s
    else
      let s := j.units.foldl (fun (s : State) u => s.unpause (.unit u)) s
      let t := s.ret
      let key := j.target * 32 + j.bank
      let result := if j.scope = 1 then 0 else if j.scope = 2 then (if t.slices.contains j.target then 3 else 1) else if t.bins < 2 then 2 else 3
      let t : RetSt := match result with
        | 0 => { t with rows := alPut t.rows key (alGet 0 t.rows key + 1) }
        | 1 => { t with slices := setIns t.slices j.target, rows := t.rows.filter fun x => x.1 / 4 ≠ key / 4 }
        | 2 => { t with bins := t.bins + 1 }
        | _ => { t with gone := setIns t.gone (if j.scope = 3 then 884736 + j.target else key) }
      let s := { s with ret := { t with job := none } }
      let (a, n) := j.range (result = 3)
      let inside (w : Nat) : Bool := decide (a ≤ w ∧ w < a + n)
      let e := s.ecc.written a n
      let s := { s with ecc := { e with history := e.history.filter fun h => !inside h.1 } }
      let addrOf (i : Nat) : Nat :=
        let x := logEnt i
        if i < 128 then vaultBase (s.fget x.unit x.copy) + s.fget x.word x.copy * 32 else binBase (s.fget x.unit x.copy) + s.fget x.word x.copy * 8
      let freed := (List.range 144).filter fun i => s.flag (logEnt i).valid (logEnt i).copy && inside (addrOf i)
      let body := match freed with | i :: _ => s.logWords i | [] => [0, 0]
      let s := freed.foldl (fun (s : State) i => s.logFree i) s
      let s := s.retResult result
      let s := if j.scope = 3 then s else
        (s.fset F.retStatus_ROWS_LEFT 0 (8 - s.rowsUsed j.target j.bank)).fset F.retStatus_SLICE_FREE 0 (one (!s.ret.slices.contains j.target))
      let s := (s.almanac 4 [j.value, result]).event 0xA (body ++ [s.regWord R.retStatus 0])
      .next (if result = 3 then
          s.unready (if j.scope = 3 then 5 else 2) (if j.scope = 3 then j.target else key) { FaultRec.blank 0x21 with addr := s.glob a }
        else s)

end Sys2Proof.Machine
end

