-- ==== Sys2Proof/Machine/Bins.lean ====
section
/-!
DEFINITION. Bins.lean: bin modes and their transitions (R249 to R252, R256), accesses of the seedstore (R255, R437), and the
windows of other modules (R265, R266).
-/
namespace Sys2Proof.Machine

open Host (Outcome)

/-! ## GRN_BIN_CFG (R250, R251, Table 8-4) -/

/-- Refuse a write of GRN_BIN_CFG[k]. -/
def State.binErr (s : State) (k : Nat) : State := s.fset F.grnBinCfg_ERR k 1

/-- Begin a transition of bin k to MODE `mode`; one that changes the set of cache bins starts a flush (R256). -/
def State.binBegin (s : State) (k mode owner slot : Nat) (cache : Bool) : State :=
  let s := (((s.fset F.grnBinCfg_BUSY k 1).fset F.grnBinCfg_MODE k mode).fset F.grnBinCfg_OWNER k owner).fset F.grnBinCfg_SLOT k slot
  let s := { s with binMoves := alPut s.binMoves k (one cache) }
  if cache then s.fset F.grnCacheStat_FLUSH 0 1 else s

/-- Is every ring of a partition disabled and idle. -/
def State.ringsOff (s : State) (p : Nat) : Bool :=
  (List.range 4).all fun i => !s.flag F.ringCfg_ENABLE (p * 4 + i) && s.flag F.ringState_IDLE (p * 4 + i)

/-- A write of MODE and OWNER to GRN_BIN_CFG[k] (R251): one that changes nothing has no effect; a transition of Table 8-4 whose
condition holds begins, and its bytes are written with zero; any other sets ERR. -/
def State.binCfg (s : State) (k mode owner : Nat) : State :=
  let m := s.fget F.grnBinCfg_MODE k
  let o := s.fget F.grnBinCfg_OWNER k
  if mode = m ∧ (mode ≠ 2 ∨ owner = o) then s
  else if s.flag F.grnBinCfg_BUSY k then s.binErr k
  else if m = 0 ∧ mode = 2 then
    if (s.partOf owner).isNone then s.binErr k
    else (s.zeroRange (binBase k) 0x1000000).binBegin k 2 owner (s.binsOf owner) false
  else if m = 2 ∧ mode = 0 then
    if s.fget F.grnBinCfg_SLOT k + 1 = s.binsOf o ∧ s.ringsOff o then
      ((s.zeroRange (binBase k) 0x1000000).binBegin k 0 0 0 false).descLose o
    else s.binErr k
  else if (m = 0 ∧ mode = 1) ∨ (m = 1 ∧ mode = 0) then
    if s.flag F.grnCacheStat_FLUSH 0 then s.binErr k else s.binBegin k mode 0 0 true
  else s.binErr k

/-- GRN_BIN_CFG[k] written with MODE SCRATCH and an owner. -/
def execBinFreeToScratch (k : BinId) (owner : PartId) (s : State) : Outcome State Fault Refusal := .next (s.binCfg k 2 owner)
/-- GRN_BIN_CFG[k] of a SCRATCH bin written with MODE FREE; of another bin this row is not the one. -/
def execBinScratchToFree (k : BinId) (s : State) : Outcome State Fault Refusal :=
  .next (if s.fget F.grnBinCfg_MODE k = 2 then s.binCfg k 0 0 else s)
/-- GRN_BIN_CFG[k] written with MODE CACHE. -/
def execBinFreeToCache (k : BinId) (s : State) : Outcome State Fault Refusal := .next (s.binCfg k 1 0)
/-- GRN_BIN_CFG[k] of a CACHE bin written with MODE FREE. -/
def execBinCacheToFree (k : BinId) (s : State) : Outcome State Fault Refusal :=
  .next (if s.fget F.grnBinCfg_MODE k = 1 then s.binCfg k 0 0 else s)

/-- Does the transition of bin k under way wait for a cache flush: one to or from CACHE does (Table 8-4). -/
def State.binFlushes (s : State) (k : Nat) : Bool := s.flag F.grnCacheStat_FLUSH 0 && alGet 0 s.binMoves k = 1

/-- A transition completes: zeroing is done, or the cache flush it waits for has ended (Table 8-4). -/
def execBinTransitionDone (k : BinId) (s : State) : Outcome State Fault Refusal :=
  if !s.flag F.grnBinCfg_BUSY k || s.binFlushes k then .next s
  else .next ({ s with binMoves := alDel s.binMoves k }.fset F.grnBinCfg_BUSY k 0)

/-- A cache flush ends: no line is present, and the cache bins now in CACHE mode are in force (R256). -/
def execCacheFlushDone (s : State) : Outcome State Fault Refusal :=
  if !s.flag F.grnCacheStat_FLUSH 0 then .next s
  else
    let n := ((List.range 64).filter fun k => s.fget F.grnBinCfg_MODE k = 1).length
    .next (({ s with lines := [] }.fset F.grnCacheStat_FLUSH 0 0).fset F.grnCacheStat_BINS 0 n)

/-! ## The seedstore (R254, R255, R276, R437) -/

/-- Failed transfers of a burst on the seedstore's link (R437): each is retried and counted, up to 4 attempts. -/
def State.crcRetries (s : State) (crc : Nat) : State := if crc = 0 then s else s.fadd F.ssCrcRetry_COUNT 0 (min crc 3)

/-- A seedstore burst goes on the chaff list, where it has room (R415). -/
def State.ssMark (s : State) (w : Nat) : State :=
  if s.chaff.contains w then s
  else if s.ssChaff < 65536 then { s with chaff := setIns s.chaff w } else s.fadd F.chaffRefused_COUNT 0 1

/-- An access of `len` bytes at a seedstore address, of a contiguous run of `run` bytes, from `src`: a read answers the bytes (a
burst with chaff answers status 1, poisoned), a write stores `write`. `ecc`, `crc`: what the device reports on the first burst when it is
read, and how many transfers of that burst fail their CRC. An address outside the populated seedstore answers status 2, unmapped (R16). -/
def execSeedstoreAccess (src : Src) (addr len : Nat) (write : Option (List Byte)) (run : Nat) (ecc : Ecc) (crc : Nat) (s : State) :
    Outcome State Fault Refusal :=
  match s.region addr, s.region (addr + (max len 1 - 1)) with
  | .seedstore _, .seedstore _ =>
    let missing := !(s.lines.any fun l => l.addr = addr / 256 * 256)
    match write with
    | some bs =>
      let bs := sliceB bs 0 len
      let s := (s.reach addr len true run).wr addr bs
      let s := if missing then s.crcRetries crc else s
      let s := if missing && decide (4 ≤ crc) then s.ssMark (granuleOf addr) else s
      .next (s.emit (.answer src 0 []))
    | none =>
      let (s, ch) := if missing then (s.crcRetries crc).ssRead addr ecc 0xFF else (s, false)
      let lost := missing && decide (4 ≤ crc)
      let s := if lost then s.chaffMade addr 0xFF else s
      let s := s.reach addr len false run
      let bad := ch || lost || (List.range len).any fun i => s.isChaff (addr + i)
      let data := if lost then s.badBytes addr len else s.rdN addr len
      let s := if lost then { s with undefs := s.undefs + 1 } else s
      .next (s.emit (.answer src (one bad) data))
  | _, _ => .next (s.emit (.answer src 2 []))

/-! ## Collective windows (R265, R266) -/

/-- A write to CWIN[j] of a partition: refused, with ERR, when the area lies outside the partition's scratchpad offset space. A 1
in ERR clears it. -/
def execCwinWrite (p : PartId) (j : Fin 16) (val : W64) (s : State) : Outcome State Fault Refusal :=
  let v := val.toNat
  let i := p.val * 16 + j.val
  let s := if bitAt v 62 then s.fset F.cwin_ERR i 0 else s
  if !s.spHas p (bitsOf v 12 18 * 4096) (bitsOf v 30 18 * 4096) then .next (s.fset F.cwin_ERR i 1)
  else .next (((s.fset F.cwin_VALID i (bitsOf v 63 1)).fset F.cwin_SIZE i (bitsOf v 30 18)).fset F.cwin_OFFSET i (bitsOf v 12 18))

/-- Is every byte of an access from another module covered by a valid window of its bin's owner (R265). -/
def State.windowed (s : State) (a n : Nat) : Bool :=
  (List.range n).all fun i =>
    match s.region (a + i) with
    | .bin k o =>
      s.fget F.grnBinCfg_MODE k = 2 &&
      (let p := s.fget F.grnBinCfg_OWNER k
       let x := s.fget F.grnBinCfg_SLOT k * 0x1000000 + o
       (List.range 16).any fun j =>
         let w := p * 16 + j
         s.flag F.cwin_VALID w && decide (s.fget F.cwin_OFFSET w * 4096 ≤ x ∧ x < (s.fget F.cwin_OFFSET w + s.fget F.cwin_SIZE w) * 4096))
    | _ => false

end Sys2Proof.Machine
end

