-- ==== Sys2Proof/Machine/Reduce.lean ====
section
/-!
DEFINITION. Reduce.lean: combining contributions at their home Granary (R203, R204, R262, R263), the deterministic mode of
SCATTER (R205), and the responses to other modules' requests.
-/
namespace Sys2Proof.Machine

open Host (Outcome)

/-- Combine one element with one contribution: exact, then rounded once (R203, R120); an INT32 ADD outside the range is
clamped. Answers the result's bits and whether it was clamped. -/
def combineBits (etype stype op old new : Nat) : Nat × Bool :=
  if etype = 0x12 then
    let a := signed old 32
    let b := signed new 32
    let r := if op = 1 then a + b else if op = 2 then max a b else min a b
    let c := max (-2147483648) (min 2147483647 r)
    ((c % 4294967296).toNat, c ≠ r)
  else
    let a := rawValue etype old
    let b := rawValue stype new
    let v := if op = 1 then numSum [a, b] else if op = 2 then numMax a b else numMin a b
    (roundArith etype v, false)

/-- The cells a contribution changes at its destination, read by `rd` over local addresses: element and pads; clamped. -/
def Contrib.cells (c : Contrib) (rd : Nat → Byte × Bool) : List (Nat × Byte × Bool) × Bool :=
  let k := etBits c.etype / 8
  let a := localOf c.addr
  let old := (List.range k).map fun i => rd (a + i)
  let ch := c.chaff || old.any Prod.snd
  let (v, sat) := combineBits c.etype c.stype c.op (leNat (old.map Prod.fst)) c.bits
  let el := ((toLE k v).zip (List.range k)).map fun (b, i) => (a + i, b, ch)
  let cells := (c.pads.map fun p => (localOf p, (0 : Byte), false)) ++ el
  (cells.foldl (fun v x => alPut v x.1 x.2) [], sat)

/-- The cells a staged element of REPLACE changes, read by `rd` over tagged addresses. -/
def DetItem.puts_ (x : DetItem) (rd : Nat → Byte × Bool) : List (Nat × Byte × Bool) :=
  let w := match x.dst with
    | none => []
    | some d => x.puts.foldl (fun v p =>
        (d.put (fun o => p.2.2.2.contains o) (ovr rd v) p.1 p.2.1 p.2.2.1).1.foldl (fun v c => alPut v c.1 c.2) v) []
  x.bytes.foldl (fun v c => alPut v c.1 c.2) w

/-- The cells an element changes on this module, read by `rd` over local addresses; clamped. -/
def DetItem.cells (x : DetItem) (rd : Nat → Byte × Bool) : List (Nat × Byte × Bool) × Bool :=
  if x.op = 0 then ((x.puts_ fun a => rd (localOf a)).map fun c => (localOf c.1, c.2), false) else x.con.cells rd

/-- Local addresses an element touches, whatever lies there. -/
def DetItem.touches (x : DetItem) : List Nat := (x.cells fun _ => (0, false)).1.map Prod.fst

/-- A contribution as an element to combine. -/
def Contrib.item (c : Contrib) : DetItem := { issuer := 0, seq := 0, j := 0, ord := 0, op := c.op, con := c, bytes := [] }

/-- What elements leave in order at the local addresses `mine`, read by `rd`: the cells, how many were clamped, and those whose cells carry
chaff (R203, R262). -/
def combineAll (rd : Nat → Byte × Bool) (mine : Nat → Bool) (l : List DetItem) : List (Nat × Byte × Bool) × Nat × List DetItem :=
  l.foldl (fun (ov, n, ch) x =>
    let (cells, sat) := x.cells (ovr rd ov)
    let cells := cells.filter fun y => mine y.1
    (cells.foldl (fun v y => alPut v y.1 y.2) ov, n + one sat, if cells.any fun y => y.2.2 then ch ++ [x] else ch)) ([], 0, [])

/-- Keep what a combining did beside its cells: the count of clamped sums, the chaff its steps consumed, what they have written. -/
def State.combined (s : State) (sats : Nat) (chaffed l : List DetItem) (cells : List (Nat × Byte × Bool)) : State :=
  let s := chaffed.foldl (fun (s : State) x => s.consumeChaff x.con.ring x.con.step) { s with scatterSat := s.scatterSat + sats }
  l.foldl (fun (s : State) x => s.noteCells x.con.ring x.con.step (cells.filter fun c => x.touches.contains c.1)) s

/-- Is a combining write-back to a burst of a vault still on its way (R263). -/
def State.burstHeld (s : State) (b : Nat) : Bool :=
  let on (m : Msg) : Bool := !m.comb.isEmpty && m.lo / 256 = b
  (s.core (b * 256 / 0x800000)).vqGran.any on || s.mdq.any fun x => on x.msg

/-- Send elements that touch a burst of a vault to its vault interface, which reads, combines and writes in one turn (R262, R263). -/
def State.sendComb (s : State) (burst : Nat) (l : List DetItem) : State :=
  match l with
  | [] => s
  | x :: _ =>
    let n := burst * 256 / 0x800000
    let ids := l.filterMap fun y => y.con.move
    let msg : Msg := { src := x.con.src, moves := ids, comb := l, lo := burst * 256, ring := x.con.ring, step := x.con.step, core := n,
                       stamp := s.stampOf n, data := [], reply := none }
    (ids.foldl (fun s i => s.onMove i fun m => { m with msgs := m.msgs + 1 }) s).sendMsg msg false

/-- What a combining message changes at vault n: the cells of its burst as they stand there now, with what `combined` keeps. -/
def State.combCells (s : State) (n : Nat) (m : Msg) : List (Nat × Byte × Bool) × Nat × List DetItem :=
  let at_ (a : Nat) : Nat := vaultBase n + a % 0x800000
  let (ov, sats, ch) := combineAll (fun a => (s.rd8 (at_ a), s.isChaff (at_ a))) (fun a => a / 256 = m.lo / 256) m.comb
  (ov.map fun c => (at_ c.1, c.2), sats, ch)

/-- Combine elements in order where they lie in bins and the seedstore. -/
def State.combineHere (s : State) (l : List DetItem) : State :=
  let (ov, sats, ch) := combineAll (fun a => (s.rd8 a, s.isChaff a)) (fun a => decide (0x3600000000 ≤ a)) l
  let s := (runsOf 0x10000000000000 ov).foldl (fun s r => (s.reach r.1 r.2.length true r.2.length).wrMarked r.1 r.2) s
  s.combined sats ch l ov

/-- Combine contributions of one element's burst, in order: into a bin or the seedstore at once, into a vault through one message. Pads of
their blocks that lie elsewhere are zeroed by writes of their own (R186). -/
def State.combineNow (s : State) (cs : List Contrib) : State :=
  match cs with
  | [] => s
  | c :: _ =>
    let a := localOf c.addr
    let inVault : Bool := a < 0x3600000000
    let near (p : Nat) : Bool := if inVault then localOf p / 256 = a / 256 else decide (0x3600000000 ≤ localOf p)
    let l := cs.map Contrib.item
    let s := if inVault then s.sendComb (a / 256) l else s.combineHere l
    cs.foldl (fun s x => s.zeroPads x (x.pads.filter fun p => !near p)) s

/-- Answer a request of another module (R383): CPL with a status. -/
def State.reply (s : State) (module srcId txn type status : Nat) (payload : List Byte) (poison : Nat) : State :=
  s.route { type := type, cls := 2, level := 0, hops := 63, op := 0, dst := module, src := s.selfId, addr := 0, etype := 0,
            srcId := srcId, txn := txn, bytes := status, poison := poison, payload := payload }

/-- Answer for a contribution of another module: by a CPL, or by an ABORT where it was not combined (log 195). -/
def State.replyContrib (s : State) (c : Contrib) (done : Bool := true) : State :=
  match c.src, c.txn with
  | .remote m u, some t => s.reply m u t (if done then 6 else 7) 0 [] 0
  | _, _ => s

/-- What the partition of a contribution may not write: the status, 0 where it may. A contribution of another module was judged on arrival. -/
def State.contribStatus (s : State) (c : Contrib) : Nat :=
  match c.src with
  | .remote _ _ => 0
  | _ => s.access c.part (localOf c.addr) true

/-- The home Granary combines its next contribution, and into a vault every one it holds for the same burst, in the order of their arrival
(R263, R264). `mismatch`: how often running the two arithmetic units of the first disagreed; the second time leaves the target unchanged and is
a fault GRN_ALU of the issuing step (R397). -/
def execCombineContribution (mismatch : Nat) (s : State) : Outcome State Fault Refusal :=
  let free (c : Contrib) : Bool := let a := localOf c.addr; !(decide (a < 0x3600000000) && s.burstHeld (a / 256))
  match s.contribs.find? free with
  | none => .next s
  | some c =>
    let a := localOf c.addr
    if 2 ≤ mismatch then
      .next (({ s with contribs := s.contribs.erase c }.confirm (granaryFault c.part c.ring c.step c.addr)).replyContrib c false)
    else
      let vault : Bool := a < 0x3600000000
      let same (x : Contrib) : Bool := localOf x.addr / 256 = a / 256
      let mine := if vault then s.contribs.filter same else [c]
      let s := { s with contribs := if vault then s.contribs.filter (fun x => !same x) else s.contribs.erase c }
      let s := (mine.filter fun x => s.contribStatus x ≠ 0).foldl (fun (s : State) x =>
        match x.move with
        | some i => s.onMove i fun m => { m with err := if m.err = 0 then s.contribStatus x else m.err }
        | none => s) s
      let ok := mine.filter fun x => s.contribStatus x = 0
      let s := s.combineNow ok
      .next (if vault then s else ok.foldl (fun s x => s.replyContrib x) s)

/-! ## The deterministic mode (R205) -/

/-- The order of DET contributions: issuer, sequence, j, and the element order within j. -/
def DetItem.before (a b : DetItem) : Bool :=
  if a.issuer ≠ b.issuer then decide (a.issuer < b.issuer)
  else if a.seq ≠ b.seq then decide (a.seq < b.seq)
  else if a.j ≠ b.j then decide (a.j < b.j)
  else decide (a.ord < b.ord)

/-- Insert in key order. -/
def detInsert (x : DetItem) : List DetItem → List DetItem
  | [] => [x]
  | y :: t => if x.before y then x :: y :: t else y :: detInsert x t

/-- What the partition may not write of an element on this module: the status, 0 where it may. -/
def State.itemStatus (s : State) (x : DetItem) : Nat :=
  ((x.touches.map fun a => s.access x.con.part a true).find? (· ≠ 0)).getD 0

/-- The bursts of vaults elements touch, in the order in which they come. -/
def itemBursts (l : List DetItem) : List Nat :=
  (l.flatMap fun x => (x.touches.filter fun a => decide (a < 0x3600000000)).map (· / 256)).foldl (fun b a => if b.contains a then b else b ++ [a]) []

/-- Combine the staged elements of a step, in key order: each burst of a vault by one message, bins and the seedstore at once, other modules
by packets. -/
def State.detCombine (s : State) (items : List DetItem) : State :=
  let here := items.filter fun x => s.isLocal x.con.addr
  let s := (itemBursts here).foldl (fun (s : State) b => s.sendComb b (here.filter fun x => x.touches.any fun a => a / 256 = b)) s
  let s := s.combineHere (here.filter fun x => x.touches.any fun a => decide (0x3600000000 ≤ a))
  let s := here.foldl (fun (s : State) x => s.zeroPads x.con (x.con.pads.filter fun p => !s.isLocal p)) s
  (items.filter fun x => !s.isLocal x.con.addr).foldl (fun s x =>
    if x.op = 0 then s.deliver (x.con.asMove s.nextMove) x.bytes else s.sendContribs [x.con] none) s

/-- Every work item and entry of the oldest open step that staged DET contributions has ended and its COMMIT is taken: the Granary combines
them in key order (R205), unless a fault of the step waits, whose replay stages them again. An element its partition may not write gives its
status (R627). `mismatch`: as for COMBINE_CONTRIBUTION (R397); DESIGN CHOICE (log 194): the second mismatch leaves every element as it was. -/
def execDetScatterCombine (ring : RingId) (mismatch : Nat) (s : State) : Outcome State Fault Refusal :=
  match (s.ring ring).steps with
  | [] => .next s
  | o :: _ =>
    let mine (r : Nat) (st : Nat) : Bool := r = ring.val && st = o.step
    if !o.commitTaken || o.items ≠ 0 || o.entries ≠ 0 || o.st ≠ .run || o.detDone || s.stepBusy ring.val o.step ||
        (s.faultQ.any fun f => mine f.ring f.step) || (s.errQ.any fun e => mine e.ring e.step) then .next s else
    let items := ((s.det.filter fun d => mine d.ring d.step).flatMap DetRes.items).foldl (fun l x => detInsert x l) []
    match (if 2 ≤ mismatch then items.head? else none) with
    | some x => .next (s.confirm (granaryFault x.con.part (some ring.val) o.step x.con.addr))
    | none =>
      let s := { s with det := s.det.map fun (d : DetRes) => if mine d.ring d.step then { d with items := [] } else d }
      let denied (x : DetItem) : Bool := s.isLocal x.con.addr && s.itemStatus x ≠ 0
      let s := match items.find? denied with
        | some x => s.stepError { ring := ring.val, step := o.step, status := s.itemStatus x, soft := 0, entry := none, item := false,
                                  core := if x.issuer < 27648 then x.issuer else 0xFFFF }
        | none => s
      let s := s.detCombine (items.filter fun x => !denied x)
      .next (s.onStep (some ring.val) o.step fun o => { o with detDone := true })

end Sys2Proof.Machine
end

