-- ==== Sys2Proof/Machine/Packets.lean ====
section
/-!
DEFINITION. Packets.lean: Oncon packets at a port, in the router and at their destination (R360 to R362, R368, R379 to R389).
-/
namespace Sys2Proof.Machine

open Host (Outcome)

/-! ## A packet's form (R361, Table 11-4) -/

/-- Class a type travels in. -/
def classOf (type : Nat) : Nat := if type ≤ 3 then 0 else if type = 4 then 1 else if type ≤ 7 then 2 else 3

/-- The flits of a packet keep Table 11-3 and Table 11-4: TYPE listed, its class and OP, reserved bits zero, LEN that its bytes need,
and a range that stays within 256 bytes. -/
def wireOk (b : List Byte) : Bool :=
  let p := Packet.parse b
  let len := fieldB b 3 1 % 16
  let rsvd := fieldB b 1 1 / 32 = 0 && fieldB b 2 1 / 64 = 0 && fieldB b 13 1 / 64 = 0 && fieldB b 14 2 / 4096 = 0 && fieldB b 27 1 = 0
  let range := 1 ≤ p.bytes && p.bytes ≤ 256 && p.addr % 256 + p.bytes ≤ 256
  let need := (p.bytes + 31) / 32
  rsvd && len ≤ 8 && p.cls = classOf p.type && p.poison / 2 ^ len = 0 && (p.type = 4 || p.etype = 0) &&
  (match p.type with
   | 1 => p.op = 0 && len = 0 && range
   | 2 => p.op = 0 && len = need && range
   | 3 => p.op ≤ 1 && len = 1 && range && p.bytes = 8
   | 4 => 1 ≤ p.op && p.op ≤ 3 && len = need && range
   | 5 => p.op = 0
   | 6 | 7 => p.op = 0 && len = 0
   | 8 => 1 ≤ p.op && p.op ≤ 3
   | _ => false)

/-- The payload bytes of a packet with their chaff marks (POISON). -/
def Packet.marked (p : Packet) (n : Nat) : List (Byte × Bool) :=
  (sliceB p.payload 0 n).zip ((List.range n).map fun i => bitAt p.poison (i / 32))

/-! ## At the destination (R383, Table 11-10) -/

/-- Does a packet come from an engine of its module, which needs no window (R265). -/
def Packet.engine (p : Packet) : Bool := 0x20000 ≤ p.srcId

/-- Is every byte of a range in a mapped region (R16). -/
def State.mapped (s : State) (a n : Nat) : Bool := s.region a ≠ .unmapped && (n ≤ 1 || s.region (a + n - 1) ≠ .unmapped)

/-- Does a range touch an area of a SCRATCH bin that only this module's engines write (R249). -/
def State.engineWritten (s : State) (a n : Nat) : Bool :=
  (List.range n).any fun i => match s.region (a + i) with
    | .bin k _ => s.engineArea (s.fget F.grnBinCfg_OWNER k) (a + i)
    | _ => false

/-- Status of a remote access to `n` bytes at `a`, with CWIN_REFUSED counted (Table 11-10). -/
def State.remoteCheck (s : State) (p : Packet) (n : Nat) (write : Bool) : Nat × State :=
  if !s.mapped p.addr n then (0x0A01, s)
  else if p.engine then
    (match s.region p.addr with | .registers _ => (0x0A01, s) | _ => (0, s))
  else if !s.windowed p.addr n || (write && s.engineWritten p.addr n) then (0x0A02, s.fadd F.cwinRefused_CWIN_REFUSED 0 1)
  else (0, s)

/-- Answer a request with a CPL, or an RD_RSP without data. -/
def State.answerReq (s : State) (p : Packet) (status : Nat) : State :=
  s.reply p.src p.srcId p.txn (if p.type = 1 then 5 else 6) status [] 0

/-- RD_REQ at its destination. -/
def State.doRead (s : State) (p : Packet) : State :=
  let (st, s) := s.remoteCheck p p.bytes false
  if st ≠ 0 then s.answerReq p st
  else
    let s := s.reach p.addr p.bytes false p.bytes
    let s := if p.addr < 0x3600000000 then s.coreCount (p.addr / 0x800000) 4 1 else s
    let marks := (List.range p.bytes).map fun i => s.isChaff (p.addr + i)
    s.reply p.src p.srcId p.txn 5 0 (s.rdN p.addr p.bytes) (poisonOf marks)

/-- WR at its destination: into a vault as a message, else at once. -/
def State.doWrite (s : State) (p : Packet) : State :=
  let (st, s) := s.remoteCheck p p.bytes true
  if st ≠ 0 then s.answerReq p st
  else
    let bs := p.marked p.bytes
    if p.addr < 0x3600000000 then
      let n := p.addr / 0x800000
      let data := (bs.zip (List.range p.bytes)).map fun x => (p.addr % 0x800000 + x.2, x.1)
      let msg : Msg := { src := .remote p.src p.srcId, moves := [], comb := [], lo := 0, ring := none, step := 0, core := n, stamp := s.stampOf n,
                         data := data, reply := some (p.src, p.srcId, p.txn) }
      s.sendMsg msg false
    else ((s.reach p.addr p.bytes true p.bytes).wrMarked p.addr bs).answerReq p 0

/-- Is an address in a bin assigned as scratchpad (R56). -/
def State.inScratchBin (s : State) (a : Nat) : Bool :=
  match s.region a with
  | .bin k _ => s.fget F.grnBinCfg_MODE k = 2
  | _ => false

/-- SIGNAL at its destination. `mismatch`: how often running the Granary's two arithmetic units disagreed: the second time the semaphore is left
unchanged (R397). DESIGN CHOICE (log 195): the fault is recorded here, and the step of the other module learns of it by an ABORT. -/
def State.doSignal (s : State) (p : Packet) (mismatch : Nat) : State :=
  let (st, s) := s.remoteCheck p 8 true
  if st ≠ 0 then s.answerReq p st
  else if p.addr % 8 ≠ 0 || !s.inScratchBin p.addr then s.answerReq p 0x0901
  else if 2 ≤ mismatch then (s.confirm (granaryFault 0xFF none 0 (s.glob p.addr))).reply p.src p.srcId p.txn 7 0 [] 0
  else (s.signalLocal p.addr (p.op = 1) (fieldB p.payload 0 8) (bitAt p.poison 0)).answerReq p 0

/-- COMBINE at its destination: each element is a contribution its home Granary will combine; the last carries the answer. -/
def State.doCombine (s : State) (p : Packet) : State :=
  let (st, s) := s.remoteCheck p p.bytes true
  let ok := p.etype = 1 || p.etype = 2 || p.etype = 3 || p.etype = 0x12
  let k := etBits p.etype / 8
  if st ≠ 0 then s.answerReq p st
  else if !ok || p.bytes % k ≠ 0 || p.addr % k ≠ 0 then s.answerReq p 0x0826
  else
    let n := p.bytes / k
    let con (i : Nat) : Contrib :=
      { src := .remote p.src p.srcId, move := none, part := 0xFF, ring := none, step := 0, op := p.op, etype := p.etype, stype := p.etype,
        addr := s.glob (p.addr + i * k), bits := fieldB p.payload (i * k) k, chaff := ((List.range k).any fun j => bitAt p.poison ((i * k + j) / 32)),
        pads := [], txn := if i + 1 = n then some p.txn else none }
    { s with contribs := s.contribs ++ (List.range n).map con }

/-- Take a transaction out of the table. -/
def State.txnTake (s : State) (t : Txn) : State := { s with link := { s.link with txns := s.link.txns.filter fun x => x.txn ≠ t.txn } }

/-- A response reaches the requester: data and status go to the move or command that waits (R171, R272); one no transaction waits for is
late (R387). -/
def State.doResponse (s : State) (p : Packet) : State :=
  match s.link.txns.find? fun t => t.txn = p.txn with
  | none => s.fadd F.lateRsp_COUNT 0 1
  | some t =>
    let s := s.txnTake t
    match t.move, t.core with
    | some id, _ =>
      let base := t.pkt.dst * 0x10000000000 + t.pkt.addr
      let got := if p.type = 5 && p.bytes = 0 then
          ((p.marked t.pkt.bytes).zip (List.range t.pkt.bytes)).map fun x => (base + x.2, x.1)
        else []
      let s := s.onMove id fun m => { m with waits := m.waits - 1, err := if m.err = 0 then p.bytes else m.err, got := m.got ++ got }
      if (s.moves.any fun m => m.id = id && m.st = .remote && m.waits = 0) then s.advanceMove id else s
    | none, some n =>
      let s := s.onCore n fun c => { c with sync := match c.sync with | some d => if d.op = 1 then none else some d | none => none }
      if p.bytes = 0 then s else s.failCmd n p.bytes
    | none, none =>
      match t.ring with
      | some r => if p.bytes = 0 then s else
          s.stepError { ring := r, step := t.step, status := p.bytes, core := 0xFFFF, soft := 0, entry := t.entry, item := false }
      | none => s

/-- A transaction is lost at a broken link or by its timeout: its open step takes a LINK_BROKEN fault of the port and its move ends; a transfer
of no step has failed, and aborts its re-shard job (R387, R349). -/
def State.txnLost (s : State) (t : Txn) (port : Nat) : State :=
  let s := s.txnTake t
  let open_ := match t.ring with | some r => ((s.ring r).openStep t.step).isSome | none => false
  let s := match t.core, t.move with
    | some n, none => s.onCore n fun c => { c with sync := match c.sync with | some d => if d.op = 1 then none else some d | none => none }
    | _, _ => s
  if t.ring.isSome then
    let s := match t.move with
      | some id => { s with moves := s.moves.filter fun m => m.id ≠ id }.endReleases
      | none => s
    if open_ then s.linkFault (t.ring.getD 0) t.step port else s
  else match t.move with
    | some id =>
      let s := s.onMove id fun m => { m with waits := m.waits - 1, err := if m.err = 0 then 0x0A01 else m.err }
      if (s.moves.any fun m => m.id = id && m.st = .remote && m.waits = 0) then s.advanceMove id else s
    | none => s.rshLost t

/-- SWEEP_REQ: the module answers with its twelve PORT_NBR values (R379). -/
def State.doSweepReq (s : State) (p : Packet) : State :=
  let vals := (List.range 12).flatMap fun i => toLE 8 (s.regWord R.portNbr i)
  s.route { s.newPacket 8 3 2 p.src 0 0 vals 0 with srcId := p.srcId, txn := p.txn }

/-- SWEEP_RSP at the origin: compared with the expected topology (R379). -/
def State.doSweepRsp (s : State) (p : Packet) : State :=
  match s.link.sweep with
  | none => s
  | some w =>
    if !w.asked.contains p.src then s
    else
      let same := (List.range 12).all fun i => fieldB p.payload (i * 8) 8 = alGet 0 s.link.topo (p.src * 16 + i)
      let differ := if same then w.differ else some (match w.differ with | some m => min m p.src | none => p.src)
      let s := { s with link := { s.link with sweep := some { w with asked := w.asked.erase p.src, differ := differ } } }
      (s.fadd F.sweepStat_VISITED 0 1).sweepFill

/-- A BREAK notice: forwarded once, on every UP port but the one it came in on, and effective here (R386 to R389). -/
def State.doBreak (s : State) (p : Packet) (from_ : Option Nat) : State :=
  let m := fieldB p.payload 0 2
  let pt := fieldB p.payload 2 1
  let lost := bitAt (fieldB p.payload 3 1) 0
  let e := fieldB p.payload 4 4
  if s.link.breaks.contains (m, pt, e) then s
  else
    let s := { s with link := { s.link with breaks := s.link.breaks ++ [(m, pt, e)] } }
    (s.flood m pt e lost from_).breakHere lost (if m = s.selfId then pt else from_.getD 0xFF)

/-- Perform a packet that has reached its destination. `mismatch`: as for `doSignal`. -/
def State.perform (s : State) (p : Packet) (from_ : Option Nat) (mismatch : Nat) : State :=
  match p.type, p.op with
  | 1, _ => s.doRead p
  | 2, _ => s.doWrite p
  | 3, _ => s.doSignal p mismatch
  | 4, _ => s.doCombine p
  | 5, _ => s.doResponse p
  | 6, _ => s.doResponse p
  | 7, _ => match s.link.txns.find? fun t => t.txn = p.txn with
    | some t => s.txnLost t (from_.getD 0xFF)
    | none => s.fadd F.lateRsp_COUNT 0 1
  | 8, 1 => s.doSweepReq p
  | 8, 2 => s.doSweepRsp p
  | 8, 3 => s.doBreak p from_
  | _, _ => s

/-! ## At a port (R361, R362, R368, R380) -/

/-- A packet for this module by the active set: its entry is VALID and LOCAL (R380, Table 11-9). -/
def State.isHere (s : State) (p : Packet) : Bool := bitAt (s.activeEntry p.dst) 31 && bitAt (s.activeEntry p.dst) 30

/-- A packet comes in by a port: one for this module that follows no other of its class and destination is performed, any other enters the
router. -/
def State.arrive (s : State) (port : Nat) (p : Packet) (mismatch : Nat) : State :=
  if (p.type = 8 && p.op = 3) || (s.isHere p && !s.link.queue.any fun h => h.inp = port && h.pkt.cls = p.cls && h.pkt.dst = p.dst) then
    s.perform p (some port) mismatch
  else s.enter port p

/-- A packet's flits arrive at a port. Damaged or out of sequence it is asked for again; badly formed it is counted and dropped; else it
is acknowledged, its credit returned, and it is performed here or goes to the router. `type`, `op`: what the row receives (op none: any). -/
def State.receive (s : State) (port : Nat) (b : List Byte) (type : Nat) (op : Option Nat) (mismatch : Nat := 0) : State :=
  if !s.portUp port then s
  else if !wireCrcOk b then (s.fadd F.crcErr_COUNT port 1).sendNak port
  else if fieldB b 14 2 % 4096 ≠ (s.port port).rxSeq then s.sendNak port
  else
    let p := Packet.parse b
    let ok := wireOk b
    if ok && (p.type ≠ type || (match op with | some o => p.op ≠ o | none => false)) then s
    else
      let shared := bitAt (fieldB b 1 1) 4
      let n := 1 + fieldB b 3 1 % 16
      let s := s.onPort port fun x =>
        let x := { x with rxSeq := (x.rxSeq + 1) % 4096, nak := false }
        if shared then { x with rxSh := (x.rxSh + n) % 65536 } else { x with rxDed := alPut x.rxDed p.lane ((alGet 0 x.rxDed p.lane + n) % 256) }
      let s := s.sendControl port
      if !ok then s.fadd F.pktBad_COUNT port 1
      else s.arrive port p mismatch

/-- RD_REQ received. -/
def execRdReq (port : PortId) (pkt : List Byte) (s : State) : Outcome State Fault Refusal := .next (s.receive port pkt 1 none)
/-- WR received. -/
def execWr (port : PortId) (pkt : List Byte) (s : State) : Outcome State Fault Refusal := .next (s.receive port pkt 2 none)
/-- SIGNAL received; `mismatch` as for `doSignal`. -/
def execSignal (port : PortId) (pkt : List Byte) (mismatch : Nat) (s : State) : Outcome State Fault Refusal :=
  .next (s.receive port pkt 3 none mismatch)
/-- COMBINE received. -/
def execCombine (port : PortId) (pkt : List Byte) (s : State) : Outcome State Fault Refusal := .next (s.receive port pkt 4 none)
/-- RD_RSP received. -/
def execRdRsp (port : PortId) (pkt : List Byte) (s : State) : Outcome State Fault Refusal := .next (s.receive port pkt 5 none)
/-- CPL received. -/
def execCpl (port : PortId) (pkt : List Byte) (s : State) : Outcome State Fault Refusal := .next (s.receive port pkt 6 none)
/-- ABORT received. -/
def execAbort (port : PortId) (pkt : List Byte) (s : State) : Outcome State Fault Refusal := .next (s.receive port pkt 7 none)
/-- SWEEP_REQ received. -/
def execSweepReq (port : PortId) (pkt : List Byte) (s : State) : Outcome State Fault Refusal := .next (s.receive port pkt 8 (some 1))
/-- SWEEP_RSP received. -/
def execSweepRsp (port : PortId) (pkt : List Byte) (s : State) : Outcome State Fault Refusal := .next (s.receive port pkt 8 (some 2))
/-- BREAK received. -/
def execBreakNotice (port : PortId) (pkt : List Byte) (s : State) : Outcome State Fault Refusal := .next (s.receive port pkt 8 (some 3))

/-! ## The router (R380 to R382) -/

/-- The output port of a route entry for a packet (R376, R381). -/
def State.outPort (s : State) (e : Nat) (p : Packet) : Option Nat :=
  let a := routeA e
  let b := routeB e
  let hash := Nat.xor (Nat.xor p.src p.dst) p.cls % 2
  if s.portUp a then (if b ≠ 0xF && s.portUp b && hash = 1 then some b else some a)
  else if b ≠ 0xF && s.portUp b then some b
  else none

/-- The router discards a packet (R382). -/
def State.routeDrop (s : State) (p : Packet) : State :=
  let s := s.fadd F.hopDrop_COUNT 0 1
  if p.cls ≤ 1 then s.answerReq p 0x0A01 else s

/-- Where the router sends a packet by the active set (R380 to R382): an output port, 12 for this module, 13 for a packet it discards; none
while no port of its entry is UP (R376). -/
def State.way (s : State) (p : Packet) : Option Nat :=
  let e := s.activeEntry p.dst
  if !bitAt e 31 then some 13
  else if bitAt e 30 then some 12
  else if p.hops = 0 || (bitAt e 15 && 3 ≤ p.level) then some 13
  else s.outPort e p

/-- The router's queue of a packet: each input has one for each class (R364, R367). -/
def Hop.queue (h : Hop) : Nat := h.pkt.cls % 4 * 13 + h.inp

/-- Packets that can move, with their way, in the order of their arrival: none that waits for a port, and none behind an earlier packet of its
queue for the same module (R53). -/
def State.movable (s : State) : List (Hop × Nat) :=
  s.link.queue.zipIdx.filterMap fun x =>
    if (s.link.queue.take x.2).any fun y => y.queue = x.1.queue && y.pkt.dst = x.1.pkt.dst then none
    else (s.way x.1.pkt).map fun o => (x.1, o)

/-- The packet the router moves next: outputs take turns, at each output the queues take turns, one packet a turn (R367). -/
def State.nextHop (s : State) : Option (Hop × Nat) :=
  let l := s.movable
  (((List.range 14).map fun i => (s.link.turn + 1 + i) % 14).filterMap fun o =>
    let last := alGet 51 s.link.rr o
    (((List.range 52).map fun i => (last + 1 + i) % 52).filterMap fun q => l.find? fun x => x.2 = o && x.1.queue = q).head?).head?

/-- The router moves a packet (R380 to R382): to an output port, which gets a turn, to its destination here, or discarded. `mismatch`: as
for `doSignal`, where it is a SIGNAL for this module. -/
def execPacketRoute (mismatch : Nat) (s : State) : Outcome State Fault Refusal :=
  match s.nextHop with
  | none => .next s
  | some (h, o) =>
    let p := h.pkt
    let s := { s with link := { s.link with queue := s.link.queue.erase h, turn := o, rr := alPut s.link.rr o h.queue } }
    if o = 12 then .next (s.perform p (if h.inp < 12 then some h.inp else none) mismatch)
    else if o = 13 then .next (s.routeDrop p)
    else .next ((s.onPort o fun x => { x with out := x.out ++ [{ h with up := bitAt (s.activeEntry p.dst) 15 }] }).portTurn o)

/-! ## Route sets, sweeps, timeouts -/

/-- ROUTE_CTL.SWITCH: the inactive set becomes active (R384); handled as a link break with a route lost; PENDING is cleared (R388). -/
def execRouteSwitch (s : State) : Outcome State Fault Refusal :=
  let s := s.fset F.routeCtl_ACTIVE 0 (1 - s.fget F.routeCtl_ACTIVE 0)
  let e := s.link.epoch + 1
  let s := { s with link := { s.link with epoch := e, breaks := s.link.breaks ++ [(s.selfId, 0xF, e)] } }
  .next (((s.flood s.selfId 0xF e true none).breakHere true 0xF).fset F.routeCtl_PENDING 0 0)

/-- An access to ROUTE_DATA (R384, Table 11-14): the entry ROUTE_IDX names; a write to the active set is ignored and sets SW_ERR; DEST
advances. -/
def execRouteDataAccess (src : Src) (write : Option W32) (s : State) : Outcome State Fault Refusal :=
  let set := s.fget F.routeIdx_SET 0
  let dest := s.fget F.routeIdx_DEST 0
  let next (s : State) : State := s.fset F.routeIdx_DEST 0 ((dest + 1) % 65536)
  match write with
  | none => .next (next (s.emit (.answer src 0 (toLE 4 (s.routeEntry set dest)))))
  | some v =>
    if set = s.fget F.routeCtl_ACTIVE 0 then .next (next (s.fset F.routeCtl_SW_ERR 0 1))
    else
      let k := set * 65536 + dest
      let r := if v = 0 then alDel s.link.routes k else alPut s.link.routes k v.toNat
      .next (next { s with link := { s.link with routes := r } })

/-- SWEEP_CTL.START (R379): ignored while a sweep runs. -/
def execSweepStart (s : State) : Outcome State Fault Refusal :=
  if s.link.sweep.isSome then .next s else .next ((s.fset F.sweepStat_RESTARTS 0 0).sweepBegin)

/-- RSP_US in force, in ns. -/
def State.rspNs (s : State) : Nat :=
  let t := s.fget F.oncTimeout_RSP_US 0
  (if 100 ≤ t ∧ t ≤ 10000 then t else 1000) * 1000

/-- A transaction's response has not arrived within ONC_TIMEOUT (R387). -/
def execOncResponseTimeout (txn : Nat) (s : State) : Outcome State Fault Refusal :=
  match s.link.txns.find? fun t => t.txn = txn with
  | none => .next s
  | some t => if s.time.elapsed < t.sent + s.rspNs then .next s else .next (s.txnLost t (routeA (s.activeEntry t.pkt.dst)))

end Sys2Proof.Machine
end

