-- ==== Sys2Proof/Machine/Descriptors.lean ====
section
/-!
DEFINITION. Descriptors.lean: the descriptor registers of a partition (R174 to R179, R189, Table 6-9).
-/
namespace Sys2Proof.Machine

open Host (Outcome)

/-- Is a ring of the partition enabled or not idle (R175). -/
def State.ringsBusy (s : State) (p : Nat) : Bool :=
  (List.range 4).any fun k => s.flag F.ringCfg_ENABLE (p * 4 + k) || !s.flag F.ringState_IDLE (p * 4 + k)

/-- A write to DESC_TABLE (R175): accepted, it invalidates every entry. -/
def execDescTableWrite (p : PartId) (val : W64) (s : State) : Outcome State Fault Refusal :=
  let v := val.toNat
  let p := p.val
  if s.ringsBusy p then .next s
  else if !s.spHas p (bitsOf v 12 18 * 4096) (bitsOf v 32 16 * 128) then .next (s.fset F.descStatus_CODE p 0x080D)
  else
    let s := (s.fset F.descTable_COUNT p (bitsOf v 32 16)).fset F.descTable_OFFSET p (bitsOf v 12 18)
    .next { s with descs := s.descs.filter (fun k => k / 65536 ≠ p), descLost := setDel s.descLost p }

/-- A write to DESC_DET (R175). -/
def execDescDetWrite (p : PartId) (val : W64) (s : State) : Outcome State Fault Refusal :=
  let v := val.toNat
  if s.ringsBusy p then .next s
  else if !s.spHas p (bitsOf v 12 18 * 4096) (bitsOf v 32 18 * 4096) then .next (s.fset F.descStatus_CODE p 0x080D)
  else
    let s := (s.fset F.descDet_SIZE p (bitsOf v 32 18)).fset F.descDet_OFFSET p (bitsOf v 12 18)
    .next { s with descLost := setDel s.descLost (32 + p.val) }

/-- Bytes of a staging window of a partition: a byte not written reads 0. -/
def State.stageBytes (s : State) (p off n : Nat) : List Byte := (List.range n).map fun i => alGet 0 s.stage (p * 1024 + off + i)

/-- The checks of DESC_TABLE and DESC_INDEX (Table 6-9): 0 when both pass. -/
def State.descIndexCheck (s : State) (p i : Nat) : Nat :=
  if !s.descTableOk p then 0x080D else if i = 0xFFFF ∨ s.fget F.descTable_COUNT p ≤ i then 0x080C else 0

/-- A DESC_CMD is accepted: BUSY stands until its result is in CODE (Table 6-4). -/
def State.descBegin (s : State) (p code : Nat) : State :=
  ({ s with descJobs := s.descJobs ++ [{ part := p, code := code }] } : State).fset F.descStatus_BUSY p 1

/-- A DESC_CMD write while BUSY is 1 is ignored and sets LOST (Table 6-4). -/
def State.descRefused (s : State) (p : Nat) : State := s.fset F.descStatus_LOST p 1

/-- DESC_CMD CREATE (R176, R189): DESC_STAGE is validated and installed. -/
def execDescCreate (p : PartId) (index : BitVec 16) (s : State) : Outcome State Fault Refusal :=
  let p := p.val
  if s.flag F.descStatus_BUSY p then .next (s.descRefused p) else
  let i := index.toNat
  let b := s.stageBytes p 0x80 128
  let e := s.descIndexCheck p i
  let code := if e ≠ 0 then e else s.descCheck p b
  let s := s.descBegin p code
  if code ≠ 0 then .next s
  else .next { s.spWrite p (s.fget F.descTable_OFFSET p * 4096 + i * 128) b with descs := setIns s.descs (p * 65536 + i) }

/-- DESC_CMD INVALIDATE (R176). -/
def execDescInvalidate (p : PartId) (index : BitVec 16) (s : State) : Outcome State Fault Refusal :=
  let i := index.toNat
  if s.flag F.descStatus_BUSY p then .next (s.descRefused p) else
  let e := s.descIndexCheck p i
  let s := s.descBegin p e
  if e ≠ 0 then .next s else .next { s with descs := setDel s.descs (p.val * 65536 + i) }

end Sys2Proof.Machine
end

