-- ==== Sys2Proof/Machine/Streams.lean ====
section
/-!
DEFINITION. Streams.lean: the stream and model operations of the residency registers (R318 to R324, R332 to R336).
-/
namespace Sys2Proof.Machine

open Host (Outcome)

/-! ## STRM_CMD (Table 10-5) -/

/-- Does a partition own context k and is it not FREE. -/
def Ctx.ownedBy (c : Ctx) (p : Nat) : Bool := c.state ≠ 0 && c.part = p

/-- Is STRM_STAGE valid (R322). -/
def stageOk (b : List Byte) : Bool :=
  zeroB b 0 2 && zeroB b 8 4 && zeroB b 16 8 && zeroB b 32 32 && fieldB b 4 4 < 0x200000 && fieldB b 12 4 ≠ 0

/-- STRM_CMD OPEN. -/
def execStrmOpen (p : PartId) (id : BitVec 21) (s : State) : Outcome State Fault Refusal :=
  let p := p.val
  let k := id.toNat
  let s := s.ctxVerify k
  if s.isFailsafe then .next s else
  let b := s.stageBytes p 0x180 64
  let model := fieldB b 2 2
  let res (n : Nat) : Outcome State Fault Refusal := .next (s.fset F.strmStatus_RESULT p n)
  if !s.strmOn then res 5
  else if (s.ctx k).state ≠ 0 then res 1
  else if !stageOk b then res 7
  else
    let s := if model < 4096 then s.mdlVerify model else s
    let res (n : Nat) : Outcome State Fault Refusal := .next (s.fset F.strmStatus_RESULT p n)
    if s.isFailsafe then .next s
    else if !s.mdlResident p model then res 6
    else if s.fget F.strmUse_QUOTA p ≤ s.fget F.strmUse_OWNED p then res 4
    else
      let s := s.setCtx k { Ctx.free with state := 1, part := p, model := model, kvSlot := fieldB b 4 4, limit := fieldB b 12 4, tag := fieldB b 24 8 }
      .next (((s.mdlUp model).fadd F.strmUse_OWNED p 1).fset F.strmStatus_RESULT p 0)

/-- STRM_CMD CLOSE. -/
def execStrmClose (p : PartId) (id : BitVec 21) (s : State) : Outcome State Fault Refusal :=
  let p := p.val
  let k := id.toNat
  let s := s.ctxVerify k
  if s.isFailsafe then .next s else
  let c := s.ctx k
  let res (n : Nat) : Outcome State Fault Refusal := .next (s.fset F.strmStatus_RESULT p n)
  if !s.strmOn then res 5
  else if !c.ownedBy p then res 2
  else if c.holdBy || c.holdJob then res 3
  else
    let s := s.mdlVerify c.model
    if s.isFailsafe then .next s else
    let s := s.setCtx k Ctx.free
    let s := (s.mdlDown c.model).fset F.strmUse_OWNED p (s.fget F.strmUse_OWNED p - 1)
    .next (s.fset F.strmStatus_RESULT p 0)

/-- STRM_CMD READ: the context is copied to STRM_READ, which reads zero on failure. -/
def execStrmRead (p : PartId) (id : BitVec 21) (s : State) : Outcome State Fault Refusal :=
  let p := p.val
  let k := id.toNat
  let s := s.ctxVerify k
  if s.isFailsafe then .next s else
  let fail (n : Nat) : Outcome State Fault Refusal :=
    .next ({ s with strmRead := alPut s.strmRead p (List.replicate 64 0) }.fset F.strmStatus_RESULT p n)
  if !s.strmOn then fail 5
  else if !(s.ctx k).ownedBy p then fail 2
  else .next ({ s with strmRead := alPut s.strmRead p (s.ctxBytes k) }.fset F.strmStatus_RESULT p 0)

/-! ## MDL_CMD (Table 10-9) -/

/-- Is MDL_STAGE valid for INSTALL (R333, R334). -/
def State.mdlStageOk (s : State) (p : Nat) (b : List Byte) : Bool :=
  let d := Mdl.parse b
  let flags := fieldB b 2 2
  checkOk b 256 && d.state = 0 && d.part = 0 && d.streams = 0 && flags < 4 && zeroB b 28 4 && zeroB b 40 24 && zeroB b 112 142 &&
  d.roleCount ≠ 0 && d.roleBase + d.roleCount ≤ s.roles.length && d.modules ≠ 0 && d.modules ≤ 65536 && d.selfRank < d.modules &&
  d.modList < 0x40000000 && d.modList % 2 = 0 && s.spHas p d.modList (2 * d.modules) &&
  (if d.hasKv then d.kvMap < 0x40000000 && d.kvMap % 64 = 0 && s.spHas p d.kvMap 64 else d.kvMap = 0) &&
  (match s.spRead p (d.modList + 2 * d.selfRank) 2 with
   | some m => leNat m = s.selfId
   | none => false)

/-- MDL_CMD INSTALL. -/
def execMdlInstall (p : PartId) (index : BitVec 12) (s : State) : Outcome State Fault Refusal :=
  let p := p.val
  let i := index.toNat
  let s := s.mdlVerify i
  if s.isFailsafe then .next s else
  let b := s.stageBytes p 0x200 256
  if (s.mdl i).state ≠ 0 then .next (s.fset F.mdlStatus_RESULT p 1)
  else if !s.mdlStageOk p b then .next (s.fset F.mdlStatus_RESULT p 4)
  else .next ((s.setMdl i (putB b 0 (toLE 1 1 ++ toLE 1 p))).fset F.mdlStatus_RESULT p 0)

/-- Is a descriptor dispatched under in an open step, or named by a re-shard job of the partition. -/
def State.mdlInUse (s : State) (p i : Nat) : Bool :=
  (s.mdl i).streams ≠ 0 ||
  ((List.range 4).any fun k => (s.ring (p * 4 + k)).steps.any fun o => o.models.contains i) ||
  (s.rsh.any fun j => j.part = p && (j.src = i || j.dst = i))

/-- MDL_CMD EVICT. -/
def execMdlEvict (p : PartId) (index : BitVec 12) (s : State) : Outcome State Fault Refusal :=
  let p := p.val
  let i := index.toNat
  let s := s.mdlVerify i
  if s.isFailsafe then .next s else
  if !s.mdlResident p i then .next (s.fset F.mdlStatus_RESULT p 2)
  else if s.mdlInUse p i then .next (s.fset F.mdlStatus_RESULT p 3)
  else
    let s := s.setMdl i (List.replicate 254 0)
    let s := { s with parts := s.parts.map fun (y : Nat × Part) => if y.1 = p ∧ y.2.model = some i then (y.1, { y.2 with model := none }) else y }
    .next (s.fset F.mdlStatus_RESULT p 0)

/-- MDL_CMD QUERY: STATE and STREAMS to MDL_USE. -/
def execMdlQuery (p : PartId) (index : BitVec 12) (s : State) : Outcome State Fault Refusal :=
  let p := p.val
  let i := index.toNat
  let s := s.mdlVerify i
  if s.isFailsafe then .next s else
  let d := s.mdl i
  if d.state ≠ 0 && d.part ≠ p then .next (s.fset F.mdlStatus_RESULT p 2)
  else .next (((s.fset F.mdlUse_STATE p d.state).fset F.mdlUse_STREAMS p d.streams).fset F.mdlStatus_RESULT p 0)

end Sys2Proof.Machine
end

