-- ==== Sys2Proof/Machine/Partition.lean ====
section
/-!
DEFINITION. Partition.lean: partitions and their allocations (R593 to R596).
-/
namespace Sys2Proof.Machine

open Host (Outcome)

/-! ## Partitions -/

/-- Put every field of a register copy back to its reset value. -/
def State.clearReg (s : State) (r : RegDef) (i : Nat) : State := r.fields.foldl (fun (s : State) f => s.fclear f i) s

/-- Registers of a partition, one copy each; its rings and windows have four and sixteen. -/
def partRegs : List RegDef :=
  [R.descTable, R.descDet, R.descStatus, R.descLayout, R.strmStatus, R.strmUse, R.mdlStatus, R.mdlUse, R.rshStatus, R.rshJob, R.envTable,
   R.partInfo0, R.partInfo1, R.allocStatus, R.allocHandle, R.allocBase, R.allocLen] ++ partCounters

/-- Registers of a ring. -/
def ringRegs : List RegDef := [R.ringBase, R.cplBase, R.ringCfg, R.ringState, R.ringHead, R.cplTail, R.cplHead, R.ringCtl]

/-- Everything a partition has in registers goes back to its reset value; its rings are as after reset. -/
def State.clearPart (s : State) (p : Nat) : State :=
  let s := partRegs.foldl (fun (s : State) r => s.clearReg r p) s
  let s := (List.range 16).foldl (fun (s : State) j => s.clearReg R.cwin (p * 16 + j)) s
  let s := (List.range 4).foldl (fun (s : State) k => ringRegs.foldl (fun (s : State) r => s.clearReg r (p * 4 + k)) s) s
  { s with rings := s.rings.filter (fun x => x.1 / 4 ≠ p), descs := s.descs.filter (fun k => k / 65536 ≠ p),
           descJobs := s.descJobs.filter (fun j => j.part ≠ p), descLost := s.descLost.filter (fun k => k % 32 ≠ p),
           stage := s.stage.filter (fun x => x.1 / 1024 ≠ p), strmRead := alDel s.strmRead p, lastFault := alDel s.lastFault p }

/-- RESULT of PART_CMD CREATE for the staged values (Table 18-6), in order: 0 when every check passes. -/
def State.createCheck (s : State) (p : Nat) : Nat :=
  let first := s.fget F.partStage0_FIRST_CORE 0
  let n := s.fget F.partStage0_CORE_COUNT 0
  let fn := s.fget F.partStage0_OWNER_FN 0
  if !s.isReady then 7
  else if (s.partOf p).isSome then 1
  else if n = 0 || 27648 < first + n || s.parts.any fun x => decide (first < x.2.first + x.2.count ∧ x.2.first < first + n) then 3
  else if 32 < fn || (fn ≠ 0 && s.parts.any fun x => x.2.owner = fn) then 4
  else if 2097152 < s.fget F.partStage1_QUOTA 0 then 5
  else 0

/-- PART_CMD CREATE (Table 18-6): the partition exists with its rings at their reset values, no bin and no allocation. -/
def execPartCreate (index : PartId) (s : State) : Outcome State Fault Refusal :=
  let p := index.val
  let res := s.createCheck p
  let s := s.fset F.partStatus_RESULT 0 res
  if res ≠ 0 then .next s
  else
    let w0 := s.regWord R.partStage0 0
    let w1 := s.regWord R.partStage1 0
    let sel := s.fget F.partStage0_LAYOUT_SEL 0
    let dflt := match s.seed.image with | some i => i.layout | none => 0
    let layout := if sel = 1 then 0 else if sel = 2 then 1 else dflt
    let part : Part :=
      { owner := s.fget F.partStage0_OWNER_FN 0, first := s.fget F.partStage0_FIRST_CORE 0, count := s.fget F.partStage0_CORE_COUNT 0,
        layout := layout, quota := s.fget F.partStage1_QUOTA 0, pasidEn := s.flag F.partStage1_PASID_EN 0, pasid := s.fget F.partStage1_PASID 0,
        model := none, feSeq := 0 }
    let s := s.clearPart p
    let s := ((((s.fset F.partInfo0_INFO p (w0 % 2 ^ 61 + 2 ^ 61 + (layout + 1) * 2 ^ 62)).fset F.partInfo1_INFO p w1).fset F.descLayout_LAYOUT p layout).fset
      F.strmUse_QUOTA p part.quota).fset F.strmUse_OWNED p 0
    .next { s with parts := alPut s.parts p part }.refreshHif

/-- Stream contexts whose bytes are not all zero. -/
def State.ctxUsed (s : State) : List Nat :=
  ((s.mem.filter fun c => decide (ctxAddr 0 ≤ c.1 ∧ c.1 < ctxAddr 0x200000)).map fun c => (c.1 - ctxAddr 0) / 64).eraseDups

/-- Is a partition in use (Table 18-6): a ring enabled or not idle, a re-shard job, a trace session. -/
def State.partInUse (s : State) (p : Nat) : Bool :=
  ((List.range 4).any fun k => s.flag F.ringCfg_ENABLE (p * 4 + k) || !s.flag F.ringState_IDLE (p * 4 + k)) ||
  s.rsh.any (fun j => j.part = p) || (s.flag F.traceCtl_ENABLE 0 && s.fget F.traceBuf_PART 0 = p)

/-- Every model descriptor that is not zero has a good CHECK, or the module goes fail-safe (R431). -/
def State.verifyMdls (s : State) : State :=
  ((s.mem.filter fun c => decide (mdlAddr 0 ≤ c.1 ∧ c.1 < mdlAddr 4096)).map fun c => (c.1 - mdlAddr 0) / 256).eraseDups.foldl State.mdlVerify s

/-- PART_CMD DESTROY (Table 18-6): bins go to FREE with zeroing, allocations are released, contexts FREE and descriptors EMPTY, windows
cleared, counters removed. -/
def execPartDestroy (index : PartId) (s : State) : Outcome State Fault Refusal :=
  let p := index.val
  if (s.partOf p).isNone then .next (s.fset F.partStatus_RESULT 0 2)
  else if s.partInUse p then .next (s.fset F.partStatus_RESULT 0 6)
  else
    let bins := (List.range 64).filter fun k => s.fget F.grnBinCfg_MODE k = 2 && s.fget F.grnBinCfg_OWNER k = p
    let s := bins.foldl (fun (s : State) k => (((s.zeroRange (binBase k) 0x1000000).fset F.grnBinCfg_MODE k 0).fset F.grnBinCfg_OWNER k 0).fset
      F.grnBinCfg_SLOT k 0) s
    let s := (s.ctxUsed.foldl State.ctxVerify s).verifyMdls
    if s.isFailsafe then .next s else
    let s := (s.ctxUsed.filter fun k => (s.ctx k).state ≠ 0 && (s.ctx k).part = p).foldl (fun (s : State) k =>
      let m := (s.ctx k).model
      (s.setCtx k Ctx.free).mdlDown m) s
    let s := ((List.range 4096).filter fun i => (s.mdl i).state ≠ 0 && (s.mdl i).part = p).foldl (fun (s : State) i => s.setMdl i (List.replicate 254 0)) s
    let s := s.clearPart p
    let s := { s with parts := alDel s.parts p, allocs := s.allocs.filter (fun a => a.part ≠ p), rel := s.rel.filter (fun x => x.1 ≠ p) }
    .next (s.fset F.partStatus_RESULT 0 0).refreshHif

/-! ## Allocations -/

/-- Is a local range wholly within the vaults of a partition's cores, its SCRATCH bins, or the populated seedstore (Table 18-7). -/
def State.rangeOwned (s : State) (p : Part) (pi lo len : Nat) : Bool :=
  let bin (k : Nat) : Bool := s.fget F.grnBinCfg_MODE k = 2 && s.fget F.grnBinCfg_OWNER k = pi
  (vaultBase p.first ≤ lo && lo + len ≤ vaultBase (p.first + p.count)) ||
  (0x4000000000 ≤ lo && lo + len ≤ 0x4040000000 &&
    (List.range ((lo + len - 1 - 0x4000000000) / 0x1000000 + 1 - (lo - 0x4000000000) / 0x1000000)).all fun i =>
      bin ((lo - 0x4000000000) / 0x1000000 + i)) ||
  (0x8000000000 ≤ lo && lo + len ≤ 0x8000000000 + s.partNo.capacity)

/-- RESULT of ALLOC_CMD CREATE (Table 18-7), in order: 0 when every check passes. -/
def State.allocCheck (s : State) (p : Nat) : Nat :=
  let kind := s.fget F.allocLen_KIND p
  let base := s.fget F.allocBase_BASE p
  let len := s.fget F.allocLen_LENGTH p
  let lo := base % 0x10000000000
  match s.partOf p with
  | none => 6
  | some x =>
    if 2 ≤ kind then 2
    else if base % 256 ≠ 0 || len % 256 ≠ 0 || len = 0 then 3
    else if kind = 1 then (if 0x800000 < base + len then 3 else if 16384 ≤ s.allocs.length then 1 else 0)
    else if (if base / 0x10000000000 = s.selfId then !s.rangeOwned x p lo len else 0xF000000000 < lo + len) then 3
    else if 16384 ≤ s.allocs.length then 1 else 0

/-- The lowest free slot. -/
def State.freeSlot (s : State) : Nat :=
  let used := s.allocs.map Allocation.slot
  (((List.range (used.length + 1)).map (· + 1)).find? fun k => !used.contains k).getD 1

/-- ALLOC_CMD CREATE (R596). -/
def execAllocCreate (p : PartId) (s : State) : Outcome State Fault Refusal :=
  let p := p.val
  if s.flag F.allocStatus_BUSY p then .next (s.fset F.allocStatus_LOST p 1)
  else
    let res := s.allocCheck p
    let s := s.fset F.allocStatus_RESULT p res
    if res ≠ 0 then .next s
    else
      let slot := s.freeSlot
      let gen := match alFind s.allocGen slot with | some g => (g + 1) % 65536 | none => 0
      let a : Allocation :=
        { slot := slot, gen := gen, part := p, vault := s.fget F.allocLen_KIND p = 1, write := s.flag F.allocLen_WRITE p,
          base := s.fget F.allocBase_BASE p, len := s.fget F.allocLen_LENGTH p }
      .next (({ s with allocs := s.allocs ++ [a], allocGen := alPut s.allocGen slot gen }.fset F.allocHandle_GEN p gen).fset F.allocHandle_SLOT p slot)

/-- ALLOC_CMD RELEASE (R191, R596): every descriptor that names the allocation becomes invalid; BUSY stays until every move that uses it has
completed. -/
def execAllocRelease (p : PartId) (s : State) : Outcome State Fault Refusal :=
  let p := p.val
  let handle := s.fget F.allocHandle_GEN p * 0x10000 + s.fget F.allocHandle_SLOT p
  if s.flag F.allocStatus_BUSY p then .next (s.fset F.allocStatus_LOST p 1)
  else if (s.partOf p).isNone then .next (s.fset F.allocStatus_RESULT p 6)
  else
    match s.findAlloc p handle with
    | none => .next (s.fset F.allocStatus_RESULT p 5)
    | some a =>
      let names (k : Nat) : Bool :=
        let d := parseDesc (s.descBytes p (k % 65536))
        k / 65536 = p && (d.alloc = handle || d.scaleAlloc = handle)
      let s := { s with descs := s.descs.filter (fun k => !names k), rel := s.rel ++ [(p, a.slot)] }.fset F.allocStatus_BUSY p 1
      .next s.endReleases

end Sys2Proof.Machine
end

