-- ==== Sys2Proof/Machine/Power.lean ====
section
/-!
DEFINITION. Power.lean: steering and levels (R517, R518, R523 to R525, R532, R547), regulator phases (R519 to R522), the cap and its
division (R526 to R531).
-/
namespace Sys2Proof.Machine

open Host (Outcome)

/-! ## Levels -/

/-- Put CEIL, report the change, and put the level in force it gives. -/
def State.setCeil (s : State) (c plot : Nat) (report : Bool) : State :=
  let s := s.fset F.plCtl_CEIL 0 c
  let s := if report then s.powerEvent 0 plot c else s
  s.applyLevel

/-- A plot cannot be steered within 0.95 V: CEIL rises one level (R518). -/
def execCeilRaise (plot : PlotId) (s : State) : Outcome State Fault Refusal :=
  let c := s.fget F.plCtl_CEIL 0
  if 7 ≤ c then .next s else .next ((s.onPower fun p => { p with floor := c + 1 }).setCeil (c + 1) plot true)

/-- The plot has been able to steer the next lower-numbered level with margin for 1 s: CEIL returns one level (R518). -/
def execCeilReturn (plot : PlotId) (s : State) : Outcome State Fault Refusal :=
  let c := s.fget F.plCtl_CEIL 0
  if c = 0 ∨ s.power.floor = 0 then .next s
  else .next ((s.onPower fun p => { p with floor := p.floor - 1 }).setCeil (c - 1) plot true)

/-- A ramp ends (R525), once its 5 mV each µs have reached the voltage of the level in force: body bias and memory assist are its own. -/
def execLevelRampDone (s : State) : Outcome State Fault Refusal :=
  let (v, _, b, a) := levelOf (s.fget F.plStat_LEVEL 0)
  if !s.flag F.plStat_MOVING 0 || s.voltNow ≠ v then .next s
  else .next ((s.fset F.plStat_MOVING 0 0).onPower fun p => { p with volt := v, bias := b, assist := a, moved := some s.time.elapsed })

/-- Under AUTO (R532): a lowest duty below 0.80, averaged over the last 10 ms, raises CEIL; a duty of 0.95 or more predicted at the next lower-numbered level for
100 ms (`predicted`, in 1/1000) lowers it, not below REQ nor below what R518 allows. -/
def execAutoCeilAdjust (predicted : Nat) (s : State) : Outcome State Fault Refusal :=
  let c := s.fget F.plCtl_CEIL 0
  if !s.flag F.plCtl_AUTO 0 || s.sleep ≠ 0 then .next s
  else if s.power.dutyAvg * 100 < 80 * 65536 then if c < 7 then .next (s.setCeil (c + 1) 0 false) else .next s
  else if 950 ≤ predicted ∧ s.power.floor < c ∧ s.fget F.plCtl_REQ 0 < c then .next (s.setCeil (c - 1) 0 false)
  else .next s

/-- A write to PL_CTL (REQ, AUTO), or to PWR_CAP (TJ_LIMIT, BOARD_CAP): in effect at the next recomputation of the cap (R547). -/
def execPowerControlWrite (cap : Bool) (val : W32) (s : State) : Outcome State Fault Refusal :=
  let v := val.toNat
  if cap then
    let tj := bitsOf v 24 8
    .next ((s.fset F.pwrCap_TJ_LIMIT 0 (if 70 ≤ tj ∧ tj ≤ 105 then tj else 95)).fset F.pwrCap_BOARD_CAP 0 (max 800 (min 3600 (bitsOf v 0 16))))
  else .next ((s.fset F.plCtl_AUTO 0 (bitsOf v 4 1)).fset F.plCtl_REQ 0 (bitsOf v 0 3))

/-! ## Phases -/

/-- A phase has failed and is isolated: it is fallow, a free spare is started (R520), or the module is unready (R521). -/
def State.phaseFail (s : State) (plot phase : Nat) : State :=
  let k := plot * 96 + phase
  if s.power.fallow.contains k then s
  else
    let s := ((s.onPower fun p => { p with fallow := setIns p.fallow k, isolated := alPut p.isolated plot s.time.elapsed }).fadd F.plotPhase_FALLOW plot 1).almanac 8 [0, plot, phase]
    let s := s.powerEvent 1 plot phase
    let free := s.fget F.plotPhase_SPARES_FREE plot
    if free = 0 then s.unready 8 k { FaultRec.blank 0x21 with plot := plot }
    else (s.fset F.plotPhase_SPARES_FREE plot (free - 1)).onPower fun p => { p with starting := alPut p.starting plot (alGet 0 p.starting plot + 1) }

/-- A phase is failed short (R519). -/
def execPhaseFailShort (plot : PlotId) (phase : Fin 96) (s : State) : Outcome State Fault Refusal := .next (s.phaseFail plot phase)
/-- A phase is failed open (R519). -/
def execPhaseFailOpen (plot : PlotId) (phase : Fin 96) (s : State) : Outcome State Fault Refusal := .next (s.phaseFail plot phase)

/-- A spare phase carries its share (R520); in S2 and S4 it starts when the domain next carries current (Table 16-8). -/
def execSparePhaseSoftStartDone (plot : PlotId) (s : State) : Outcome State Fault Refusal :=
  if 2 ≤ s.sleep then .next s else
  .next (s.onPower fun p => match alFind p.starting plot with
    | some n => { p with starting := if n ≤ 1 then alDel p.starting plot else alPut p.starting plot (n - 1) }
    | none => p)

/-- Has nothing that excuses a fall happened within the 100 µs before it (R522), `fall` its moment in elapsed module time: no phase of the plot
isolated, no change of level, no reset of a field of the cluster (a row of fields). -/
def State.crackQuiet (s : State) (plot cluster fall : Nat) : Bool :=
  let near (t : Nat) : Bool := decide (t ≤ fall ∧ fall ≤ t + 100000)
  !(match alFind s.power.isolated plot with | some t => near t | none => false) &&
  !(match s.power.moved with | some t => decide (s.power.ramp ≤ fall ∧ fall ≤ t + 100000) | none => false) &&
  (List.range 24).all fun fx =>
    let f := s.field (plot * 288 + cluster * 24 + fx)
    !f.resetting && !(0 < f.since && near f.since)

/-- A cluster falls under the crack criteria (R522): `mv` the size of the fall, `others` the largest fall of another cluster in mV, `current` the
change of the rail current in 1/1000, `ago` the nanoseconds the fall has lasted; not reported during a level change, a phase
isolation or an exit (Table 16-8). -/
def execCrackSuspect (plot : PlotId) (cluster : Fin 12) (mv others current ago : Nat) (s : State) : Outcome State Fault Refusal :=
  if s.flag F.plStat_MOVING 0 || s.flag F.sleepStat_EXITING 0 || (alFind s.power.starting plot).isSome || mv < 12 || 4 < others || 30 ≤ current ||
      ago < 100000 || !s.crackQuiet plot cluster (s.time.elapsed - ago) then .next s
  else
    let s := (s.powerEvent 2 plot (cluster.val * 65536 + mv)).almanac 8 [1, plot, cluster, mv]
    .next (s.fset F.plotPhase_CRACKS plot (min 255 (s.fget F.plotPhase_CRACKS plot + 1)))

/-! ## The cap -/

/-- T_in in 0.1 °C (R539). -/
def State.inlet (s : State) : Nat := if s.flag F.coolIn_STALE 0 then 450 else s.fget F.coolIn_INLET 0

/-- The power cap in W (R526). A TJ_LIMIT or BOARD_CAP of the seed image beyond its range counts as Table 16-9 says. -/
def State.capOf (s : State) : Nat :=
  let board := max 800 (min 3600 (s.fget F.pwrCap_BOARD_CAP 0))
  let rth := s.fget F.capStat_RTH 0
  let tj := s.fget F.pwrCap_TJ_LIMIT 0
  let head := ((if 70 ≤ tj ∧ tj ≤ 105 then tj else 95) * 10 - s.inlet) * 100000
  min board (if rth = 0 then board else max 800 (head / rth))

/-- Lowest duty of the plots in 1/255. -/
def State.lowDuty (s : State) : Nat := ((List.range 4).map fun p => alGet 65536 s.power.duty p * 255 / 65536).foldl min 255

/-- Lowest duty of the plots in 1/65,536. -/
def State.lowDuty16 (s : State) : Nat := ((List.range 4).map fun p => alGet 65536 s.power.duty p).foldl min 65536

/-- The lowest duty counts for the time it has stood (R532). -/
def State.dutyTick (s : State) : State :=
  s.onPower fun p => { p with dutySum := p.dutySum + s.lowDuty16 * (s.time.elapsed - p.dutyAt), dutyAt := s.time.elapsed }

/-- A window of the average duty ends (R532). -/
def State.dutyWindow (s : State) : State :=
  let s := s.dutyTick
  let n := s.time.elapsed - s.power.dutyFrom
  s.onPower fun p => { p with dutyAvg := if n = 0 then s.lowDuty16 else p.dutySum / n, dutySum := 0, dutyFrom := s.time.elapsed }

/-- Keep CORE_TEMP.THROTTLED: 1 while a core's duty is held below its field's (R534). -/
def State.throttleFlags (s : State) : State :=
  s.power.throttle.foldl (fun (s : State) x => s.fset F.coreTemp_THROTTLED x.1 (one (decide (x.2 < alGet 65536 s.power.duty (plotOfCore x.1))))) s

/-- Every 10 ms the Reeve recomputes the cap; REQ and AUTO written before take effect (R526, R532, R547). -/
def execCapRecompute (s : State) : Outcome State Fault Refusal :=
  if s.sleep ≠ 0 then .next s
  else
    let s := (s.dutyWindow.fset F.capStat_CAP_W 0 s.capOf).fset F.plStat_DUTY 0 s.lowDuty
    let s := if !s.flag F.plCtl_AUTO 0 then s.fset F.plCtl_CEIL 0 s.power.floor else s
    .next s.applyLevel

/-- Once per second RTH moves an eighth of the way to its new estimate, at 1,000 W or more (R527). `avgW`: input power averaged over the
second; `hot`: highest valid own reading averaged over it, in quarter °C above −40 °C. -/
def execRthUpdate (avgW hot : Nat) (s : State) : Outcome State Fault Refusal :=
  let s := s.fset F.capStat_AVG_W 0 avgW
  if avgW < 1000 then .next s
  else
    let old : Int := s.fget F.capStat_RTH 0
    -- quarter degrees to µK: 250,000; 0.1 °C: 100,000
    let dt : Int := ((hot : Int) - 160) * 250000 - (s.inlet : Int) * 100000
    let new : Int := old + (dt / (avgW : Int) - old) / 8
    .next (s.fset F.capStat_RTH 0 (min 65535 new.toNat))

/-- Every 10 µs the plots exchange demands and divide the compute budget (R528 to R530). `other`: input power not drawn by the core
domains, in W; one reading for each plot. -/
def execBudgetPeriod (other : Nat) (plots : List PlotReading) (s : State) : Outcome State Fault Refusal :=
  if 2 ≤ s.sleep then .next s
  else
    let c := (s.fget F.capStat_CAP_W 0 - other) * 10000
    let ps := (List.range 4).map fun p => (p, plots.getD p ⟨none, 0, 0, 0, 0, 0, 0⟩)
    let dem (x : Nat × PlotReading) : Nat := x.2.demand.getD (alGet 0 s.power.demand x.1)
    let total := (ps.map dem).sum
    let share (x : Nat × PlotReading) : Nat := if total = 0 then c / 4 else c * dem x / total
    let low := ps.filter fun x => share x ≤ c / 8
    let high := ps.filter fun x => c / 8 < share x
    let rest := c - low.length * (c / 8)
    let sum := (high.map share).sum
    let bud (x : Nat × PlotReading) : Nat :=
      min (if share x ≤ c / 8 then c / 8 else rest * share x / sum) (12000 * x.2.vout)
    .next (ps.foldl (fun (s : State) (x : Nat × PlotReading) =>
      let p := x.1
      let r := x.2
      let b := bud x
      let tasks := ((s.cores.filter fun y => plotOfCore y.1 = p).map fun y =>
        ((y.2.hul.flatMap HulCmd.tasks).filter fun t => t.st ≠ .ended).length).sum
      let act := ((s.cores.filter fun y => plotOfCore y.1 = p).map fun y =>
        ((y.2.hul.flatMap HulCmd.tasks).filter fun t => t.st = .computing).length).sum
      let dh := max 442368 (min (s.fget F.hulPlotLimit_LIMIT p * 1000) (64 * tasks))
      let av := b - r.fix
      let grant := decide (dh + r.fields ≤ av)
      let hul := if grant then dh else max 442368 (dh * av / (dh + r.fields))
      let duty := if grant then 65536 else av * 65536 / (dh + r.fields)
      let s := s.onPower fun w => { w with hulShare := alPut w.hulShare p hul, duty := alPut w.duty p duty, demand := alPut w.demand p (dem x) }
      let s := (((s.fset F.plotPwr_BUDGET p (b / 10000)).fset F.plotPwr_POWER p (r.power / 10000)).fset F.plotPwr_CURRENT p r.current).fset
        F.plotPwr_VMIN p r.vmin
      let s := (s.hulBudget p).fset F.hulPlotStat_ACTIVE p act
      s.fset F.plStat_DUTY 0 (min (s.fget F.plStat_DUTY 0) s.lowDuty)) s.dutyTick).throttleFlags

/-- No budget message from a plot for 30 µs: its last one is used, and an event sent (R528). -/
def execBudgetMessageStale (plot : PlotId) (s : State) : Outcome State Fault Refusal := .next (s.powerEvent 3 plot 0)

/-- A plot's rail current above 1,200 A lowers every field's duty by an eighth each µs (R531). -/
def execOvercurrentDutyCut (plot : PlotId) (amps : Nat) (s : State) : Outcome State Fault Refusal :=
  if amps ≤ 1200 then .next s
  else
    let d := alGet 65536 s.power.duty plot
    let s := s.dutyTick.onPower fun p => { p with duty := alPut p.duty plot (d - d / 8) }
    .next (s.fset F.plStat_DUTY 0 (min (s.fget F.plStat_DUTY 0) s.lowDuty)).throttleFlags

end Sys2Proof.Machine
end

