-- ==== Sys2Proof/Machine/Reset.lean ====
section
/-!
DEFINITION. Reset.lean: the reset pins and RST_CTL (R455 to R457), the fall of PWR_OK and the emergency commit (R507, R508).
-/
namespace Sys2Proof.Machine

open Host (Outcome)

/-- PWR_OK is taken as high: a cold reset (Table 14-2), once an emergency commit has ended (R508). A thermal trip's cold reset is taken
here too. -/
def execPwrOkRise (s : State) : Outcome State Fault Refusal :=
  if s.rst.pwrOk || !s.rst.standby then .next s
  else
    let s := { s with rst := { s.rst with pwrOk := true } }
    if s.rst.emergency then .next s else .next (s.takeReset true 1)

/-- PWR_OK is taken as low: load is shed and the emergency commit begins (R507, Table 15-8). -/
def execPwrOkFall (s : State) : Outcome State Fault Refusal :=
  if !s.rst.pwrOk then .next s
  else
    let s := { s with rst := { s.rst with pwrOk := false } }
    if s.rst.emergency then .next s
    else .next { s.shedLoad.emergencyFlash with rst := { s.rst with pwrOk := false, emergency := true, job := none } }

/-- The emergency commit has ended: a cold reset follows (R508). Its causes are hold-up, and a thermal trip that was latched. -/
def execEmergencyCommitEnd (s : State) : Outcome State Fault Refusal :=
  if !s.rst.emergency then .next s
  else
    let bits := 2 + 4 * one s.power.tripped
    let s := { s with rst := { s.rst with emergency := false }, power := { s.power with tripped := false } }
    .next (s.takeReset true bits)

/-- PERST# is taken as asserted (R456): the link is down; a warm reset, or a host reset where the seed image says so, unless a bring-up is
under way (Table 14-12). -/
def execPerstAssert (s : State) : Outcome State Fault Refusal :=
  if s.rst.perst then .next s
  else
    let hostOnly := match s.seed.image with | some i => i.perstHost | none => false
    let s := { s with rst := { s.rst with perst := true } }.linkDown
    if !s.rst.pwrOk || s.rst.emergency then .next s
    else if hostOnly && !s.bringing then .next s.hostReset.endEntry
    else .next (s.takeReset false 64)

/-- PERST# is taken as released: the host interface may train its link (R463). -/
def execPerstRelease (s : State) : Outcome State Fault Refusal :=
  .next { s with rst := { s.rst with perst := false, alert := if s.rst.warm then s.rst.alert else none } }

/-- WARM_RST# is taken as asserted: a warm reset. -/
def execWarmRstAssert (s : State) : Outcome State Fault Refusal :=
  if s.rst.warm then .next s
  else
    let s := { s with rst := { s.rst with warm := true } }
    if !s.rst.pwrOk || s.rst.emergency then .next s else .next (s.takeReset false 16)

/-- WARM_RST# is taken as released: the reset ends, and the module may start STEP_STRAP (R460). -/
def execWarmRstRelease (s : State) : Outcome State Fault Refusal :=
  .next { s with rst := { s.rst with warm := false, alert := if s.rst.perst then s.rst.alert else none } }

/-- An assertion of a reset pin shorter than 2 µs is counted only (R457). -/
def execResetPinGlitch (s : State) : Outcome State Fault Refusal :=
  .next (s.fset F.rstCause_GLITCHES 0 (min 255 (s.fget F.rstCause_GLITCHES 0 + 1)))

/-- The key of RST_CTL (Table 14-8). -/
def rstKey : BitVec 16 := 0x5EED

/-- RST_CTL.COLD with the key. -/
def execRstCtlCold (key : BitVec 16) (s : State) : Outcome State Fault Refusal :=
  if key ≠ rstKey || !s.rst.pwrOk || s.rst.emergency then .next s else .next (s.takeReset true 8)

/-- RST_CTL.WARM with the key. -/
def execRstCtlWarm (key : BitVec 16) (s : State) : Outcome State Fault Refusal :=
  if key ≠ rstKey || !s.rst.pwrOk || s.rst.emergency then .next s else .next (s.takeReset false 32)

end Sys2Proof.Machine
end

