-- ==== Sys2Proof/Machine/Sleep.lean ====
section
/-!
DEFINITION. Sleep.lean: sleep states, their entry and exit (R540 to R545).
-/
namespace Sys2Proof.Machine

open Host (Outcome)

/-- The bring-up that leaves S4 (R544): the Reeve, the management endpoint and the module time are kept; all else is as after a cold reset;
vault and seedstore contents are lost. -/
def State.leaveS4 (s : State) : State :=
  let t := s.coldReset
  let sys (a : Nat) : Bool := decide (0x4000000000 ≤ a ∧ a < 0x8000000000)
  { t with
           time := s.time, mgmt := s.mgmt, alm := s.alm, seed := { s.seed with booted := 3, image := t.seed.image, stage := if s.seed.stage = 4 then 0 else s.seed.stage }, mem := t.mem.filter (fun c => sys c.1), valid := [], chaff := t.chaff.filter sys,
           ecc := { t.ecc with events := s.ecc.events }, obs := { t.obs with report := s.obs.report, seen := s.obs.seen } }.seedRegs.refreshHif

/-- A write of SLEEP_CTL.TARGET (R542, R544, Tables 16-6, 16-8). A write during an exit is lost as one during an entry is. -/
def State.sleepTarget (s : State) (k : Nat) : State :=
  if s.flag F.sleepStat_ENTERING 0 || s.flag F.sleepStat_EXITING 0 then s.fset F.sleepCtl_LOST 0 1
  else if k = 0 then (if s.sleep = 3 then s.leaveS4 else s.wakeUp)
  else if k ≤ s.sleep then s
  else if !s.isReady then s.fset F.sleepStat_RESULT 0 3
  else ((s.fset F.sleepStat_ENTERING 0 1).fset F.sleepStat_BLOCK 0 0).onPower fun p =>
    { p with sleep := some { target := k, accepted := [], committed := false, since := s.time.elapsed }, wake := false }

/-- SLEEP_CTL.TARGET = S0. -/
def execSleepTargetS0 (s : State) : Outcome State Fault Refusal := .next (s.sleepTarget 0)
/-- SLEEP_CTL.TARGET = S1. -/
def execSleepTargetS1 (s : State) : Outcome State Fault Refusal := .next (s.sleepTarget 1)
/-- SLEEP_CTL.TARGET = S2. -/
def execSleepTargetS2 (s : State) : Outcome State Fault Refusal := .next (s.sleepTarget 2)
/-- SLEEP_CTL.TARGET = S4. -/
def execSleepTargetS4 (s : State) : Outcome State Fault Refusal := .next (s.sleepTarget 3)

/-- What a block answers to a sleep request. -/
inductive SleepAnswer where
  | accept | delay | refuse
  deriving DecidableEq, Repr

/-- Is a replay between steps 1 and 6 of Table 12-7. -/
def State.replaying (s : State) : Bool :=
  !s.faultQ.isEmpty || s.rings.any fun x => x.2.replay.isSome || x.2.steps.any fun o => o.st ≠ .run

/-- The answer of block `b` (a row of Table 16-7, from 0) to an entry into state `t`. -/
def State.sleepAnswer (s : State) (b t : Nat) : SleepAnswer :=
  let delay (c : Bool) : SleepAnswer := if c then .delay else .accept
  let refuse (c : Bool) : SleepAnswer := if c then .refuse else .accept
  match b with
  | 0 => if t = 1 then delay (s.rings.any fun x => !x.2.steps.isEmpty) else refuse ((List.range 128).any fun r => s.flag F.ringCfg_ENABLE r)
  | 1 => delay s.replaying
  | 2 => delay (s.cores.any fun x => !x.2.hul.isEmpty || !x.2.qh.isEmpty)
  | 3 => delay s.ret.job.isSome
  | 4 => delay s.blk.isSome
  | 5 => refuse (!s.rsh.isEmpty)
  | 6 => refuse (t ≠ 1 && (List.range 12).any fun p => s.portUp p)
  | 7 => delay (t ≠ 1 && s.lines.any Line.dirty)
  | _ => delay (s.flag F.plStat_MOVING 0 || !s.power.starting.isEmpty)

/-- A block answers a sleep request (steps 2 to 4 of Table 16-6). The seedstore controller, when it delays, writes its dirty lines back. -/
def execSleepBlockAnswer (block : Fin 9) (s : State) : Outcome State Fault Refusal :=
  match s.power.sleep with
  | none => .next s
  | some e =>
    if e.committed || e.accepted.contains block.val then .next s
    else
      match s.sleepAnswer block e.target with
      | .accept =>
        let l := setIns e.accepted block.val
        .next (s.onPower fun p => { p with sleep := some { e with accepted := l, committed := l.length = 9 } })
      | .delay =>
        let s := if block.val = 7 then { s with lines := s.lines.map fun (l : Line) => { l with dirty := false } } else s
        .next (s.fset F.sleepStat_BLOCK 0 (block.val + 1))
      | .refuse =>
        let s := ((s.fset F.sleepStat_BLOCK 0 (block.val + 1)).fset F.sleepStat_RESULT 0 1).fset F.sleepStat_ENTERING 0 0
        .next (s.onPower fun p => { p with sleep := none, wake := false })

/-- Some block has not accepted within WAIT_MS (step 3 of Table 16-6). -/
def execSleepEntryTimeout (s : State) : Outcome State Fault Refusal :=
  match s.power.sleep with
  | none => .next s
  | some e =>
    let w := s.fget F.sleepCtl_WAIT_MS 0
    if e.committed || s.time.elapsed < e.since + (if w = 0 then 10 else w) * 1000000 then .next s
    else .next (((s.fset F.sleepStat_RESULT 0 2).fset F.sleepStat_ENTERING 0 0).onPower fun p => { p with sleep := none, wake := false })

/-- A committed entry completes (step 5 of Table 16-6): in S2 and S4 the Oncon ports are DOWN, no rate window is valid, and the core domain stands at 0.45 V or is off (Table 16-5). A held wake
begins the exit at once (R543). -/
def execSleepEntryDone (s : State) : Outcome State Fault Refusal :=
  match s.power.sleep with
  | none => .next s
  | some e =>
    if !e.committed then .next s
    else
      let wake := s.power.wake && e.target ≠ 3
      let s := ((s.fset F.sleepStat_STATE 0 e.target).fset F.sleepStat_ENTERING 0 0).fset F.sleepStat_RESULT 0 0
      let s := s.onPower fun p => { p with sleep := none, wake := false, volt := if e.target = 1 then p.volt else if e.target = 2 then 450 else 0 }
      let s := if e.target = 1 then s else
        { (List.range 1152).foldl (fun (s : State) f => s.fset F.fieldRate_VALID f 0) ((List.range 12).foldl (fun (s : State) p => s.setPortState p 0) s) with
          fieldsUp := none }.onPower fun p => { p with recal := none }
      let s := if e.target = 3 then s.linkDown else s
      let s := if wake then s.fset F.sleepStat_EXITING 0 1 else s
      .next s.refreshHif

/-- The exit completes: S0; from S2 the core domain returns to its level, the fields leave reset of their timers and windows, and the exit recalibrates the vaults, where the series of
R30 starts again; a retirement commanded in S2 is performed, and held changes of level take effect (R451, R547). -/
def execSleepExitDone (s : State) : Outcome State Fault Refusal :=
  if !s.flag F.sleepStat_EXITING 0 then .next s
  else
    let s2 := s.sleep = 2
    let s := (s.fset F.sleepStat_STATE 0 0).fset F.sleepStat_EXITING 0 0
    let s := if s2 then { s.recalibrate s.time.elapsed with fieldsUp := some s.time.elapsed }.onPower fun p =>
        { p with volt := (levelOf (s.fget F.plStat_LEVEL 0)).1 } else s
    let s := match s.ret.waiting with
      | some j => { s with ret := { s.ret with waiting := none } }.retStart j
      | none => s
    .next s.applyLevel.refreshHif

end Sys2Proof.Machine
end

