-- ==== Sys2Proof/Machine/Thermal.lean ====
section
/-!
DEFINITION. Thermal.lean: diodes, throttling and the trip (R533 to R537), coolant (R539), vault bands (R237 to R240), the plot
huller limit (R220).
-/
namespace Sys2Proof.Machine

open Host (Outcome)

/-! ## Diodes -/

/-- Keep HOT_STAT: the core with the highest reading. -/
def State.hotUpdate (s : State) (n t : Nat) : State :=
  let hot := s.fget F.hotStat_CORE 0
  if s.fget F.hotStat_TEMP 0 ≤ t then (s.fset F.hotStat_CORE 0 n).fset F.hotStat_TEMP 0 t
  else if hot = n then
    let (c, b) := s.regs.foldl (fun (a : Nat × Nat) (x : Nat × Nat) =>
      if x.1 % 1024 = F.coreTemp_TEMP.id ∧ a.2 < x.2 then (x.1 / 1024, x.2) else a) (0, 0)
    (s.fset F.hotStat_CORE 0 c).fset F.hotStat_TEMP 0 b
  else s

/-- A diode is broken (R536): its core reads 115 °C, its issue is held, its vault stands in B4 (R240). -/
def State.breakDiode (s : State) (n : Nat) : State :=
  if s.flag F.coreTemp_SUBST n then s
  else
    let s := (((s.fset F.coreTemp_VALID n 1).fset F.coreTemp_TEMP n (tempOf 115)).fset F.vaultBand_BAND n 4).fset F.vaultBand_DIODE_FAIL n 1
    (((s.onCore n fun c => { c with hold := true }).onPower fun p =>
      { p with broken := setIns p.broken n, falls := alDel p.falls n }).windowHot n (tempOf 115)).hotUpdate n (tempOf 115)

/-- Present issue duty of a core, in 1/65,536: its plot's pacing, or its own throttle below it (R530, R534). -/
def State.dutyOf (s : State) (n : Nat) : Nat :=
  min ((alFind s.power.throttle n).getD 65536) (alGet 65536 s.power.duty (plotOfCore n))

/-- Put a core's throttle duty; THROTTLED is 1 while it lies below the field's. -/
def State.throttleTo (s : State) (n d : Nat) : State :=
  (s.fset F.coreTemp_THROTTLED n (one (decide (d < alGet 65536 s.power.duty (plotOfCore n))))).onPower fun p => { p with throttle := alPut p.throttle n d }

/-- The module trips (R535): THERMTRIP# is latched, load is shed, the flash work is completed, an event is sent. -/
def State.trip (s : State) (n t : Nat) : State :=
  if s.power.tripped then s
  else
    let s := (s.event 9 [n, t]).onPower fun p => { p with tripped := true }
    let s := if s.flag F.sleepStat_ENTERING 0 || s.flag F.sleepStat_EXITING 0 then
        ((s.fset F.sleepStat_ENTERING 0 0).fset F.sleepStat_EXITING 0 0).fset F.sleepStat_RESULT 0 4 |>.onPower fun p => { p with sleep := none, wake := false }
      else s
    s.shedLoad.emergencyFlash

/-- Readings of the physically adjacent cores of a core that are valid and their own (R536). -/
def State.ownReadings (s : State) (n : Nat) : List Nat :=
  ((s.neighbours n).filter fun k => s.flag F.coreTemp_VALID k && !s.flag F.coreTemp_SUBST k && !s.power.broken.contains k).map fun k =>
    s.fget F.coreTemp_TEMP k

/-- The substituted reading of a core, 4 °C above the highest own reading beside it (R536); with no such reading it stands. -/
def State.substReading (s : State) (n : Nat) : State :=
  match s.ownReadings n with
  | [] => s
  | l =>
    let t := l.foldl max 0 + 16
    (((s.fset F.coreTemp_TEMP n t).fset F.coreTemp_VALID n 1).windowHot n t).hotUpdate n t

/-- A diode is converted: `quarters` is its calibrated reading in quarter °C. A reading outside −20 °C to 150 °C breaks the diode
(R536); above 105 °C the core is throttled at once (R534); 115 °C trips the module (R535). The substituted readings beside it follow it; a diode that
is substituted is not used. -/
def execDiodeConversion (core : CoreId) (quarters : Int) (s : State) : Outcome State Fault Refusal :=
  let n := core.val
  if s.flag F.coreTemp_SUBST n || s.power.broken.contains n then .next s
  else if quarters < -80 ∨ 600 < quarters then .next (s.breakDiode n)
  else
    let t := (quarters + 160).toNat
    let s := (((s.fset F.coreTemp_VALID n 1).fset F.coreTemp_TEMP n t).windowHot n t).hotUpdate n t
    let s := ((s.neighbours n).filter fun k => s.flag F.coreTemp_SUBST k).foldl (fun (s : State) k => s.substReading k) s
    let s := if tempOf 105 < t && (alFind s.power.throttle n).isNone then s.throttleTo n (s.dutyOf n / 2) else s
    .next (if tempOf 115 ≤ t then s.trip n t else s)

/-- Every 100 µs a throttled core's duty falls by an eighth while it reads above 105 °C, down to 1/8, and rises by 1/8 below 103 °C until
it reaches the field's (R534). A core whose substituted reading exceeds 105 °C begins its throttle here. -/
def execThrottleStep (core : CoreId) (s : State) : Outcome State Fault Refusal :=
  let n := core.val
  let t := s.fget F.coreTemp_TEMP n
  match alFind s.power.throttle n with
  | none => if tempOf 105 < t && s.flag F.coreTemp_SUBST n then .next (s.throttleTo n (s.dutyOf n / 2)) else .next s
  | some d =>
    if tempOf 105 < t then .next (s.throttleTo n (max 8192 (d - d / 8)))
    else if t < tempOf 103 then
      let full := alGet 65536 s.power.duty (plotOfCore n)
      if full ≤ d + 8192 then .next ((s.fset F.coreTemp_THROTTLED n 0).onPower fun p => { p with throttle := alDel p.throttle n })
      else .next (s.throttleTo n (d + 8192))
    else .next s

/-- A diode has made no conversion for 50 µs, or reads out of range (R536). -/
def execDiodeBroken (core : CoreId) (s : State) : Outcome State Fault Refusal := .next (s.breakDiode core)

/-- The Reeve substitutes the highest own reading of the core's neighbours plus 4 °C, and releases the core; with no such reading the
core is made permanent, its issue held and its vault in B4 until the field's spare has taken its place (R536, R240, R428). -/
def execDiodeSubstitute (core : CoreId) (s : State) : Outcome State Fault Refusal :=
  let n := core.val
  if !s.power.broken.contains n || (alFind s.subst n).isSome then .next s
  else if (s.ownReadings n).isEmpty then
    let (s, c) := s.makePermanent n 0
    .next (if c.unready then s.unready 1 n ((FaultRec.blank 0x21).atCore n) else s)
  else
    let s := s.onPower fun p => { p with broken := setDel p.broken n }
    let s := ((s.fset F.coreTemp_SUBST n 1).fset F.vaultBand_DIODE_FAIL n 0).substReading n
    .next ((s.onCore n fun c => { c with hold := false }).almanac 3 [9, n, 0, 0])

/-- A sensor without a substitute breaks: fail-safe (R537). `kind`: 0 a field's droop sensor, 1 a plot's rail current sense, 2 the
input monitor. -/
def execSensorBroken (kind unit : Nat) (s : State) : Outcome State Fault Refusal := .next (s.failSafe 0x22 (kind * 65536 + unit))

/-! ## Coolant (R539) -/

/-- A write of COOL_IN. -/
def execCoolInWrite (val : W32) (s : State) : Outcome State Fault Refusal :=
  .next (((s.fset F.coolIn_INLET 0 (bitsOf val.toNat 0 12)).fset F.coolIn_STALE 0 0).onPower fun p => { p with coolAt := some s.time.elapsed })

/-- COOL_IN has not been written for 10 s, or not since bring-up. -/
def execCoolInStale (s : State) : Outcome State Fault Refusal :=
  match s.power.coolAt with
  | some t => if s.time.elapsed < t + 10000000000 then .next s else .next (s.fset F.coolIn_STALE 0 1)
  | none => .next (s.fset F.coolIn_STALE 0 1)

/-! ## Vault bands and the plot limit -/

/-- The estimate of one vault: a rise takes effect now, a fall is noted for the next recalibration while the estimate stays 2 °C below
the edge (R239). A vault whose diode is broken stays in B4. -/
def State.bandOne (s : State) (n : Nat) : State :=
  if s.power.broken.contains n then s
  else
    let t := s.layer0 n
    let b := s.fget F.vaultBand_BAND n
    let r := bandOf t
    if b < r then (s.fset F.vaultBand_BAND n r).onPower fun p => { p with falls := alDel p.falls n }
    else
      let d := bandFall t b
      s.onPower fun p => { p with falls := if d < b then alPut p.falls n d else alDel p.falls n }

/-- Every 10 µs the Reeve infers the layer temperatures of every vault with a reading (R237). -/
def execBandEstimate (s : State) : Outcome State Fault Refusal :=
  let cores := (s.regs.filter fun (x : Nat × Nat) => x.1 % 1024 = F.coreTemp_VALID.id && x.2 ≠ 0).map fun (x : Nat × Nat) => x.1 / 1024
  .next (cores.foldl (fun (s : State) n => s.bandOne n) s)

/-- A write to HUL_PLOT_LIMIT: a value above 3,539 is taken as 3,539; the plot cap follows for later admissions (R219 to R221). -/
def execHulPlotLimitWrite (plot : PlotId) (val : W32) (s : State) : Outcome State Fault Refusal :=
  .next ((s.fset F.hulPlotLimit_LIMIT plot (min 3539 (bitsOf val.toNat 0 16))).hulBudget plot)

end Sys2Proof.Machine
end

