-- ==== Sys2Proof/Machine/Time.lean ====
section
/-!
DEFINITION. Time.lean: PTP messages and the setting of the counter (R562 to R566, Table 17-9).
-/
namespace Sys2Proof.Machine

open Host (Outcome)

/-- PTP is in use. -/
def State.ptpOn (s : State) : Bool := s.flag F.ptpCfg_ENABLE 0
/-- The PTP domain: a value above 127 is taken as 0. -/
def State.ptpDomain (s : State) : Nat := if s.fget F.ptpCfg_DOMAIN 0 ≤ 127 then s.fget F.ptpCfg_DOMAIN 0 else 0
/-- Path asymmetry of CONFIG, ns. -/
def State.asym (s : State) : Int := match s.seed.image with | some i => i.asym | none => 0

/-- PTP Announce: `set` is the master's data set in the order in which the best master clock algorithm compares it. -/
def execPtpAnnounce (domain master : Nat) (set : List Nat) (s : State) : Outcome State Fault Refusal :=
  if !s.ptpOn || domain ≠ s.ptpDomain then .next s
  else
    let f := alPut s.time.ptp.foreign master set
    let s := s.onPtp fun p => { p with foreign := f }
    match bestMaster f with
    | some (id, _) => .next (s.selectMaster id)
    | none => .next s

/-- PTP Sync of the master in use, arriving now; `origin`: its time of origin, which a two-step Sync gives in its Follow_Up. -/
def execPtpSync (domain master interval origin : Nat) (twoStep : Bool) (s : State) : Outcome State Fault Refusal :=
  if !s.ptpOn || domain ≠ s.ptpDomain || s.time.ptp.master ≠ some master then .next s
  else
    let now := s.time.counter
    let s := s.onPtp fun p => { p with interval := interval }
    if twoStep then .next (s.onPtp fun p => { p with waiting := some now, lastSync := s.time.elapsed })
    else
      let ms : Int := (now : Int) - origin
      .next ((s.onPtp fun p => { p with ms := ms }).synced ((s.time.ptp.delay : Int) + s.asym - ms))

/-- PTP Follow_Up: the time of origin of the Sync before it. -/
def execPtpFollowUp (domain master origin : Nat) (s : State) : Outcome State Fault Refusal :=
  if !s.ptpOn || domain ≠ s.ptpDomain || s.time.ptp.master ≠ some master then .next s
  else
    match s.time.ptp.waiting with
    | none => .next s
    | some at_ =>
      let ms : Int := (at_ : Int) - origin
      .next ((s.onPtp fun p => { p with ms := ms }).synced ((s.time.ptp.delay : Int) + s.asym - ms))

/-- PTP Delay_Resp: the module sent its Delay_Req at `sent`, the master received it at `received`; the path delay is the mean of both
directions. -/
def execPtpDelayResp (domain master sent received : Nat) (s : State) : Outcome State Fault Refusal :=
  if !s.ptpOn || domain ≠ s.ptpDomain || s.time.ptp.master ≠ some master then .next s
  else .next (s.onPtp fun p => { p with delay := ((p.ms + ((received : Int) - sent)) / 2).toNat })

/-- No Sync for 4 intervals (Table 17-8): the master is given up. -/
def execPtpSyncLoss (s : State) : Outcome State Fault Refusal :=
  let p := s.time.ptp
  if (s.time.state ≠ 1 && s.time.state ≠ 2) || s.time.elapsed < p.lastSync + 4 * p.interval then .next s
  else
    let st := if s.time.state = 1 && s.time.undisc then 0 else 3
    .next ((s.toTime st 0).onPtp fun p => { p with master := none, waiting := none, foreign := [] })

/-- A write to TIME_SET_CTL (Table 17-9): GO acts only while PTP is disabled and the new time is not earlier than the present time; the step
is a TIME event (Table 17-7). -/
def execTimeSet (val : W32) (s : State) : Outcome State Fault Refusal :=
  let w := val.toNat
  let ns := bitsOf w 0 30
  let s := (s.writeField F.timeSetCtl_SET_ERR 0 w).fset F.timeSetCtl_NS 0 ns
  let new := s.fget F.timeSetS_S 0 * 1000000000 + ns
  if !bitAt w 31 then .next s
  else if s.ptpOn || 999999999 < ns || new < s.time.counter then .next (s.fset F.timeSetCtl_SET_ERR 0 1)
  else .next ({ s with time := { s.time with counter := new, slew := 0, tick := 0 } }.timeEvent (new - s.time.counter))

end Sys2Proof.Machine
end

