-- ==== Sys2Proof/Machine/Timing.lean ====
section
/-!
DEFINITION. Timing.lean: vault recalibration and droop holds (R30, R31), rate windows (R32, R36, R37), stalls (R38 to R45).
-/
namespace Sys2Proof.Machine

open Host (Outcome)

/-- The Reeve recalibrates the vaults once its moment has come, 1 ms of module time after the one before (R30), and applies pending falls of
band (R239). -/
def execVaultRecalibration (s : State) : Outcome State Fault Refusal :=
  match s.power.recal with
  | some t => if s.time.elapsed < t then .next s else .next (s.recalibrate t)
  | none => .next s

/-- A field's droop sensor reads `mv`: below 0.50 V the field holds all new issue (R31). -/
def execDroopHold (fid : FieldId) (mv : Nat) (s : State) : Outcome State Fault Refusal :=
  if mv < 500 then .next (s.setField fid { s.field fid with droop := true }) else .next s

/-- The sensor has read `mv`, 0.53 V or more, for 200 ns: issue resumes (R31). -/
def execDroopResume (fid : FieldId) (mv : Nat) (s : State) : Outcome State Fault Refusal :=
  if 530 ≤ mv then .next (s.setField fid { s.field fid with droop := false }) else .next s

/-! ## Rates -/

/-- Rows of Table 2-1 that a temperature (quarter °C above −40 °C) lies between: factor in 1/1000 at the lower row, the fall to the
upper row, quarter degrees between the rows, quarter degrees above the lower row. None above 105 °C. -/
def rateRow (t : Nat) : Option (Nat × Nat × Nat × Nat) :=
  if t ≤ tempOf 25 then some (1040, 0, 1, 0)
  else if t ≤ tempOf 45 then some (1040, 25, 80, t - tempOf 25)
  else if t ≤ tempOf 60 then some (1015, 15, 60, t - tempOf 45)
  else if t ≤ tempOf 75 then some (1000, 15, 60, t - tempOf 60)
  else if t ≤ tempOf 85 then some (985, 15, 40, t - tempOf 75)
  else if t ≤ tempOf 95 then some (970, 15, 40, t - tempOf 85)
  else if t ≤ tempOf 105 then some (955, 15, 40, t - tempOf 95)
  else none

/-- Highest diode temperature of a field in the rate window under way (R37): of the readings that stood at its start and those taken in it. -/
def State.windowTemp (s : State) (fid : Nat) : Option Nat :=
  match (s.field fid).hot, s.fieldTemp fid with
  | some a, some b => some (max a b)
  | some a, none => some a
  | none, x => x

/-- Expected step rate of a field in its rate window (R32) as a fraction: numerator and denominator, in Mstep/s. -/
def State.expectedRate (s : State) (fid : Nat) : Option (Nat × Nat) :=
  match (s.windowTemp fid).bind rateRow with
  | some (f, d, q, x) => some ((levelOf (s.fget F.plStat_LEVEL 0)).2.1 * (f * q - d * x), 1000 * q)
  | none => none

/-- When a field last left reset or S2, by `TimeSt.elapsed`; none: it is in one of them. -/
def State.fieldFrom (s : State) (fid : Nat) : Option Nat :=
  match s.fieldsUp with
  | some u => if (s.field fid).resetting || s.sleep = 2 then none else some (max u (s.field fid).since)
  | none => none

/-- When the rate window under way in a field began: the end of the one before, or the moment at which the field left reset or S2. -/
def State.windowFrom (s : State) (fid : Nat) : Option Nat := (s.fieldFrom fid).map fun u => max u (s.field fid).window

/-- A window of 10 µs ends: FIELD_RATE is updated as a whole (R36), and the Reeve compares CAPABLE with 0.90 of the expected rate
(R37). A window that began before the field left reset or S2 does not exist: windows begin anew there. DESIGN CHOICE (log 182): a window with
no expected rate, no diode reading being valid or the hottest above 105 °C, breaks the run of low windows. -/
def execRateWindowEnd (fid : FieldId) (actual capable : BitVec 16) (s : State) : Outcome State Fault Refusal :=
  let f := fid.val
  match s.windowFrom f with
  | none => .next s
  | some w =>
    if s.time.elapsed < w + 10000 then .next s
    else
      let low := match s.expectedRate f with
        | some (a, b) => decide (capable.toNat * b * 100 < 90 * a)
        | none => false
      let fld := { s.field f with slow := if low then (s.field f).slow + 1 else 0, window := s.time.elapsed, hot := s.fieldTemp f }
      let s := (((s.fset F.fieldRate_VALID f 1).fadd F.fieldRate_WINDOW_SEQ f 1).fset F.fieldRate_ACTUAL f actual.toNat).fset
        F.fieldRate_CAPABLE f capable.toNat
      .next (s.setField f fld)

/-- CAPABLE has stayed low for 100 windows: a SLOW_FIELD event and an Almanac record (R37). Body: plot, field, CAPABLE, expected
rate. DESIGN CHOICE (log 182): the count of windows starts at 0 again, so a field that stays slow is reported after each further 100. -/
def execSlowFieldReport (fid : FieldId) (s : State) : Outcome State Fault Refusal :=
  let f := fid.val
  if (s.field f).slow < 100 then .next s
  else
    let e := match s.expectedRate f with
      | some (a, b) => a / b
      | none => 0
    let body := [f / 288, f % 288, s.fget F.fieldRate_CAPABLE f, e]
    .next (((s.setField f { s.field f with slow := 0 }).event 5 body).almanac 6 body)

/-! ## Stalls -/

/-- A write to STALL_CTL (R39): 0 leaves the bound, 10 to 1,000 sets it, any other value is ignored and sets BOUND_ERR. -/
def execStallCtlWrite (val : W32) (s : State) : Outcome State Fault Refusal :=
  let v := bitsOf val.toNat 0 16
  let s := if bitAt val.toNat 16 then s.fset F.stallCtl_BOUND_ERR 0 0 else s
  if v = 0 then .next s
  else if 10 ≤ v ∧ v ≤ 1000 then .next (s.setBound v)
  else .next (s.fset F.stallCtl_BOUND_ERR 0 1)

/-- The watch a monitored port belongs to (R38). -/
def watchOf : MonPort → Watch
  | .control n | .array n | .vector n | .drill n | .moveEngine n | .vaultInterface n | .huller n _ => .field (fieldOfCore n)
  | .router f _ | .headland f _ => .field f
  | .granary b => .granary b

/-- Does a pause of timers concern a port: its field is halted (Table 2-4), or its bank is under substitution (R451). -/
def Pause.concerns (p : Pause) (port : MonPort) : Bool :=
  match p.of, port with
  | .field f, _ => watchOf port = .field f
  | .unit u, .huller n b => u = n * 32 + b
  | .unit u, .vaultInterface n => u / 32 = n && u < 884736
  | .unit u, .granary b => u = 884736 + b
  | .unit _, _ => false

/-- Nanoseconds a pause takes out of a time from `a` to `b`. -/
def Pause.within (p : Pause) (a b : Nat) : Nat := min b (p.until_.getD b) - max a p.from_

/-- How long a handshake has been timed (R38, R41, R42): by the increments of the module time counter since its request was raised, less the
time in which its timer was suspended. -/
def State.openNs (s : State) (h : Handshake) : Nat :=
  (s.time.elapsed - h.raised) - ((s.pauses.filter fun p => p.concerns h.port).map fun p => p.within h.raised s.time.elapsed).sum

/-- The bound in force when a request was raised, in µs (R39, R40): the last value written until then, else the value loaded at reset. -/
def State.boundAt (s : State) (raised : Nat) : Nat :=
  match s.bounds.find? fun b => b.1 ≤ raised with
  | some b => b.2
  | none => (alFind s.cfg (F.stallCtl_BOUND_US.key 0)).getD F.stallCtl_BOUND_US.reset

/-- Is the timer of a port running: its field has left reset and S2 no later than `raised` and is not halted; a block of the Granary has no such
state. -/
def State.timed (s : State) (h : Handshake) : Bool :=
  h.raised ≤ s.time.elapsed &&
  match watchOf h.port with
  | .field f => (match s.fieldFrom f with | some u => decide (u ≤ h.raised) | none => false) && !(s.field f).halted
  | .granary _ => true

/-- A handshake has stayed open past the bound that was in force when its request was raised: the field holds issue and reports its port and
step (step 1 of Table 2-5). It is secondary when it faces a field or block that has already reported (R44). -/
def execStall (hs : Handshake) (s : State) : Outcome State Fault Refusal :=
  if !s.timed hs || s.openNs hs ≤ s.boundAt hs.raised * 1000 then .next s
  else
    let sec := match hs.faces with
      | some b => s.stalls.any fun x => watchOf x.hs.port = b
      | none => false
    let r : StallRep := { hs := hs, secondary := sec, at_ := s.time.elapsed }
    let s := { s with stalls := s.stalls ++ [r] }
    match watchOf hs.port with
    | .field f => .next (s.setField f { s.field f with held := true })
    | .granary _ => .next s

/-- The open step a stall is charged to (R45): the one named, or the next open one of its ring. -/
def State.stallStep (s : State) (h : Handshake) : Option (Nat × Nat) :=
  match h.ring with
  | some r =>
    match (s.ring r).openStep h.step with
    | some o => some (r, o.step)
    | none => match (s.ring r).steps with
      | o :: _ => some (r, o.step)
      | [] => none
  | none => none

/-- The fault record of a primary stall, charged to its core or field (Table 12-1); one of a Granary block is charged to no unit. -/
def stallFault (h : Handshake) : FaultRec :=
  let f := FaultRec.blank 2
  match h.port, watchOf h.port with
  | .huller n b, _ => { f.atCore n with bank := b }
  | .control n, _ | .array n, _ | .vector n, _ | .drill n, _ | .moveEngine n, _ | .vaultInterface n, _ => f.atCore n
  | _, .field x => { f with plot := x / 288, field := x % 288 }
  | _, .granary _ => f

/-- Fields with a primary stall: step 3 of Table 2-5 resets them. -/
def stallFields (l : List StallRep) : List Nat :=
  (l.filter fun x => !x.secondary).foldl (fun a x => match watchOf x.hs.port with | .field f => setIns a f | .granary _ => a) []

/-- The field a watch is of. -/
def fidOf : Watch → Option Nat
  | .field f => some f
  | .granary _ => none

/-- A field with secondary stalls only goes on (R44). -/
def State.endStallHold (s : State) (fields : List Nat) (w : Watch) : State :=
  match w with
  | .field f => if fields.contains f then s else s.setField f { s.field f with held := false }
  | .granary _ => s

/-- The collection window of 2 µs closes: fields with a primary stall are reset, their steps have a confirmed fault STALL; the stalled
handshakes of the others, and every open handshake that faces a reset field, complete with chaff; a field with secondary stalls only goes on
(Table 2-5, R44). -/
def execStallCollectionClose (others : List Handshake) (s : State) : Outcome State Fault Refusal :=
  match s.stalls with
  | [] => .next s
  | first :: _ =>
    if s.time.elapsed < first.at_ + 2000 then .next s
    else
      let l := s.stalls
      let s := { s with stalls := [] }
      let fields := stallFields l
      let s := l.foldl (fun (s : State) x =>
        if x.secondary then (s.consumeChaff x.hs.ring x.hs.step).endStallHold fields (watchOf x.hs.port) else s) s
      let facing (h : Handshake) : Bool := match h.faces.bind fidOf with | some f => fields.contains f | none => false
      let s := (others.filter facing).foldl (fun (s : State) h => s.consumeChaff h.ring h.step) s
      let s := (l.filter fun x => !x.secondary).foldl (fun (s : State) x =>
        match s.stallStep x.hs with
        | some (r, st) => s.confirm { stallFault x.hs with part := partOfRing r, ring := r, step := st }
        | none => s.confirm { stallFault x.hs with ring := x.hs.ring.getD 0xFF, step := x.hs.step }) s
      .next (fields.foldl (fun (s : State) f => s.resetField f) (if fields.isEmpty then s else s.endEntry))

/-- A field's reset, with each core's fetch of its code, is done: issue resumes (step 3 of Table 2-5). -/
def execFieldResetDone (fid : FieldId) (s : State) : Outcome State Fault Refusal :=
  let f := s.field fid
  if !f.resetting then .next s
  else
    let wait := s.subst.any fun n => fieldOfCore n.1 = fid.val
    .next (s.setField fid { f with resetting := false, held := wait, since := s.time.elapsed })

end Sys2Proof.Machine
end

