-- ==== Sys2Proof/Machine/Bring.lean ====
section
/-!
DEFINITION. Bring.lean: the bring-up steps, how they end and what they leave (R460 to R478, R492, R493, R502).
-/
namespace Sys2Proof.Machine

open Host (Outcome)

/-! ## Starting and ending a step (R460, R462, R478) -/

/-- May a step of bring-up run now: no reset pin is asserted, the supplies are up, no trip is latched (Table 14-12). -/
def State.stepsOpen (s : State) : Bool := s.rst.pwrOk && !s.rst.emergency && !s.rst.perst && !s.rst.warm && !s.power.tripped

/-- Codes of Table 14-9 after which the same step may be written again. -/
def retryCode (step code : Nat) : Bool :=
  code = 0x20 || code = 0x21 || code = 0x30 || code = 0x31 || code = 0x80 || (code = 0xF0 && 2 < step)

/-- Is a write of `code` to BRING_CTL.STEP accepted (R460). -/
def State.stepAccepted (s : State) (code : Nat) : Bool :=
  let step := s.fget F.bringStatus_STEP 0
  s.stepsOpen && s.rst.job.isNone && 2 ≤ code &&
  ((s.bringState = 1 && code = step + 1 && code ≤ 10) || (s.bringState = 2 && code = step && retryCode step (s.fget F.bringStatus_CODE 0)))

/-- A step begins: RUNNING, its attempts counted. -/
def State.stepBegin (s : State) (code bound : Nat) : State :=
  let n := if s.fget F.bringStatus_STEP 0 = code then s.fget F.bringStatus_ATTEMPTS 0 + 1 else 1
  let s := (((s.fset F.bringStatus_STATE 0 0).fset F.bringStatus_STEP 0 code).fset F.bringStatus_CODE 0 0).fset F.bringStatus_ATTEMPTS 0 (min 127 n)
  { (s.fset F.bringDetail_DETAIL 0 0) with rst := { s.rst with job := some { code := 0, detail := 0, since := s.time.elapsed, bound := bound, again := [] } } }

/-- A write of BRING_CTL.STEP that R460 does not accept. -/
def State.stepRefused (s : State) : State := s.fset F.bringStatus_ORDER 0 1

/-- The step that runs will end FAILED with a code, the first it meets. -/
def State.stepFails (s : State) (code detail : Nat) : State :=
  match s.rst.job with
  | some j => if j.code ≠ 0 then s else { s with rst := { s.rst with job := some { j with code := code, detail := detail } } }
  | none => s

/-- The step that runs gets more time, for a substitution (Table 14-4). -/
def State.moreTime (s : State) (ns : Nat) : State :=
  match s.rst.job with
  | some j => { s with rst := { s.rst with job := some { j with bound := j.bound + ns } } }
  | none => s

/-- The step that runs ends FAILED now (R478): CODE and DETAIL, and fail-safe or unready where Table 14-9 says so. -/
def State.stepEndFailed (s : State) (code detail : Nat) : State :=
  let s := (s.fset F.bringStatus_STATE 0 2).fset F.bringDetail_DETAIL 0 detail
  let s := if code = 0x11 then s.unready (detail % 256) (detail / 65536) (FaultRec.blank 0x21)
    else if code = 0x50 then s.ctrlFail (s.roleAddr detail) 0
    else if code = 2 || code = 3 || code = 0x10 || code = 0x70 then s.failSafe 0x21 code
    else s
  s.fset F.bringStatus_CODE 0 code

/-- Take the step's job away and load STEP_TIME. -/
def State.stepTimed (s : State) (j : BringJob) : State :=
  { s with rst := { s.rst with job := none } }.fset F.stepTime_ELAPSED_US 0 ((s.time.elapsed - j.since) / 1000)

/-! ## STEP_STRAP (R464 to R467) -/

/-- Codes of one set of conversions. -/
def strapCodes (set : List Nat) : List Nat := set.map fun c => min 63 c / 4

/-- The first of four sets of 8 conversions whose codes agree, and the last set made. -/
def strapSets : Nat → List Nat → Option (List Nat) × List Nat
  | 0, _ => (none, [])
  | n + 1, l =>
    let set := l.take 8
    if set.length = 8 && (match strapCodes set with | c :: t => t.all (· = c) | [] => false) then (some set, set)
    else if n = 0 then (none, set)
    else strapSets n (l.drop 8)

/-- STEP_STRAP: the module samples OPTSEL by itself when a reset has ended. `counts`: the conversions it makes, 8 to a set. -/
def execStepStrap (counts : List Nat) (s : State) : Outcome State Fault Refusal :=
  if !s.stepsOpen || s.rst.job.isSome || s.bringState ≠ 0 || s.fget F.bringStatus_STEP 0 ≠ 1 then .next s
  else
    let s := s.stepBegin 1 50000
    match strapSets 4 counts with
    | (some set, _) =>
      let c := min 63 (set.getLastD 0)
      .next (((((s.fset F.optselStat_VALID 0 1).fset F.optselStat_COUNT 0 c).fset F.optselStat_CODE 0 (c / 4)).fset F.optselStat_POLICY 0
        (c / 4 % 4)).fset F.optselStat_OFFSET 0 (c / 16))
    | (none, set) =>
      let last := min 63 (set.getLastD 0)
      let first := (strapCodes set).headD 0
      let odd := (set.find? fun c => min 63 c / 4 ≠ first).getD 0
      .next ((s.fset F.optselStat_COUNT 0 last).stepFails 1 (last + min 63 odd * 256))

/-! ## STEP_SEED (R468 to R471, R490, R492) -/

/-- What verifying an image finds (R490): 0, or the reason of Table 14-9. The recovery image has no floor and no FACTORY_MAP. -/
def State.imageReason (s : State) (x : SlotRead) (recovery : Bool) : Nat :=
  let i := x.image
  let target := i.target = 3 || (match s.partNo with | .a64 => i.target = 1 | .a128 => i.target = 2)
  let fits := 4096 ≤ i.len && i.len ≤ 40 * 1048576 && i.otherLen ≤ 2 * 1048576 && (i.roles.map List.length).sum ≤ 12 * 1048576
  if x.reason = 3 then 3
  else if !target || !fits || (!recovery && i.secVersion < s.seed.journal.floor) then 4
  else if x.reason ≠ 0 then x.reason
  else if !recovery && !i.factoryOk then 4
  else 0

/-- Reset values the image gives (Tables 8-1, 8-3, 7-5): modes of the bins, with the stream table in force (R246), port enables, limits of
the plot huller budgets, none above 3,539 (R220), the rest. -/
def imageCfg (i : Image) (strmOn : Bool) : List (Nat × Nat) :=
  let mode (k : Nat) : Nat := if 59 ≤ k || (51 ≤ k && strmOn) then 3 else if k < i.cacheBins then 1 else 0
  let bins := (List.range 64).map fun k => (F.grnBinCfg_MODE.key k, mode k)
  let ports := (List.range 12).map fun p => (F.portCtl_ENABLE.key p, one (i.ports.getLsbD p))
  let limit (x : Nat × Nat) : Nat × Nat := if x.1 % 1024 = F.hulPlotLimit_LIMIT.id then (x.1, min x.2 3539) else x
  (bins ++ ports ++ i.config.map limit).foldl (fun m x => alPut m x.1 x.2) []

/-- Offsets and lengths of role images laid one after another. -/
def roleTable : Nat → List (List Byte) → List (Nat × Nat)
  | _, [] => []
  | off, b :: t => (off, b.length) :: roleTable (off + b.length) t

/-- Use an image: its sections go to the Reeve store, its role images to the system bin (Table 14-4). -/
def State.loadImage (s : State) (i : Image) (slot : Nat) : State :=
  let table := roleTable 0 i.roles
  let s := (table.zip i.roles).foldl (fun (s : State) x => s.wr (roleBase + x.1.1) x.2) s
  let on := if s.rst.cold then i.strmOn else s.strmOn
  let s := { s with cfg := imageCfg i on, roles := table, strmOn := on,
                    seed := { s.seed with image := some i, booted := slot }, power := { s.power with kp := i.kp } }
  let cached := ((List.range 64).filter fun k => s.fget F.grnBinCfg_MODE k = 1).length
  let s := (((s.fset F.seedVer_SEC_VERSION 0 i.secVersion).fset F.seedVer_VERSION 0 i.version).fset F.optselStat_SLOT 0 slot).fset
    F.grnCacheStat_BINS 0 cached
  ((List.range 4).foldl State.hulBudget s).seedRegs

/-- Trying a slot: is it chosen, the journal after, and the reason it failed (0: it was not read). -/
structure Tried where
  ok : Bool
  journal : Journal
  reason : Nat
  deriving DecidableEq, Repr

/-- Try slot A or B: only a VERIFIED one is read; one that fails is marked BAD, and no longer on trial (R492, Table 15-9). -/
def State.trySlot (s : State) (j : Journal) (k : Nat) (x : SlotRead) : Tried :=
  if j.slot k ≠ 3 then { ok := false, journal := j, reason := 0 }
  else
    let r := s.imageReason x false
    if r = 0 then { ok := true, journal := j, reason := 0 }
    else
      let j' := j.setSlot k 4
      { ok := false, journal := if j.trial = k then { j' with trial := 0xFF, trials := 0 } else j', reason := r }

/-- The slot the automatic policy takes first, with the journal after the revert rule (R492). -/
def Journal.choose (j : Journal) : Journal × Nat :=
  if j.trial ≤ 1 then
    if j.trials < 3 then (j, j.trial)
    else ({ (j.setSlot j.trial 4) with trial := 0xFF, trials := 0 }, if j.active ≤ 1 then j.active else 0)
  else (j, if j.active ≤ 1 then j.active else 0)

/-- A slot found in VERIFYING is marked BAD (R492). -/
def Journal.settle (j : Journal) : Journal :=
  { j with stateA := if j.stateA = 2 then 4 else j.stateA, stateB := if j.stateB = 2 then 4 else j.stateB }

/-- The chosen slot, the journal after, and the DETAIL of SEED_NONE. -/
def State.seedChoose (s : State) (a b r : SlotRead) : Option (Image × Nat) × Journal × Nat :=
  let policy := s.fget F.optselStat_POLICY 0
  let j := s.seed.journal.settle
  let of (k : Nat) : SlotRead := if k = 0 then a else b
  let det (k reason : Nat) : Nat := if reason = 0 then 0 else 2 ^ k + reason * (if k = 1 then 4096 else 256)
  if policy = 3 then
    let x := s.imageReason r true
    if x = 0 then (some (r.image, 2), j, 0) else (none, j, det 2 x)
  else if policy = 0 then
    let (j, k) := j.choose
    let t := s.trySlot j k (of k)
    if t.ok then (some ((of k).image, k), t.journal, 0)
    else
      let u := s.trySlot t.journal (1 - k) (of (1 - k))
      if u.ok then (some ((of (1 - k)).image, 1 - k), u.journal, 0) else (none, u.journal, det k t.reason + det (1 - k) u.reason)
  else
    let k := policy - 1
    let t := s.trySlot j k (of k)
    if t.ok then (some ((of k).image, k), t.journal, 0) else (none, t.journal, det k t.reason)

/-- The slots STEP_SEED tries (Table 14-4): 0 A, 1 B, 2 recovery. -/
def State.slotsTried (s : State) (a b : SlotRead) : List Nat :=
  let policy := s.fget F.optselStat_POLICY 0
  let j := s.seed.journal.settle
  if policy = 3 then [2]
  else
    let (j, k) := if policy = 0 then j.choose else (j, policy - 1)
    (k :: if policy ≠ 0 || (s.trySlot j k (if k = 0 then a else b)).ok then [] else [1 - k]).filter fun i => j.slot i = 3

/-- STEP_SEED. `answered`: flash devices that can be read; `stale`: those a read of which failed its check while the mirror returned the
same data intact (R486); `a`, `b`, `r`: what reading slot A, slot B and the recovery image gives. -/
def execStepSeed (answered stale : BitVec 2) (a b r : SlotRead) (s : State) : Outcome State Fault Refusal :=
  if !s.stepAccepted 2 then .next s.stepRefused
  else
    let s := s.stepBegin 2 0
    let s := { s.zeroRange (roleBase + 0xC00000) 0x400000 with mdq := [] }
    if answered = 0 then .next ((s.moreTime 5500000).stepFails 3 answered.toNat)
    else
      let s := (List.range 2).foldl (fun (s : State) d => if stale.getLsbD d then s.deviceFallow d else s) s
      let per (x : SlotRead) : Nat := 5500000 + x.image.len * 5 / 2
      let s := s.moreTime (max 5500000 ((s.slotsTried a b).map fun k => per (if k = 0 then a else if k = 1 then b else r)).sum)
      let (got, j, det) := s.seedChoose a b r
      let s := if j = s.seed.journal then s else s.journalWrite j
      let s := { s with seed := { s.seed with seenJournal := j, seenKeys := s.seed.keys } }
      match got with
      | some (i, slot) => .next (s.loadImage i slot)
      | none => .next (s.stepFails 2 det)

/-! ## STEP_REPAIR (R493, R502, R503) -/

/-- A Headland lane stands on a spare by the repair map: HL_STAT shows it (R356). `key`: the lane, with 1,000 added when inward. -/
def State.laneUsed (s : State) (plot key spare : Nat) : State :=
  let fld := if 1000 ≤ key then F.hlStat_SPARE_IN else F.hlStat_SPARE_OUT
  let s := s.setHeadland plot ((s.headland plot).swap key (hlKey (decide (1000 ≤ key)) (64 + spare)))
  s.fset fld plot (Nat.lor (s.fget fld plot) (2 ^ spare))

/-- The repair map that the factory map and the committed map records give. -/
def State.repairMap (s : State) : State :=
  let fact := match s.seed.image with | some i => i.spares | none => []
  let log := s.alm.log
  let subst (k : Nat) : List (List Nat) := (log.filter fun r => r.kind = 3 && r.body.headD 0 = k).map AlmRec.body
  let spare := (subst 1).foldl (fun m b => alPut m (b.getD 2 0) (b.getD 1 0)) (fact.foldl (fun m x => alPut m x.1 x.2) [])
  let fallow := (subst 0xA).foldl (fun l b => setIns l (b.getD 1 0)) s.seed.fallow
  let ret := (log.filter fun r => r.kind = 4).foldl (fun (t : RetSt) r =>
    let v := r.body.headD 0
    let target := bitsOf v 0 16
    let key := target * 32 + bitsOf v 16 5
    match r.body.getD 1 0xF with
    | 0 => { t with rows := alPut t.rows key (alGet 0 t.rows key + 1) }
    | 1 => { t with slices := setIns t.slices target, rows := t.rows.filter fun x => x.1 / 4 ≠ key / 4 }
    | 2 => { t with bins := t.bins + 1 }
    | 3 => { t with gone := setIns t.gone (if bitsOf v 30 2 = 3 then 884736 + target else key) }
    | _ => t) { gone := [], rows := [], slices := [], bins := 0, job := none, waiting := none }
  let phases := (log.filter fun r => r.kind = 8 && r.body.headD 1 = 0).foldl (fun l r => setIns l (r.body.getD 1 0 * 96 + r.body.getD 2 0)) []
  let s := { s with spare := spare, ret := ret, seed := { s.seed with fallow := fallow }, power := { s.power with fallow := phases } }
  let s := s.fset F.intStatus_SPARES_FREE 0 (1152 - spare.length)
  let s := (List.range 4).foldl (fun (s : State) p =>
    let n := (phases.filter fun k => k / 96 = p).length
    let s := (s.fset F.plotPhase_FALLOW p n).fset F.plotPhase_SPARES_FREE p (8 - n)
    (s.fset F.hlStat_SPARE_IN p 0).fset F.hlStat_SPARE_OUT p 0) s
  let lanes := (match s.seed.image with | some i => i.hlLanes.map (fun x => (x.1, x.2.1, x.2.2)) | none => []) ++
    (subst 6).map fun b => (b.getD 1 0 / 65536, b.getD 1 0 % 65536, b.getD 2 64 - 64)
  let s := lanes.foldl (fun (s : State) x => s.laneUsed x.1 x.2.1 x.2.2) s
  let s := (subst 9).foldl (fun (s : State) b => s.fset F.coreTemp_SUBST (b.getD 1 0) 1) s
  let s := ((subst 1).filter fun b => (subst 9).any fun d => d.getD 1 0 = b.getD 1 0).foldl (fun (s : State) b => s.fset F.coreTemp_SUBST (b.getD 1 0) 0) s
  s.seedRegs

/-- Substitute a core by its field's spare during bring-up (R472); false when the spare is in use (R474). -/
def State.bringSubst (s : State) (n : Nat) : State × Bool :=
  let fid := fieldOfCore n
  if (alFind s.spare fid).isSome then (s.stepFails 0x11 (1 + n * 65536), false)
  else
    let s := { s with spare := alPut s.spare fid n }
    let s := (s.setCore n { s.core n with epoch := ((s.core n).epoch + 1) % 65536 }).ownDiode n
    let s := s.fset F.intStatus_SPARES_FREE 0 (s.fget F.intStatus_SPARES_FREE 0 - 1)
    ((s.almanac 3 [1, n, fid, 0]).moreTime 600000, true)

/-- Cores whose last map record makes them permanent (CLASS, R427) and that no later SUBST record has restored, and identities of
units without a spare that a record makes permanent. -/
def State.unrestored (s : State) : List Nat × List Nat :=
  s.alm.log.foldl (fun (a : List Nat × List Nat) r =>
    let n := r.body.getD 1 0
    if r.kind = 5 && r.body.headD 9 = 1 then (setIns a.1 n, a.2)
    else if r.kind = 5 && r.body.headD 9 = 0 then (a.1, setIns a.2 n)
    else if r.kind = 3 && r.body.headD 0 = 1 then (setDel a.1 n, a.2) else a) ([], [])

/-- The substitutions STEP_REPAIR makes (R474): a permanent core takes its field's spare; a unit without a spare cannot be restored. -/
def State.restoreUnits (s : State) : State :=
  let (cores, others) := s.unrestored
  let s := cores.foldl (fun (s : State) n => (s.bringSubst n).1) s
  match others with
  | [] => s
  | u :: _ => s.stepFails 0x11 (u % 65536 * 65536)

/-- STEP_REPAIR. The boot and the trial count once in a bring-up, at its first start (R493). `bad`: offset of the first record or map entry that fails its check, if any. -/
def execStepRepair (bad : Option Nat) (s : State) : Outcome State Fault Refusal :=
  if !s.stepAccepted 3 then .next s.stepRefused
  else
    let s := s.stepBegin 3 50000000
    let first := s.fget F.bringStatus_ATTEMPTS 0 = 1
    let s := { s with alm := { s.alm with boot := if first then s.alm.boot + 1 else s.alm.boot } }
    let j := s.seed.journal
    let s := if first && j.trial ≤ 1 && s.seed.booted = j.trial then s.journalWrite { j with trials := min 3 (j.trials + 1) } else s
    match bad with
    | some off => .next (s.stepFails 0x10 off)
    | none =>
      let s := s.repairMap
      match s.ret.gone with
      | [] => .next s.restoreUnits
      | u :: _ => .next (s.stepFails 0x11 (if 884736 ≤ u then 5 + (u - 884736) * 65536 else 2 + u / 32 * 65536))

/-! ## STEP_POWER, STEP_VAULT, STEP_FIELD -/

/-- STEP_POWER: the boot level is in force, and REQ takes it (R524). `rail`: a plot whose rail did not reach its level, with its last minimum voltage; `lanes`: Headland lanes that fail
training; `headland`: a plot and direction whose link fails. -/
def execStepPower (rail : Option (Nat × Nat)) (lanes : List (Nat × Bool × Nat)) (headland : Option (Nat × Bool)) (s : State) :
    Outcome State Fault Refusal :=
  if !s.stepAccepted 4 then .next s.stepRefused
  else
    let s := s.stepBegin 4 10000000
    let l := match s.seed.image with | some i => i.bootLevel % 8 | none => 3
    let (v, _, b, a) := levelOf l
    let s := (((s.fset F.plStat_LEVEL 0 l).fset F.plCtl_REQ 0 l).fset F.plStat_MOVING 0 0).onPower fun p => { p with volt := v, bias := b, assist := a, shed := false }
    match rail, headland with
    | some (p, mv), _ => .next (s.stepFails 0x20 (p % 16 + mv % 65536 * 65536))
    | none, some (p, dir) => .next (s.stepFails 0x21 (p % 16 + one dir * 16))
    | none, none => .next (lanes.foldl (fun (s : State) x =>
        match s.laneSwap x.1 x.2.1 x.2.2 with
        | (s, true) => s
        | (s, false) => s.stepFails 0x11 (6 + x.2.2 % 65536 * 65536)) s)

/-- STEP_VAULT: bins 0 to 62 are zeroed; on a cold bring-up every valid bit is cleared and the seedstore zeroed. `seedstore`: a channel that
fails training; `cal`: a core whose vault fails calibration. -/
def execStepVault (seedstore cal : Option Nat) (s : State) : Outcome State Fault Refusal :=
  if !s.stepAccepted 5 then .next s.stepRefused
  else
    let cap := s.partNo.capacity
    let s := s.stepBegin 5 (if s.rst.cold then 70000000 + cap * 100 / 194000 else 50000000)
    match seedstore, cal with
    | some c, _ => .next (s.stepFails 0x30 (c % 64))
    | none, some n => .next (s.stepFails 0x31 (n % 65536))
    | none, none =>
      let s := s.zeroRange 0x4000000000 (63 * 0x1000000)
      if s.rst.cold then .next { ((s.zeroRange 0 0x3600000000).zeroRange 0x8000000000 cap) with valid := [] } else .next s

/-- STEP_FIELD. `slow`: cores whose capability stays below 0.95 of the expected rate over 100 windows. -/
def execStepField (slow : List CoreId) (s : State) : Outcome State Fault Refusal :=
  if !s.stepAccepted 6 then .next s.stepRefused
  else
    let s := { s.stepBegin 6 5000000 with fields := [], fieldsUp := some s.time.elapsed, pauses := [], bounds := [] }
    let s := s.fclear F.stallCtl_BOUND_US 0
    .next (slow.foldl (fun (s : State) (n : CoreId) => (s.bringSubst n).1) s)

/-! ## STEP_FETCH (R473, R629) -/

/-- A role image keeps its layout and check (R629). -/
def State.roleOk (s : State) (i : Nat) : Bool :=
  let (off, len) := s.roles.getD i (0, 0)
  let b := s.rdN (roleBase + off) len
  let n := fieldB b 0 4
  let m := fieldB b 4 2
  n ≠ 0 && m ≠ 0 && fieldB b 8 4 = len && len = (16 + 4 * m + 7) / 8 * 8 + 8 * n &&
  (List.range m).all (fun k => decide (fieldB b (16 + 4 * k) 4 < n)) &&
  fieldB b 14 2 = (moduleCheck (b.take 14 ++ b.drop 16)).toNat

/-- The boot work item of a core (R473). -/
def State.bootItem (s : State) (n : Nat) : WorkItem :=
  let (role, entry) := match s.seed.image with
    | some i => (match i.boot.find? fun x => x.1 = n with | some x => x.2 | none => (i.bootRole, i.bootEntry))
    | none => (0, 0)
  { ring := none, part := 0xFF, step := 0, layer := 0, oper := 0, role := role, entry := entry, firstCore := n, arg0 := 0, arg1 := 0, arg2 := 0,
    arg3 := 0, batch := 0, model := 0xFFFF, dead := false, place := ⟨0, 0, false⟩ }

/-- STEP_FETCH: every role image is checked, then each core gets its boot work item. -/
def execStepFetch (s : State) : Outcome State Fault Refusal :=
  if !s.stepAccepted 7 then .next s.stepRefused
  else
    let s := { s.stepBegin 7 2000000 with bootEnd := [] }
    match (List.range s.roles.length).find? fun i => !s.roleOk i with
    | some i => .next (s.stepFails 0x50 i)
    | none => .next ((List.range 27648).foldl (fun (s : State) n =>
        let w := s.bootItem n
        s.onCore n fun c => { c with queue := c.queue ++ [w] }) s)

/-- A boot work item has ended with a status other than OK, or has not ended within 1 ms: its core is substituted and fetches again
(R473). -/
def execBootItemTimeout (core : CoreId) (s : State) : Outcome State Fault Refusal :=
  let n := core.val
  match s.rst.job with
  | none => .next s
  | some j =>
    let ended := s.bootEnd.find? fun x => x.1 = n
    let late := j.since.max (alGet 0 j.again n) + 1000000 ≤ s.time.elapsed
    let bad := match ended with | some x => x.2 ≠ 0 | none => late
    if s.fget F.bringStatus_STEP 0 ≠ 7 || s.bringState ≠ 0 || !bad then .next s
    else
      let (s, ok) := s.bringSubst n
      if !ok then .next s
      else
        let w := s.bootItem n
        let c := s.core n
        let s := { s with bootEnd := s.bootEnd.filter fun x => x.1 ≠ n }
        let s := match s.rst.job with
          | some j => { s with rst := { s.rst with job := some { j with again := alPut j.again n s.time.elapsed } } }
          | none => s
        .next (s.setCore n { Core.fresh with queue := [w], epoch := c.epoch, undef := c.undef + 1 })

/-! ## STEP_LINK, STEP_TOPO, STEP_READY -/

/-- STEP_LINK: every enabled port trains; one that kept its lock through a warm reset goes to HELLO (R474, R482). -/
def execStepLink (s : State) : Outcome State Fault Refusal :=
  if !s.stepAccepted 8 then .next s.stepRefused
  else
    let s := s.stepBegin 8 300000000
    .next ((List.range 12).foldl (fun (s : State) p =>
      let x := s.port p
      if !s.flag F.portCtl_ENABLE p then s
      else if s.portState p = 5 && x.cause = 5 then ((s.onPort p fun x => { x with cause := 0 }).setPortState p 2).sendControl p
      else (s.onPort p fun x => { x with cause := 0 }).startPort p) s)

/-- STEP_TOPO: module ID, topology identity and both route sets from the expected topology, set A active. -/
def execStepTopo (s : State) : Outcome State Fault Refusal :=
  if !s.stepAccepted 9 then .next s.stepRefused
  else
    let s := s.stepBegin 9 5000000
    match s.seed.image with
    | none => .next s
    | some i =>
      match i.routes.find? fun r => bitsOf r.2 24 6 ≠ 0 || bitsOf r.2 0 15 ≠ 0 with
      | some r => .next (s.stepFails 0x70 (r.1 % 65536))
      | none =>
        let routes := i.routes.foldl (fun m x => alPut m x.1 x.2) []
        .next (({ s with link := { s.link with routes := routes, topoId := i.topoId, expect := i.expect, topo := i.topo } }.fset
          F.oncSelf_MODULE_ID 0 i.moduleId).fset F.routeCtl_ACTIVE 0 0)

/-- Does the Almanac hold a substitution, written or queued: its first words. -/
def State.almSubst (s : State) (body : List Nat) : Bool :=
  (s.alm.log ++ s.alm.queue).any fun r => r.kind = 3 && r.body.take body.length = body

/-- Is a substitution of an Oncon lane in the seed image's spare map or recorded in the Almanac (R378). `key`: the lane, with 16 added when
received; 15 stands for none. -/
def State.oncLaneKnown (s : State) (p key : Nat) : Bool :=
  key % 16 = 15 || s.oncMapped p key || s.almSubst [7, p * 256 + key]

/-- The same for the spares a Headland link uses, as HL_STAT and its lanes say. -/
def State.hlLanesKnown (s : State) (p : Nat) : Bool :=
  (s.headland p).subst.all fun x =>
    (match s.seed.image with | some i => i.hlLanes.any fun y => y.1 = p && hlKey (decide (1000 ≤ y.2.1)) (64 + y.2.2) = x.2 | none => false) ||
    (s.alm.log ++ s.alm.queue).any fun r => r.kind = 3 && r.body.headD 0 = 6 && r.body.getD 1 0 / 65536 = p && hlKey (decide (1000 ≤ x.2)) (r.body.getD 2 0) = x.2

/-- Does a port's neighbour disagree with the expected topology (R378). -/
def State.nbrWrong (s : State) (p : Nat) : Bool :=
  match alFind s.link.expect p with
  | some e => !(s.portUp p && s.fget F.portNbr_MODULE p = bitsOf e 0 16 && s.fget F.portNbr_PORT p = bitsOf e 16 4 &&
      s.fget F.portNbr_TOPO_ID p = s.link.topoId % 0x10000000)
  | none => s.portUp p

/-- Does a port disagree (R378): its neighbour, or a lane substitution that nothing records. -/
def State.portWrong (s : State) (p : Nat) : Bool :=
  s.nbrWrong p || !s.oncLaneKnown p (s.fget F.portStat_TX_SUB p) || !s.oncLaneKnown p (16 + s.fget F.portStat_RX_SUB p)

/-- Is a core's substitution in the seed image's spare map or recorded in the Almanac (R475). -/
def State.coreSubstKnown (s : State) (x : Nat × Nat) : Bool :=
  (match s.seed.image with | some i => i.spares.contains x | none => false) || s.almSubst [1, x.2, x.1]

/-- DETAIL of TOPO_MISMATCH: ports, Headland links, capacity, a substitution of a core that nothing records. -/
def State.readyDetail (s : State) (present : Bool) : Nat :=
  ((List.range 12).map fun p => one (s.portWrong p) * 2 ^ p).sum +
  ((List.range 4).map fun p => one (s.flag F.hlStat_UNREPAIRED p || !s.hlLanesKnown p) * 2 ^ (12 + p)).sum + one (!present) * 65536 +
  one (s.spare.any fun x => !s.coreSubstKnown x) * 131072

/-- STEP_READY (R475). `present`: every active unit of Table 1-1 is there. -/
def execStepReady (present : Bool) (s : State) : Outcome State Fault Refusal :=
  if !s.stepAccepted 10 then .next s.stepRefused
  else
    let d := s.readyDetail present
    let s := s.stepBegin 10 1000000
    .next (if d = 0 then s else s.stepFails 0x80 d)

/-! ## How steps end -/

/-- Has the step that runs nothing left to wait for: the work items of STEP_FETCH, the ports of STEP_LINK, and the records of the substitutions it
made, which are written before it ends DONE (R474). -/
def State.stepWorkDone (s : State) : Bool :=
  let recorded := !s.alm.queue.any fun r => r.kind = 3
  match s.fget F.bringStatus_STEP 0 with
  | 3 | 4 | 6 => recorded
  | 7 => recorded && (s.bootEnd.filter fun x => x.2 = 0).length = 27648
  | 8 => (List.range 12).all fun p => !s.flag F.portCtl_ENABLE p || s.portUp p || (s.portState p = 0 && s.flag F.portStat_TRAIN_FAIL p)
  | _ => true

/-- A step ends DONE; recovery after STEP_SEED (R470); the module is ready after STEP_READY (R475), and ports that sent FAULT_IDLE with
reason TOPOLOGY train again. -/
def State.stepEndDone (s : State) : State :=
  let step := s.fget F.bringStatus_STEP 0
  if step = 2 && s.seed.booted = 2 then s.fset F.bringStatus_STATE 0 4
  else if step = 10 then
    let s := s.fset F.bringStatus_STATE 0 3
    let s := (List.range 12).foldl (fun (s : State) p =>
      if s.portState p = 5 && (s.port p).cause = 6 then (s.onPort p fun x => { x with cause := 0 }).startPort p else s) s
    let s := s.event 1 [s.seed.booted, s.fget F.seedVer_VERSION 0, s.fget F.intStatus_SPARES_FREE 0, s.fget F.plStat_LEVEL 0]
    s.seedRegs.refreshHif
  else
    let s := if step = 5 then s.onPower fun p => { p with recal := some (s.time.elapsed + 1000000) } else s
    s.fset F.bringStatus_STATE 0 1

/-- The step that runs finishes its work and ends DONE, or FAILED with its code (R462, R478). -/
def execBringStepDone (s : State) : Outcome State Fault Refusal :=
  match s.rst.job with
  | none => .next s
  | some j =>
    if j.code = 0 then if s.stepWorkDone then .next (s.stepTimed j).stepEndDone else .next s
    else
      let wrong := (List.range 12).filter fun p => s.portUp p && s.nbrWrong p
      let s := (s.stepTimed j).stepEndFailed j.code j.detail
      .next (if j.code = 0x80 then wrong.foldl (fun (s : State) p => s.faultIdleTx p 6) s else s)

/-- The step that runs exceeds its bound: FAILED with STEP_TIMEOUT, DETAIL the bound in µs (R462). STEP_LINK ends as R474 gives. -/
def execBringStepTimeout (s : State) : Outcome State Fault Refusal :=
  match s.rst.job with
  | none => .next s
  | some j =>
    if s.fget F.bringStatus_STEP 0 = 8 || s.time.elapsed < j.since + j.bound then .next s
    else .next ((s.stepTimed j).stepEndFailed 0xF0 (j.bound / 1000))

/-- 300 ms after it began STEP_LINK ends, ports still training or in HELLO going on (R474). -/
def execStepLinkLimit (s : State) : Outcome State Fault Refusal :=
  match s.rst.job with
  | none => .next s
  | some j =>
    if s.fget F.bringStatus_STEP 0 ≠ 8 || s.time.elapsed < j.since + j.bound then .next s else .next (s.stepTimed j).stepEndDone

end Sys2Proof.Machine
end

