-- ==== Sys2Proof/Machine/Update.lean ====
section
/-!
DEFINITION. Update.lean: field updates over PLDM and the confirmation of a trial slot (R494 to R499, Table 15-5). PLDM answers are
message type 1 with a completion code of DSP0240 or DSP0267.
-/
namespace Sys2Proof.Machine

open Host (Outcome)

/-- Answer a PLDM request. -/
def State.pldm (s : State) (code : Nat) (data : List Byte) : State := s.emit (.mgmt 1 code data)

/-- The slot that is neither ACTIVE nor TRIAL, while no slot is on trial. -/
def Journal.target (j : Journal) : Nat := if j.active = 0 then 1 else 0

/-- An UPDATE event and its Almanac record: stage (1 download to 4 confirmation), slot, VERSION, outcome (Tables 15-7, 17-7). -/
def State.updNote (s : State) (stage slot ver outcome : Nat) : State := (s.event 0xE [stage, slot, ver, outcome]).almanac 0xA [stage, slot, ver, outcome]

/-- Change the seed state. -/
def State.onSeed (s : State) (f : SeedSt → SeedSt) : State := { s with seed := f s.seed }

/-- The target slot is marked LOADING, and holds no version (Tables 15-4, 15-5). -/
def State.markLoading (s : State) (slot : Nat) : State :=
  let j := s.seed.journal
  if j.slot slot = 1 then s
  else
    let j := j.setSlot slot 1
    s.journalWrite (if slot = 0 then { j with verA := 0 } else { j with verB := 0 })

/-- RequestUpdate (R495, R497) enters the download stage, whose journal entry marks the target slot LOADING (R494, Table 15-5): refused as not ready while a slot is on trial, another update is in progress, or in RECOVERY with
neither slot VERIFIED or EMPTY. -/
def execRequestUpdate (s : State) : Outcome State Fault Refusal :=
  let j := s.seed.journal
  let free (x : Nat) : Bool := x = 3 || x = 0
  if j.trial ≤ 1 || s.seed.stage ≠ 0 || (s.bringState = 4 && !free j.stateA && !free j.stateB) then .next (s.pldm 4 [])
  else .next ((((s.markLoading j.target).onSeed fun x => { x with stage := 1, upd := some { slot := j.target, size := none } }).seedRegs).pldm 0 [])

/-- UpdateComponent names the seed image and its size: the target slot, marked LOADING, is erased. -/
def execUpdateComponent (size : Nat) (s : State) : Outcome State Fault Refusal :=
  match s.seed.upd with
  | none => .next (s.pldm 0x80 [])
  | some u =>
    if u.size.isSome then .next (s.pldm 0x84 [])
    else if size = 0 || 40 * 1048576 < size then .next (s.pldm 0x82 [])
    else
      let s := s.markLoading u.slot
      .next ((s.onSeed fun x => { x with upd := some { u with size := some size }, slots := alDel x.slots u.slot, sec := alDel x.sec u.slot }).pldm 0 [])

/-- Data arrive in order and are programmed into the slot; with the last of them the download is complete and verification begins. -/
def execFirmwareData (data : List Byte) (s : State) : Outcome State Fault Refusal :=
  match s.seed.upd with
  | none => .next s
  | some u =>
    match u.size with
    | none => .next s
    | some n =>
      let have_ := (alFind s.seed.slots u.slot).getD []
      let all := (have_ ++ data).take n
      let s := s.onSeed fun x => { x with slots := alPut x.slots u.slot all }
      if all.length < n then .next s
      else
        let s := s.onSeed fun x => { x with stage := 2, upd := none }
        .next ((s.journalWrite (s.seed.journal.setSlot u.slot 2)).updNote 1 u.slot 0 0)

/-- Verification of the whole slot ends (R490, R495). `read`: what reading it gives; `only`: the one device it verifies on. -/
def execSlotVerifyDone (read : SlotRead) (only : Option (Fin 2)) (s : State) : Outcome State Fault Refusal :=
  if s.seed.stage ≠ 2 then .next s
  else
    let j := s.seed.journal
    let t := j.target
    let r := s.imageReason read false
    if r = 0 then
      let v := read.image.version
      let j := j.setSlot t 3
      let s := s.onSeed fun x => { x with stage := 3, sec := alPut x.sec t read.image.secVersion }
      let s := s.journalWrite (if t = 0 then { j with verA := v } else { j with verB := v })
      let s := match only with | some d => s.deviceFallow (1 - d.val) | none => s
      .next ((s.updNote 2 t v 0).pldm 0 [])
    else
      let s := s.onSeed fun x => { x with stage := 0 }
      .next (((s.journalWrite (j.setSlot t 4)).updNote 2 t 0 r).pldm r [])

/-- ActivateFirmware (R496): only for a VERIFIED slot whose SEC_VERSION is at least SEC_FLOOR; the slot goes on trial at the next
cold or warm reset. -/
def execActivateFirmware (s : State) : Outcome State Fault Refusal :=
  let j := s.seed.journal
  let t := j.target
  let v := if t = 0 then j.verA else j.verB
  if j.trial ≤ 1 || j.slot t ≠ 3 || alGet 0 s.seed.sec t < j.floor then .next (s.pldm 0x84 [])
  else
    let s := s.onSeed fun x => { x with stage := 4 }
    .next (((s.journalWrite { j with trial := t, trials := 0 }).updNote 3 t v 0).pldm 0 [1])

/-- The key of SEED_CTL (R499). -/
def seedKey : Nat := 0x5EEC

/-- A write to SEED_CTL (R499, Table 15-9): CONFIRM with the key confirms the trial slot when the module is READY and runs it; any other
write of CONFIRM sets CONF_ERR. -/
def execSeedConfirm (val : W32) (s : State) : Outcome State Fault Refusal :=
  let w := val.toNat
  let key := bitsOf w 16 16 = seedKey
  let s := if key && bitAt w 1 then s.fset F.seedCtl_CONF_ERR 0 0 else s
  let j := s.seed.journal
  if !bitAt w 0 then .next s
  else if !key || !s.isReady || s.rst.emergency || !(j.trial ≤ 1 && s.seed.booted = j.trial) then .next (s.fset F.seedCtl_CONF_ERR 0 1)
  else
    let sec := s.fget F.seedVer_SEC_VERSION 0
    let s := s.onSeed fun x => { x with stage := 0 }
    let s := (s.journalWrite { j with active := j.trial, trial := 0xFF, trials := 0, floor := sec }).updNote 4 j.trial (s.fget F.seedVer_VERSION 0) 0
    match s.seed.image.bind Image.keys with
    | some ks => .next ((s.onSeed fun x => { x with keys := ks }).almanac 0xF1 (ks.map leNat))
    | none => .next s

end Sys2Proof.Machine
end

