-- ==== Sys2Proof/Machine/Vault.lean ====
section
/-!
DEFINITION. Vault.lean: the vault interface's turns (R90, R210) and the misdelivery queue (R268 to R273).
-/
namespace Sys2Proof.Machine

open Host (Outcome)

/-- Vault offset of a message's first byte, or of the burst it combines into. -/
def Msg.off (m : Msg) : Nat := if m.comb.isEmpty then (m.data.headD (0, 0, false)).1 else m.lo % 0x800000

/-- The bank of a vault a message's bytes lie in. -/
def Msg.bank (m : Msg) : Nat := m.off / 0x40000

/-- Keep MDQ DEPTH (R273). -/
def State.mdqCount (s : State) : State := s.fset F.mdqDepth_DEPTH 0 s.mdq.length

/-- A message is performed or logged (R272): its moves go on, and the module it comes from is answered. -/
def State.msgDone (s : State) (m : Msg) : State :=
  let s := m.moves.foldl (fun s i => s.onMove i fun x => { x with msgs := x.msgs - 1 }) s
  let s := m.comb.foldl (fun s x => s.replyContrib x.con) s
  match m.reply with
  | some (goes, id, txn) =>
    s.route { type := 6, cls := 2, level := 0, hops := 63, op := 0, dst := goes, src := s.selfId, addr := 0, etype := 0, srcId := id, txn := txn,
              bytes := 0, poison := 0, payload := [] }
  | none => s

/-- Perform a message at the vault interface of core n: write its bytes, or read its burst, combine, and write it back in the same turn (R263),
which takes one slot for the read and one for the write. -/
def State.performMsg (s : State) (n : Nat) (m : Msg) : State :=
  if m.comb.isEmpty then
    let cells := m.data.map fun d => (vaultBase n + d.1, d.2)
    let k := s.wrSlots cells
    ((s.wrCells cells).noteCells m.ring m.step cells).coreCount n 5 k
  else
    let (cells, sats, ch) := s.combCells n m
    (((s.wrCells cells).combined sats ch m.comb (cells.map fun c => (m.lo / 0x800000 * 0x800000 + c.1 % 0x800000, c.2))).coreCount n 4 1).coreCount n 5 1

/-- Serve a message at the vault interface of its core: perform it, or bounce it on another epoch (R270). A bounce that
finds the queue of 7,168 entries full waits. -/
def State.serveMsg (s : State) (n : Nat) (m : Msg) (pop : Core → Core) (turn : Nat) : State :=
  let c := s.core n
  if m.stamp.epoch = c.epoch then
    ((s.setCore n { pop c with rot := turn }).performMsg n m).msgDone m
  else if s.mdq.length < 7168 then
    let s := s.setCore n { pop c with rot := turn }
    let s := (s.fadd F.mdqBounced_BOUNCED 0 1).coreCount n 24 1
    ({ s with mdq := s.mdq ++ [({ msg := m, since := s.time.elapsed, seen := none } : Bounced)] } : State).mdqCount
  else s

/-- The next burst of rotation requester `t` (R90): a waiting write of the mesh or the Granary, else its first pending read. -/
inductive Burst where
  | write (m : Msg)
  | read (r : VaultRead)

def Core.nextBurst (c : Core) (reads : List VaultRead) (t : Nat) : Option Burst :=
  match (if t = 3 then c.vqMesh.head? else if t = 4 then c.vqGran.head? else none) with
  | some m => some (.write m)
  | none => (reads.find? fun r => r.by_.val = t).map .read

/-- The bank a burst lies in. -/
def Burst.bank : Burst → Nat
  | .write m => m.bank
  | .read r => r.off.toNat / 0x40000

/-- The requester whose turn it is, with its burst: the first after the one served last whose bank can take it (R90). -/
def Core.turn (c : Core) (busy : BitVec 32) (reads : List VaultRead) : Option (Nat × Burst) :=
  ((List.range 6).map fun i => (c.rot + 1 + i) % 6).findSome? fun t =>
    match c.nextBurst reads t with
    | some b => if busy.getLsbD b.bank then none else some (t, b)
    | none => none

/-- Banks of a vault whose bursts wait for a substitution: that of a row, which it copies, or those of a layer slice (Table 13-5). -/
def State.retBanks (s : State) (n : Nat) : BitVec 32 :=
  BitVec.ofNat 32 (((List.range 32).map fun b => one (s.retHeld n b) * 2 ^ b).sum)

/-- The vault interface serves its next burst (R90). `busy`: banks that cannot take a burst now (row cycle, refresh, a scrub under R447);
`records`: bursts of huller records that are pending, which are served first and take no turn of the rotation; `reads`: the reads that are
pending, each of a rotation requester, with what the code finds in the word it reads. The bytes of a read are part of its command; here it takes
its turn (log 44). -/
def execVaultBurst (core : CoreId) (busy : BitVec 32) (records : Nat) (reads : List VaultRead) (s : State) : Outcome State Fault Refusal :=
  let c := s.core core
  if 0 < records then .next s
  else match c.turn (busy ||| s.retBanks core) reads with
    | some (t, .write m) => .next (s.serveMsg core m (fun c => if t = 3 then { c with vqMesh := c.vqMesh.drop 1 } else { c with vqGran := c.vqGran.drop 1 }) t)
    | some (t, .read r) => .next ((s.setCore core { c with rot := t }).eccRead (vaultBase core + r.off.toNat) r.ecc core (s.itemPart core))
    | none => .next s

/-- Take an entry out of the misdelivery queue. -/
def State.mdqTake (s : State) (i : Nat) : State := { s with mdq := s.mdq.eraseIdx i }.mdqCount

/-- The active core of a partition whose current work item has a stamped ROLE and RANK (R271). -/
def State.roleHolder (s : State) (t : Stamp) : Option Nat :=
  (s.cores.find? fun x => s.partOfCore x.1 = some t.part && (match x.2.wi with
    | some w => w.role = t.role && x.1 - w.firstCore = t.rank
    | none => false)).map Prod.fst

/-- HOLD_US in force, in ns (Table 8-10). -/
def State.holdNs (s : State) : Nat :=
  let h := s.fget F.mdqHold_HOLD_US 0
  (if 100 ≤ h ∧ h ≤ 10000 then h else 1000) * 1000

/-- Epochs of a partition's cores. -/
def State.epochsOf (s : State) (p : Nat) : List (Nat × Nat) :=
  (s.cores.filter fun x => s.partOfCore x.1 = some p).map fun x => (x.1, x.2.epoch)

/-- The queue looks for the core that holds the stamped role and rank: at the bounce, and each time an epoch of the partition has changed, until
HOLD_US has elapsed. To the core it finds it sends the message again, with that core's epoch, at the same vault offset (R271). -/
def execMisdeliveryResend (idx : Nat) (s : State) : Outcome State Fault Refusal :=
  match s.mdq[idx]? with
  | none => .next s
  | some b =>
    let now := s.epochsOf b.msg.stamp.part
    if b.since + s.holdNs ≤ s.time.elapsed || b.seen = some now then .next s else
    match s.roleHolder b.msg.stamp with
    | none => .next { s with mdq := s.mdq.set idx { b with seen := some now } }
    | some n =>
      let m := { b.msg with core := n, stamp := { b.msg.stamp with epoch := (s.core n).epoch } }
      .next (((s.mdqTake idx).fadd F.mdqResent_RESENT 0 1).sendMsg m false)

/-- The steps a message is of: its own, or those of what it combines. -/
def Msg.steps (m : Msg) : List (Option Nat × Nat) :=
  if m.comb.isEmpty then [(m.ring, m.step)] else (m.comb.map fun x => (x.con.ring, x.con.step)).eraseDups

/-- HOLD_US has elapsed since the bounce: the message is logged, and its step has a confirmed fault MISDELIVERED (R271). A
message of no step is recorded with outcome LOGGED. -/
def execMisdeliveryHoldExpire (idx : Nat) (s : State) : Outcome State Fault Refusal :=
  match s.mdq[idx]? with
  | none => .next s
  | some b =>
    if s.time.elapsed < b.since + s.holdNs then .next s else
    let s := ((s.mdqTake idx).fadd F.mdqLogged_LOGGED 0 1).msgDone b.msg
    let f := { (FaultRec.blank 0xA).atCore b.msg.core with
               part := b.msg.stamp.part, tag := b.msg.stamp.epoch,
               row := b.msg.stamp.role, col := b.msg.stamp.rank, addr := s.glob (vaultBase b.msg.core + b.msg.off) }
    .next (b.msg.steps.foldl (fun (s : State) x => match x.1 with
      | some r => s.confirm { f with ring := r, step := x.2 }
      | none => s.faultRecord { f with outcome := 7, step := x.2 }) s)

end Sys2Proof.Machine
end

