-- ==== Sys2Proof/Machine/AccessOps.lean ====
section
/-!
DEFINITION. AccessOps.lean: what a read or a write of a register does, whoever makes it (R8 to R10, R49, R510, R552, R589, R600): a write to a
register with a behaviour of its own is that behaviour's command.
-/
namespace Sys2Proof.Machine

open Host (Outcome)

/-! ## The register region (Table 18-8) -/

/-- The block an offset lies in: 0 to 12 the blocks of 64 KiB, 13 observation, 14 shadow values, 15 shadow tags. -/
def blockOf (off : Nat) : Option Nat :=
  if off < 0xD0000 then some (off / 0x10000)
  else if 0x2000000 ≤ off ∧ off < 0x3D80000 then some 13
  else if 0x8000000 ≤ off ∧ off < 0xC000000 then some 14
  else if 0xC000000 ≤ off ∧ off < 0x10000000 then some 15
  else none

/-- Offset of the register whose shadow or tag lies at `off`; other offsets stand for themselves. -/
def shadowed (off : Nat) : Nat := if 0xC000000 ≤ off then off - 0xC000000 else if 0x8000000 ≤ off then off - 0x8000000 else off

/-! ## Reading -/

/-- µs of the step that runs, or of the last one (Table 14-8). -/
def State.stepTimeUs (s : State) : Nat :=
  match s.rst.job with
  | some j => (s.time.elapsed - j.since) / 1000
  | none => s.fget F.stepTime_ELAPSED_US 0

/-- The value a read of a register returns. -/
def State.regValue (s : State) (r : RegDef) (i : Nat) : Nat :=
  if r.base = R.timeNs.base then s.timeNs
  else if r.base = R.timeS.base then s.timeS % 2 ^ 48
  else if r.base = R.timeStat.base then one s.time.undisc * 2 ^ 31 + s.time.state
  else if r.base = R.timeUnc.base then s.timeUnc
  else if r.base = R.hifStatus.base then
    s.regWord r i + s.host.speed * 2 ^ 24 + one s.host.flit * 2 ^ 23 + one s.host.cxl * 2 ^ 22 + one s.host.widthErr * 2 ^ 21
  else if r.base = R.hifId.base then (match s.partNo with | .a64 => 64 * 256 + 1 | .a128 => 128 * 256 + 2)
  else if r.base = R.mdqDepth.base then s.mdq.length
  else if r.base = R.stepTime.base then s.stepTimeUs
  else if r.base = R.dbgData.base then s.dbgRead
  else if r.base = R.routeData.base then s.routeEntry (s.fget F.routeIdx_SET 0) (s.fget F.routeIdx_DEST 0)
  else if r.base = R.dbgStat.base then
    one (match s.obs.dbg with | some f => (s.field f).halted | none => false) * 2 ^ 31 + s.fget F.dbgStat_DENIED 0 * 2 ^ 30 +
      (s.fields.filter fun x => x.2.halted).length
  else s.regWord r i

/-- A byte of the windows that are no registers: STRM_READ, LAST_FAULT, WFG_DATA. Staging windows are write-only. -/
def State.windowByte (s : State) (off : Nat) : Byte :=
  let p := (off - 0x40000) / 0x200
  let q := (off - 0x81000) / 0x80
  if 0x40000 ≤ off ∧ off < 0x44000 ∧ 0xC0 ≤ off % 0x200 ∧ off % 0x200 < 0x100 then (alGet [] s.strmRead p).getD (off % 0x200 - 0xC0) 0
  else if 0x81000 ≤ off ∧ off < 0x82000 ∧ 0x40 ≤ off % 0x80 then
    (match alFind s.lastFault q with | some f => f.bytes.getD (off % 0x80 - 0x40) 0 | none => 0)
  else if 0x20000C8 ≤ off ∧ off < 0x20000E8 then s.wfgEntry.getD (off - 0x20000C8) 0
  else 0

/-- The shadow value or tag word of the counter a shadow offset stands for; zero where no counter lies (R570). -/
def State.shadowWord (s : State) (off : Nat) : Nat :=
  match findReg (shadowed off) regTable with
  | none => 0
  | some (r, i, _) =>
    match r.fields with
    | [f] =>
      if !isCounter f then 0
      else if off < 0xC000000 then alGet 0 s.obs.shadow (f.key i)
      else if s.obs.tag = 0 then 0
      else s.obs.tag - (if unitOff s.obs.bad (unitOfKey (f.key i)) then 2 ^ 63 else 0)
    | _ => 0

/-- The byte at an offset of the register region. -/
def State.regByte (s : State) (off : Nat) : Byte :=
  if 0x8000000 ≤ off then BitVec.ofNat 8 (s.shadowWord (off / 8 * 8) / 256 ^ (off % 8))
  else match findReg off regTable with
    | some (r, i, b) => BitVec.ofNat 8 (s.regValue r i / 256 ^ b)
    | none => s.windowByte off

/-- `n` bytes of the register region. -/
def State.regBytes (s : State) (off : Nat) : Nat → List Byte
  | 0 => []
  | n + 1 => s.regByte off :: s.regBytes (off + 1) n

/-- Is the word at an offset half of a 64-bit register, and which: the offset of the register. -/
def wideAt (off : Nat) : Option Nat :=
  if 0x8000000 ≤ off then some (off / 8 * 8)
  else match findReg off regTable with
    | some (r, _, b) => if r.width = 64 then some (off - b) else none
    | none => none

/-- A latch of a block and a source: what is latched, by the key of its register. -/
def State.latch (s : State) (block : Nat) (src : Src) : Option (Nat × Nat) :=
  (s.latches.find? fun x => x.1 = block && x.2.1 = src).map fun x => x.2.2

/-- Set or empty the latch of a block and a source. -/
def State.setLatch (s : State) (block : Nat) (src : Src) (v : Option (Nat × Nat)) : State :=
  let rest := s.latches.filter fun x => !(x.1 = block && x.2.1 = src)
  { s with latches := match v with | some y => rest ++ [(block, src, y)] | none => rest }

/-- The latch of log entries (R443) is apart from the block's. -/
def logLatch : Nat := 100

/-- Read 4 bytes by a source (R552): a read of the low half of a 64-bit register latches the high half; the following read of that half
returns it and empties the latch. TIME_NS latches TIME_S; the low half of a log entry latches the whole entry (R443). -/
def State.read4 (s : State) (src : Src) (off : Nat) : State × Nat :=
  let block := (blockOf off).getD 0
  let now := leNat (s.regBytes off 4)
  if 0x91000 ≤ off ∧ off < 0x91900 then
    let ent := off / 16 * 16
    if off % 16 = 0 then (s.setLatch logLatch src (some (ent, leNat (s.regBytes ent 16))), now)
    else match s.latch logLatch src with
      | some (e, v) => if e = ent then (s, v / 256 ^ (off % 16) % 2 ^ 32) else (s, now)
      | none => (s, now)
  else if off = R.timeNs.base then (s.setLatch block src (some (R.timeS.base + 1, s.timeS % 2 ^ 48)), now)
  else match wideAt off with
    | none => (s, now)
    | some reg =>
      let got := s.latch block src
      if off = reg then
        let full := match got with | some (k, v) => if k = reg + 1 then v else leNat (s.regBytes reg 8) | none => leNat (s.regBytes reg 8)
        (s.setLatch block src (some (reg, full / 2 ^ 32)), full % 2 ^ 32)
      else match got with
        | some (k, v) =>
          if k = reg then (s.setLatch block src none, v) else if k = reg + 1 then (s.setLatch block src none, v / 2 ^ 32) else (s, now)
        | none => (s, now)

/-- Side effects of a read beyond the latch: ROUTE_DATA advances DEST, the last word of WFG_DATA advances WFG_IDX (R384, R582). -/
def State.readEffect (s : State) (off size : Nat) : State :=
  let s := if off = R.routeData.base then s.fset F.routeIdx_DEST 0 ((s.fget F.routeIdx_DEST 0 + 1) % 65536) else s
  if (off = 0x20000E4 ∧ size = 4) ∨ (off = 0x20000E0 ∧ size = 8) then s.fadd F.wfgIdx_INDEX 0 1 else s

/-- Read 4 or 8 bytes, aligned, by a source. Eight bytes of one 64-bit register are one value; of two 32-bit registers they are two
accesses, the lower first (R589). TIME_S read whole takes what a read of TIME_NS latched. -/
def State.regRead (s : State) (src : Src) (off size : Nat) : State × Nat :=
  if size = 4 then
    let (s', v) := s.read4 src off
    (s'.readEffect off 4, v)
  else
    match wideAt off with
    | some reg =>
      let block := (blockOf off).getD 0
      match s.latch block src with
      | some (k, v) => if k = reg + 1 then (s.setLatch block src none, v) else (s, leNat (s.regBytes off 8))
      | none => (s, leNat (s.regBytes off 8))
    | none =>
      if 0x20000C8 ≤ off ∧ off < 0x20000E8 then (s.readEffect off 8, leNat (s.regBytes off 8))
      else
        let (s1, lo) := s.read4 src off
        let s1 := s1.readEffect off 4
        let (s2, hi) := s1.read4 src (off + 4)
        (s2.readEffect (off + 4) 4, lo + hi * 2 ^ 32)

/-! ## Writing -/

/-- The state a meaning answers. -/
def State.after (s : State) (o : Outcome State Fault Refusal) : State := match o with | .next t => t | _ => s

/-- A write of BRING_CTL.STEP: the step's command, with what the hardware then holds. -/
def State.writeBring (s : State) (code : Nat) : State :=
  let t := s.time.elapsed
  let (ans, stale, a, b, r) := Config.flashReads t
  let (rail, lanes, hl) := Config.powerUp t
  let (ss, cal) := Config.vaultUp t
  match code with
  | 2 => s.after (execStepSeed ans stale a b r s)
  | 3 => s.after (execStepRepair (Config.repairBad t) s)
  | 4 => s.after (execStepPower rail lanes hl s)
  | 5 => s.after (execStepVault ss cal s)
  | 6 => s.after (execStepField (Config.slowCores t) s)
  | 7 => s.after (execStepFetch s)
  | 8 => s.after (execStepLink s)
  | 9 => s.after (execStepTopo s)
  | 10 => s.after (execStepReady (Config.unitsPresent t) s)
  | _ => s.stepRefused

/-- A write to RING_CTL (Table 5-4): W1C bits; RESET alone when both are written. -/
def State.writeRingCtl (s : State) (r : RingId) (w : Nat) : State :=
  let s := (s.writeField F.ringCtl_BASE_ERR r w).writeField F.ringCtl_DB_ERR r w
  if bitAt w 1 then s.after (execRingReset r s) else if bitAt w 0 then s.after (execRingResume r s) else s

/-- A write to PORT_CTL (Table 11-15). -/
def State.writePortCtl (s : State) (p : PortId) (w : Nat) : State :=
  let on := bitAt w 0
  let s := if on = s.flag F.portCtl_ENABLE p then s
    else if on then s.after (execPortEnable p s) else (s.fset F.portCtl_ENABLE p 0).setPortState p 0
  let s := if bitAt w 2 = s.flag F.portCtl_FORCE_FI p then s else s.after (execPortForceFi p (bitAt w 2) s)
  if bitAt w 1 then s.after (execPortRetrain p s) else s

/-- A write to SLEEP_CTL (Table 16-9). -/
def State.writeSleepCtl (s : State) (w : Nat) : State :=
  let s := (s.writeField F.sleepCtl_LOST 0 w).fset F.sleepCtl_WAIT_MS 0 (bitsOf w 16 8)
  s.sleepTarget (bitsOf w 0 2)

/-- A write to PTP_CFG: with ENABLE 0 the time state is FREERUN (Table 17-8). -/
def State.writePtpCfg (s : State) (w : Nat) : State :=
  let s := s.writeReg R.ptpCfg 0 w
  if bitAt w 8 then s
  else ({ s with time := { s.time with slew := 0 } }.onPtp fun p => { p with master := none, waiting := none, foreign := [] }).toTime 0 0

/-- A write to RET_CMD by SCOPE. -/
def State.writeRetCmd (s : State) (v : W32) : State :=
  match bitsOf v.toNat 30 2 with
  | 1 => s.after (execRetirePage v s)
  | 2 => s.after (execRetireBank v s)
  | 3 => s.after (execRetireBin v s)
  | _ => s

/-- Writes to the registers of rings, descriptors, residency and partitions: none where the register has no behaviour of its own. `w`: the
whole register as written; `i`: its copy. -/
def State.writeWork (s : State) (r : RegDef) (i w : Nat) : Option State :=
  let w32 : W32 := BitVec.ofNat 32 w
  let w64 : W64 := BitVec.ofNat 64 w
  let ring : RingId := Fin.ofNat 128 i
  let part : PartId := Fin.ofNat 32 i
  if r.base = R.ringBase.base then s.after (execRingBaseWrite ring false w64 s)
  else if r.base = R.cplBase.base then s.after (execRingBaseWrite ring true w64 s)
  else if r.base = R.ringCfg.base then s.after (execRingCfgWrite ring w32 s)
  else if r.base = R.ringDb.base then s.doorbell ring w32
  else if r.base = R.cplHead.base then s.after (execCplHeadWrite ring w32 s)
  else if r.base = R.ringCtl.base then s.writeRingCtl ring w
  else if r.base = R.descTable.base then s.after (execDescTableWrite part w64 s)
  else if r.base = R.descDet.base then s.after (execDescDetWrite part w64 s)
  else if r.base = R.descCmd.base then
    (match w % 4 with
     | 1 => s.after (execDescCreate part (BitVec.ofNat 16 (w / 65536)) s)
     | 2 => s.after (execDescInvalidate part (BitVec.ofNat 16 (w / 65536)) s)
     | _ => if s.flag F.descStatus_BUSY part then s.descRefused part else s)
  else if r.base = R.strmCmd.base then
    (match w / 2 ^ 29 with
     | 1 => s.after (execStrmOpen part (BitVec.ofNat 21 w) s)
     | 2 => s.after (execStrmClose part (BitVec.ofNat 21 w) s)
     | 3 => s.after (execStrmRead part (BitVec.ofNat 21 w) s)
     | _ => s)
  else if r.base = R.mdlCmd.base then
    (match w / 2 ^ 29 with
     | 1 => s.after (execMdlInstall part (BitVec.ofNat 12 w) s)
     | 2 => s.after (execMdlEvict part (BitVec.ofNat 12 w) s)
     | 3 => s.after (execMdlQuery part (BitVec.ofNat 12 w) s)
     | _ => s)
  else if r.base = R.rshCmd.base then
    (match w / 2 ^ 30 with
     | 1 => s.after (execRshStart part s)
     | 2 => s.after (execRshAbort part s)
     | _ => s)
  else if r.base = R.rshJob.base then (if s.flag F.rshStatus_RUNNING i then some s else none)
  else if r.base = R.cwin.base then s.after (execCwinWrite (Fin.ofNat 32 (i / 16)) (Fin.ofNat 16 i) w64 s)
  else if r.base = R.partCmd.base then
    (match w / 2 ^ 30 with
     | 1 => s.after (execPartCreate (Fin.ofNat 32 w) s)
     | 2 => s.after (execPartDestroy (Fin.ofNat 32 w) s)
     | _ => s)
  else if r.base = R.allocCmd.base then
    (match w / 2 ^ 30 with
     | 1 => s.after (execAllocCreate part s)
     | 2 => s.after (execAllocRelease part s)
     | _ => s)
  else none

/-- Writes to the other registers that have a behaviour of their own. -/
def State.writeModule (s : State) (src : Src) (r : RegDef) (i w : Nat) : Option State :=
  let w32 : W32 := BitVec.ofNat 32 w
  if r.base = R.stallCtl.base then s.after (execStallCtlWrite w32 s)
  else if r.base = R.hulPlotLimit.base then s.after (execHulPlotLimitWrite (Fin.ofNat 4 i) w32 s)
  else if r.base = R.grnBinCfg.base then (s.writeField F.grnBinCfg_ERR i w).binCfg i (w % 4) (bitsOf w 8 5)
  else if r.base = R.routeCtl.base then
    (let s := s.writeField F.routeCtl_SW_ERR 0 w
     if bitAt w 1 then s.after (execRouteSwitch s) else s)
  else if r.base = R.routeData.base then s.after (execRouteDataAccess src (some w32) s)
  else if r.base = R.sweepCtl.base then (if bitAt w 0 then s.after (execSweepStart s) else s)
  else if r.base = R.portCtl.base then s.writePortCtl (Fin.ofNat 12 i) w
  else if r.base = R.retCmd.base then s.writeRetCmd w32
  else if r.base = R.logClr.base then s.after (execLogClr w32 s)
  else if r.base = R.bringCtl.base then s.writeBring (w % 16)
  else if r.base = R.rstCtl.base then
    (if bitAt w 1 then s.after (execRstCtlCold (BitVec.ofNat 16 (w / 65536)) s)
     else if bitAt w 0 then s.after (execRstCtlWarm (BitVec.ofNat 16 (w / 65536)) s) else s)
  else if r.base = R.blkRst.base then
    (let t : BitVec 24 := BitVec.ofNat 24 w
     match w / 2 ^ 24 with
     | 1 => s.after (execBlkRstField t s)
     | 2 => s.after (execBlkRstOncon t s)
     | 3 => s.after (execBlkRstHost t s)
     | 4 => s.after (execBlkRstSeedstore t s)
     | 5 => s.after (execBlkRstReshard t s)
     | k => s.blkStart k false 0)
  else if r.base = R.seedCtl.base then s.after (execSeedConfirm w32 s)
  else if r.base = R.plCtl.base then s.after (execPowerControlWrite false w32 s)
  else if r.base = R.pwrCap.base then s.after (execPowerControlWrite true w32 s)
  else if r.base = R.coolIn.base then s.after (execCoolInWrite w32 s)
  else if r.base = R.sleepCtl.base then s.writeSleepCtl w
  else if r.base = R.ptpCfg.base then s.writePtpCfg w
  else if r.base = R.timeSetCtl.base then s.after (execTimeSet w32 s)
  else if r.base = R.gleanCtl.base then s.after (execGleanGo w32 s)
  else if r.base = R.traceCtl.base then s.after (execTraceCtlWrite w32 s)
  else if r.base = R.traceBuf.base ∨ r.base = R.traceFilt.base then (if s.flag F.traceCtl_ENABLE 0 then some s else none)
  else if r.base = R.wfgCtl.base then s.after (execWfgGo w32 s)
  else if r.base = R.dbgCtl.base then
    (let key : BitVec 16 := BitVec.ofNat 16 (w / 65536)
     let plot : PlotId := Fin.ofNat 4 (w / 512)
     if bitAt w 15 then s.after (execDebugHalt key plot (w % 512) s) else s.after (execDebugResume key plot (w % 512) s))
  else if r.base = R.dbgData.base then s.after (execDbgDataWrite (BitVec.ofNat 64 w) s)
  else if r.base = R.tlmCfg.base then s.after (execTlmCfgWrite (Fin.ofNat 16 i) w32 s)
  else none

/-- Bytes written into a staging window: DESC_STAGE, STRM_STAGE, MDL_STAGE. -/
def State.writeStage (s : State) (off n v : Nat) : State :=
  let key (o : Nat) : Option Nat :=
    if 0x30000 ≤ o ∧ o < 0x32000 ∧ 0x80 ≤ o % 0x100 then some ((o - 0x30000) / 0x100 * 1024 + o % 0x100)
    else if 0x40000 ≤ o ∧ o < 0x44000 then
      (let x := o % 0x200
       let p := (o - 0x40000) / 0x200
       if 0x80 ≤ x ∧ x < 0xC0 then some (p * 1024 + 0x180 + (x - 0x80)) else if 0x100 ≤ x then some (p * 1024 + 0x200 + (x - 0x100)) else none)
    else none
  (List.range n).foldl (fun (s : State) k => match key (off + k) with
    | some a => { s with stage := alPut s.stage a (BitVec.ofNat 8 (v / 256 ^ k)) }
    | none => s) s

/-- What the half of a 64-bit register that a write does not reach is written with: its present value, W1C bits 0. -/
def State.otherHalf (s : State) (r : RegDef) (i : Nat) : Nat :=
  if r.base = R.dbgData.base then s.dbgRead
  else r.fields.foldl (fun a f => a + (if f.acc = .w1c then 0 else s.fget f i * 2 ^ f.lo)) 0

/-- Write 4 bytes, aligned (R589): a half of a 64-bit register keeps the other half, so a field across both keeps the bits of the other
(R8). -/
def State.write4 (s : State) (src : Src) (off v : Nat) : State :=
  match findReg off regTable with
  | some (r, i, b) =>
    let lo := b * 8
    let w := if r.width = 64 then (let old := s.otherHalf r i; old - bitsOf old lo 32 * 2 ^ lo + v * 2 ^ lo) else v
    match s.writeWork r i w with
    | some t => t
    | none => match s.writeModule src r i w with
      | some t => t
      | none => s.writeReg r i w
  | none => s.writeStage off 4 v

/-- Write 4 or 8 bytes, aligned (R589). -/
def State.regWrite (s : State) (src : Src) (off size v : Nat) : State :=
  if size = 4 then s.write4 src off (v % 2 ^ 32)
  else
    match findReg off regTable with
    | some (r, i, 0) =>
      if r.width = 64 then
        match s.writeWork r i v with
        | some t => t
        | none => match s.writeModule src r i v with
          | some t => t
          | none => s.writeReg r i v
      else (s.write4 src off (v % 2 ^ 32)).write4 src (off + 4) (v / 2 ^ 32)
    | _ => (s.write4 src off (v % 2 ^ 32)).write4 src (off + 4) (v / 2 ^ 32)

end Sys2Proof.Machine
end

