-- ==== Sys2Proof/Machine/Matrix.lean ====
section
/-!
DEFINITION. Matrix.lean: the matrix array: taking an MMA, loading its tile, one array step, verification (R74 to R84,
R110 to R118, R163, R404).
-/
namespace Sys2Proof.Machine

open Host (Outcome)

/-! ## Operands of an instruction -/

/-- Is the pairing an integer one, with INT32 outputs (R81, R114). -/
def MtxInst.int (i : MtxInst) : Bool := etInt i.fmtS && etInt i.fmtT

/-- Elements per depth step of OS (R79). -/
def MtxInst.d (i : MtxInst) : Nat := i.depth / 16

/-- The stationary element of row r, depth k, as the tile holds it, its scale applied (WS, IS): R100, R104, R118. -/
def MtxInst.stat (i : MtxInst) (r k : Nat) : Num :=
  let kb := i.depth / 32
  if i.fmtS = 0x18 then
    match scaleValue (i.tileSc.getD (r * 4 + k / 32) 0) with
    | .nan => .nan
    | sc => (rawValue 0x18 (elemRaw 0x18 (fun a => i.tile.getD a 0) (r * 128 + k))).mul sc
  else
    let v := rawValue i.fmtS (elemRaw i.fmtS (fun a => i.tile.getD (32 * r + a) 0) k)
    if etScaled i.fmtS then v.mul (scaleValue (i.tileSc.getD (r * kb + k / 32) 0)) else v

/-- The streamed element of vector v, position k (WS, IS), read from scratch. -/
def MtxInst.strm (i : MtxInst) (rd : Nat → Byte) (v k : Nat) : Num :=
  let x := rawValue i.fmtT (elemRaw i.fmtT (fun a => rd (i.tA + v * i.tStride + a)) k)
  if etScaled i.fmtT then x.mul (scaleValue (rd (i.scA + 64 + v * (i.depth / 32) + k / 32))) else x

/-- Element (r, j) of chunk a_v and (j, c) of chunk b_v (OS), read from scratch. -/
def MtxInst.elA (i : MtxInst) (rd : Nat → Byte) (v r j : Nat) : Num :=
  let x := rawValue i.fmtS (elemRaw i.fmtS (fun a => rd (i.tA + v * 32 + a)) (r * i.d + j))
  if etScaled i.fmtS then x.mul (scaleValue (rd (i.scA + (v * i.d + j) / 32 * 32 + r))) else x
def MtxInst.elB (i : MtxInst) (rd : Nat → Byte) (v j c : Nat) : Num :=
  let x := rawValue i.fmtT (elemRaw i.fmtT (fun a => rd (i.uA + v * 32 + a)) (j * 16 + c))
  if etScaled i.fmtT then x.mul (scaleValue (rd (i.scA + (v * i.d + j) / 32 * 32 + 16 + c))) else x

/-- A product of the array (R115, R118). -/
def MtxInst.prod (i : MtxInst) (w x : Num) : Num := elProd i.fmtS i.fmtT w x

/-! ## Checks (R82) -/

/-- Reserved bits of an MMA body and frame. -/
def mtxRsvd (c : Cmd) (f : List Byte) : Bool :=
  bitsOf c.body.toNat 0 14 ≠ 0 || fieldB f 0 1 ≥ 64 || fieldB f 1 1 ≥ 64 || fieldB f 2 1 ≥ 32 || fieldB f 4 1 ≥ 32 ||
  !zeroB f 5 3 || !zeroB f 28 2 || [8, 12, 16, 20, 24].any fun a => decide (0x20000 ≤ fieldB f a 4)

/-- The checks of R82 in their order; 0 when they pass. -/
def mtxCheck (i : MtxInst) : Nat :=
  if i.mode = 3 then 0x0402
  else if (mtxClass i.fmtS i.fmtT i.mode).isNone then 0x0401
  else if i.n = 0 ∨ 1024 < i.n ∨ i.mAct = 0 ∨ 16 < i.mAct then 0x0402
  else if i.mode ≠ 2 ∧ (i.kAct = 0 ∨ i.depth < i.kAct) then 0x0402
  else if i.mode = 2 ∧ (i.cAct = 0 ∨ 16 < i.cAct) then 0x0402
  else
    match i.spans.find? fun sp => decide (sp.2.1 % 512 ≠ 0 ∨ scratchEnd < sp.2.2) with
    | some sp => if sp.2.1 % 512 ≠ 0 then 0x0403 else 0x0404
    | none =>
      if i.reads.any fun sp => decide (sp.2.1 < i.oA + i.oLen ∧ i.oA < sp.2.2) then 0x0405 else 0

/-- The array takes the MMA at the head of the matrix queue: checks, then its tile begins to load (R76, R77, R163). -/
def execMma (core : CoreId) (s : State) : Outcome State Fault Refusal :=
  if (s.core core).shadow.isSome then .next s else
  match s.take core 0 0 0 (fun _ => true) 32 with
  | .idle => .next s
  | .done s => .next s
  | .ok s d f =>
    if mtxRsvd d f then .next (s.failCmd core 0x0205) else
    let i := mtxParse d f
    let e := mtxCheck i
    if e ≠ 0 then .next (s.failCmd core e) else
    let (env, s) := s.takeEnv core d
    .next (s.onCore core fun c => { c with shadow := some { i with env := env, chaff := d.chaff || c.schaffIn d.frame 32 } })

/-! ## The tile (R77, R107, R111) -/

/-- Invalid bytes of a BT2 run that hold a trit of the active part (R107). -/
def MtxInst.badBt2 (i : MtxInst) (tile : List Byte) : Nat :=
  ((List.range 410).filter fun j =>
    !bt2Valid (tile.getD j 0) (j = 409) && (List.range 5).any fun t =>
      let p := 5 * j + t
      decide (p < 2048 ∧ p / 128 < i.mAct ∧ p % 128 < i.kAct)).length

/-- Does the active part of the stationary operand, or its scales, carry chaff (R78, R84). -/
def MtxInst.statChaff (i : MtxInst) (c : Core) : Bool :=
  if i.mode = 2 then false
  else
    (List.range i.mAct).any fun r =>
      (if i.fmtS = 0x18 then c.schaffIn (i.sA + r * 128 / 5) ((r * 128 + i.kAct - 1) / 5 - r * 128 / 5 + 1)
       else c.schaffIn (i.sA + 32 * r) (packedLen i.fmtS i.kAct)) ||
      (etScaled i.fmtS && c.schaffIn (i.scA + r * (i.depth / 32)) ((i.kAct + 31) / 32))

/-- What the load of an instruction's shadow tile reads in scratch, and what its next step reads and writes (R69). -/
def MtxInst.loadNeed (i : MtxInst) : List Span :=
  if i.mode = 2 then [(false, i.oA, i.oA + i.oLen)]
  else [(false, i.sA, i.sA + i.sLen)] ++ (if etScaled i.fmtS then [(false, i.scA, i.scA + 64)] else [])
def MtxInst.stepNeed (i : MtxInst) : List Span :=
  let v := i.done
  [(false, i.tA + v * i.tStride, i.tA + (v + 1) * i.tStride)] ++
  (if i.mode = 2 then [(false, i.uA + v * 32, i.uA + (v + 1) * 32)] else [(true, i.oA + 64 * v, i.oA + 64 * v + 64)]) ++
  (if i.mode = 2 && v + 1 = i.n then [(true, i.oA, i.oA + 1024)] else []) ++
  (if i.scaled then [(false, i.scA, i.scA + i.scLen)] else [])

/-- The shadow tile of a core has loaded; its instruction streams when the array is free (R77). In OS the cells are
cleared, or preloaded from the output region under ACC (R81). -/
def execShadowTileLoaded (core : CoreId) (s : State) : Outcome State Fault Refusal :=
  let c := s.core core
  match c.shadow with
  | none => .next s
  | some i =>
    if i.loaded then .next s else
    if !s.scratchFree core i.cmd.seq i.loadNeed then .next s else
    let out := c.sread core i.oA 1024
    let tile := if i.mode = 2 then [] else c.sread core i.sA i.sLen
    let prior := if i.mode ≠ 2 then [] else if i.acc then out else List.replicate 1024 0
    let i' : MtxInst := { i with
      loaded := true, tile := tile,
      tileSc := if etScaled i.fmtS && i.mode ≠ 2 then c.sread core i.scA 64 else [],
      tileChaff := i.statChaff c || (i.mode = 2 && i.acc && c.schaffIn i.oA 1024),
      prior := prior,
      cells := (List.range (if i.mode = 2 then 256 else 0)).map fun x => BitVec.ofNat 32 (fieldB prior (4 * x) 4) }
    let bad := if i.fmtS = 0x18 then i.badBt2 tile else 0
    let s := if bad = 0 then s else (s.coreCount core 8 bad).warning core 0x0101
    .next (s.onCore core fun c =>
      let c := { c with tileLate := false }
      if c.active.isNone then { c with shadow := none, active := some i' } else { c with shadow := some i' })

/-! ## One array step (R112 to R117) -/

/-- An accumulator after one step: its bits; whether it saturated (R114); whether it became NaN or infinite from finite
inputs (R117). `old` is none where ACC = 0 overwrites: the sum is of the products alone (log 32). -/
def MtxInst.update (i : MtxInst) (old : Option Nat) (prods : List Num) (finite : Bool) : Nat × Bool × Bool :=
  if i.int then
    let s := (match old with | some o => signed o 32 | none => 0) + (numSum prods).over 0
    if s < -2147483648 then (0x80000000, true, false)
    else if 2147483647 < s then (0x7FFFFFFF, true, false)
    else ((s % 4294967296).toNat, false, false)
  else
    let r := round32 (numSum ((match old with | some o => [f32 o] | none => []) ++ prods))
    let oldFin := match old with | some o => (f32 o).isFin | none => true
    (r, false, finite && oldFin && (f32 r).nonFinite)

/-- Does an output word fail its envelope. -/
def MtxInst.fails (i : MtxInst) (w : Nat) : Bool := if i.int then i.env.failsInt w else i.env.failsFp (f32 w)

/-- The array has finished an instruction: it waits for verification, or is complete; the loaded shadow tile streams. -/
def State.arrayDone (s : State) (n : Nat) (i : MtxInst) : State :=
  let s := s.onCore n fun c =>
    match c.shadow with
    | some j => if j.loaded then { c with active := some j, shadow := none } else { c with active := none, tileLate := i.n < 16 }
    | none => { c with active := none }
  if i.envFail then s.suspect n (.mtx i) else s

/-- The step's work on core state, common to the modes: counters, the item's chaff. -/
def State.arrayCount (s : State) (n sat nan : Nat) (chaff : Bool) : State :=
  let s := s.coreCount n 0 1
  let s := if sat = 0 then s else s.coreCount n 9 sat
  let s := if nan = 0 then s else s.coreCount n 10 nan
  if chaff then s.itemChaff n else s

/-- One step in WS or IS: entry `done` of the outputs. -/
def State.arrayWs (s : State) (n : Nat) (i : MtxInst) (flips : List (Nat × Nat)) : State :=
  let c := s.core n
  let rd := c.sget n
  let v := i.done
  let oa := i.oA + 64 * v
  let ks := List.range i.kAct
  let xs := ks.map (i.strm rd v)
  let old (r : Nat) : Option Nat := if i.acc then some (leNat (c.sread n (oa + 4 * r) 4)) else none
  let res := (List.range 16).map fun r =>
    if r < i.mAct then
      let ws := ks.map (i.stat r)
      i.update (old r) ((ws.zip xs).map fun (w, x) => i.prod w x) ((ws ++ xs).all Num.isFin)
    else (0, false, false)
  let words := if s.workDead n then s.undefWords (scrPlace n oa) 16 else strike flips (res.map Prod.fst)
  let chaff := i.chaff || i.tileChaff || c.schaffIn (i.tA + v * i.tStride) (packedLen i.fmtT i.kAct) ||
    (etScaled i.fmtT && c.schaffIn (i.scA + 64 + v * (i.depth / 32)) ((i.kAct + 31) / 32)) ||
    (i.acc && c.schaffIn oa 64)
  let satRows := (List.range 16).filter fun r => (res.getD r (0, false, false)).2.1
  let act := words.take i.mAct
  let i' : MtxInst := { i with
    done := v + 1, prior := i.prior ++ (if i.acc then c.sread n oa 64 else List.replicate 64 0),
    sat := i.sat ++ satRows.map (16 * v + ·),
    envFail := i.envFail || act.any i.fails || (!satRows.isEmpty && !i.env.satOk), chaff := i.chaff }
  let s := (s.setCore n (c.swrite oa (words.flatMap (toLE 4)) chaff)).noteItem n true oa 64
  let s := s.arrayCount n satRows.length (res.filter fun x => x.2.2).length chaff
  if i'.done < i.n then s.onCore n fun c => { c with active := some i' } else s.arrayDone n i'

/-- One step in OS: every cell of the active part; after the last, the output tile is drained. -/
def State.arrayOs (s : State) (n : Nat) (i : MtxInst) (flips : List (Nat × Nat)) : State :=
  let c := s.core n
  let rd := c.sget n
  let v := i.done
  let js := List.range i.d
  let res := (List.range 256).map fun x =>
    let r := x / 16
    let cc := x % 16
    if r < i.mAct ∧ cc < i.cAct then
      let as := js.map (i.elA rd v r)
      let bs := js.map fun j => i.elB rd v j cc
      i.update (some ((i.cells.getD x 0).toNat)) ((as.zip bs).map fun (a, b) => i.prod a b) ((as ++ bs).all Num.isFin)
    else (0, false, false)
  let cells := strike flips (res.map Prod.fst)
  let g := v * i.d / 32
  let chaff := i.chaff || i.tileChaff || c.schaffIn (i.tA + 32 * v) 32 || c.schaffIn (i.uA + 32 * v) 32 ||
    (etScaled i.fmtS && c.schaffIn (i.scA + 32 * g) i.mAct) ||
    (etScaled i.fmtT && c.schaffIn (i.scA + 32 * g + 16) i.cAct)
  let satC := (List.range 256).filter fun x => (res.getD x (0, false, false)).2.1
  let act := (List.range 256).filter fun x => x / 16 < i.mAct && x % 16 < i.cAct
  let i' : MtxInst := { i with
    done := v + 1, cells := cells.map (BitVec.ofNat 32), sat := i.sat ++ satC, chaff := chaff }
  let s := s.arrayCount n satC.length (res.filter fun x => x.2.2).length chaff
  if i'.done < i.n then s.onCore n fun c => { c with active := some i' }
  else
    let bad := act.any (fun x => i.fails (cells.getD x 0)) || (!i'.sat.isEmpty && !i.env.satOk)
    let out := if s.workDead n then s.undefWords (scrPlace n i.oA) 256 else cells
    let s := (s.onCore n fun c => c.swrite i.oA (out.flatMap (toLE 4)) chaff).noteItem n true i.oA 1024
    s.arrayDone n { i' with envFail := bad }

/-- ARRAY_STEP (R112): one streamed vector passes the cells; an array that was gated is awake from then on (R91). `flips`: bits of output words (cells in OS) that a transient
flips in this step. -/
def execArrayStep (core : CoreId) (flips : List (Nat × Nat)) (s : State) : Outcome State Fault Refusal :=
  match (s.core core).active with
  | none => .next s
  | some i =>
    if s.stepHeld core || !s.scratchFree core i.cmd.seq i.stepNeed then .next s
    else
      let s := s.onCore core fun c => { c with gated := false, wake := 0 }
      if i.mode = 2 then .next (s.arrayOs core i flips) else .next (s.arrayWs core i flips)

/-! ## Verification (R404) -/

/-- The checks of Table 12-4 for a matrix instruction: first failing row and column. -/
def State.verifyMtx (s : State) (n : Nat) (i : MtxInst) : Option Nat × Option Nat :=
  let c := s.core n
  let rd := c.sget n
  let val (w : Nat) : Num := if i.int then Num.ofInt (signed w 32) 0 else f32 w
  let after (x : Nat) : Num := val (leNat (c.sread n (i.oA + 4 * x) 4))
  let before (x : Nat) : Num := val (fieldB i.prior (4 * x) 4)
  if i.mode ≠ 2 then
    verifyWs (i.fmtS = 0x18) i.int i.mAct i.n i.kAct i.stat (i.strm rd) (fun v r => after (16 * v + r))
      (fun v r => before (16 * v + r)) (fun v r => i.sat.contains (16 * v + r))
  else
    let rs := List.range i.mAct
    let cs := List.range i.cAct
    let vj := (List.range i.n).flatMap fun v => (List.range i.d).map fun j => (v, j)
    let col (x : Nat) : Bool :=
      (i.int && rs.any fun r => i.sat.contains (16 * r + x)) ||
      sumCheck i.int (rs.map fun r => after (16 * r + x)) (rs.map fun r => before (16 * r + x))
        (vj.map fun (v, j) => (opSum i.int (rs.map fun r => i.elA rd v r j)).mul (i.elB rd v j x))
        (vj.map fun (v, j) => opSum i.int (rs.map fun r => i.elA rd v r j))
    let row (r : Nat) : Bool :=
      (i.int && cs.any fun x => i.sat.contains (16 * r + x)) ||
      sumCheck i.int (cs.map fun x => after (16 * r + x)) (cs.map fun x => before (16 * r + x))
        (vj.map fun (v, j) => (i.elA rd v r j).mul (opSum i.int (cs.map fun x => i.elB rd v j x)))
        (vj.map fun (v, j) => opSum i.int (cs.map fun x => i.elB rd v j x))
    (firstFail (rs.map row), firstFail (cs.map col))

end Sys2Proof.Machine
end

