-- ==== Sys2Proof/Machine/Waits.lean ====
section
/-!
DEFINITION. Waits.lean: the counters of the causes a core's units wait for (R91, Tables 3-12 and 17-12).
-/
namespace Sys2Proof.Machine

/-- The commands at the heads of a core's queues whose units could take them, as far as their queues tell: the array takes one only while its
shadow place is free (R77). -/
def Core.heads (c : Core) : List Cmd :=
  ((if c.shadow.isNone then c.qm else []) :: [c.qv, c.qh, c.qmv]).filterMap List.head?

/-- Has a core anything to issue or to step. -/
def Core.working (c : Core) : Bool := !c.heads.isEmpty || c.active.isSome || c.shadow.isSome

/-- Does a unit of a core wait for a granule an earlier command has still to access (R69). -/
def State.granuleWait (s : State) (n : Nat) : Bool :=
  let c := s.core n
  (c.heads.any fun d => !s.scratchFree n d.seq (s.cmdSpans n d)) ||
  (match c.shadow with | some i => !i.loaded && !s.scratchFree n i.cmd.seq i.loadNeed | none => false) ||
  (match c.active with | some i => !s.scratchFree n i.cmd.seq i.stepNeed | none => false)

/-- Does pacing hold the issue of a core in the present nanosecond: of each 65,536 it issues in as many as its duty says, evenly spread
(log 199). -/
def State.paceWait (s : State) (n : Nat) : Bool :=
  let d := s.dutyOf n
  (s.core n).working && decide (d < 65536) && decide ((s.time.elapsed + 1) * d / 65536 = s.time.elapsed * d / 65536)

/-- The causes for which a unit of a core waits in the present nanosecond, as counters of its page: WAIT_GRANULE 15, WAIT_TILE 16, WAIT_PACE 17,
WAIT_DROOP 18, WAIT_WAKE 19, WAIT_ICACHE 21, WAIT_QUEUE 22, WAIT_VAULT 23. WAIT_BANK stays: no command takes a step-time of a bank (log 172). -/
def State.coreWaits (s : State) (n : Nat) : List Nat :=
  let c := s.core n
  (if s.granuleWait n then [15] else []) ++
  (if c.tileLate then [16] else []) ++
  (if s.paceWait n then [17] else []) ++
  (if (s.field (fieldOfCore n)).droop && c.working then [18] else []) ++
  (if c.gated && c.active.isSome then [19] else []) ++
  (if s.cpFree n && !c.fetched then [21] else []) ++
  (match c.wait with | some (.full _) => [22] | _ => []) ++
  (if s.moves.any fun m => m.core = some n && m.st = .remote then [23] else [])

/-- One nanosecond of a core's waits; 40 ns after it has an instruction to stream, a gated array is awake (R91). -/
def State.countCore (s : State) (n : Nat) : State :=
  let w := s.coreWaits n
  let s := if w.contains 19 then s.onCore n fun c => { c with gated := c.wake < 39, wake := if c.wake < 39 then c.wake + 1 else 0 } else s
  w.foldl (fun (s : State) i => s.coreCount n i 1) s

/-- One nanosecond of module time passes: each cause a unit of a core waits for is counted once. -/
def State.countWaits (s : State) : State := s.cores.foldl (fun (s : State) x => s.countCore x.1) s

end Sys2Proof.Machine
end

