-- ==== Sys2Proof/Machine/HostMem.lean ====
section
/-!
DEFINITION. HostMem.lean: requests of the host: how they are resolved and performed, and which wait (R52, R259, R541, R586 to R592, R598,
R599, Tables 8-8, 18-4, 18-5).
-/
namespace Sys2Proof.Machine

open Host (Outcome)

/-! ## BAR0 -/

/-- Where a virtual function's window offset leads (Table 18-4), and whether only reads pass. -/
def windowOf (p fn off : Nat) : Option (Nat × Bool) :=
  if off < 0x100 then some (0x20000 + p * 0x100 + off, false)
  else if off < 0x200 then some (0x30000 + p * 0x100 + (off - 0x100), false)
  else if off < 0x400 then some (0x40000 + p * 0x200 + (off - 0x200), false)
  else if off < 0x480 then some (0x81000 + p * 0x80 + (off - 0x400), false)
  else if 0x500 ≤ off ∧ off < 0x580 then some (0x60400 + p * 0x100 + (off - 0x500), false)
  else if 0x600 ≤ off ∧ off < 0x610 then some (0x2000300 + p * 0x10 + (off - 0x600), false)
  else if 0x700 ≤ off ∧ off < 0x740 then some (0x1000 + p * 0x40 + (off - 0x700), false)
  else if 0x800 ≤ off ∧ off < 0x804 then some (0x4000 + fn * 4, false)
  else if 0x810 ≤ off ∧ off < 0x814 then some (0x2000000, true)
  else if 0x818 ≤ off ∧ off < 0x820 then some (0x2000008 + (off - 0x818), true)
  else none

/-- What a BAR0 access of a function reaches. -/
inductive Bar0 where
  /-- an offset of the register region, and whether only reads pass -/
  | reg (off : Nat) (ro : Bool)
  /-- reads zero and ignores writes: a reserved offset of the window, or a function bound to no partition (R590) -/
  | zero
  /-- breaks R589, or falls in no block: KIND of the log -/
  | bad (kind : Nat)
  deriving DecidableEq, Repr

/-- Resolve a BAR0 access of `size` bytes (R589 to R591). -/
def State.bar0 (s : State) (fn off size : Nat) : Bar0 :=
  if (size ≠ 4 && size ≠ 8) || off % size ≠ 0 then .bad 6
  else if fn = 0 then (if (blockOf off).isSome then .reg off false else .bad 1)
  else if 0x800 ≤ off ∧ off < 0x804 then .reg (0x4000 + fn * 4) false
  else match s.partOfFn fn with
    | none => .zero
    | some p => match windowOf p fn off with
      | some (o, ro) => .reg o ro
      | none => .zero

/-! ## BAR2 and CXL.mem: who may reach what (Table 18-5) -/

/-- The kind of region an address lies in, for a request: 0 vaults, 1 Granary, 2 seedstore; none: no memory. -/
def State.memKind (s : State) (a : Nat) : Option Nat :=
  match s.region a with
  | .vault _ _ => some 0
  | .bin _ _ => some 1
  | .seedstore _ => some 2
  | .registers _ | .unmapped => none

/-- The region a request of `n` bytes lies in wholly (R591). -/
def State.memRegion (s : State) (a n : Nat) : Option Nat :=
  let k := s.memKind a
  if n ≤ 1 || s.memKind (a + n - 1) = k then k else none

/-- Does an allocation of partition `p` hold the byte at local address `a` (R187). -/
def State.allocHolds (s : State) (p : Nat) (x : Allocation) (a : Nat) : Bool :=
  x.part = p && !s.rel.contains (p, x.slot) &&
  (if x.vault then
     (match s.region a with
      | .vault n o => s.partOfCore n = some p && decide (x.base ≤ o ∧ o < x.base + x.len)
      | _ => false)
   else decide (x.base ≤ s.glob a ∧ s.glob a < x.base + x.len))

/-- May a VF that owns partition `p` reach a byte: in its SCRATCH bins or an allocation, and no allocation that forbids writes for a write. -/
def State.vfMay (s : State) (p a : Nat) (write : Bool) : Bool :=
  let bin := match s.region a with
    | .bin k _ => s.fget F.grnBinCfg_MODE k = 2 && s.fget F.grnBinCfg_OWNER k = p
    | _ => false
  let mine := s.allocs.filter fun x => s.allocHolds p x a
  (bin || !mine.isEmpty) && !(write && mine.any fun x => !x.write)

/-- May a function reach a byte of the Granary (R249): in a SCRATCH bin of a partition it owns, and not to write what only engines write. -/
def State.binMay (s : State) (fn a : Nat) (write : Bool) : Bool :=
  match s.region a with
  | .bin k _ =>
    s.fget F.grnBinCfg_MODE k = 2 &&
    (let p := s.fget F.grnBinCfg_OWNER k
     (match s.partOf p with | some x => x.owner = fn | none => false) && !(write && s.engineArea p a))
  | _ => true

/-- How a refused request completes. -/
inductive Refused where
  | abort | unsupported
  deriving DecidableEq, Repr

/-- The first row of Table 18-5 that refuses a request of `n` bytes, with its KIND. `cxl`: a CXL.mem request, resolved as the PF's; `read`:
one that an unready module serves (R430); `cas128`. -/
def State.hostResolve (s : State) (fn a n : Nat) (write cxl cas128 : Bool) : Option (Refused × Nat) :=
  let span := List.range n
  if s.isFailsafe then some (.abort, 5)
  else if !s.isReady && !(s.isUnready && cxl && !write) then some (.abort, 4)
  else match s.memRegion a n with
    | none => some (.unsupported, 1)
    | some _ =>
      if cas128 then some (.unsupported, 3)
      else if fn ≠ 0 && !(match s.partOfFn fn with | some p => span.all fun i => s.vfMay p (a + i) write | none => false) then some (.abort, 2)
      else if !(span.all fun i => s.binMay fn (a + i) write) then some (.abort, 2)
      else none

/-! ## Performing a request -/

/-- Read `n` bytes and what the codes find in each granule (R434 to R437); a seedstore line present is served from the cache. Answers whether
any byte carries chaff. -/
def State.hostLook (s : State) (fn a n : Nat) (ecc : List Ecc) : State × Bool :=
  let (s, bad) := ((granules a n).zipIdx).foldl (fun (x : State × Bool) (g : Nat × Nat) =>
    let e := ecc.getD g.2 .clean
    if 0x8000000000 ≤ g.1 then
      (if x.1.lines.any fun l => l.addr = g.1 then x
       else
         let (t, ch) := x.1.ssRead g.1 e 0xFF
         (t, x.2 || ch))
    else (x.1.eccRead g.1 e (srcIdOf (.host fn)) 0xFF, x.2)) (s, false)
  let s := (s.ssTouchN a n false n).countReads ((List.range n).map fun i => s.glob (a + i))
  (s, bad || (List.range n).any fun i => s.isChaff (a + i))

/-- Write bytes: into a vault as messages of one burst each (R269), elsewhere at once. -/
def State.hostStore (s : State) (fn a : Nat) (cells : List (Nat × Byte × Bool)) : State :=
  if a < 0x3600000000 then
    (groupsOf 256 cells).foldl (fun (s : State) (g : Nat × List (Nat × Byte × Bool)) =>
      let n := g.1 * 256 / 0x800000
      let m : Msg := { src := .host fn, moves := [], comb := [], lo := 0, ring := none, step := 0, core := n, stamp := s.stampOf n,
                       data := g.2.map (fun c => (c.1 % 0x800000, c.2)), reply := none }
      s.sendMsg m false) s
  else (runsOf 0x10000000000000 cells).foldl (fun (s : State) (r : Nat × List (Byte × Bool)) =>
    (s.ssTouchN r.1 r.2.length true r.2.length).wrMarked r.1 r.2) s

/-- Cells of successive bytes, all with the same chaff mark. -/
def cellsOf (a : Nat) (bs : List Byte) (ch : Bool) : List (Nat × Byte × Bool) := bs.zipIdx.map fun x => (a + x.2, x.1, ch)

/-- Answer a request: 0 success, 1 success with EP or Poison, 2 Unsupported Request, 3 Completer Abort. -/
def State.answerHost (s : State) (fn status : Nat) (data : List Byte) : State := s.emit (.answer (.host fn) status data)

/-- Refuse a request: counted, the first logged; `post`: it takes no completion. -/
def State.hostNo (s : State) (r : HostReq) (a : Nat) (why : Refused × Nat) (post : Bool) : State :=
  let s := s.hostRefuse why.2 r.fn a
  if post then s
  else if r.fn = 63 then s.answerHost r.fn 1 []
  else s.answerHost r.fn (match why.1 with | .unsupported => 2 | .abort => 3) []

/-- A memory read: data as stored; with chaff, EP is set and KIND 7 logged (Table 18-5). -/
def State.hostRead (s : State) (r : HostReq) (fn a n : Nat) (cxl : Bool) : State :=
  match s.hostResolve fn a n false cxl false with
  | some why => s.hostNo r a why false
  | none =>
    let (s, bad) := s.hostLook r.fn a n r.ecc
    let s := if bad then s.hostRefuse 7 r.fn a else s
    s.answerHost r.fn (one bad) (s.rdN a n)

/-- A posted memory write: with EP, each granule it writes is marked as chaff. -/
def State.hostWrite (s : State) (r : HostReq) (a : Nat) (bytes : List Byte) (ep : Bool) : State :=
  match s.hostResolve r.fn a bytes.length true false false with
  | some why => s.hostNo r a why true
  | none => s.hostStore r.fn a (cellsOf a bytes ep)

/-- An atomic of `w` bytes (R259, Table 8-8): `f` gives the new value of the old one, if it is written, and whether chaff of the old value
reaches it. A second disagreement of the two units leaves the target unchanged (R397). -/
def State.hostAtomic (s : State) (r : HostReq) (w : Nat) (cas128 : Bool) (f : Nat → Option (Nat × Bool)) : State :=
  let a := r.addr
  match s.hostResolve r.fn a w true false cas128 with
  | some why => s.hostNo r a why false
  | none =>
    if a % w ≠ 0 || s.memKind a ≠ some 1 then s.hostNo r a (.abort, 3) false
    else if 2 ≤ r.mismatch then
      (s.faultRecord { FaultRec.blank 9 with outcome := 7, addr := s.glob a }).hostNo r a (.abort, 5) false
    else
      let old := leNat (s.rdN a w)
      let ch := (List.range w).any fun i => s.isChaff (a + i)
      let s := if ch then s.hostRefuse 7 r.fn a else s
      let s := match f old with
        | some (v, taint) => s.wrMarked a ((toLE w v).map fun b => (b, taint && ch))
        | none => s
      s.answerHost r.fn (one ch) (toLE w old)

/-! ## CXL.mem (R598, R599) -/

/-- The local address of an HDM offset; none beyond the decoder's range. -/
def State.hdmAddr (s : State) (off : Nat) : Option Nat :=
  let c := s.partNo.capacity
  if !s.host.hdm then none
  else if off < c then some (0x8000000000 + off)
  else if off < c + 0x40000000 then some (0x4000000000 + (off - c))
  else none

/-- A CXL.mem read of a 64-byte line: a cacheable one marks the line. -/
def State.cxlRead (s : State) (r : HostReq) (a : Nat) (cacheable : Bool) : State :=
  let ok := (s.hostResolve 0 a 64 false true false).isNone
  let s := s.hostRead r 0 a 64 true
  if cacheable && ok then { s with host := { s.host with lines := setIns s.host.lines a } } else s

/-- A CXL.mem write of a line, with its byte enables: the host gives the line back. -/
def State.cxlWrite (s : State) (r : HostReq) (a : Nat) (bytes : List Byte) (enable : BitVec 64) (poison : Bool) : State :=
  match s.hostResolve 0 a 64 true true false with
  | some why => s.hostNo r a why true
  | none =>
    let cells := (cellsOf a (sliceB bytes 0 64) poison).filter fun c => enable.getLsbD (c.1 - a)
    let s := s.hostStore r.fn a cells
    { s with host := { s.host with lines := setDel s.host.lines a } }

/-! ## BAR0 accesses -/

/-- A register read through BAR0: one that is refused completes with Unsupported Request. Eight bytes of a window that leads to two places are
two accesses. -/
def State.bar0Read (s : State) (fn off size : Nat) : State :=
  let src := Src.host fn
  let part (s : State) (o n : Nat) : State × Nat := match s.bar0 fn o n with
    | .reg x _ => s.regRead src x n
    | _ => (s, 0)
  match s.bar0 fn off size with
  | .bad k => (s.hostRefuse k fn off).answerHost fn 2 []
  | _ =>
    if fn ≠ 0 ∧ size = 8 ∧ (off = 0x800 ∨ off = 0x810) then
      let (s, lo) := part s off 4
      let (s, hi) := part s (off + 4) 4
      s.answerHost fn 0 (toLE 4 lo ++ toLE 4 hi)
    else
      let (s, v) := part s off size
      s.answerHost fn 0 (toLE size v)

/-- A register write through BAR0: dropped and logged in the fail-safe state. -/
def State.bar0Write (s : State) (fn off size v : Nat) : State :=
  if s.isFailsafe then s.hostRefuse 5 fn off
  else match s.bar0 fn off size with
    | .reg o false => s.regWrite (.host fn) o size v
    | .bad k => s.hostRefuse k fn off
    | _ => s

/-! ## Which requests wait -/

/-- Width in bytes of an atomic. -/
def widthOf (wide : Bool) : Nat := if wide then 8 else 4

/-- Is a request one to memory (not to BAR0). -/
def toMemory (r : HostReq) : Bool :=
  match r.op with
  | .regRead _ | .regWrite _ _ | .doorbell _ _ => false
  | _ => true

/-- Bytes a request to memory accesses. -/
def hostLen (r : HostReq) : Nat :=
  match r.op with
  | .read n => n
  | .write b _ => b.length
  | .fetchAdd w _ | .swap w _ => if w then 8 else 4
  | .cas w _ _ => if w = 0 then 4 else if w = 1 then 8 else 16
  | .cxlRead _ | .cxlWrite _ _ _ => 64
  | _ => 0

/-- Local address a request to memory names. -/
def State.hostAddr (s : State) (r : HostReq) : Nat := if r.fn = 63 then (s.hdmAddr r.addr).getD 0 else r.addr

/-- Perform a request. -/
def State.hostPerform (s : State) (r : HostReq) : State :=
  match r.op with
  | .read len => s.hostRead r r.fn r.addr len false
  | .write bytes ep => s.hostWrite r r.addr bytes ep
  | .fetchAdd wide v =>
    let w := widthOf wide
    s.hostAtomic r w false fun old => some ((old + v.toNat) % 256 ^ w, true)
  | .swap wide v => s.hostAtomic r (widthOf wide) false fun _ => some (v.toNat, false)
  | .cas width cmp new =>
    let w := if width = 0 then 4 else if width = 1 then 8 else 16
    s.hostAtomic r w (w = 16) fun old => if old = cmp.toNat % 256 ^ w then some (new.toNat % 256 ^ w, true) else none
  | .cxlRead cacheable => match s.hdmAddr r.addr with
    | some a => s.cxlRead r a cacheable
    | none => s
  | .cxlWrite bytes enable poison => match s.hdmAddr r.addr with
    | some a => s.cxlWrite r a bytes enable poison
    | none => s
  | .regRead size => s.bar0Read r.fn r.addr size
  | .regWrite size v => s.bar0Write r.fn r.addr size v.toNat
  | .doorbell ring v =>
    if s.isFailsafe then s.hostRefuse 5 r.fn (R.ringDb.base + ring * R.ringDb.stride)
    else if r.fn ≠ 0 ∧ s.partOfFn r.fn ≠ some (partOfRing ring) then s
    else s.doorbell ring v

/-- Is a write of a host function on its way to a vault, or in the misdelivery queue. -/
def State.hostWriting (s : State) (fn : Nat) : Bool :=
  (s.cores.any fun x => x.2.vqGran.any fun m => m.src = .host fn) || s.mdq.any fun b => b.msg.src = .host fn

/-- Is memory out of reach of the host: in S2, leaving it, or entering a state deeper than S1 (R541, R543). -/
def State.memAsleep (s : State) : Bool :=
  s.sleep = 2 || s.sleep = 3 || (match s.power.sleep with | some e => decide (2 ≤ e.target) | none => false)

/-- May a request that arrived at `since` be performed now: earlier writes of its function are performed (R52, R586), memory is awake (R541),
and no substitution (R451) or block reset (R480) holds it. -/
def State.hostReady (s : State) (h : HeldReq) : Bool :=
  !s.hostWriting h.req.fn && (s.isFailsafe || !toMemory h.req || !s.memAsleep) &&
  !(toMemory h.req && s.retHolds (s.hostAddr h.req) (hostLen h.req)) &&
  (match s.blk with
   | some b => !(decide (b.since < h.since) && (b.kind = 3 || (toMemory h.req && s.blkHolds (s.hostAddr h.req + (hostLen h.req)))))
   | none => true)

/-- The first waiting request that may be performed, with those before it: none of these is of its function. -/
def State.hostPick (s : State) (before : List HeldReq) : List HeldReq → Option (HeldReq × List HeldReq)
  | [] => none
  | h :: t =>
    if (before.all fun x => x.req.fn ≠ h.req.fn) && s.hostReady h then some (h, before ++ t) else s.hostPick (before ++ [h]) t

/-- Perform the first waiting request that may be performed. -/
def State.hostStep (s : State) : State :=
  match s.hostPick [] s.host.held with
  | none => s
  | some (h, rest) => { s with host := { s.host with held := rest } }.hostPerform h.req

/-- A request of the host arrives: one to memory wakes the module from S2 (R541); it is performed at once if nothing holds it. -/
def State.hostArrive (s : State) (r : HostReq) : State :=
  let s := if toMemory r && s.memAsleep then s.wakeUp else s
  let h : HeldReq := { req := r, since := s.time.elapsed }
  { s with host := { s.host with held := s.host.held ++ [h] } }.hostStep

/-- The idle step: the module time counter advances by 1 ns (R60), in which the cores' units may have waited (R91), and a request of the host that waited is performed if it may be. DESIGN
CHOICE: assumption 3. What is ready at the front end is ready from then on (R134). -/
def State.idle (s : State) : State :=
  let s := s.rings.foldl (fun (s : State) x => s.flushLate x.1 false) { s with ready := s.readyNow }
  (s.descDone fun _ => true).countWaits.tick.hostStep

end Sys2Proof.Machine
end

