-- ==== Sys2Proof/Machine/Access.lean ====
section
/-!
DEFINITION. Access.lean: doorbells, register accesses of the host and of the board controller over MCTP (R551 to R553, R588 to R591).
-/
namespace Sys2Proof.Machine

open Host (Outcome)

/-- A doorbell write (R139): the host's is performed after its earlier posted writes (R52). -/
def execDoorbell (src : Src) (ring : RingId) (val : W32) (s : State) : Outcome State Fault Refusal :=
  match src with
  | .host fn => .next (s.hostArrive { fn := fn, addr := 0, op := .doorbell ring val, ecc := [], mismatch := 0 })
  | _ => .next (s.doorbell ring val)

/-- A write of a register by its source (R8 to R10, R553). Other modules' units, the cores and the engines write no register. -/
def execRegisterWrite (src : Src) (off size : Nat) (val : W64) (s : State) : Outcome State Fault Refusal :=
  match src with
  | .host fn => .next (s.hostArrive { fn := fn, addr := off, op := .regWrite size val, ecc := [], mismatch := 0 })
  | .reeve =>
    if (size ≠ 4 && size ≠ 8) || off % size ≠ 0 || (blockOf off).isNone then .next s else .next (s.regWrite src off size val.toNat)
  | _ => .next s

/-- A read by its source: of 4 bytes at the low half of a 64-bit register it latches the high half for it (R552, R589). -/
def execLatchedLowRead (src : Src) (off size : Nat) (s : State) : Outcome State Fault Refusal :=
  match src with
  | .host fn => .next (s.hostArrive { fn := fn, addr := off, op := .regRead size, ecc := [], mismatch := 0 })
  | .reeve =>
    if (size ≠ 4 && size ≠ 8) || off % size ≠ 0 || (blockOf off).isNone then .next s
    else
      let (t, v) := s.regRead .reeve off size
      .next (t.emit (.answer .reeve 0 (toLE size v)))
  | _ => .next s

/-! ## Register access over MCTP (Table 17-2) -/

/-- Is the register at an offset in a block that is unpowered or being reset (R551): a plot's registers before STEP_POWER or with load shed;
every block beside the Reeve's own in S4 and with load shed; the block of a block reset. -/
def State.notReachable (s : State) (off : Nat) : Bool :=
  let o := shadowed off
  let plot := (0x11000 ≤ o && o < 0x20000) || (0x50000 ≤ o && o < 0x60000) || 0x3000000 ≤ o
  let own := 0xA0000 ≤ o && o < 0xD0000 || (0x2000000 ≤ o && o < 0x3000000)
  (plot && s.coreOff) || (!own && (s.sleep = 3 || s.power.shed)) ||
  (match s.blk with
   | some b =>
     (b.kind = 1 && ((0x3000000 ≤ o && (o - 0x3000000) / 0x200 / 24 = b.target) || (0x11000 ≤ o && o < 0x20000 && (o - 0x11000) / 8 = b.target))) ||
     (b.kind = 2 && 0x71000 ≤ o && o < 0x80000) || (b.kind = 3 && o < 0x10000)
   | none => false)

/-- STATUS of a register access message: 0 OK, 1 NOT_REACHABLE, 2 BAD_OFFSET, 3 ALIGN. -/
def State.mctpStatus (s : State) (off size : Nat) : Nat :=
  if 0x10000000 ≤ off || (blockOf off).isNone then 2
  else if off % size ≠ 0 then 3
  else if s.notReachable off then 1
  else 0

/-- Answer a register access message: the module's vendor ID (Table 17-1, R587), OP with bit 7 set, STATUS, OFFSET, DATA. -/
def State.mctpAnswer (s : State) (op status off data : Nat) : State :=
  s.emit (.mgmt 0x7E status (s.mctpVendor ++ toLE 1 (op + 128) ++ toLE 1 status ++ toLE 2 0 ++ toLE 4 off ++ toLE 8 data))

/-- Read over MCTP. -/
def State.mctpRead (s : State) (op off size : Nat) : State :=
  let st := s.mctpStatus off size
  if st ≠ 0 then s.mctpAnswer op st off 0
  else
    let (t, v) := s.regRead .reeve off size
    t.mctpAnswer op 0 off v

/-- Write over MCTP: performed before the response is sent. -/
def State.mctpWrite (s : State) (op off size v : Nat) : State :=
  let st := s.mctpStatus off size
  if st ≠ 0 then s.mctpAnswer op st off 0 else (s.regWrite .reeve off size v).mctpAnswer op 0 off 0

/-- READ32. -/
def execRead32 (off : Nat) (s : State) : Outcome State Fault Refusal := .next (s.mctpRead 1 off 4)
/-- WRITE32. -/
def execWrite32 (off : Nat) (val : W32) (s : State) : Outcome State Fault Refusal := .next (s.mctpWrite 2 off 4 val.toNat)
/-- READ64. -/
def execRead64 (off : Nat) (s : State) : Outcome State Fault Refusal := .next (s.mctpRead 3 off 8)
/-- WRITE64. -/
def execWrite64 (off : Nat) (val : W64) (s : State) : Outcome State Fault Refusal := .next (s.mctpWrite 4 off 8 val.toNat)

end Sys2Proof.Machine
end

