-- ==== Sys2Proof/Machine/Almanac.lean ====
section
/-!
DEFINITION. Almanac.lean: how queued records reach the flash and how its segments are compacted (R486, R501, R504 to R506).
-/
namespace Sys2Proof.Machine

open Host (Outcome)

/-- Would a record begin a segment when none is erased. -/
def AlmSt.fullFor (a : AlmSt) (r : AlmRec) : Bool := 65536 < a.used + almSize r.kind && 512 ≤ a.segs.length

/-- The Reeve writes the record at the head of the queue to both devices, in two phases (R501). `dev0`, `dev1`: programming that device
succeeds. A device that fails twice at the place becomes fallow and the record goes to the other (R486, Table 15-9); the queue waits while
STEP_SEED reads and while an emergency commit runs. -/
def execAlmanacRecordWrite (dev0 dev1 : Bool) (s : State) : Outcome State Fault Refusal :=
  let seeding := s.rst.job.isSome && s.fget F.bringStatus_STEP 0 = 2
  match s.alm.queue with
  | [] => .next s
  | r :: _ =>
    if seeding || s.rst.emergency || s.alm.fullFor r || s.seed.fallow.length = 2 then .next s
    else
      let failed := ([(0, dev0), (1, dev1)].filter fun x => !x.2 && !s.seed.fallow.contains x.1).map Prod.fst
      let twice := failed.filter fun d => s.seed.weak.contains d
      let once_ := failed.filter fun d => !s.seed.weak.contains d
      let s := { s with seed := { s.seed with weak := once_ } }
      let s := twice.foldl (fun (s : State) d => s.deviceFallow d) s
      if !once_.isEmpty || s.seed.fallow.length = 2 then .next s.almRegs
      else .next ({ s with alm := { s.alm with queue := s.alm.queue.tail } }.almWrite r)

/-- Add one to the count of a key in the flat list of keys and counts of a SUMMARY record. -/
def addCount : List Nat → Nat → List Nat
  | k :: n :: t, x => if k = x then k :: (n + 1) :: t else k :: n :: addCount t x
  | _, x => [x, 1]

/-- CAUSE × 16 + unit kind of a record that ages out: a fault record's cause, and a core where it names one. -/
def sumKey (r : AlmRec) : Nat := if r.kind = 1 then r.body.headD 0 * 16 + one (r.body.getD 5 0xFFFF ≠ 0xFFFF) else 0

/-- Bytes a segment holds beside its header. -/
def segRoom : Nat := 65536 - 32

/-- Compact the oldest segment of the Almanac (region 0) when fewer than 16 segments are erased, one in 10 s unless fewer than 4 are, or of the control region when fewer than
2 are (R504): live records are rewritten at the head with COPIED set; counts of the others go into a new SUMMARY record; the segment is
erased. When live map records alone would fill 496 segments the module becomes unready; records of other kinds that would leave nothing to
free age out (R505). -/
def execAlmanacCompact (region : Nat) (s : State) : Outcome State Fault Refusal :=
  if region ≠ 0 then
    .next (if 16 - s.alm.control < 2 then { s with alm := { s.alm with control := s.alm.control - 1 } } else s)
  else
    match s.alm.segs with
    | old :: seg :: segs =>
      let early := match s.alm.compactAt with | some t => decide (s.time.elapsed < t + 10000000000) | none => false
      if 16 ≤ 512 - s.alm.segs.length || (early && 4 ≤ 512 - s.alm.segs.length) then .next s
      else
        let log := s.alm.log
        let last := ((log.filter fun r => r.kind = 0xC).map AlmRec.seq).foldl max 0
        let live (r : AlmRec) : Bool := if r.kind = 0xC then r.seq = last else almMapKind r.kind || decide (s.time.counter - r.time ≤ days30)
        let size (l : List AlmRec) : Nat := (l.map fun r => almSize r.kind).sum
        let maps := size (log.filter fun r => live r && almMapKind r.kind)
        let tight := 496 * segRoom < size (log.filter live)
        let s := if 496 * segRoom ≤ maps then s.unready 0xA 0 (FaultRec.blank 0x21) else s
        let keep := old.filter fun r => live r && (almMapKind r.kind || !tight)
        let aged := old.filter fun r => !(live r && (almMapKind r.kind || !tight)) && r.kind ≠ 0xC
        let keep := if aged.isEmpty then keep else keep.filter fun r => r.kind ≠ 0xC
        let a := { s.alm with segs := seg :: segs, erases := s.alm.erases + 1, compactAt := some s.time.elapsed }
        let a := keep.foldl (fun (a : AlmSt) r => a.append { r with copied := true }) a
        let s := { s with alm := a }.almRegs
        if aged.isEmpty then .next s
        else
          let counts := match log.find? (fun r => r.kind = 0xC && r.seq = last) with | some r => r.body | none => []
          .next (s.almWrite { kind := 0xC, seq := 0, time := s.time.counter, undisc := s.time.undisc, copied := false, emergency := false,
                              boot := s.alm.boot, body := aged.foldl (fun l r => addCount l (sumKey r)) counts })
    | _ => .next s

end Sys2Proof.Machine
end

