-- ==== Sys2Proof/Machine/Events.lean ====
section
/-!
DEFINITION. Events.lean: the event channel and the management Ethernet port (R556 to R561).
-/
namespace Sys2Proof.Machine

open Host (Outcome)

/-- The address of the management port: from CONFIG, or by DHCP when that is zero (R558). -/
def State.portIp (s : State) : Option Nat :=
  match s.seed.image with
  | some i => if i.ip ≠ 0 then some i.ip else s.mgmt.ip
  | none => s.mgmt.ip

/-- Bits of ALERT_STATUS that sending an event sets (Table 17-5). -/
def State.eventAlert (s : State) (e : Event) : State :=
  if e.kind = 4 && 1 ≤ e.body.getD 3 0 then s.fset F.alertStatus_FAULT 0 1
  else if e.kind = 0xA then s.fset F.alertStatus_MEMORY 0 1
  else if e.kind = 6 || e.kind = 7 then s.fset F.alertStatus_LINK 0 1
  else if e.kind = 8 then s.fset F.alertStatus_POWER 0 1
  else s

/-- The event at the head of the queue is sent, in SEQ order: by UDP to the collector once the port has an address and CONFIG names one,
and by PLDM to the event receiver; it joins the history of 4,096 (R561). -/
def execEventSend (s : State) : Outcome State Fault Refusal :=
  match s.mgmt.evQueue with
  | [] => .next s
  | e :: rest =>
    let keep (l : List Event) : List Event := (l ++ [e]).drop (l.length + 1 - 4096)
    let s := s.onMgmt fun m => { m with evQueue := rest, evHist := keep m.evHist, poll := if m.receiver then keep m.poll else m.poll }
    let s := if s.portIp.isSome && s.seed.image.isSome then s.emit (.event e false) else s
    let s := if s.mgmt.receiver then s.emit (.pldmEvent e) else s
    .next (s.eventAlert e)

/-- HEARTBEAT, once per second (Table 17-7). -/
def execHeartbeat (s : State) : Outcome State Fault Refusal :=
  .next (s.event 0xF [s.bringState, s.fget F.capStat_CAP_W 0, s.fget F.capStat_AVG_W 0, s.regWord R.hotStat 0, s.mgmt.dropped])

/-- An event whose slot of the history reads uncorrectably is discarded and counted (R248). -/
def State.evDiscard (s : State) (seq : Nat) : State :=
  if s.mgmt.evHist.any fun e => e.seq = seq then
    (s.onMgmt fun m => { m with evHist := m.evHist.filter fun e => e.seq ≠ seq, dropped := m.dropped + 1 }).fset F.alertStatus_EVT_DROP 0 1
  else s

/-- A RESEND datagram (R561): events still held are sent again with RESENT set; a count outside 1 to 256 asks for nothing. `bad`: the SEQ of
events whose slot of the history reads uncorrectably (R248). -/
def execResend (first count : Nat) (bad : List Nat) (s : State) : Outcome State Fault Refusal :=
  if count = 0 || 256 < count then .next s
  else
    let s := (bad.filter fun q => decide (first ≤ q ∧ q < first + count)).foldl State.evDiscard s
    .next ((s.mgmt.evHist.filter fun e => decide (first ≤ e.seq ∧ e.seq < first + count)).foldl (fun (s : State) e => s.emit (.event e true)) s)

/-- An ARP request for the port's address is answered (R558). -/
def execArpRequest (ip : Nat) (s : State) : Outcome State Fault Refusal :=
  .next (if s.portIp = some ip then s.emit (.other 1 [ip]) else s)

/-- An ICMP echo request to the port's address is answered with its data. -/
def execIcmpEcho (ip : Nat) (data : List Nat) (s : State) : Outcome State Fault Refusal :=
  .next (if s.portIp = some ip then s.emit (.other 2 (ip :: data)) else s)

/-- A DHCPv4 reply gives the port its address, mask and gateway when CONFIG holds none. -/
def execDhcpExchange (ip mask gateway : Nat) (s : State) : Outcome State Fault Refusal :=
  match s.seed.image with
  | none => .next s
  | some i => .next (if i.ip = 0 then s.onMgmt fun m => { m with ip := some ip, mask := mask, gateway := gateway } else s)

end Sys2Proof.Machine
end

