-- ==== Sys2Proof/Machine/Host.lean ====
section
/-!
DEFINITION. Host.lean: the commands of the host interface (R259, R541, R584 to R604): memory requests, CXL.mem, the link, Function Level Resets,
D states, ATS, MSI-X.
-/
namespace Sys2Proof.Machine

open Host (Outcome)

/-! ## Memory requests -/

/-- A host memory read through BAR2. -/
def execHostMemRead (fn : FnId) (addr len : Nat) (ecc : List Ecc) (s : State) : Outcome State Fault Refusal :=
  .next (s.hostArrive { fn := fn, addr := addr, op := .read len, ecc := ecc, mismatch := 0 })

/-- A host posted write through BAR2. -/
def execHostMemWrite (fn : FnId) (addr : Nat) (bytes : List Byte) (ep : Bool) (s : State) : Outcome State Fault Refusal :=
  .next (s.hostArrive { fn := fn, addr := addr, op := .write bytes ep, ecc := [], mismatch := 0 })

/-- FetchAdd of 32 or 64 bits (Table 8-8). -/
def execHostFetchadd (fn : FnId) (addr : Nat) (wide : Bool) (value : W64) (mismatch : Nat) (s : State) : Outcome State Fault Refusal :=
  .next (s.hostArrive { fn := fn, addr := addr, op := .fetchAdd wide value, ecc := [], mismatch := mismatch })

/-- Swap of 32 or 64 bits. -/
def execHostSwap (fn : FnId) (addr : Nat) (wide : Bool) (value : W64) (mismatch : Nat) (s : State) : Outcome State Fault Refusal :=
  .next (s.hostArrive { fn := fn, addr := addr, op := .swap wide value, ecc := [], mismatch := mismatch })

/-- Compare-and-swap of 32 (0) or 64 bits (1); one of 128 bits is refused. -/
def execHostCas (fn : FnId) (addr : Nat) (width : BitVec 2) (cmp new : W64) (mismatch : Nat) (s : State) : Outcome State Fault Refusal :=
  .next (s.hostArrive { fn := fn, addr := addr, op := .cas width cmp new, ecc := [], mismatch := mismatch })

/-! ## CXL.mem (R598, R599) -/

/-- A CXL.mem read of the 64-byte line `line` of the HDM range. -/
def execCxlMemRead (line : Nat) (cacheable : Bool) (ecc : List Ecc) (s : State) : Outcome State Fault Refusal :=
  .next (s.hostArrive { fn := 63, addr := line * 64, op := .cxlRead cacheable, ecc := ecc, mismatch := 0 })

/-- A CXL.mem write of bytes of the line `line`. -/
def execCxlMemWrite (line : Nat) (bytes : List Byte) (enable : BitVec 64) (poison : Bool) (s : State) : Outcome State Fault Refusal :=
  .next (s.hostArrive { fn := 63, addr := line * 64, op := .cxlWrite bytes enable poison, ecc := [], mismatch := 0 })

/-- The host commits the HDM decoder with a size: only the populated seedstore and 1 GiB commits (R598). -/
def execHdmDecoderCommit (size : Nat) (s : State) : Outcome State Fault Refusal :=
  let ok := decide (size = s.partNo.capacity + 0x40000000)
  .next ({ s with host := { s.host with hdm := ok } }.emit (.other 6 [one ok]))

/-! ## The link (R585, R603, R613) -/

/-- Is the host interface domain on, and PERST# released (Table 19-2, R463). -/
def State.hostDomain (s : State) : Bool :=
  s.rst.standby && s.rst.pwrOk && !s.rst.emergency && !s.power.shed && s.sleep ≠ 3 && !s.rst.perst

/-- Completion records held for want of a link are written, as far as there is room. -/
def State.flushRings (s : State) (rs : List Nat) : State :=
  rs.foldl (fun (s : State) r => s.flushCpl r (s.ring r).held.length) s

/-- The link trains: at ×16 it comes up at SPEED `speed` + 1; at another width the receivers return to Detect, and WIDTH_ERR is set. -/
def execHostLinkTrain (width : Nat) (speed : Fin 6) (flit cxl : Bool) (s : State) : Outcome State Fault Refusal :=
  if !s.hostDomain then .next s
  else if width ≠ 16 then
    let t := s.linkDown
    .next { t with host := { t.host with widthErr := true } }
  else
    let s := { s with host := { s.host with link := true, speed := speed + 1, flit := flit || speed.val = 5, cxl := cxl, widthErr := false } }
    .next (s.flushRings (s.rings.map Prod.fst))

/-- The read of the next entry of a ring in host memory is aborted: its ring halts with RING_FETCH (R603, R632). -/
def State.ringAborted (s : State) (r : Nat) : State :=
  if (s.ringOff r).isSome then s else s.after (execRingReadFail (Fin.ofNat 128 r) s)

/-- The link goes down: what waits at the interface is lost, and rings that are reading an entry halt. -/
def State.hostDown (s : State) : State :=
  if !s.host.link then s
  else ((s.rings.map Prod.fst).foldl (fun (s : State) r => s.ringAborted r) s.linkDown)

/-- The host link goes down (R603). -/
def execHostLinkDown (s : State) : Outcome State Fault Refusal := .next s.hostDown

/-! ## Function Level Reset, D states (R601, R602) -/

/-- What a reset of a function clears in the interface: its D state, its vectors, its waiting requests; its DMA and interrupts stop. -/
def State.fnReset (s : State) (fn : Nat) : State :=
  let mine (k : Nat) : Bool := k / 256 = fn
  { s with host := { s.host with d3 := setDel s.host.d3 fn, off := setIns s.host.off fn, unmasked := s.host.unmasked.filter fun k => !mine k,
                                 pend := s.host.pend.filter fun k => !mine k, held := s.host.held.filter fun h => h.req.fn ≠ fn } }

/-- Rings of the partitions a function owns. -/
def State.ringsOfFn (s : State) (fn : Nat) : List Nat :=
  (s.parts.filter fun x => x.2.owner = fn).flatMap fun x => (List.range 4).map fun i => x.1 * 4 + i

/-- A VF's Function Level Reset: RING_CTL.RESET of every ring of its partition. -/
def execVfFlr (vf : Fin 32) (s : State) : Outcome State Fault Refusal :=
  let fn := vf.val + 1
  .next ((s.ringsOfFn fn).foldl (fun (s : State) r => s.resetRing r) (s.fnReset fn))

/-- A PF Function Level Reset: a host reset, and a reset of every VF. -/
def execPfFlr (s : State) : Outcome State Fault Refusal :=
  let t := s.hostReset.endEntry
  .next ((List.range 33).foldl (fun (s : State) fn => s.fnReset fn) t)

/-- A function enters D3hot: its rings take no entry and raise no interrupt. -/
def execD3hotEntry (fn : FnId) (s : State) : Outcome State Fault Refusal :=
  .next { s with host := { s.host with d3 := setIns s.host.d3 fn } }

/-- A function returns to D0, or is enabled again after its reset: completion records held are written. -/
def execD0Return (fn : FnId) (s : State) : Outcome State Fault Refusal :=
  let s := { s with host := { s.host with d3 := setDel s.host.d3 fn, off := setDel s.host.off fn } }
  .next (s.flushRings (s.ringsOfFn fn))

/-! ## ATS and MSI-X -/

/-- An ATS invalidation: no ring read is in flight between commands, so it completes at once (R603). -/
def execAtsInvalidate (fn : FnId) (tag : BitVec 5) (s : State) : Outcome State Fault Refusal := .next (s.emit (.other 7 [fn, tag.toNat]))

/-- The host unmasks a vector: a message pending is sent (R597). A function in D3hot or stopped keeps it pending. -/
def execMsixVectorUnmask (fn : FnId) (vector : BitVec 8) (s : State) : Outcome State Fault Refusal :=
  let v := vector.toNat
  let k := fn.val * 256 + v
  if vectorsOf fn ≤ v then .next s
  else
    let s := { s with host := { s.host with unmasked := setIns s.host.unmasked k } }
    if s.host.pend.contains k && !s.host.d3.contains fn && !s.host.off.contains fn then
      .next ({ s with host := { s.host with pend := setDel s.host.pend k } }.msix fn v)
    else .next s

end Sys2Proof.Machine
end

