-- ==== Sys2Proof/Machine/Vector.lean ====
section
/-!
DEFINITION. Vector.lean: the vector path: its checks and its operations (R85 to R88, R119 to R129, R164, R631).
-/
namespace Sys2Proof.Machine

open Host (Outcome)

/-! ## Checks (R164, R628, R631) -/

/-- Largest SUB listed for an OP (Table 5-15). -/
def vecSubMax (op : Nat) : Nat := if op = 1 then 7 else if op = 2 then 6 else if op = 4 then 2 else 0

/-- Reserved bits, and fields the operation does not use, hold zero (R162, R631). A field whose use depends on a reserved
element type code is not judged. -/
def vecRsvd (c : Cmd) (f : List Byte) : Bool :=
  let v := vecParse c f
  let okA := etValid v.fA
  let okB := etValid v.fB
  let okD := etValid v.fD
  let reserved := bitsOf c.body.toNat 0 23 ≠ 0 || fieldB f 0 1 ≥ 64 || fieldB f 1 1 ≥ 64 || fieldB f 2 1 ≥ 64 ||
    fieldB f 3 1 ≥ 64 || !zeroB f 5 3 || !zeroB f 14 2 || !zeroB f 21 3 || !zeroB f 37 3 || !zeroB f 60 2 ||
    [24, 28, 40, 44].any (fun a => decide (0x20000 ≤ fieldB f a 4)) ||
    (v.op = 3 && v.mulCh && v.fA = 0x12 && decide (0x20000 ≤ v.mul))
  let unused (use : Bool) (x : Nat) : Bool := !use && x ≠ 0
  let dot := v.op = 0
  let ew := v.op = 1
  let cvt := v.op = 3
  let stat := v.op = 4
  let pack := v.op = 5
  reserved || unused ew (if v.bcast then 1 else 0) ||
  unused (dot || ew) v.fB || unused cvt v.rmode || unused cvt (if v.sat then 1 else 0) ||
  unused (cvt && (v.fA = 0x12 || !okA)) (if v.mulCh then 1 else 0) || unused dot v.bCount ||
  unused (ew && v.sub = 6) v.pred || unused (dot || stat || (cvt && v.mulCh && (v.fA = 0x12 || !okA))) v.k ||
  unused (dot || (ew && !v.bcast)) v.bA ||
  unused (pack || ((dot || cvt || stat) && (etScaled v.fA || !okA))) v.asA ||
  unused (dot && (etScaled v.fB || !okB)) v.bsA || unused (pack || (cvt && (etMx v.fD || !okD))) v.dsA ||
  unused (cvt && (v.fA = 0x12 || !okA)) v.mul || unused cvt v.seed || unused (ew && v.bcast) v.scalar

/-- Formats the operation permits (Table 5-15, R93, R129). -/
def VecFrame.fmtOk (v : VecFrame) : Bool :=
  let fp (t : Nat) : Bool := t = 1 || t = 2 || t = 3
  if v.op = 0 then (mtxClass v.fA v.fB 0).isSome && v.fD = 1
  else if v.op = 1 then fp v.fA && v.fB = v.fA && v.fD = v.fA
  else if v.op = 2 then v.fA = 1 && v.fD = 1
  else if v.op = 3 then etValid v.fA && etValid v.fD && v.fD ≠ 0x18
  else if v.op = 4 then etValid v.fA && v.fA ≠ 0x18 && v.fD = 1
  else v.fA = 0x10 && v.fD = 0x18

/-- Counts within range (R164, Table 5-16). -/
def VecFrame.rangeOk (v : VecFrame) : Bool :=
  v.sub ≤ vecSubMax v.op && 1 ≤ v.count && v.count ≤ 1048576 &&
  (if v.op = 0 then 1 ≤ v.k && 1 ≤ v.bCount && v.bCount ≤ 8 && (v.fA ≠ 0x18 || (v.count % 16 = 0 && v.k % 128 = 0))
   else if v.op = 4 then decide (1 ≤ v.k)
   else if v.op = 3 then !v.mulCh || decide (1 ≤ v.k)
   else if v.op = 1 && v.sub = 6 then decide (v.pred ≤ 5)
   else true)

/-- The regions in scratch, those of A in a vault apart. -/
def VecFrame.scratchRegs (v : VecFrame) : List (Nat × Nat) :=
  (((if v.aVault then [] else [v.regA, v.regAS]) ++ [v.regB, v.regBS, v.regMul, v.regD, v.regDS]).filter fun x =>
    decide (0 < x.2))

/-- The checks of R164 in their order; 0 when they pass. -/
def vecCheck (n : Nat) (v : VecFrame) : Nat :=
  let meets (a b : Nat × Nat) : Bool := decide (a.1 < b.1 + b.2 ∧ b.1 < a.1 + a.2)
  if !v.fmtOk then 0x0501
  else if !v.rangeOk then 0x0502
  else if v.scratchRegs.any fun x => decide (x.1 % 32 ≠ 0) then 0x0503
  else if v.scratchRegs.any fun x => decide (scratchEnd < x.1 + x.2) then 0x0504
  else if v.aVault && [v.regA, v.regAS].any fun x =>
      decide (0 < x.2 ∧ (x.1 < vaultBase n ∨ vaultBase (n + 1) < x.1 + x.2)) then 0x0505
  else if v.op = 3 && 5 < v.rmode then 0x0506
  else if v.op = 0 && ((!v.aVault && meets v.regD v.regA) || meets v.regD v.regB) then 0x0507
  else 0

/-! ## Results -/

/-- What an operation computes: encodings of D, bytes of DS, and what it counts (BT2_INVALID, NAN_GEN, CVT_SAT, NAN_CVT). -/
structure VecOut where
  d : List Nat
  ds : List Byte
  bt2 : Nat
  nan : Nat
  sat : Nat
  nanCvt : Nat

/-- Value of element `p` of a row at `a` with scales at `sc`: block b's scale is byte b. -/
def rowElem (t : Nat) (rd : Nat → Byte) (a sc p : Nat) : Num :=
  let x := rawValue t (elemRaw t (fun o => rd (a + o)) p)
  if etScaled t then
    match scaleValue (rd (sc + p / 32)) with
    | .nan => .nan
    | y => x.mul y
  else x

/-- Weight (r, k) of a DOT (R631). -/
def VecFrame.weight (v : VecFrame) (rd : Nat → Byte) (r k : Nat) : Num :=
  if v.fA = 0x18 then
    let run := r / 16 * (v.k / 128) + k / 128
    rowElem 0x18 rd (v.aA + run * 410) (v.asA + run * 64) (r % 16 * 128 + k % 128)
  else rowElem v.fA rd (v.aA + r * rowBytes v.fA v.k) (v.asA + r * ((v.k + 31) / 32)) k
/-- Element k of activation vector x of a DOT. -/
def VecFrame.actv (v : VecFrame) (rd : Nat → Byte) (x k : Nat) : Num :=
  rowElem v.fB rd (v.bA + x * rowBytes v.fB v.k) (v.bsA + x * ((v.k + 31) / 32)) k

/-- Elements summed with one rounding (R119): the lane rate of FMT_A's row of Table 3-9; an INT8 × INT8 sum whole. -/
def VecFrame.lane (v : VecFrame) : Nat :=
  if v.fA = 0x18 then 256 else if v.fA = 2 ∨ v.fA = 3 then 64
  else if v.fA = 0x10 ∧ v.fB = 0x10 then 65536 else 128

/-- Sum terms, each with whether its inputs are finite, in groups of `lane`, each exactly with the running value and rounded once (R119,
R122); `acc` none before the first group, which is the sum of its terms alone (log 191). Answers the bits and how often it became NaN or
infinite from finite inputs (R117). `fuel` bounds the groups. -/
def sumGroups (lane : Nat) : Nat → Option Nat → List (Num × Bool) → Nat × Nat
  | 0, acc, _ => (acc.getD 0, 0)
  | fuel + 1, acc, l =>
    match l with
    | [] => (acc.getD 0, 0)
    | _ =>
      let g := l.take lane
      let old := match acc with | some a => [f32 a] | none => []
      let r := round32 (numSum (old ++ g.map Prod.fst))
      let gen := if old.all Num.isFin && g.all Prod.snd && (f32 r).nonFinite then 1 else 0
      let (x, k) := sumGroups lane fuel (some r) (l.drop lane)
      (x, gen + k)

/-- Invalid BT2 bytes among `runs` runs at `a`, those that hold one of the first `count` trits (R107). -/
def badBt2Bytes (rd : Nat → Byte) (a count : Nat) : Nat :=
  ((List.range (packedLen 0x18 count)).filter fun b =>
    let j := b % 410
    !bt2Valid (rd (a + b)) (j = 409)).length

/-- DOT (R87, R119). -/
def VecFrame.dot (v : VecFrame) (rdA rd : Nat → Byte) : VecOut :=
  let ks := List.range v.k
  let res := (List.range v.bCount).flatMap fun x =>
    let xs := ks.map (v.actv rd x)
    (List.range v.count).map fun r =>
      let ps := (ks.zip xs).map fun (k, y) =>
        let w := v.weight rdA r k
        (elProd v.fA v.fB w y, w.isFin && y.isFin)
      sumGroups v.lane (v.k + 1) none ps
  { d := res.map Prod.fst, ds := [],
    bt2 := if v.fA = 0x18 then ((List.range (v.count / 16 * (v.k / 128))).map fun run =>
      badBt2Bytes rdA (v.aA + run * 410) 2048).foldl (· + ·) 0 else 0,
    nan := (res.map Prod.snd).foldl (· + ·) 0, sat := 0, nanCvt := 0 }

/-- One elementwise result (R120): encodings in, encoding out. -/
def ewOp (t sub pred a b d : Nat) : Nat :=
  let va := rawValue t a
  let vb := rawValue t b
  let vd := rawValue t d
  if sub = 7 then if vd.isZero then b else a
  else roundArith t (
    if sub = 0 then numSum [va, vb]
    else if sub = 1 then numSum [va, vb.neg]
    else if sub = 2 then va.mul vb
    else if sub = 3 then numSum [va.mul vb, vd]
    else if sub = 4 then numMin va vb
    else if sub = 5 then numMax va vb
    else if numCmp pred va vb then .fin false 1 0 else .fin false 0 0)

/-- EW (R120); under BCAST every B[i] is SCALAR converted once to FMT_B, an overflow counted once (R125). -/
def VecFrame.ew (v : VecFrame) (rdA rd : Nat → Byte) : VecOut :=
  let t := v.fA
  let cv := convElem t .rne false (f32 v.scalar)
  let sc := cv.bits
  let at_ (r : Nat → Byte) (a i : Nat) : Nat := elemRaw t (fun o => r (a + o)) i
  { d := (List.range v.count).map fun i =>
      ewOp t v.sub v.pred (at_ rdA v.aA i) (if v.bcast then sc else at_ rd v.bA i) (at_ rd v.dA i),
    ds := [], bt2 := 0, nan := 0, sat := one (v.bcast && cv.sat), nanCvt := 0 }

/-- FN (R121). -/
def VecFrame.fn (v : VecFrame) (rdA : Nat → Byte) : VecOut :=
  { d := (List.range v.count).map fun i =>
      (fpFn v.sub (BitVec.ofNat 32 (elemRaw 1 (fun o => rdA (v.aA + o)) i))).toNat,
    ds := [], bt2 := 0, nan := 0, sat := 0, nanCvt := 0 }

/-- Source value i of a conversion, its scale and multiplier applied (R123, R127). -/
def VecFrame.cvtSrc (v : VecFrame) (rdA rd : Nat → Byte) (i : Nat) : Num :=
  let x := rowElem v.fA rdA v.aA v.asA i
  if v.fA = 0x12 then
    x.mul (f32 (if v.mulCh then leNat ((List.range 4).map fun o => rd (v.mul % 0x20000 + i % v.k * 4 + o)) else v.mul))
  else x

/-- Successive groups of 32 of a list; `fuel` bounds them. -/
def blocks32 {α : Type} : Nat → List α → List (List α)
  | 0, _ => []
  | fuel + 1, l => match l with
    | [] => []
    | _ => l.take 32 :: blocks32 fuel (l.drop 32)

/-- CVT (R123 to R128, R626). -/
def VecFrame.cvt (v : VecFrame) (step : Nat) (rdA rd : Nat → Byte) : VecOut :=
  let src := (List.range v.count).map fun i => (v.cvtSrc rdA rd i, (rmodeOf v.rmode v.seed step i).getD .rne)
  let bt2 := if v.fA = 0x18 then badBt2Bytes rdA v.aA v.count else 0
  if etMx v.fD then
    let bs := (blocks32 (v.count + 1) src).map fun b => mxBlock v.fD (b.map Prod.snd) v.sat (b.map Prod.fst)
    { d := bs.flatMap fun b => b.2.1 ++ List.replicate (32 - b.2.1.length) 0, ds := bs.map fun b => BitVec.ofNat 8 b.1,
      bt2 := bt2, nan := 0, sat := (bs.map fun b => b.2.2.1).foldl (· + ·) 0,
      nanCvt := (bs.map fun b => b.2.2.2).foldl (· + ·) 0 }
  else
    let rs := src.map fun (x, m) => convElem v.fD m v.sat x
    { d := rs.map CvtRes.bits, ds := [], bt2 := bt2, nan := 0, sat := (rs.filter CvtRes.sat).length,
      nanCvt := (rs.filter CvtRes.nan).length }

/-- STAT (R122): the largest value of a row, NaN if it holds one. -/
def rowMax : List Num → Num
  | [] => .nan
  | [x] => x
  | x :: t => numMax x (rowMax t)
def VecFrame.stat (v : VecFrame) (rdA : Nat → Byte) : VecOut :=
  let res := (List.range v.count).map fun r =>
    let xs := (List.range v.k).map fun k =>
      rowElem v.fA rdA (v.aA + r * rowBytes v.fA v.k) (v.asA + r * ((v.k + 31) / 32)) k
    if v.sub = 2 then (round32 (rowMax xs), 0)
    else sumGroups 64 (v.k + 1) none (xs.map fun x => (if v.sub = 0 then x else x.mul x, x.isFin))
  { d := res.map Prod.fst, ds := [], bt2 := 0, nan := (res.map Prod.snd).foldl (· + ·) 0, sat := 0, nanCvt := 0 }

/-- PACK3 (R129): 410 bytes for each run; a value beyond −1 to +1 is replaced by its sign and counted. -/
def VecFrame.pack3 (v : VecFrame) (rdA : Nat → Byte) : VecOut :=
  let trit (run p : Nat) : Int := if 2048 ≤ p then 0 else signed (rdA (v.aA + run * 2048 + p)).toNat 8
  let dig (i : Int) : Nat := if i = 0 then 0 else if 0 < i then 1 else 2
  { d := (List.range v.count).flatMap fun run => (List.range 410).map fun j =>
      [4, 3, 2, 1, 0].foldl (fun a t => 3 * a + dig (trit run (5 * j + t))) 0,
    ds := (List.range (v.count * 64)).map fun i => rdA (v.asA + i),
    bt2 := 0, nan := 0,
    sat := ((List.range v.count).map fun run =>
      ((List.range 2048).filter fun p => decide (1 < (trit run p).natAbs)).length).foldl (· + ·) 0,
    nanCvt := 0 }

/-- The result of a vector command. -/
def VecFrame.compute (v : VecFrame) (step : Nat) (rdA rd : Nat → Byte) : VecOut :=
  if v.op = 0 then v.dot rdA rd else if v.op = 1 then v.ew rdA rd else if v.op = 2 then v.fn rdA
  else if v.op = 3 then v.cvt step rdA rd else if v.op = 4 then v.stat rdA else v.pack3 rdA

/-- Do the outputs fail the envelope (Table 12-3): floating-point outputs, MX elements times their scale, INT32 outputs of
CVT. -/
def VecFrame.envFails (v : VecFrame) (e : Env) (d : List Nat) (ds : List Byte) : Bool :=
  if (v.op = 1 && v.sub = 7) || v.op = 5 || v.fD = 0x10 || v.fD = 0x11 || v.fD = 0x0D then false
  else if v.fD = 0x12 then d.any e.failsInt
  else if etMx v.fD then
    (d.zip (List.range d.length)).any fun (w, i) =>
      decide (i < v.count) && e.failsFp ((rawValue v.fD w).mul (scaleValue (ds.getD (i / 32) 0)))
  else d.any fun w => e.failsFp (rawValue v.fD w)

/-- Encodings of D as bytes; the last INT4 nibble of an odd count leaves the byte's other half as it was. -/
def VecFrame.dBytes (v : VecFrame) (rd : Nat → Byte) (d : List Nat) : List Byte :=
  if v.op = 5 then d.map (BitVec.ofNat 8)
  else
    let b := packElems v.fD d
    if v.fD = 0x11 && v.count % 2 = 1 then
      putB b (b.length - 1) [b.getLastD 0 ||| (rd (v.dA + b.length - 1) &&& 0xF0)]
    else b

/-- Bursts of a vault that a run of bytes touches (R209). -/
def burstsOf (a n : Nat) : Nat := if n = 0 then 0 else (a + n - 1) / 256 - a / 256 + 1

/-- Step-times in which the vector path completes the work of a command at its lane rate (R85, Table 3-9). -/
def VecFrame.steps (v : VecFrame) : Nat :=
  let (work, lanes) : Nat × Nat :=
    if v.op = 0 then (v.count * v.k * v.bCount, if v.fA = 0x18 then 256 else if v.fA = 2 || v.fA = 3 then 64 else 128)
    else if v.op = 1 then (v.count, if v.fA = 1 then 32 else 64)
    else if v.op = 2 then (v.count, 16)
    else if v.op = 4 then (v.count * v.k, 64)
    else if v.op = 5 then (v.count * 2048, 64)
    else (v.count, 64)
  (work + lanes - 1) / lanes

/-- The vector path takes the command at the head of its queue and performs it (R164). -/
def State.vec (s : State) (n op sub : Nat) (flips : List (Nat × Nat)) : State :=
  match s.take n 1 5 op (fun d => d.sub = sub || vecSubMax op < d.sub) 64 with
  | .idle => s
  | .done s => s
  | .ok s1 d f =>
    if vecRsvd d f then s1.failCmd n 0x0205 else
    let v := vecParse d f
    let e := vecCheck n v
    if e ≠ 0 then s1.failCmd n e else
    if !s.scratchFree n d.seq v.spans || (v.aVault && (s.orderHeld n d.seq false false || !s.memFree n d.seq (s.cmdMem n d))) then s else
    let (env, s2) := s1.takeEnv n d
    let c := s2.core n
    let rd := c.sget n
    let rdA := if v.aVault then s2.rd8 else rd
    let o := v.compute d.step rdA rd
    let words := strike flips o.d
    let inCh (x : Nat × Nat) : Bool := c.schaffIn x.1 x.2
    let aCh (x : Nat × Nat) : Bool := if v.aVault then (granules x.1 x.2).any s2.chaff.contains else inCh x
    let chaff := d.chaff || c.schaffIn d.frame 64 || aCh v.regA || aCh v.regAS || inCh v.regB || inCh v.regBS ||
      inCh v.regMul || (v.op = 1 && (v.sub = 3 || v.sub = 7) && inCh v.regD)
    let bytes := v.dBytes rd words
    let good := v.dBytes rd o.d
    let c := (c.swrite v.dA bytes chaff).swrite v.dsA o.ds chaff
    let s3 := ((s2.setCore n c).noteItem n true v.dA bytes.length).noteItem n true v.dsA o.ds.length
    let s3 := if chaff then s3.itemChaff n else s3
    let cnt (s : State) (i k : Nat) : State := if k = 0 then s else s.coreCount n i k
    let s3 := cnt (cnt (cnt (cnt (cnt s3 1 v.steps) 8 o.bt2) 10 o.nan) 11 o.sat) 12 o.nanCvt
    let s3 := if v.aVault then cnt s3 4 (burstsOf v.regA.1 v.regA.2 + burstsOf v.regAS.1 v.regAS.2) else s3
    let s3 := if o.bt2 = 0 then s3 else s3.warning n 0x0101
    if v.envFails env words o.ds then
      s3.suspect n (if op = 0 then .dot d f else .recompute d f good o.ds)
    else s3

/-- DOT (R87, R119). `flips` here and below: bits of output elements that a transient flips. -/
def execDot (core : CoreId) (flips : List (Nat × Nat)) (s : State) : Outcome State Fault Refusal := .next (s.vec core 0 0 flips)
/-- EW ADD (R120). -/
def execEwAdd (core : CoreId) (flips : List (Nat × Nat)) (s : State) : Outcome State Fault Refusal := .next (s.vec core 1 0 flips)
/-- EW SUB (R120). -/
def execEwSub (core : CoreId) (flips : List (Nat × Nat)) (s : State) : Outcome State Fault Refusal := .next (s.vec core 1 1 flips)
/-- EW MUL (R120). -/
def execEwMul (core : CoreId) (flips : List (Nat × Nat)) (s : State) : Outcome State Fault Refusal := .next (s.vec core 1 2 flips)
/-- EW FMA (R120). -/
def execEwFma (core : CoreId) (flips : List (Nat × Nat)) (s : State) : Outcome State Fault Refusal := .next (s.vec core 1 3 flips)
/-- EW MIN (R120). -/
def execEwMin (core : CoreId) (flips : List (Nat × Nat)) (s : State) : Outcome State Fault Refusal := .next (s.vec core 1 4 flips)
/-- EW MAX (R120). -/
def execEwMax (core : CoreId) (flips : List (Nat × Nat)) (s : State) : Outcome State Fault Refusal := .next (s.vec core 1 5 flips)
/-- EW CMP (R120). -/
def execEwCmp (core : CoreId) (flips : List (Nat × Nat)) (s : State) : Outcome State Fault Refusal := .next (s.vec core 1 6 flips)
/-- EW SEL (R120). -/
def execEwSel (core : CoreId) (flips : List (Nat × Nat)) (s : State) : Outcome State Fault Refusal := .next (s.vec core 1 7 flips)
/-- FN RCP (R121). -/
def execFnRcp (core : CoreId) (flips : List (Nat × Nat)) (s : State) : Outcome State Fault Refusal := .next (s.vec core 2 0 flips)
/-- FN RSQRT (R121). -/
def execFnRsqrt (core : CoreId) (flips : List (Nat × Nat)) (s : State) : Outcome State Fault Refusal := .next (s.vec core 2 1 flips)
/-- FN EXP (R121). -/
def execFnExp (core : CoreId) (flips : List (Nat × Nat)) (s : State) : Outcome State Fault Refusal := .next (s.vec core 2 2 flips)
/-- FN LOG (R121). -/
def execFnLog (core : CoreId) (flips : List (Nat × Nat)) (s : State) : Outcome State Fault Refusal := .next (s.vec core 2 3 flips)
/-- FN TANH (R121). -/
def execFnTanh (core : CoreId) (flips : List (Nat × Nat)) (s : State) : Outcome State Fault Refusal := .next (s.vec core 2 4 flips)
/-- FN LOGISTIC (R121). -/
def execFnLogistic (core : CoreId) (flips : List (Nat × Nat)) (s : State) : Outcome State Fault Refusal := .next (s.vec core 2 5 flips)
/-- FN ERF (R121). -/
def execFnErf (core : CoreId) (flips : List (Nat × Nat)) (s : State) : Outcome State Fault Refusal := .next (s.vec core 2 6 flips)
/-- CVT (R123 to R128, R626). -/
def execCvt (core : CoreId) (flips : List (Nat × Nat)) (s : State) : Outcome State Fault Refusal := .next (s.vec core 3 0 flips)
/-- STAT SUM (R122). -/
def execStatSum (core : CoreId) (flips : List (Nat × Nat)) (s : State) : Outcome State Fault Refusal := .next (s.vec core 4 0 flips)
/-- STAT SUMSQ (R122). -/
def execStatSumsq (core : CoreId) (flips : List (Nat × Nat)) (s : State) : Outcome State Fault Refusal := .next (s.vec core 4 1 flips)
/-- STAT MAX (R122). -/
def execStatMax (core : CoreId) (flips : List (Nat × Nat)) (s : State) : Outcome State Fault Refusal := .next (s.vec core 4 2 flips)
/-- PACK3 (R129). -/
def execPack3 (core : CoreId) (flips : List (Nat × Nat)) (s : State) : Outcome State Fault Refusal := .next (s.vec core 5 0 flips)

end Sys2Proof.Machine
end

