-- ==== Sys2Proof/Machine/Huller.lean ====
section
/-!
DEFINITION. Huller.lean: huller commands, bank tasks and their records (R215 to R235), and the end of a verification
(R403 to R407).
-/
namespace Sys2Proof.Machine

open Host (Outcome)

/-! ## Checks (R226, R227) -/

/-- Reserved bits of a huller body and frame, and the fields an operation does not use (R226). -/
def hulRsvd (c : Cmd) (f : List Byte) : Bool :=
  let h := hulParse c f
  bitsOf c.body.toNat 0 24 ≠ 0 || fieldB f 4 3 ≥ 0x40000 || !zeroB f 7 1 || fieldB f 12 1 ≥ 64 || fieldB f 13 1 ≥ 64 ||
  decide (0x20000 ≤ h.qA) || decide (0x20000 ≤ h.pA) || !zeroB f 32 30 ||
  (decide (2 ≤ c.op) && (h.fmtQ ≠ 0 || h.qA ≠ 0)) || (c.op = 2 && h.scale ≠ 0) ||
  (c.op = 3 && (h.hd ≠ 0 || h.pA ≠ 0 || h.pos ≠ 0))

/-- Format pairs of Table 7-6. -/
def HulCmd.fmtOk (h : HulCmd) : Bool :=
  if h.op ≤ 1 then (h.fmtB = 2 && h.fmtQ = 2) || (h.fmtB = 3 && h.fmtQ = 3) || ((h.fmtB = 4 || h.fmtB = 5) && h.fmtQ = 2)
  else if h.op = 2 then [1, 2, 3, 4, 5].contains h.fmtB
  else [1, 2, 3, 4, 5, 0x10, 0x12].contains h.fmtB

/-- HUL_RANGE of R227. -/
def HulCmd.rangeBad (h : HulCmd) : Bool :=
  let subMax := if h.op ≤ 1 then 15 else if h.op = 2 then 2 else 0
  let rec_ := h.banks.length * h.recLen
  h.mask = 0 || h.off % 256 ≠ 0 || h.len % 256 ≠ 0 || h.len = 0 || decide (0x40000 < h.off + h.len) ||
  (h.op ≠ 3 && (h.hd = 0 || decide (256 < h.hd))) ||
  (h.op = 0 && h.len % h.sheaf ≠ 0) || ((h.op = 1 || h.op = 2) && decide (h.len < hulRow h.fmtB h.hd)) ||
  decide (subMax < h.sub) || h.qA % 32 ≠ 0 || h.pA % 32 ≠ 0 ||
  decide (0 < h.qLen ∧ 0 < rec_ ∧ h.qA < h.pA + rec_ ∧ h.pA < h.qA + h.qLen)

/-- The checks of R227 in their order; 0 when they pass. -/
def State.hulCheck (s : State) (n : Nat) (h : HulCmd) : Nat :=
  if !h.fmtOk then 0x0601
  else if h.banks.any fun b => s.ret.gone.contains (n * 32 + b) then 0x0603
  else if h.rangeBad then 0x0602
  else if scratchEnd < h.qA + h.qLen ∨ scratchEnd < h.pA + h.banks.length * h.recLen then 0x0303
  else 0

/-- The issue port accepts the command at the head of the huller queue (R218): one bank task for each bank named (R216). -/
def State.hulAccept (s : State) (n op : Nat) (mine : Cmd → Bool) : State :=
  match s.take n 2 3 op mine 64 with
  | .idle => s
  | .done s => s
  | .ok s1 d f =>
    if hulRsvd d f then s1.failCmd n 0x0205 else
    let h := hulParse d f
    let e := s1.hulCheck n h
    if e ≠ 0 then s1.failCmd n e else
    if s.orderHeld n d.seq false (op = 3) then s else
    let (env, s2) := s1.takeEnv n d
    let ch := d.chaff || (s.core n).schaffIn d.frame 64
    let h := { h with env := env, chaff := d.chaff, tasks := h.banks.map fun b => ⟨b, .waiting, 0, 0, false⟩ }
    let s2 := if ch then s2.itemChaff n else s2
    s2.onCore n fun c => { c with hul := c.hul ++ [h] }

/-- ATTN (R226). -/
def execAttn (core : CoreId) (s : State) : Outcome State Fault Refusal := .next (s.hulAccept core 0 fun _ => true)
/-- DOTV (R226). -/
def execDotv (core : CoreId) (s : State) : Outcome State Fault Refusal := .next (s.hulAccept core 1 fun _ => true)
/-- RED SUM (R226); a RED command with an unlisted SUB fails with HUL_RANGE in any row of RED. -/
def execRedSum (core : CoreId) (s : State) : Outcome State Fault Refusal :=
  .next (s.hulAccept core 2 fun d => d.sub = 0 || 2 < d.sub)
/-- RED MAX (R226). -/
def execRedMax (core : CoreId) (s : State) : Outcome State Fault Refusal :=
  .next (s.hulAccept core 2 fun d => d.sub = 1 || 2 < d.sub)
/-- RED MIN (R226). -/
def execRedMin (core : CoreId) (s : State) : Outcome State Fault Refusal :=
  .next (s.hulAccept core 2 fun d => d.sub = 2 || 2 < d.sub)
/-- FILL (R226). -/
def execFill (core : CoreId) (s : State) : Outcome State Fault Refusal := .next (s.hulAccept core 3 fun _ => true)

/-! ## The rows of a task (R224, R225) -/

/-- First byte of a bank's range, as a local address. -/
def HulCmd.base (h : HulCmd) (n b : Nat) : Nat := vaultBase n + b * 0x40000 + h.off

/-- Element bytes of an element type the hullers accept. -/
def eb (t : Nat) : Nat := etBits t / 8

/-- Index under R225 of the first position or row of the bank of ordinal `o`. -/
def HulCmd.firstIndex (h : HulCmd) (o : Nat) : Nat :=
  if h.op = 0 then o * (h.len / h.sheaf * 64) else o * h.rows

/-- Positions or rows of a bank, before POS_LIMIT. -/
def HulCmd.units (h : HulCmd) : Nat := if h.op = 0 then h.len / h.sheaf * 64 else h.rows

/-- Positions or rows of the bank of ordinal `o` that take part (R225). -/
def HulCmd.included (h : HulCmd) (o : Nat) : List Nat :=
  (List.range h.units).filter fun j => decide (h.firstIndex o + j < h.pos) || h.pos = 0xFFFFFFFF

/-- Addresses of the key and value rows of position j (ATTN). -/
def HulCmd.keyRow (h : HulCmd) (base j : Nat) : Nat := base + j / 64 * h.sheaf + j % 64 * hulRow h.fmtB h.hd
def HulCmd.valRow (h : HulCmd) (base j : Nat) : Nat := h.keyRow base j + 64 * hulRow h.fmtB h.hd

/-- Ordinal of a bank among those of the command (R225). -/
def HulCmd.ordinal (h : HulCmd) (bank : Fin 32) : Nat := (h.banks.filter fun b => decide (b < bank.val)).length

/-- Does a byte at offset `off` of the range of the bank of ordinal `o` belong to a row that takes part. -/
def HulCmd.takesPart (h : HulCmd) (o off : Nat) : Bool :=
  let rs := hulRow h.fmtB h.hd
  let row := if h.op = 0 then off % h.sheaf / rs else off / rs
  let j := if h.op = 0 then off / h.sheaf * 64 + row % 64 else row
  decide ((if h.op = 0 then off % h.sheaf else off) % rs < h.hd * eb h.fmtB) && (h.op ≠ 0 || decide (row < 128)) && (h.included o).contains j

/-- Was a byte of a row that takes part, of the bank of ordinal `o` whose range begins at `base`, written by one of some runs (R285). -/
def HulCmd.torn (h : HulCmd) (base o : Nat) (runs : List (Nat × Nat)) : Bool :=
  runs.any fun r => (List.range r.2).any fun i =>
    decide (base ≤ r.1 + i ∧ r.1 + i < base + h.len) && h.takesPart o (r.1 + i - base)

/-- Words of 32 bytes that a task reads (R224), by local address. -/
def HulCmd.words (h : HulCmd) (base : Nat) : List Nat :=
  if h.op = 3 then []
  else if h.op = 0 then
    (List.range (h.len / h.sheaf)).flatMap fun k =>
      (List.range (128 * hulRow h.fmtB h.hd / 32)).map fun w => base + k * h.sheaf + 32 * w
  else (List.range (h.rows * hulRow h.fmtB h.hd / 32)).map fun w => base + 32 * w

/-! ## Slots and admission (R216, R217, R219) -/

/-- Change the task of a bank in the first command that has one in state `st`. -/
def onTask (b : Nat) (st : TaskSt) (f : BankTask → BankTask) : List HulCmd → List HulCmd
  | [] => []
  | h :: t =>
    if h.tasks.any fun k => k.bank = b && k.st = st then
      { h with tasks := h.tasks.map fun k => if k.bank = b && k.st = st then f k else k } :: t
    else h :: onTask b st f t

/-- Waiting tasks of a core in command issue order, then by bank, with their command's number. -/
def Core.waitingTasks (c : Core) : List (Nat × Nat) :=
  c.hul.flatMap fun h => (h.tasks.filter fun t => t.st = .waiting).map fun t => (h.cmd.seq, t.bank)

/-- Tasks of a core in compute slots (taken and not ended), and those computing. -/
def Core.inSlots (c : Core) : List Nat :=
  c.hul.flatMap fun h => (h.tasks.filter fun t => t.st = .slot || t.st = .computing).map BankTask.bank
def Core.computing (c : Core) : Nat :=
  (c.hul.flatMap fun h => h.tasks.filter fun t => t.st = .computing).length

/-- Computing cap of a vault by its band (Table 7-9). -/
def State.vaultCap (s : State) (n : Nat) : Nat := if s.fget F.vaultBand_BAND n = 4 then 4 else 8

/-- The compute slot of a layer slice takes its next task (R216, R217), which asks the plot limiter for admission. -/
def execBankTaskSlotTake (core : CoreId) (slice : Fin 8) (s : State) : Outcome State Fault Refusal :=
  let c := s.core core
  let used := c.inSlots
  let free (b : Nat) : Bool := !(used.any fun u => u / 4 = b / 4) && !s.retHeld core b
  -- the next task of each free slot; a slot whose next bank a substitution holds waits for it
  let next := (List.range 8).filterMap fun l => c.waitingTasks.find? fun t => t.2 / 4 = l
  let cand := c.waitingTasks.filter fun t => next.contains t && free t.2
  let cap := s.vaultCap core
  match cand.find? fun t => t.2 / 4 = slice.val with
  | none => .next s
  | some t =>
    let f := s.field (fieldOfCore core)
    -- below the full cap, slots that are free serve the waiting tasks in order
    if used.length < cap && (cap = 8 || cand.head? = some t) && !f.resetting then
      .next { s.setCore core { c with hul := onTask t.2 .waiting (fun k => { k with st := .slot, asked := s.nextAsk }) c.hul }
              with nextAsk := s.nextAsk + 1 }
    else .next s

/-- Cores of a plot in the table of State. -/
def State.plotCores (s : State) (p : Nat) : List (Nat × Core) := s.cores.filter fun x => plotOfCore x.1 = p

/-- Bank tasks computing in a plot. -/
def State.plotComputing (s : State) (p : Nat) : Nat := ((s.plotCores p).map fun x => x.2.computing).foldl (· + ·) 0

/-- May a bank task in its slot start: no substitution holds its bank (Table 13-5), nor do its core's earlier accesses: those to its query region (R69, R234) and to its range
(R222). -/
def State.taskFree (s : State) (n : Nat) (h : HulCmd) (bank : Nat) : Bool :=
  !s.retHeld n bank && s.scratchFree n h.cmd.seq (if h.query.isSome || h.qLen = 0 then [] else [(false, h.qA, h.qA + h.qLen)]) &&
  s.memFree n h.cmd.seq [s.bankSpan n h bank]

/-- Requests of a plot for admission: (when asked, whether the vault has no task computing). A task asks once it may start. -/
def State.plotAsks (s : State) (p : Nat) : List (Nat × Bool) :=
  (s.plotCores p).flatMap fun x =>
    x.2.hul.flatMap fun h => (h.tasks.filter fun t => t.st = .slot && s.taskFree x.1 h t.bank).map fun t => (t.asked, x.2.computing = 0)

/-- The plot limiter admits the task of a bank, and it starts computing (R219, R221, R222, R234). -/
def execBankTaskAdmit (core : CoreId) (bank : Fin 32) (s : State) : Outcome State Fault Refusal :=
  let c := s.core core
  let p := plotOfCore core
  let hasTask (h : HulCmd) : Bool := h.tasks.any fun t => t.bank = bank.val && t.st = .slot
  match c.hul.find? hasTask with
  | none => .next s
  | some h =>
    let asked := ((h.tasks.find? fun t => t.bank = bank.val && t.st = .slot).map BankTask.asked).getD 0
    let lone := c.computing = 0
    let asks := s.plotAsks p
    let turn :=
      if lone then asks.all fun a => !a.2 || decide (asked ≤ a.1)
      else decide (s.plotComputing p < s.fget F.hulPlotStat_CAP p) && asks.all fun a => !a.2 && decide (asked ≤ a.1)
    if turn && s.taskFree core h bank then
      let query := match h.query with | some x => x | none => c.sread core h.qA h.qLen
      let ch := h.query.isNone && c.schaffIn h.qA h.qLen
      let up (x : HulCmd) : HulCmd := if x.cmd.seq = h.cmd.seq then { x with query := some query } else x
      let hul := (onTask bank .slot (fun k => { k with st := .computing, from_ := s.hits.length, chaff := (h.words (h.base core bank)).any s.isChaff }) c.hul).map up
      let s := s.setCore core { c with hul := hul }
      .next (if ch then s.itemChaff core else s)
    else .next s

/-! ## What a task computes (R224 to R229) -/

/-- Query element (g, i). -/
def HulCmd.qv (h : HulCmd) (q : List Byte) (g i : Nat) : Num :=
  elemValue h.fmtQ (fieldB q (g * hulRow h.fmtQ h.hd + i * eb h.fmtQ) (eb h.fmtQ))

/-- Element i of the row at local address `a`. -/
def State.hulElem (s : State) (h : HulCmd) (a i : Nat) : Num :=
  elemValue h.fmtB (leNat (s.rdN (a + i * eb h.fmtB) (eb h.fmtB)))

/-- FP32 exponential of a difference, rounded once. -/
def expDiff (a b : Nat) : Nat := (fpFn 2 (BitVec.ofNat 32 (round32 (numSum [f32 a, (f32 b).neg])))).toNat

/-- One position of the ATTN fold of R228: state (m, l, o). -/
def attnStep (scale : BitVec 32) (q k v : List Num) (st : Nat × Nat × List Nat) : Nat × Nat × List Nat :=
  let d := round32 (numSum ((q.zip k).map fun (x, y) => x.mul y))
  let sc := round32 ((f32 scale.toNat).mul (f32 d))
  if sc = 0xFF800000 then st
  else
    let (m, l, o) := st
    let m2 := round32 (numMax (f32 m) (f32 sc))
    let a := expDiff m m2
    let b := expDiff sc m2
    (m2, round32 (numSum [(f32 l).mul (f32 a), f32 b]),
     (o.zip v).map fun (x, y) => round32 (numSum [(f32 x).mul (f32 a), (f32 b).mul y]))

/-- FP32 words of the body of one bank's record for query g, before padding. -/
def State.hulBody (s : State) (h : HulCmd) (base : Nat) (q : List Byte) (o g : Nat) : List Nat :=
  let is_ := List.range h.hd
  let inc := h.included o
  let qs := is_.map (h.qv q g)
  if h.op = 0 then
    let r := inc.foldl (fun st j =>
      attnStep h.scale qs (is_.map (s.hulElem h (h.keyRow base j))) (is_.map (s.hulElem h (h.valRow base j))) st)
      (0xFF800000, 0, is_.map fun _ => 0)
    r.1 :: r.2.1 :: r.2.2
  else if h.op = 1 then
    (List.range h.rows).map fun j =>
      if inc.contains j then
        let row := is_.map (s.hulElem h (base + j * hulRow h.fmtB h.hd))
        round32 ((f32 h.scale.toNat).mul (f32 (round32 (numSum ((qs.zip row).map fun (x, y) => x.mul y)))))
      else 0
  else
    let init : Nat := if h.sub = 0 then 0 else if h.sub = 1 then 0xFF800000 else 0x7F800000
    is_.map fun i => inc.foldl (fun a j =>
      let x := s.hulElem h (base + j * hulRow h.fmtB h.hd) i
      round32 (if h.sub = 0 then numSum [f32 a, x] else if h.sub = 1 then numMax (f32 a) x else numMin (f32 a) x)) init

/-- Pad bytes with zeros to a multiple of 32. -/
def pad32 (l : List Byte) : List Byte := l ++ List.replicate ((l.length + 31) / 32 * 32 - l.length) 0

/-- The record of a bank (Tables 7-7, 7-8) from the words of its queries. -/
def HulCmd.record (h : HulCmd) (bank count : Nat) (chaff : Bool) (bodies : List (List Nat)) : List Byte :=
  toLE 1 h.op ++ toLE 1 bank ++ toLE 2 h.g ++ toLE 4 count ++
  toLE 1 ((if chaff then 1 else 0) + (if count = 0 then 2 else 0)) ++ toLE 23 0 ++
  bodies.flatMap fun b => pad32 (b.flatMap (toLE 4))

/-- Does a record fail its envelope (Table 12-3). `finite`: the task read only finite elements. -/
def HulCmd.envFails (h : HulCmd) (count : Nat) (finite : Bool) (bodies : List (List Nat)) : Bool :=
  bodies.any fun b =>
    if h.op = 0 then
      let m := b.getD 0 0
      let l := f32 (b.getD 1 0)
      let lTest := decide (0 < count) && (f32 m).isFin && finite
      (b.drop 2).any (fun w => h.env.failsFp (f32 w)) ||
      (if lTest then !l.isFin || l.lt (.fin false 1 0) || (Num.fin false (count * 65537) (-16)).lt l
       else h.env.failsFp l)
    else b.any fun w => h.env.failsFp (f32 w)

/-- Did the task read only finite query, key and value elements (Table 12-3): excluded positions are read too (R225). -/
def State.hulFinite (s : State) (h : HulCmd) (base : Nat) (q : List Byte) : Bool :=
  let is_ := List.range h.hd
  ((List.range h.g).all fun g => is_.all fun i => (h.qv q g i).isFin) &&
  (List.range h.units).all fun j => is_.all fun i =>
    (s.hulElem h (h.keyRow base j) i).isFin && (s.hulElem h (h.valRow base j) i).isFin

/-- FILL converts SCALE once, RNE and SAT = 1 (R229). -/
def HulCmd.fillElem (h : HulCmd) : CvtRes := convElem h.fmtB .rne true (f32 h.scale.toNat)
/-- The bytes FILL writes to a bank. -/
def HulCmd.fillBytes (h : HulCmd) : List Byte := (List.range (h.len / eb h.fmtB)).flatMap fun _ => toLE (eb h.fmtB) h.fillElem.bits
/-- Values in one query's part of a record, before its padding (Table 7-8). -/
def HulCmd.bodyLen (h : HulCmd) : Nat := if h.op = 0 then 2 + h.hd else if h.op = 1 then h.rows else h.hd

/-- Take a command off when every task has ended (R218). -/
def Core.hulDone (c : Core) : Core := { c with hul := c.hul.filter fun h => !(h.tasks.all fun t => t.st = .ended) }

/-- A bank task ends (R218, R229, R232, R233): FILL writes its range; another writes its record into scratch. `ecc`: what
the code found in words of the range, by offset in the bank; `flips`: bits of result words that a transient flips. The values of a record are free when a
row that takes part was written while the task ran (R285). Chaff passes to the
record of a bank that read it; a chaff query or frame is consumed only (R416, R630). -/
def execBankTaskEnd (core : CoreId) (bank : Fin 32) (flips : List (Nat × Nat)) (ecc : List (Nat × Ecc)) (s : State) :
    Outcome State Fault Refusal :=
  let c := s.core core
  match c.hul.find? fun h => h.tasks.any fun t => t.bank = bank.val && t.st = .computing with
  | none => .next s
  | some h =>
    let base := h.base core bank
    let o := h.ordinal bank
    let ra := h.pA + o * h.recLen
    if h.op ≠ 3 && !s.scratchFree core h.cmd.seq [(true, ra, ra + h.recLen)] then .next s else
    let part := s.itemPart core
    let words := h.words base
    let before := words.filter s.isChaff
    let s := ecc.foldl (fun s e =>
      let a := vaultBase core + bank.val * 0x40000 + e.1
      if words.contains (granuleOf a) then s.eccRead a e.2 core part else s) s
    let ended (s : State) : State :=
      ((s.onCore core fun c => ({ c with hul := onTask bank .computing (fun k => { k with st := .ended }) c.hul }).hulDone)
        |>.coreCount core 6 1).coreCount core 7 h.len
    if h.op = 3 then
      let bs := if s.workDead core then s.undefBytes base h.fillBytes.length else h.fillBytes
      -- the command's one conversion is counted with its first bank (R125)
      let once (k i : Nat) (s : State) : State := if k = 0 || o ≠ 0 then s else s.coreCount core i k
      let s := once (one h.fillElem.sat) 11 (once (one h.fillElem.nan) 12 s)
      .next (ended ((s.wr base bs).noteItem core false base bs.length)) else
    let q := h.query.getD []
    let task := h.tasks.find? fun t => t.bank = bank.val && t.st = .computing
    -- chaff it found when it started, found by a word's code, or that lies in a row that takes part: a write to an excluded row since
    -- leaves the result as it is (R233, R285)
    let bad := task.any BankTask.chaff || words.any fun w => s.isChaff w && (h.takesPart o (w - base) || !before.contains w)
    let count := (h.included o).length
    let chaff := bad || h.chaff
    -- rows that take part and were written while the task ran (R285)
    let torn := task.any fun t => h.torn base o (s.hits.drop t.from_)
    let good : List (List Nat) :=
      if bad || torn || s.workDead core then (List.range h.g).map fun g =>
        (List.range h.bodyLen).map fun i =>
          leNat ((List.range 4).map fun k => Config.recordByte core h.cmd.seq bank (32 + g * ((h.recLen - 32) / h.g) + 4 * i + k))
      else (List.range h.g).map (s.hulBody h base q o)
    let per := match good with | b :: _ => b.length | [] => 1
    let struck := (good.zip (List.range good.length)).map fun (b, g) =>
      strike ((flips.filter fun f => f.1 / per = g).map fun f => (f.1 % per, f.2)) b
    let rec_ (x : List (List Nat)) : List Byte := h.record bank count chaff x
    let s := if chaff then s.itemChaff core else s
    let s := (s.onCore core fun c => c.swrite ra (rec_ struck) chaff).noteItem core true ra h.recLen
    let s := ended s
    if h.envFails count (s.hulFinite h base q) struck then
      .next (s.suspect core (.bank h.cmd bank ra (rec_ good) h.qA h.qLen))
    else .next s

/-! ## The end of a verification (R404 to R407) -/

/-- Verify a DOT as a WS instruction (R406). -/
def State.verifyDot (s : State) (n : Nat) (d : Cmd) (f : List Byte) : Option Nat × Option Nat :=
  let v := vecParse d f
  let rd := (s.core n).sget n
  let rdA := if v.aVault then s.rd8 else rd
  verifyWs (v.fA = 0x18) false v.count v.bCount v.k (v.weight rdA) (v.actv rd)
    (fun x r => f32 (leNat ((List.range 4).map fun o => rd (v.dA + (x * v.count + r) * 4 + o))))
    (fun _ _ => .fin false 0 0) (fun _ _ => false)

/-- The core ends the verification of its first command that failed its envelope: the outputs stand, or the fault is
confirmed with cause ARITH (R407). -/
def execEnvelopeVerifyDone (core : CoreId) (s : State) : Outcome State Fault Refusal :=
  let c := s.core core
  match c.verify with
  | [] => .next s
  | v :: rest =>
    let s' := s.setCore core { c with verify := rest }
    let sums (d : Cmd) (r : Option Nat × Option Nat) : State :=
      s'.verified core d (r.1.isNone && r.2.isNone) (r.1.getD 0xFFFF) (r.2.getD 0xFFFF) 0xFF
    match v with
    | .mtx i => .next (sums i.cmd (s.verifyMtx core i))
    | .dot d f => .next (sums d (s.verifyDot core d f))
    | .recompute d f e ds =>
      let v := vecParse d f
      .next (s'.verified core d (c.sread core v.dA e.length = e && c.sread core v.dsA ds.length = ds) 0xFFFF 0xFFFF 0xFF)
    | .bank d b a e _ _ => .next (s'.verified core d (c.sread core a e.length = e) 0xFFFF 0xFFFF b)

end Sys2Proof.Machine
end

