-- ==== Sys2Proof/Machine/Pins.lean ====
section
/-!
DEFINITION. Pins.lean: events of the input power and of REFCLK (R607, R616, R620), and the state of every signal pin (R607 to R612).
-/
namespace Sys2Proof.Machine

open Host (Outcome)

/-- The input falls below 38 V for 10 µs with PWR_OK high (Table 19-9): a POWER record, and the emergency commit as if PWR_OK had fallen. The
bring-up after it waits until the input stands in range: STEP_STRAP comes then. -/
def execInputSag (s : State) : Outcome State Fault Refusal :=
  if !s.rst.standby || !s.rst.pwrOk || s.rst.emergency then .next s
  else
    let t := (s.almanac 8 [4, 0, 0]).shedLoad.emergencyFlash
    .next { t with rst := { t.rst with emergency := true, job := none } }

/-- REFCLK stops while the link is up: the link goes down (Table 19-9). -/
def execRefclkLoss (s : State) : Outcome State Fault Refusal := .next s.hostDown

/-- The input reaches 36 V: the standby stage starts (Table 19-6). PWR_OK is not taken as high yet. -/
def execStandbyStageStart (s : State) : Outcome State Fault Refusal := .next { s with rst := { s.rst with standby := true } }

/-- The input falls below 28 V: the module goes dark. The flash keeps what it holds; everything else is lost (R607, R508). -/
def execStandbyStageStop (s : State) : Outcome State Fault Refusal :=
  if !s.rst.standby then .next s
  else
    let t := s.coldReset
    .next { t with
      mem := [], valid := [], chaff := [], power := { t.power with tripped := false, volt := State.reset.power.volt },
      rst := { standby := false, pwrOk := false, perst := false, warm := false, emergency := false, cold := true, job := none, alert := none } }

/-! ## The pins (Table 19-3) -/

/-- The signal pins; a lane where a pin has lanes. -/
inductive Pin where
  | pwrOk | perst | warmRst | alert | thermtrip | slotPresent | optsel | mgmtScl | mgmtSda | sgmiiTx | sgmiiRx | refclk
  | hostTx (lane : Fin 16)
  | hostRx (lane : Fin 16)
  | oncTx (port : Fin 12) (lane : Fin 9)
  | oncRx (port : Fin 12) (lane : Fin 9)
  deriving DecidableEq, Repr

/-- The states Table 19-3 gives a pin; `released` and `low` are those of an open drain, `idle` is electrical idle, `faultIdle` a transmitter
that sends FAULT_IDLE, `discarded` a receiver whose packets are discarded. -/
inductive PinState where
  | highZ | input | released | low | ground | pulledUp | served | idle | signalling | faultIdle | off | terminated | received | discarded
  deriving DecidableEq, Repr

/-- Is the host domain on (Table 19-2). -/
def State.hostPins (s : State) : Bool := s.rst.standby && s.rst.pwrOk && !s.rst.emergency && !s.power.shed && s.sleep ≠ 3
/-- Is the Oncon domain on. -/
def State.oncPins (s : State) : Bool := s.hostPins && s.sleep ≠ 2

/-- Has STEP_LINK of the bring-up under way not begun. -/
def State.beforeLink (s : State) : Bool := s.bringing && decide (s.fget F.bringStatus_STEP 0 < 8)

/-- The state of a pin (Tables 19-2, 19-3, R482, R557, R608, R609). -/
def State.pin (s : State) (p : Pin) : PinState :=
  let sb (x : PinState) : PinState := if s.rst.standby then x else .highZ
  let hi (x : PinState) : PinState := if s.hostPins then x else .highZ
  let oc (x : PinState) : PinState := if s.oncPins then x else .highZ
  match p with
  | .pwrOk => sb .input
  | .perst => sb .input
  | .warmRst => sb .input
  | .alert => sb (if s.alertOn then .low else .released)
  | .thermtrip => sb (if s.power.tripped then .low else .released)
  | .slotPresent => .ground
  | .optsel => sb .pulledUp
  | .mgmtScl => sb (if s.rst.cold && !s.flag F.optselStat_VALID 0 then .highZ else .served)
  | .mgmtSda => sb (if s.rst.cold && !s.flag F.optselStat_VALID 0 then .highZ else .served)
  | .sgmiiTx => sb .signalling
  | .sgmiiRx => sb (if s.rst.cold && s.bringing then .terminated else .received)
  | .refclk => hi .input
  | .hostTx _ => hi (if s.rst.perst then .idle else .signalling)
  | .hostRx _ => hi (if s.rst.perst then .off else .received)
  | .oncTx q _ =>
    oc (if s.portState q = 5 then .faultIdle
        else if !s.flag F.portCtl_ENABLE q || (s.beforeLink && s.portState q = 0) then .idle else .signalling)
  | .oncRx q _ => oc (if s.isFailsafe then .discarded else if s.beforeLink && s.portState q = 0 then .terminated else .received)

end Sys2Proof.Machine
end

