-- ==== Sys2Proof/Machine/Sha.lean ====
section
/-!
DEFINITION. Sha.lean: SHA-384, the hash the seed image, the certificate chain and the measurements use (R487, R511, R513), after FIPS 180-4.
-/
namespace Sys2Proof.Machine
open Sys2Proof

/-- The largest number of at most `n` bits more than those of `x` whose `e`-th power does not exceed `v`, found bit by bit from the top. -/
def rootFrom (e v : Nat) : Nat → Nat → Nat
  | 0, x => x
  | n + 1, x => rootFrom e v n (if (x + 2 ^ n) ^ e ≤ v then x + 2 ^ n else x)

/-- The first 64 bits of the fraction of the `e`-th root of `p`. -/
def rootFraction (e p : Nat) : W64 := BitVec.ofNat 64 (rootFrom e (p * 2 ^ (64 * e)) 69 0)

/-- The primes below 410, of which there are 80. -/
def shaPrimes : List Nat := (List.range 410).filter fun n => 2 ≤ n && ((List.range n).drop 2).all fun d => n % d ≠ 0

/-- The round constants of SHA-384: fractions of the cube roots of the first 80 primes. -/
def shaK : List W64 := shaPrimes.map (rootFraction 3)

/-- The eight words of a SHA-384 state. -/
structure Sha where
  /-- Word 0 -/ a : W64
  /-- Word 1 -/ b : W64
  /-- Word 2 -/ c : W64
  /-- Word 3 -/ d : W64
  /-- Word 4 -/ e : W64
  /-- Word 5 -/ f : W64
  /-- Word 6 -/ g : W64
  /-- Word 7 -/ h : W64
deriving DecidableEq, Repr

/-- The initial state of SHA-384: fractions of the square roots of the ninth to sixteenth primes. -/
def shaInit : Sha :=
  let w (i : Nat) : W64 := rootFraction 2 (shaPrimes.getD (8 + i) 0)
  ⟨w 0, w 1, w 2, w 3, w 4, w 5, w 6, w 7⟩

/-- One round, with its constant and schedule word. -/
def shaRound (x : Sha) (k w : W64) : Sha :=
  let s1 := x.e.rotateRight 14 ^^^ x.e.rotateRight 18 ^^^ x.e.rotateRight 41
  let ch := (x.e &&& x.f) ^^^ (~~~x.e &&& x.g)
  let t1 := x.h + s1 + ch + k + w
  let s0 := x.a.rotateRight 28 ^^^ x.a.rotateRight 34 ^^^ x.a.rotateRight 39
  let maj := (x.a &&& x.b) ^^^ (x.a &&& x.c) ^^^ (x.b &&& x.c)
  { a := t1 + (s0 + maj), b := x.a, c := x.b, d := x.c, e := x.d + t1, f := x.e, g := x.f, h := x.g }

/-- The rounds of one block: `ws` holds the next sixteen schedule words. -/
def shaRounds : List W64 → List W64 → Sha → Sha
  | [], _, x => x
  | k :: ks, ws, x =>
    let w0 := ws.headD 0
    let w1 := ws.getD 1 0
    let w14 := ws.getD 14 0
    let new := w0 + (w1.rotateRight 1 ^^^ w1.rotateRight 8 ^^^ (w1 >>> 7)) + ws.getD 9 0 + (w14.rotateRight 19 ^^^ w14.rotateRight 61 ^^^ (w14 >>> 6))
    shaRounds ks (ws.drop 1 ++ [new]) (shaRound x k w0)

/-- The bytes of a number, the most significant first. -/
def toBE (n : Nat) (v : Nat) : List Byte := (List.range n).map fun i => BitVec.ofNat 8 (v >>> (8 * (n - 1 - i)))

/-- The 64-bit words of a list of bytes, the most significant byte first. -/
def beWords (n : Nat) (bs : List Byte) : List W64 :=
  (List.range n).map fun i => BitVec.ofNat 64 (((bs.drop (8 * i)).take 8).foldl (fun a b => a * 256 + b.toNat) 0)

/-- One 128-byte block. -/
def shaBlock (x : Sha) (bs : List Byte) : Sha :=
  let y := shaRounds shaK (beWords 16 bs) x
  { a := x.a + y.a, b := x.b + y.b, c := x.c + y.c, d := x.d + y.d, e := x.e + y.e, f := x.f + y.f, g := x.g + y.g, h := x.h + y.h }

/-- `n` blocks in turn. -/
def shaBlocks : Nat → List Byte → Sha → Sha
  | 0, _, x => x
  | n + 1, bs, x => shaBlocks n (bs.drop 128) (shaBlock x (bs.take 128))

/-- SHA-384 of a list of bytes. -/
def sha384 (bs : List Byte) : List Byte :=
  let zeros := (111 + 128 - bs.length % 128) % 128
  let padded := bs ++ [0x80] ++ List.replicate zeros 0 ++ toBE 16 (8 * bs.length)
  let x := shaBlocks (padded.length / 128) padded shaInit
  ([x.a, x.b, x.c, x.d, x.e, x.f].map fun w => toBE 8 w.toNat).flatten

end Sys2Proof.Machine
end

