-- ==== Sys2Proof/Machine/Spdm.lean ====
section
/-!
DEFINITION. Spdm.lean: the SPDM 1.3 responder (R511 to R513). Answers are MCTP message type 5 with the response codes of DSP0274.
-/
namespace Sys2Proof.Machine

open Host (Outcome)

/-- Answer an SPDM request. -/
def State.spdm (s : State) (code : Nat) (data : List Byte) : State := s.emit (.mgmt 5 code data)
/-- ERROR with an error code. -/
def State.spdmError (s : State) (code : Nat) : State := s.spdm 0x7F (toLE 1 code)

/-- GET_VERSION: 1.3. -/
def execGetVersion (s : State) : Outcome State Fault Refusal := .next (s.spdm 0x04 [0x13])
/-- GET_CAPABILITIES: certificates, challenge, measurements with signature. -/
def execGetCapabilities (s : State) : Outcome State Fault Refusal := .next (s.spdm 0x61 (toLE 4 0x16))
/-- NEGOTIATE_ALGORITHMS: TPM_ALG_ECDSA_ECC_NIST_P384 and TPM_ALG_SHA_384. -/
def execNegotiateAlgorithms (s : State) : Outcome State Fault Refusal := .next (s.spdm 0x63 (toLE 4 0x80 ++ toLE 4 0x2))
/-- GET_DIGESTS: slot 0 alone holds a chain. -/
def execGetDigests (s : State) : Outcome State Fault Refusal := .next (s.spdm 0x01 (toLE 1 1 ++ sha384 Config.certChain))

/-- GET_CERTIFICATE: a portion of the chain of slot 0; slots 1 to 7 are empty. -/
def execGetCertificate (slot offset len : Nat) (s : State) : Outcome State Fault Refusal :=
  if slot ≠ 0 || Config.certChain.length ≤ offset then .next (s.spdmError 1)
  else
    let part := (Config.certChain.drop offset).take len
    .next (s.spdm 0x02 (toLE 2 part.length ++ toLE 2 (Config.certChain.length - offset - part.length) ++ part))

/-- CHALLENGE: the nonce is signed with the device identity key. -/
def execChallenge (slot : Nat) (nonce : List Byte) (s : State) : Outcome State Fault Refusal :=
  if slot ≠ 0 then .next (s.spdmError 1)
  else
    let d := sha384 Config.certChain
    .next (s.spdm 0x03 (d ++ Config.sign (d ++ nonce)))

/-- The public keys of slots 0 to 3; an empty slot is 97 zero bytes (Table 15-11). -/
def State.keyBytes (s : State) : List Byte :=
  Config.slot0Key ++ ((List.range 3).flatMap fun i => match s.seed.seenKeys.getD i [] with
    | [] => List.replicate 97 0
    | k => k)

/-- Measurement block `i` (Table 15-11), as STEP_SEED read it; none for one that is absent. In RECOVERY indices 1 to 3 describe the recovery
image and 4 is absent. -/
def State.measure (s : State) (i : Nat) : Option (List Byte) :=
  match s.seed.image with
  | none => none
  | some img =>
    let j := s.seed.seenJournal
    match i with
    | 1 | 2 | 3 => img.digests[i - 1]?
    | 4 => if s.seed.booted = 2 then none else img.digests[3]?
    | 5 => some (toLE 1 s.seed.booted ++ toLE 4 img.version ++ toLE 4 img.secVersion ++ toLE 4 j.floor ++ toLE 1 j.trials ++ toLE 2 0)
    | 6 => some Config.factoryDigest
    | 7 => some (sha384 s.keyBytes)
    | _ => none

/-- GET_MEASUREMENTS: index 0 asks for the number of blocks, 0xFF for all of them. -/
def execGetMeasurements (index : Nat) (s : State) : Outcome State Fault Refusal :=
  let blocks := (List.range 8).filterMap fun i => (s.measure i).map fun b => (i, b)
  let enc (x : Nat × List Byte) : List Byte := toLE 1 x.1 ++ toLE 2 x.2.length ++ x.2
  if index = 0 then .next (s.spdm 0x60 (toLE 1 blocks.length))
  else if index = 0xFF then .next (s.spdm 0x60 (toLE 1 blocks.length ++ blocks.flatMap enc))
  else match s.measure index with
    | some b => .next (s.spdm 0x60 (toLE 1 1 ++ enc (index, b)))
    | none => .next (s.spdmError 1)

/-- KEY_EXCHANGE and every session message: ERROR UnsupportedRequest with the request's code. -/
def execSpdmUnsupportedRequest (code : BitVec 8) (s : State) : Outcome State Fault Refusal := .next (s.spdm 0x7F [7, code])

end Sys2Proof.Machine
end

