-- ==== Sys2Proof/Machine/Dispatch.lean ====
section
/-!
DEFINITION. Dispatch.lean: one arm for each command.
-/
namespace Sys2Proof.Machine

/-- The effect of a command on everything but the queue. -/
def exec (i : Instr) (s : State) : Host.Outcome State Fault Refusal :=
  match i with
  | .registerWrite src off size val => Sys2Proof.Machine.execRegisterWrite src off size val s
  | .latchedLowRead src off size => Sys2Proof.Machine.execLatchedLowRead src off size s
  | .vaultRecalibration => Sys2Proof.Machine.execVaultRecalibration s
  | .droopHold fid mv => Sys2Proof.Machine.execDroopHold fid mv s
  | .droopResume fid mv => Sys2Proof.Machine.execDroopResume fid mv s
  | .rateWindowEnd fid actual capable => Sys2Proof.Machine.execRateWindowEnd fid actual capable s
  | .slowFieldReport fid => Sys2Proof.Machine.execSlowFieldReport fid s
  | .stallCtlWrite val => Sys2Proof.Machine.execStallCtlWrite val s
  | .stall hs => Sys2Proof.Machine.execStall hs s
  | .stallCollectionClose others => Sys2Proof.Machine.execStallCollectionClose others s
  | .fieldResetDone fid => Sys2Proof.Machine.execFieldResetDone fid s
  | .arrayGate core => Sys2Proof.Machine.execArrayGate core s
  | .icacheFill core line => Sys2Proof.Machine.execIcacheFill core line s
  | .workItemStart core => Sys2Proof.Machine.execWorkItemStart core s
  | .workItemEnd core => Sys2Proof.Machine.execWorkItemEnd core s
  | .add core rd ra rb cp => Sys2Proof.Machine.execAdd core rd ra rb cp s
  | .sub core rd ra rb cp => Sys2Proof.Machine.execSub core rd ra rb cp s
  | .and core rd ra rb cp => Sys2Proof.Machine.execAnd core rd ra rb cp s
  | .or core rd ra rb cp => Sys2Proof.Machine.execOr core rd ra rb cp s
  | .xor core rd ra rb cp => Sys2Proof.Machine.execXor core rd ra rb cp s
  | .sll core rd ra rb cp => Sys2Proof.Machine.execSll core rd ra rb cp s
  | .srl core rd ra rb cp => Sys2Proof.Machine.execSrl core rd ra rb cp s
  | .sra core rd ra rb cp => Sys2Proof.Machine.execSra core rd ra rb cp s
  | .mul core rd ra rb cp => Sys2Proof.Machine.execMul core rd ra rb cp s
  | .mulhu core rd ra rb cp => Sys2Proof.Machine.execMulhu core rd ra rb cp s
  | .mulh core rd ra rb cp => Sys2Proof.Machine.execMulh core rd ra rb cp s
  | .slt core rd ra rb cp => Sys2Proof.Machine.execSlt core rd ra rb cp s
  | .sltu core rd ra rb cp => Sys2Proof.Machine.execSltu core rd ra rb cp s
  | .min core rd ra rb cp => Sys2Proof.Machine.execMin core rd ra rb cp s
  | .max core rd ra rb cp => Sys2Proof.Machine.execMax core rd ra rb cp s
  | .addi core rd ra imm cp => Sys2Proof.Machine.execAddi core rd ra imm cp s
  | .andi core rd ra imm cp => Sys2Proof.Machine.execAndi core rd ra imm cp s
  | .ori core rd ra imm cp => Sys2Proof.Machine.execOri core rd ra imm cp s
  | .xori core rd ra imm cp => Sys2Proof.Machine.execXori core rd ra imm cp s
  | .slli core rd ra imm cp => Sys2Proof.Machine.execSlli core rd ra imm cp s
  | .srli core rd ra imm cp => Sys2Proof.Machine.execSrli core rd ra imm cp s
  | .srai core rd ra imm cp => Sys2Proof.Machine.execSrai core rd ra imm cp s
  | .slti core rd ra imm cp => Sys2Proof.Machine.execSlti core rd ra imm cp s
  | .sltiu core rd ra imm cp => Sys2Proof.Machine.execSltiu core rd ra imm cp s
  | .lih core rd ra imm cp => Sys2Proof.Machine.execLih core rd ra imm cp s
  | .ldb core rd ra imm cp => Sys2Proof.Machine.execLdb core rd ra imm cp s
  | .ldh core rd ra imm cp => Sys2Proof.Machine.execLdh core rd ra imm cp s
  | .ldw core rd ra imm cp => Sys2Proof.Machine.execLdw core rd ra imm cp s
  | .ldd core rd ra imm cp => Sys2Proof.Machine.execLdd core rd ra imm cp s
  | .ldbu core rd ra imm cp => Sys2Proof.Machine.execLdbu core rd ra imm cp s
  | .ldhu core rd ra imm cp => Sys2Proof.Machine.execLdhu core rd ra imm cp s
  | .ldwu core rd ra imm cp => Sys2Proof.Machine.execLdwu core rd ra imm cp s
  | .stb core rd ra imm cp => Sys2Proof.Machine.execStb core rd ra imm cp s
  | .sth core rd ra imm cp => Sys2Proof.Machine.execSth core rd ra imm cp s
  | .stw core rd ra imm cp => Sys2Proof.Machine.execStw core rd ra imm cp s
  | .std core rd ra imm cp => Sys2Proof.Machine.execStd core rd ra imm cp s
  | .beq core ra rb off cp => Sys2Proof.Machine.execBeq core ra rb off cp s
  | .bne core ra rb off cp => Sys2Proof.Machine.execBne core ra rb off cp s
  | .blt core ra rb off cp => Sys2Proof.Machine.execBlt core ra rb off cp s
  | .bge core ra rb off cp => Sys2Proof.Machine.execBge core ra rb off cp s
  | .bltu core ra rb off cp => Sys2Proof.Machine.execBltu core ra rb off cp s
  | .bgeu core ra rb off cp => Sys2Proof.Machine.execBgeu core ra rb off cp s
  | .jal core rd imm cp => Sys2Proof.Machine.execJal core rd imm cp s
  | .jalr core rd ra imm cp => Sys2Proof.Machine.execJalr core rd ra imm cp s
  | .cmd core kind op ra body cp => Sys2Proof.Machine.execCmd core kind op ra body cp s
  | .queueSpaceIssue core => Sys2Proof.Machine.execQueueSpaceIssue core s
  | .waitq core q imm => Sys2Proof.Machine.execWaitq core q imm s
  | .waitqSatisfied core => Sys2Proof.Machine.execWaitqSatisfied core s
  | .fchk core ra q imm cp => Sys2Proof.Machine.execFchk core ra q imm cp s
  | .csrr core rd imm cp => Sys2Proof.Machine.execCsrr core rd imm cp s
  | .csrw core ra imm cp => Sys2Proof.Machine.execCsrw core ra imm cp s
  | .err core ra cp => Sys2Proof.Machine.execErr core ra cp s
  | .endItem core => Sys2Proof.Machine.execEndItem core s
  | .dciIllegalInstruction core word => Sys2Proof.Machine.execDciIllegalInstruction core word s
  | .mma core => Sys2Proof.Machine.execMma core s
  | .shadowTileLoaded core => Sys2Proof.Machine.execShadowTileLoaded core s
  | .arrayStep core flips => Sys2Proof.Machine.execArrayStep core flips s
  | .envelopeVerifyDone core => Sys2Proof.Machine.execEnvelopeVerifyDone core s
  | .dot core flips => Sys2Proof.Machine.execDot core flips s
  | .ewAdd core flips => Sys2Proof.Machine.execEwAdd core flips s
  | .ewSub core flips => Sys2Proof.Machine.execEwSub core flips s
  | .ewMul core flips => Sys2Proof.Machine.execEwMul core flips s
  | .ewFma core flips => Sys2Proof.Machine.execEwFma core flips s
  | .ewMin core flips => Sys2Proof.Machine.execEwMin core flips s
  | .ewMax core flips => Sys2Proof.Machine.execEwMax core flips s
  | .ewCmp core flips => Sys2Proof.Machine.execEwCmp core flips s
  | .ewSel core flips => Sys2Proof.Machine.execEwSel core flips s
  | .fnRcp core flips => Sys2Proof.Machine.execFnRcp core flips s
  | .fnRsqrt core flips => Sys2Proof.Machine.execFnRsqrt core flips s
  | .fnExp core flips => Sys2Proof.Machine.execFnExp core flips s
  | .fnLog core flips => Sys2Proof.Machine.execFnLog core flips s
  | .fnTanh core flips => Sys2Proof.Machine.execFnTanh core flips s
  | .fnLogistic core flips => Sys2Proof.Machine.execFnLogistic core flips s
  | .fnErf core flips => Sys2Proof.Machine.execFnErf core flips s
  | .cvt core flips => Sys2Proof.Machine.execCvt core flips s
  | .statSum core flips => Sys2Proof.Machine.execStatSum core flips s
  | .statSumsq core flips => Sys2Proof.Machine.execStatSumsq core flips s
  | .statMax core flips => Sys2Proof.Machine.execStatMax core flips s
  | .pack3 core flips => Sys2Proof.Machine.execPack3 core flips s
  | .attn core => Sys2Proof.Machine.execAttn core s
  | .dotv core => Sys2Proof.Machine.execDotv core s
  | .redSum core => Sys2Proof.Machine.execRedSum core s
  | .redMax core => Sys2Proof.Machine.execRedMax core s
  | .redMin core => Sys2Proof.Machine.execRedMin core s
  | .fill core => Sys2Proof.Machine.execFill core s
  | .bankTaskSlotTake core slice => Sys2Proof.Machine.execBankTaskSlotTake core slice s
  | .bankTaskAdmit core bank => Sys2Proof.Machine.execBankTaskAdmit core bank s
  | .bankTaskEnd core bank flips ecc => Sys2Proof.Machine.execBankTaskEnd core bank flips ecc s
  | .copy core flips => Sys2Proof.Machine.execCopy core flips s
  | .tcopy core flips => Sys2Proof.Machine.execTcopy core flips s
  | .gather core flips => Sys2Proof.Machine.execGather core flips s
  | .scatterReplace core flips => Sys2Proof.Machine.execScatterReplace core flips s
  | .scatterAdd core flips => Sys2Proof.Machine.execScatterAdd core flips s
  | .scatterMax core flips => Sys2Proof.Machine.execScatterMax core flips s
  | .scatterMin core flips => Sys2Proof.Machine.execScatterMin core flips s
  | .drill core flips => Sys2Proof.Machine.execDrill core flips s
  | .stagingSpaceGrant => Sys2Proof.Machine.execStagingSpaceGrant s
  | .granaryDrillGrant => Sys2Proof.Machine.execGranaryDrillGrant s
  | .moveComplete id => Sys2Proof.Machine.execMoveComplete id s
  | .detScatterCombine ring mismatch => Sys2Proof.Machine.execDetScatterCombine ring mismatch s
  | .fenceRel core => Sys2Proof.Machine.execFenceRel core s
  | .fenceAcq core => Sys2Proof.Machine.execFenceAcq core s
  | .fenceFull core => Sys2Proof.Machine.execFenceFull core s
  | .fenceComplete src => Sys2Proof.Machine.execFenceComplete src s
  | .signalAdd core mismatch => Sys2Proof.Machine.execSignalAdd core mismatch s
  | .signalSet core mismatch => Sys2Proof.Machine.execSignalSet core mismatch s
  | .waitGe core => Sys2Proof.Machine.execWaitGe core s
  | .waitEq core => Sys2Proof.Machine.execWaitEq core s
  | .semWaitComplete who => Sys2Proof.Machine.execSemWaitComplete who s
  | .semTimeout who => Sys2Proof.Machine.execSemTimeout who s
  | .vaultBurst core busy records reads => Sys2Proof.Machine.execVaultBurst core busy records reads s
  | .misdeliveryResend idx => Sys2Proof.Machine.execMisdeliveryResend idx s
  | .misdeliveryHoldExpire idx => Sys2Proof.Machine.execMisdeliveryHoldExpire idx s
  | .ringBaseWrite ring cpl val => Sys2Proof.Machine.execRingBaseWrite ring cpl val s
  | .ringCfgWrite ring val => Sys2Proof.Machine.execRingCfgWrite ring val s
  | .doorbell src ring val => Sys2Proof.Machine.execDoorbell src ring val s
  | .cplHeadWrite ring val => Sys2Proof.Machine.execCplHeadWrite ring val s
  | .ringReset ring => Sys2Proof.Machine.execRingReset ring s
  | .ringResume ring => Sys2Proof.Machine.execRingResume ring s
  | .dispatch ring bytes => Sys2Proof.Machine.execDispatch ring bytes s
  | .commitEntry ring bytes => Sys2Proof.Machine.execCommitEntry ring bytes s
  | .stepCommit ring => Sys2Proof.Machine.execStepCommit ring s
  | .moveEntry ring bytes => Sys2Proof.Machine.execMoveEntry ring bytes s
  | .fenceEntry ring bytes => Sys2Proof.Machine.execFenceEntry ring bytes s
  | .semSignalEntry ring bytes mismatch => Sys2Proof.Machine.execSemSignalEntry ring bytes mismatch s
  | .semWaitEntry ring bytes => Sys2Proof.Machine.execSemWaitEntry ring bytes s
  | .mark ring bytes => Sys2Proof.Machine.execMark ring bytes s
  | .nopEntry ring bytes => Sys2Proof.Machine.execNopEntry ring bytes s
  | .unlistedEntryType ring bytes => Sys2Proof.Machine.execUnlistedEntryType ring bytes s
  | .ringReadFail ring => Sys2Proof.Machine.execRingReadFail ring s
  | .cplWriteFail ring => Sys2Proof.Machine.execCplWriteFail ring s
  | .cmdErrorReport => Sys2Proof.Machine.execCmdErrorReport s
  | .descTableWrite p val => Sys2Proof.Machine.execDescTableWrite p val s
  | .descDetWrite p val => Sys2Proof.Machine.execDescDetWrite p val s
  | .descCreate p index => Sys2Proof.Machine.execDescCreate p index s
  | .descInvalidate p index => Sys2Proof.Machine.execDescInvalidate p index s
  | .hulPlotLimitWrite plot val => Sys2Proof.Machine.execHulPlotLimitWrite plot val s
  | .bandEstimate => Sys2Proof.Machine.execBandEstimate s
  | .binFreeToScratch k owner => Sys2Proof.Machine.execBinFreeToScratch k owner s
  | .binScratchToFree k => Sys2Proof.Machine.execBinScratchToFree k s
  | .binFreeToCache k => Sys2Proof.Machine.execBinFreeToCache k s
  | .binCacheToFree k => Sys2Proof.Machine.execBinCacheToFree k s
  | .binTransitionDone k => Sys2Proof.Machine.execBinTransitionDone k s
  | .cacheFlushDone => Sys2Proof.Machine.execCacheFlushDone s
  | .seedstoreAccess src addr len write run ecc crc => Sys2Proof.Machine.execSeedstoreAccess src addr len write run ecc crc s
  | .combineContribution mismatch => Sys2Proof.Machine.execCombineContribution mismatch s
  | .cwinWrite p j val => Sys2Proof.Machine.execCwinWrite p j val s
  | .strmOpen p id => Sys2Proof.Machine.execStrmOpen p id s
  | .strmClose p id => Sys2Proof.Machine.execStrmClose p id s
  | .strmRead p id => Sys2Proof.Machine.execStrmRead p id s
  | .mdlInstall p index => Sys2Proof.Machine.execMdlInstall p index s
  | .mdlEvict p index => Sys2Proof.Machine.execMdlEvict p index s
  | .mdlQuery p index => Sys2Proof.Machine.execMdlQuery p index s
  | .rshStart p => Sys2Proof.Machine.execRshStart p s
  | .rshAbort p => Sys2Proof.Machine.execRshAbort p s
  | .rshJobPlace => Sys2Proof.Machine.execRshJobPlace s
  | .rshMoveDone p mismatch => Sys2Proof.Machine.execRshMoveDone p mismatch s
  | .rshWaitDone p => Sys2Proof.Machine.execRshWaitDone p s
  | .rshTimeout p => Sys2Proof.Machine.execRshTimeout p s
  | .headlandFlitReceive plot inward lane flit got => Sys2Proof.Machine.execHeadlandFlitReceive plot inward lane flit got s
  | .meshFlitReceive fid flit => Sys2Proof.Machine.execMeshFlitReceive fid flit s
  | .portEnable port => Sys2Proof.Machine.execPortEnable port s
  | .portRetrain port => Sys2Proof.Machine.execPortRetrain port s
  | .portForceFi port on => Sys2Proof.Machine.execPortForceFi port on s
  | .partnerSignalDetect port rxBad txBad => Sys2Proof.Machine.execPartnerSignalDetect port rxBad txBad s
  | .trainingDone port => Sys2Proof.Machine.execTrainingDone port s
  | .hello port flit => Sys2Proof.Machine.execHello port flit s
  | .idle port flit fixed => Sys2Proof.Machine.execIdle port flit fixed s
  | .faultIdle port flit => Sys2Proof.Machine.execFaultIdle port flit s
  | .lossOfLock port => Sys2Proof.Machine.execLossOfLock port s
  | .retryTimeout port => Sys2Proof.Machine.execRetryTimeout port s
  | .fecUncorrectable port => Sys2Proof.Machine.execFecUncorrectable port s
  | .rdReq port pkt => Sys2Proof.Machine.execRdReq port pkt s
  | .wr port pkt => Sys2Proof.Machine.execWr port pkt s
  | .signal port pkt mismatch => Sys2Proof.Machine.execSignal port pkt mismatch s
  | .combine port pkt => Sys2Proof.Machine.execCombine port pkt s
  | .rdRsp port pkt => Sys2Proof.Machine.execRdRsp port pkt s
  | .cpl port pkt => Sys2Proof.Machine.execCpl port pkt s
  | .abort port pkt => Sys2Proof.Machine.execAbort port pkt s
  | .sweepReq port pkt => Sys2Proof.Machine.execSweepReq port pkt s
  | .sweepRsp port pkt => Sys2Proof.Machine.execSweepRsp port pkt s
  | .breakNotice port pkt => Sys2Proof.Machine.execBreakNotice port pkt s
  | .packetRoute mismatch => Sys2Proof.Machine.execPacketRoute mismatch s
  | .routeSwitch => Sys2Proof.Machine.execRouteSwitch s
  | .routeDataAccess src write => Sys2Proof.Machine.execRouteDataAccess src write s
  | .sweepStart => Sys2Proof.Machine.execSweepStart s
  | .oncResponseTimeout txn => Sys2Proof.Machine.execOncResponseTimeout txn s
  | .faultConfirmed => Sys2Proof.Machine.execFaultConfirmed s
  | .replayQuiesced ring => Sys2Proof.Machine.execReplayQuiesced ring s
  | .replayRestored ring => Sys2Proof.Machine.execReplayRestored ring s
  | .coreSubstitutionDone core => Sys2Proof.Machine.execCoreSubstitutionDone core s
  | .eventClassify => Sys2Proof.Machine.execEventClassify s
  | .scrubRewrite => Sys2Proof.Machine.execScrubRewrite s
  | .harrowVaultRead core word ecc vbad => Sys2Proof.Machine.execHarrowVaultRead core word ecc vbad s
  | .harrowGranaryRead ecc => Sys2Proof.Machine.execHarrowGranaryRead ecc s
  | .harrowSeedstoreRead ecc => Sys2Proof.Machine.execHarrowSeedstoreRead ecc s
  | .logEntryAgeOut idx => Sys2Proof.Machine.execLogEntryAgeOut idx s
  | .logClr val => Sys2Proof.Machine.execLogClr val s
  | .retirePage val => Sys2Proof.Machine.execRetirePage val s
  | .retireBank val => Sys2Proof.Machine.execRetireBank val s
  | .retireBin val => Sys2Proof.Machine.execRetireBin val s
  | .retireCopyDone => Sys2Proof.Machine.execRetireCopyDone s
  | .pwrOkRise => Sys2Proof.Machine.execPwrOkRise s
  | .pwrOkFall => Sys2Proof.Machine.execPwrOkFall s
  | .emergencyCommitEnd => Sys2Proof.Machine.execEmergencyCommitEnd s
  | .perstAssert => Sys2Proof.Machine.execPerstAssert s
  | .perstRelease => Sys2Proof.Machine.execPerstRelease s
  | .warmRstAssert => Sys2Proof.Machine.execWarmRstAssert s
  | .warmRstRelease => Sys2Proof.Machine.execWarmRstRelease s
  | .resetPinGlitch => Sys2Proof.Machine.execResetPinGlitch s
  | .rstCtlCold key => Sys2Proof.Machine.execRstCtlCold key s
  | .rstCtlWarm key => Sys2Proof.Machine.execRstCtlWarm key s
  | .stepStrap counts => Sys2Proof.Machine.execStepStrap counts s
  | .stepSeed answered stale a b r => Sys2Proof.Machine.execStepSeed answered stale a b r s
  | .stepRepair bad => Sys2Proof.Machine.execStepRepair bad s
  | .stepPower rail lanes headland => Sys2Proof.Machine.execStepPower rail lanes headland s
  | .stepVault seedstore cal => Sys2Proof.Machine.execStepVault seedstore cal s
  | .stepField slow => Sys2Proof.Machine.execStepField slow s
  | .stepFetch => Sys2Proof.Machine.execStepFetch s
  | .stepLink => Sys2Proof.Machine.execStepLink s
  | .stepTopo => Sys2Proof.Machine.execStepTopo s
  | .stepReady present => Sys2Proof.Machine.execStepReady present s
  | .bringStepDone => Sys2Proof.Machine.execBringStepDone s
  | .bringStepTimeout => Sys2Proof.Machine.execBringStepTimeout s
  | .stepLinkLimit => Sys2Proof.Machine.execStepLinkLimit s
  | .bootItemTimeout core => Sys2Proof.Machine.execBootItemTimeout core s
  | .blkRstField target => Sys2Proof.Machine.execBlkRstField target s
  | .blkRstOncon target => Sys2Proof.Machine.execBlkRstOncon target s
  | .blkRstHost target => Sys2Proof.Machine.execBlkRstHost target s
  | .blkRstSeedstore target => Sys2Proof.Machine.execBlkRstSeedstore target s
  | .blkRstReshard target => Sys2Proof.Machine.execBlkRstReshard target s
  | .blockIdleReached => Sys2Proof.Machine.execBlockIdleReached s
  | .blockIdleTimeout => Sys2Proof.Machine.execBlockIdleTimeout s
  | .requestUpdate => Sys2Proof.Machine.execRequestUpdate s
  | .updateComponent size => Sys2Proof.Machine.execUpdateComponent size s
  | .firmwareData data => Sys2Proof.Machine.execFirmwareData data s
  | .slotVerifyDone read only => Sys2Proof.Machine.execSlotVerifyDone read only s
  | .activateFirmware => Sys2Proof.Machine.execActivateFirmware s
  | .seedConfirm val => Sys2Proof.Machine.execSeedConfirm val s
  | .almanacRecordWrite dev0 dev1 => Sys2Proof.Machine.execAlmanacRecordWrite dev0 dev1 s
  | .almanacCompact region => Sys2Proof.Machine.execAlmanacCompact region s
  | .getVersion => Sys2Proof.Machine.execGetVersion s
  | .getCapabilities => Sys2Proof.Machine.execGetCapabilities s
  | .negotiateAlgorithms => Sys2Proof.Machine.execNegotiateAlgorithms s
  | .getDigests => Sys2Proof.Machine.execGetDigests s
  | .getCertificate slot offset len => Sys2Proof.Machine.execGetCertificate slot offset len s
  | .challenge slot nonce => Sys2Proof.Machine.execChallenge slot nonce s
  | .getMeasurements index => Sys2Proof.Machine.execGetMeasurements index s
  | .spdmUnsupportedRequest code => Sys2Proof.Machine.execSpdmUnsupportedRequest code s
  | .ceilRaise plot => Sys2Proof.Machine.execCeilRaise plot s
  | .ceilReturn plot => Sys2Proof.Machine.execCeilReturn plot s
  | .phaseFailShort plot phase => Sys2Proof.Machine.execPhaseFailShort plot phase s
  | .phaseFailOpen plot phase => Sys2Proof.Machine.execPhaseFailOpen plot phase s
  | .crackSuspect plot cluster mv others current ago => Sys2Proof.Machine.execCrackSuspect plot cluster mv others current ago s
  | .levelRampDone => Sys2Proof.Machine.execLevelRampDone s
  | .capRecompute => Sys2Proof.Machine.execCapRecompute s
  | .rthUpdate avgW hot => Sys2Proof.Machine.execRthUpdate avgW hot s
  | .budgetPeriod other plots => Sys2Proof.Machine.execBudgetPeriod other plots s
  | .budgetMessageStale plot => Sys2Proof.Machine.execBudgetMessageStale plot s
  | .overcurrentDutyCut plot amps => Sys2Proof.Machine.execOvercurrentDutyCut plot amps s
  | .autoCeilAdjust predicted => Sys2Proof.Machine.execAutoCeilAdjust predicted s
  | .diodeConversion core quarters => Sys2Proof.Machine.execDiodeConversion core quarters s
  | .throttleStep core => Sys2Proof.Machine.execThrottleStep core s
  | .diodeBroken core => Sys2Proof.Machine.execDiodeBroken core s
  | .diodeSubstitute core => Sys2Proof.Machine.execDiodeSubstitute core s
  | .sensorBroken kind unit => Sys2Proof.Machine.execSensorBroken kind unit s
  | .coolInWrite val => Sys2Proof.Machine.execCoolInWrite val s
  | .coolInStale => Sys2Proof.Machine.execCoolInStale s
  | .powerControlWrite cap val => Sys2Proof.Machine.execPowerControlWrite cap val s
  | .sleepTargetS0 => Sys2Proof.Machine.execSleepTargetS0 s
  | .sleepTargetS1 => Sys2Proof.Machine.execSleepTargetS1 s
  | .sleepTargetS2 => Sys2Proof.Machine.execSleepTargetS2 s
  | .sleepTargetS4 => Sys2Proof.Machine.execSleepTargetS4 s
  | .sleepBlockAnswer block => Sys2Proof.Machine.execSleepBlockAnswer block s
  | .sleepEntryTimeout => Sys2Proof.Machine.execSleepEntryTimeout s
  | .sleepEntryDone => Sys2Proof.Machine.execSleepEntryDone s
  | .sleepExitDone => Sys2Proof.Machine.execSleepExitDone s
  | .read32 off => Sys2Proof.Machine.execRead32 off s
  | .write32 off val => Sys2Proof.Machine.execWrite32 off val s
  | .read64 off => Sys2Proof.Machine.execRead64 off s
  | .write64 off val => Sys2Proof.Machine.execWrite64 off val s
  | .setEndpointId eid => Sys2Proof.Machine.execSetEndpointId eid s
  | .getEndpointId => Sys2Proof.Machine.execGetEndpointId s
  | .getEndpointUuid => Sys2Proof.Machine.execGetEndpointUuid s
  | .getMctpVersionSupport => Sys2Proof.Machine.execGetMctpVersionSupport s
  | .getMessageTypeSupport => Sys2Proof.Machine.execGetMessageTypeSupport s
  | .mctpUnsupportedType type => Sys2Proof.Machine.execMctpUnsupportedType type s
  | .i3cDynamicAddress addr => Sys2Proof.Machine.execI3cDynamicAddress addr s
  | .getFruRecordTable => Sys2Proof.Machine.execGetFruRecordTable s
  | .setEventReceiver => Sys2Proof.Machine.execSetEventReceiver s
  | .pollForPlatformEventMessage => Sys2Proof.Machine.execPollForPlatformEventMessage s
  | .eventSend => Sys2Proof.Machine.execEventSend s
  | .heartbeat => Sys2Proof.Machine.execHeartbeat s
  | .resend first count bad => Sys2Proof.Machine.execResend first count bad s
  | .arpRequest ip => Sys2Proof.Machine.execArpRequest ip s
  | .icmpEcho ip data => Sys2Proof.Machine.execIcmpEcho ip data s
  | .dhcpExchange ip mask gateway => Sys2Proof.Machine.execDhcpExchange ip mask gateway s
  | .ptpSync domain master interval origin twoStep => Sys2Proof.Machine.execPtpSync domain master interval origin twoStep s
  | .ptpFollowUp domain master origin => Sys2Proof.Machine.execPtpFollowUp domain master origin s
  | .ptpDelayResp domain master sent received => Sys2Proof.Machine.execPtpDelayResp domain master sent received s
  | .ptpAnnounce domain master set => Sys2Proof.Machine.execPtpAnnounce domain master set s
  | .ptpSyncLoss => Sys2Proof.Machine.execPtpSyncLoss s
  | .timeSet val => Sys2Proof.Machine.execTimeSet val s
  | .tlmCfgWrite conv val => Sys2Proof.Machine.execTlmCfgWrite conv val s
  | .tlmSampleDone conv value => Sys2Proof.Machine.execTlmSampleDone conv value s
  | .gleanGo val => Sys2Proof.Machine.execGleanGo val s
  | .gleanTimeReached => Sys2Proof.Machine.execGleanTimeReached s
  | .traceCtlWrite val => Sys2Proof.Machine.execTraceCtlWrite val s
  | .traceRecordStore rec full held => Sys2Proof.Machine.execTraceRecordStore rec full held s
  | .debugHalt key plot index => Sys2Proof.Machine.execDebugHalt key plot index s
  | .debugResume key plot index => Sys2Proof.Machine.execDebugResume key plot index s
  | .dbgDataWrite val => Sys2Proof.Machine.execDbgDataWrite val s
  | .wfgGo val => Sys2Proof.Machine.execWfgGo val s
  | .wfgAuto => Sys2Proof.Machine.execWfgAuto s
  | .wfgReportDone => Sys2Proof.Machine.execWfgReportDone s
  | .wfgDataRead src off size bad => Sys2Proof.Machine.execWfgDataRead src off size bad s
  | .hostMemRead fn addr len ecc => Sys2Proof.Machine.execHostMemRead fn addr len ecc s
  | .hostMemWrite fn addr bytes ep => Sys2Proof.Machine.execHostMemWrite fn addr bytes ep s
  | .hostFetchadd fn addr wide value mismatch => Sys2Proof.Machine.execHostFetchadd fn addr wide value mismatch s
  | .hostSwap fn addr wide value mismatch => Sys2Proof.Machine.execHostSwap fn addr wide value mismatch s
  | .hostCas fn addr width cmp new mismatch => Sys2Proof.Machine.execHostCas fn addr width cmp new mismatch s
  | .cxlMemRead line cacheable ecc => Sys2Proof.Machine.execCxlMemRead line cacheable ecc s
  | .cxlMemWrite line bytes enable poison => Sys2Proof.Machine.execCxlMemWrite line bytes enable poison s
  | .hdmDecoderCommit size => Sys2Proof.Machine.execHdmDecoderCommit size s
  | .hostLinkTrain width speed flit cxl => Sys2Proof.Machine.execHostLinkTrain width speed flit cxl s
  | .hostLinkDown => Sys2Proof.Machine.execHostLinkDown s
  | .vfFlr vf => Sys2Proof.Machine.execVfFlr vf s
  | .pfFlr => Sys2Proof.Machine.execPfFlr s
  | .d3hotEntry fn => Sys2Proof.Machine.execD3hotEntry fn s
  | .d0Return fn => Sys2Proof.Machine.execD0Return fn s
  | .atsInvalidate fn tag => Sys2Proof.Machine.execAtsInvalidate fn tag s
  | .partCreate index => Sys2Proof.Machine.execPartCreate index s
  | .partDestroy index => Sys2Proof.Machine.execPartDestroy index s
  | .allocCreate p => Sys2Proof.Machine.execAllocCreate p s
  | .allocRelease p => Sys2Proof.Machine.execAllocRelease p s
  | .inputSag => Sys2Proof.Machine.execInputSag s
  | .refclkLoss => Sys2Proof.Machine.execRefclkLoss s
  | .standbyStageStart => Sys2Proof.Machine.execStandbyStageStart s
  | .standbyStageStop => Sys2Proof.Machine.execStandbyStageStop s
  | .sparePhaseSoftStartDone plot => Sys2Proof.Machine.execSparePhaseSoftStartDone plot s
  | .pldmSensorRefresh vin iin pin ss => Sys2Proof.Machine.execPldmSensorRefresh vin iin pin ss s
  | .msixVectorUnmask fn vector => Sys2Proof.Machine.execMsixVectorUnmask fn vector s

end Sys2Proof.Machine
end

