-- ==== Sys2Proof/Machine/DciCode.lean ====
section
/-!
DEFINITION. DciCode.lean: the words of DCI instructions (R152, Tables 5-9 and 5-10), as a role code image holds them
(R629). A row of the opcode table names one DCI instruction; `decodeDci` says which row a word stands for, `encodeDci` the
word of a row, `State.fetchDci` the row that stands at the program counter of a core.
-/
namespace Sys2Proof.Machine

/-! ## Formats (Table 5-9) -/

/-- R: OPC, RD, RA, RB, zeros. -/
def dciR (opc : Nat) (rd ra rb : Reg) : W64 :=
  BitVec.ofNat 64 (opc * 2 ^ 56 + rd.toNat * 2 ^ 51 + ra.toNat * 2 ^ 46 + rb.toNat * 2 ^ 41)

/-- I: OPC, RD, RA, zeros, IMM. B is the same with RA, RB and OFF. -/
def dciI (opc : Nat) (rd ra : Reg) (imm : Imm) : W64 :=
  BitVec.ofNat 64 (opc * 2 ^ 56 + rd.toNat * 2 ^ 51 + ra.toNat * 2 ^ 46 + imm.toNat)

/-- W: OPC, RD (zero here), RA, Q, zeros, IMM. -/
def dciW (opc : Nat) (ra : Reg) (q : BitVec 3) (imm : Imm) : W64 :=
  BitVec.ofNat 64 (opc * 2 ^ 56 + ra.toNat * 2 ^ 46 + q.toNat * 2 ^ 43 + imm.toNat)

/-- C: OPC, KIND, OP, RA, zeros, BODY. -/
def dciC (opc : Nat) (kind op : BitVec 4) (ra : Reg) (body : Imm) : W64 :=
  BitVec.ofNat 64 (opc * 2 ^ 56 + kind.toNat * 2 ^ 52 + op.toNat * 2 ^ 48 + ra.toNat * 2 ^ 43 + body.toNat)

/-! ## The words of the rows (Table 5-10) -/

/-- The word of a DCI row; fields that an instruction does not use are zero; none for every other row. -/
def encodeDci : Instr → Option W64
  | .add _ rd ra rb _ => some (dciR 0x01 rd ra rb)
  | .sub _ rd ra rb _ => some (dciR 0x02 rd ra rb)
  | .and _ rd ra rb _ => some (dciR 0x03 rd ra rb)
  | .or _ rd ra rb _ => some (dciR 0x04 rd ra rb)
  | .xor _ rd ra rb _ => some (dciR 0x05 rd ra rb)
  | .sll _ rd ra rb _ => some (dciR 0x06 rd ra rb)
  | .srl _ rd ra rb _ => some (dciR 0x07 rd ra rb)
  | .sra _ rd ra rb _ => some (dciR 0x08 rd ra rb)
  | .mul _ rd ra rb _ => some (dciR 0x09 rd ra rb)
  | .mulhu _ rd ra rb _ => some (dciR 0x0A rd ra rb)
  | .mulh _ rd ra rb _ => some (dciR 0x0B rd ra rb)
  | .slt _ rd ra rb _ => some (dciR 0x0C rd ra rb)
  | .sltu _ rd ra rb _ => some (dciR 0x0D rd ra rb)
  | .min _ rd ra rb _ => some (dciR 0x0E rd ra rb)
  | .max _ rd ra rb _ => some (dciR 0x0F rd ra rb)
  | .addi _ rd ra imm _ => some (dciI 0x11 rd ra imm)
  | .andi _ rd ra imm _ => some (dciI 0x13 rd ra imm)
  | .ori _ rd ra imm _ => some (dciI 0x14 rd ra imm)
  | .xori _ rd ra imm _ => some (dciI 0x15 rd ra imm)
  | .slli _ rd ra imm _ => some (dciI 0x16 rd ra imm)
  | .srli _ rd ra imm _ => some (dciI 0x17 rd ra imm)
  | .srai _ rd ra imm _ => some (dciI 0x18 rd ra imm)
  | .slti _ rd ra imm _ => some (dciI 0x1C rd ra imm)
  | .sltiu _ rd ra imm _ => some (dciI 0x1D rd ra imm)
  | .lih _ rd ra imm _ => some (dciI 0x1F rd ra imm)
  | .ldb _ rd ra imm _ => some (dciI 0x20 rd ra imm)
  | .ldh _ rd ra imm _ => some (dciI 0x21 rd ra imm)
  | .ldw _ rd ra imm _ => some (dciI 0x22 rd ra imm)
  | .ldd _ rd ra imm _ => some (dciI 0x23 rd ra imm)
  | .ldbu _ rd ra imm _ => some (dciI 0x24 rd ra imm)
  | .ldhu _ rd ra imm _ => some (dciI 0x25 rd ra imm)
  | .ldwu _ rd ra imm _ => some (dciI 0x26 rd ra imm)
  | .stb _ rd ra imm _ => some (dciI 0x28 rd ra imm)
  | .sth _ rd ra imm _ => some (dciI 0x29 rd ra imm)
  | .stw _ rd ra imm _ => some (dciI 0x2A rd ra imm)
  | .std _ rd ra imm _ => some (dciI 0x2B rd ra imm)
  | .beq _ ra rb off _ => some (dciI 0x30 ra rb off)
  | .bne _ ra rb off _ => some (dciI 0x31 ra rb off)
  | .blt _ ra rb off _ => some (dciI 0x32 ra rb off)
  | .bge _ ra rb off _ => some (dciI 0x33 ra rb off)
  | .bltu _ ra rb off _ => some (dciI 0x34 ra rb off)
  | .bgeu _ ra rb off _ => some (dciI 0x35 ra rb off)
  | .jal _ rd imm _ => some (dciI 0x36 rd 0 imm)
  | .jalr _ rd ra imm _ => some (dciI 0x37 rd ra imm)
  | .cmd _ kind op ra body _ => some (dciC 0x40 kind op ra body)
  | .waitq _ q imm => some (dciW 0x48 0 q imm)
  | .fchk _ ra q imm _ => some (dciW 0x49 ra q imm)
  | .csrr _ rd imm _ => some (dciI 0x4A rd 0 imm)
  | .csrw _ ra imm _ => some (dciI 0x4B 0 ra imm)
  | .err _ ra _ => some (dciI 0x4E 0 ra 0)
  | .endItem _ => some (dciI 0x4F 0 0 0)
  | .dciIllegalInstruction _ w => some w
  | _ => none

/-- The row that a word stands for on a core whose checks agree (R396); an illegal word is the row
DCI_ILLEGAL_INSTRUCTION. -/
def decodeDci (n : CoreId) (w : W64) : Instr :=
  let v := w.toNat
  let rd : Reg := BitVec.ofNat 5 (bitsOf v 51 5)
  let ra : Reg := BitVec.ofNat 5 (bitsOf v 46 5)
  let rb : Reg := BitVec.ofNat 5 (bitsOf v 41 5)
  let imm : Imm := BitVec.ofNat 40 (bitsOf v 0 40)
  let q : BitVec 3 := BitVec.ofNat 3 (bitsOf v 43 3)
  if dciLegal w = false then .dciIllegalInstruction n w else
  match bitsOf v 56 8 with
  | 0x01 => .add n rd ra rb false
  | 0x02 => .sub n rd ra rb false
  | 0x03 => .and n rd ra rb false
  | 0x04 => .or n rd ra rb false
  | 0x05 => .xor n rd ra rb false
  | 0x06 => .sll n rd ra rb false
  | 0x07 => .srl n rd ra rb false
  | 0x08 => .sra n rd ra rb false
  | 0x09 => .mul n rd ra rb false
  | 0x0A => .mulhu n rd ra rb false
  | 0x0B => .mulh n rd ra rb false
  | 0x0C => .slt n rd ra rb false
  | 0x0D => .sltu n rd ra rb false
  | 0x0E => .min n rd ra rb false
  | 0x0F => .max n rd ra rb false
  | 0x11 => .addi n rd ra imm false
  | 0x13 => .andi n rd ra imm false
  | 0x14 => .ori n rd ra imm false
  | 0x15 => .xori n rd ra imm false
  | 0x16 => .slli n rd ra imm false
  | 0x17 => .srli n rd ra imm false
  | 0x18 => .srai n rd ra imm false
  | 0x1C => .slti n rd ra imm false
  | 0x1D => .sltiu n rd ra imm false
  | 0x1F => .lih n rd ra imm false
  | 0x20 => .ldb n rd ra imm false
  | 0x21 => .ldh n rd ra imm false
  | 0x22 => .ldw n rd ra imm false
  | 0x23 => .ldd n rd ra imm false
  | 0x24 => .ldbu n rd ra imm false
  | 0x25 => .ldhu n rd ra imm false
  | 0x26 => .ldwu n rd ra imm false
  | 0x28 => .stb n rd ra imm false
  | 0x29 => .sth n rd ra imm false
  | 0x2A => .stw n rd ra imm false
  | 0x2B => .std n rd ra imm false
  | 0x30 => .beq n rd ra imm false
  | 0x31 => .bne n rd ra imm false
  | 0x32 => .blt n rd ra imm false
  | 0x33 => .bge n rd ra imm false
  | 0x34 => .bltu n rd ra imm false
  | 0x35 => .bgeu n rd ra imm false
  | 0x36 => .jal n rd imm false
  | 0x37 => .jalr n rd ra imm false
  | 0x40 => .cmd n (BitVec.ofNat 4 (bitsOf v 52 4)) (BitVec.ofNat 4 (bitsOf v 48 4)) (BitVec.ofNat 5 (bitsOf v 43 5)) imm false
  | 0x48 => .waitq n q imm
  | 0x49 => .fchk n ra q imm false
  | 0x4A => .csrr n rd imm false
  | 0x4B => .csrw n ra imm false
  | 0x4E => .err n ra false
  | 0x4F => .endItem n
  | _ => .dciIllegalInstruction n w

/-! ## Fetch -/

/-- Local address of the first instruction of a role image: after the entry table, on a multiple of 8 (Table 5-23). -/
def State.roleCode (s : State) (role : Nat) : Nat := s.roleAddr role + (16 + 4 * s.roleEntries role + 7) / 8 * 8

/-- The row that stands at the program counter of a core: its code image holds the word there, little-endian (R152). -/
def State.fetchDci (s : State) (n : CoreId) : Option Instr :=
  let c := s.core n
  c.image.map fun r => decodeDci n (BitVec.ofNat 64 (leNat (s.rdN (s.roleCode r + 8 * c.pc) 8)))

end Sys2Proof.Machine
end

