-- ==== Sys2Proof/WellFormed.lean ====
section
/-!
DEFINITION. WellFormed.lean: which commands the outside can send: operands within the widths and sizes the spec gives them. Each check is named;
operands of a bounded type need none.
-/
namespace Sys2Proof

/-- A source of Table 2-6: cores, functions and partitions that exist; a unit of another module carries a 24-bit SRC_ID and a 16-bit ID. -/
def srcOk : Src → Bool
  | .core n => decide (n < 27648)
  | .host fn => decide (fn < 33)
  | .frontEnd p => decide (p < 32)
  | .reshard => true
  | .reeve => true
  | .remote m u => decide (m < 65536 ∧ u < 16777216)

/-- A submission ring entry is 64 bytes (R142). -/
def entryOk (b : List Byte) : Bool := decide (b.length = 64)
/-- A flit or control flit is 32 bytes (R360, R395). -/
def flitOk (b : List Byte) : Bool := decide (b.length = 32)
/-- A packet is a header flit and at most 8 payload flits (R360). -/
def packetOk (b : List Byte) : Bool := decide (32 ≤ b.length ∧ b.length ≤ 288 ∧ b.length % 32 = 0)
/-- A posted write carries 1 to 512 bytes (Table 18-1). -/
def payloadOk (b : List Byte) : Bool := decide (0 < b.length ∧ b.length ≤ 512)
/-- A CXL.mem line is 64 bytes. -/
def lineOk (b : List Byte) : Bool := decide (b.length = 64)
/-- A nonce of SPDM is 32 bytes. -/
def nonceOk (b : List Byte) : Bool := decide (b.length = 32)
/-- A read request asks for 1 to 4,096 bytes (Table 18-1). -/
def readLen (n : Nat) : Bool := decide (0 < n ∧ n ≤ 4096)
/-- A module-local address has 40 bits (R14). -/
def localAddr (a : Nat) : Bool := decide (a < 0x10000000000)
/-- An offset of the 256 MiB register region (Table 18-3). -/
def regionOff (o : Nat) : Bool := decide (o < 0x10000000)
/-- A number of 16 bits. -/
def below16 (n : Nat) : Bool := decide (n < 65536)
/-- A number of 32 bits. -/
def below32 (n : Nat) : Bool := decide (n < 4294967296)
/-- A number of 64 bits. -/
def below64 (n : Nat) : Bool := decide (n < 18446744073709551616)
/-- A field index of a debug command has 9 bits (Table 17-17). -/
def fieldIndex (n : Nat) : Bool := decide (n < 512)
/-- A PTP domain has 8 bits. -/
def ptpDomain (n : Nat) : Bool := decide (n < 256)
/-- A certificate slot of SPDM has 4 bits. -/
def certSlot (n : Nat) : Bool := decide (n < 16)
/-- A PCIe link has 1 to 16 lanes here (Table 18-1). -/
def laneWidth (n : Nat) : Bool := decide (0 < n ∧ n ≤ 16)
/-- A lane of a Headland link is one of 68 (R352). -/
def laneOk (n : Nat) : Bool := decide (n < 68)
/-- A monitored port exists (R38). -/
def monPortOk : MonPort → Bool
  | .control n | .array n | .vector n | .drill n | .moveEngine n | .vaultInterface n => decide (n < 27648)
  | .huller n b => decide (n < 27648 ∧ b < 32)
  | .router f _ | .headland f _ => decide (f < 1152)
  | .granary _ => true
/-- A handshake's units exist (R38). -/
def handshakeOk (h : Handshake) : Bool := monPortOk h.port && decide (h.ring.getD 0 < 128)
/-- A trace record's fields have the widths of Table 17-16. -/
def traceOk (r : TraceRec) : Bool := decide (1 ≤ r.kind ∧ r.kind ≤ 255 ∧ r.core < 65536)
/-- A budget period reads the four plots (R528). -/
def plotsOk (l : List PlotReading) : Bool := decide (l.length = 4)

/-- The command is one that can arrive. -/
def wf : Instr → Bool
  | .registerWrite src off _ _ => srcOk src && regionOff off
  | .latchedLowRead src off _ => srcOk src && regionOff off
  | .vaultRecalibration => true
  | .droopHold _ _ => true
  | .droopResume _ _ => true
  | .rateWindowEnd _ _ _ => true
  | .slowFieldReport _ => true
  | .stallCtlWrite _ => true
  | .stall hs => handshakeOk hs
  | .stallCollectionClose others => others.all handshakeOk
  | .fieldResetDone _ => true
  | .arrayGate _ => true
  | .icacheFill _ line => below32 line
  | .workItemStart _ => true
  | .workItemEnd _ => true
  | .add _ _ _ _ _ => true
  | .sub _ _ _ _ _ => true
  | .and _ _ _ _ _ => true
  | .or _ _ _ _ _ => true
  | .xor _ _ _ _ _ => true
  | .sll _ _ _ _ _ => true
  | .srl _ _ _ _ _ => true
  | .sra _ _ _ _ _ => true
  | .mul _ _ _ _ _ => true
  | .mulhu _ _ _ _ _ => true
  | .mulh _ _ _ _ _ => true
  | .slt _ _ _ _ _ => true
  | .sltu _ _ _ _ _ => true
  | .min _ _ _ _ _ => true
  | .max _ _ _ _ _ => true
  | .addi _ _ _ _ _ => true
  | .andi _ _ _ _ _ => true
  | .ori _ _ _ _ _ => true
  | .xori _ _ _ _ _ => true
  | .slli _ _ _ _ _ => true
  | .srli _ _ _ _ _ => true
  | .srai _ _ _ _ _ => true
  | .slti _ _ _ _ _ => true
  | .sltiu _ _ _ _ _ => true
  | .lih _ _ _ _ _ => true
  | .ldb _ _ _ _ _ => true
  | .ldh _ _ _ _ _ => true
  | .ldw _ _ _ _ _ => true
  | .ldd _ _ _ _ _ => true
  | .ldbu _ _ _ _ _ => true
  | .ldhu _ _ _ _ _ => true
  | .ldwu _ _ _ _ _ => true
  | .stb _ _ _ _ _ => true
  | .sth _ _ _ _ _ => true
  | .stw _ _ _ _ _ => true
  | .std _ _ _ _ _ => true
  | .beq _ _ _ _ _ => true
  | .bne _ _ _ _ _ => true
  | .blt _ _ _ _ _ => true
  | .bge _ _ _ _ _ => true
  | .bltu _ _ _ _ _ => true
  | .bgeu _ _ _ _ _ => true
  | .jal _ _ _ _ => true
  | .jalr _ _ _ _ _ => true
  | .cmd _ _ _ _ _ _ => true
  | .queueSpaceIssue _ => true
  | .waitq _ _ _ => true
  | .waitqSatisfied _ => true
  | .fchk _ _ _ _ _ => true
  | .csrr _ _ _ _ => true
  | .csrw _ _ _ _ => true
  | .err _ _ _ => true
  | .endItem _ => true
  | .dciIllegalInstruction _ _ => true
  | .mma _ => true
  | .shadowTileLoaded _ => true
  | .arrayStep _ _ => true
  | .envelopeVerifyDone _ => true
  | .dot _ _ => true
  | .ewAdd _ _ => true
  | .ewSub _ _ => true
  | .ewMul _ _ => true
  | .ewFma _ _ => true
  | .ewMin _ _ => true
  | .ewMax _ _ => true
  | .ewCmp _ _ => true
  | .ewSel _ _ => true
  | .fnRcp _ _ => true
  | .fnRsqrt _ _ => true
  | .fnExp _ _ => true
  | .fnLog _ _ => true
  | .fnTanh _ _ => true
  | .fnLogistic _ _ => true
  | .fnErf _ _ => true
  | .cvt _ _ => true
  | .statSum _ _ => true
  | .statSumsq _ _ => true
  | .statMax _ _ => true
  | .pack3 _ _ => true
  | .attn _ => true
  | .dotv _ => true
  | .redSum _ => true
  | .redMax _ => true
  | .redMin _ => true
  | .fill _ => true
  | .bankTaskSlotTake _ _ => true
  | .bankTaskAdmit _ _ => true
  | .bankTaskEnd _ _ _ _ => true
  | .copy _ _ => true
  | .tcopy _ _ => true
  | .gather _ _ => true
  | .scatterReplace _ _ => true
  | .scatterAdd _ _ => true
  | .scatterMax _ _ => true
  | .scatterMin _ _ => true
  | .drill _ _ => true
  | .stagingSpaceGrant => true
  | .granaryDrillGrant => true
  | .moveComplete _ => true
  | .detScatterCombine _ _ => true
  | .fenceRel _ => true
  | .fenceAcq _ => true
  | .fenceFull _ => true
  | .fenceComplete src => srcOk src
  | .signalAdd _ _ => true
  | .signalSet _ _ => true
  | .waitGe _ => true
  | .waitEq _ => true
  | .semWaitComplete _ => true
  | .semTimeout _ => true
  | .vaultBurst _ _ _ _ => true
  | .misdeliveryResend _ => true
  | .misdeliveryHoldExpire _ => true
  | .ringBaseWrite _ _ _ => true
  | .ringCfgWrite _ _ => true
  | .doorbell src _ _ => srcOk src
  | .cplHeadWrite _ _ => true
  | .ringReset _ => true
  | .ringResume _ => true
  | .dispatch _ bytes => entryOk bytes
  | .commitEntry _ bytes => entryOk bytes
  | .stepCommit _ => true
  | .moveEntry _ bytes => entryOk bytes
  | .fenceEntry _ bytes => entryOk bytes
  | .semSignalEntry _ bytes _ => entryOk bytes
  | .semWaitEntry _ bytes => entryOk bytes
  | .mark _ bytes => entryOk bytes
  | .nopEntry _ bytes => entryOk bytes
  | .unlistedEntryType _ bytes => entryOk bytes
  | .ringReadFail _ => true
  | .cplWriteFail _ => true
  | .cmdErrorReport => true
  | .descTableWrite _ _ => true
  | .descDetWrite _ _ => true
  | .descCreate _ _ => true
  | .descInvalidate _ _ => true
  | .hulPlotLimitWrite _ _ => true
  | .bandEstimate => true
  | .binFreeToScratch _ _ => true
  | .binScratchToFree _ => true
  | .binFreeToCache _ => true
  | .binCacheToFree _ => true
  | .binTransitionDone _ => true
  | .cacheFlushDone => true
  | .seedstoreAccess src addr _ _ _ _ _ => srcOk src && localAddr addr
  | .combineContribution _ => true
  | .cwinWrite _ _ _ => true
  | .strmOpen _ _ => true
  | .strmClose _ _ => true
  | .strmRead _ _ => true
  | .mdlInstall _ _ => true
  | .mdlEvict _ _ => true
  | .mdlQuery _ _ => true
  | .rshStart _ => true
  | .rshAbort _ => true
  | .rshJobPlace => true
  | .rshMoveDone _ _ => true
  | .rshWaitDone _ => true
  | .rshTimeout _ => true
  | .headlandFlitReceive _ _ lane flit got => laneOk lane && flitOk flit.bytes && flitOk got && decide (flit.cls < 4)
  | .meshFlitReceive _ flit => flitOk flit.bytes && decide (flit.cls < 4 ∧ flit.from_ < 1152)
  | .portEnable _ => true
  | .portRetrain _ => true
  | .portForceFi _ _ => true
  | .partnerSignalDetect _ _ _ => true
  | .trainingDone _ => true
  | .hello _ flit => flitOk flit
  | .idle _ flit _ => flitOk flit
  | .faultIdle _ flit => flitOk flit
  | .lossOfLock _ => true
  | .retryTimeout _ => true
  | .fecUncorrectable _ => true
  | .rdReq _ pkt => packetOk pkt
  | .wr _ pkt => packetOk pkt
  | .signal _ pkt _ => packetOk pkt
  | .combine _ pkt => packetOk pkt
  | .rdRsp _ pkt => packetOk pkt
  | .cpl _ pkt => packetOk pkt
  | .abort _ pkt => packetOk pkt
  | .sweepReq _ pkt => packetOk pkt
  | .sweepRsp _ pkt => packetOk pkt
  | .breakNotice _ pkt => packetOk pkt
  | .packetRoute _ => true
  | .routeSwitch => true
  | .routeDataAccess src _ => srcOk src
  | .sweepStart => true
  | .oncResponseTimeout _ => true
  | .faultConfirmed => true
  | .replayQuiesced _ => true
  | .replayRestored _ => true
  | .coreSubstitutionDone _ => true
  | .eventClassify => true
  | .scrubRewrite => true
  | .harrowVaultRead _ _ _ _ => true
  | .harrowGranaryRead _ => true
  | .harrowSeedstoreRead _ => true
  | .logEntryAgeOut _ => true
  | .logClr _ => true
  | .retirePage _ => true
  | .retireBank _ => true
  | .retireBin _ => true
  | .retireCopyDone => true
  | .pwrOkRise => true
  | .pwrOkFall => true
  | .emergencyCommitEnd => true
  | .perstAssert => true
  | .perstRelease => true
  | .warmRstAssert => true
  | .warmRstRelease => true
  | .resetPinGlitch => true
  | .rstCtlCold _ => true
  | .rstCtlWarm _ => true
  | .stepStrap _ => true
  | .stepSeed _ _ _ _ _ => true
  | .stepRepair _ => true
  | .stepPower _ _ _ => true
  | .stepVault _ _ => true
  | .stepField _ => true
  | .stepFetch => true
  | .stepLink => true
  | .stepTopo => true
  | .stepReady _ => true
  | .bringStepDone => true
  | .bringStepTimeout => true
  | .stepLinkLimit => true
  | .bootItemTimeout _ => true
  | .blkRstField _ => true
  | .blkRstOncon _ => true
  | .blkRstHost _ => true
  | .blkRstSeedstore _ => true
  | .blkRstReshard _ => true
  | .blockIdleReached => true
  | .blockIdleTimeout => true
  | .requestUpdate => true
  | .updateComponent _ => true
  | .firmwareData _ => true
  | .slotVerifyDone _ _ => true
  | .activateFirmware => true
  | .seedConfirm _ => true
  | .almanacRecordWrite _ _ => true
  | .almanacCompact _ => true
  | .getVersion => true
  | .getCapabilities => true
  | .negotiateAlgorithms => true
  | .getDigests => true
  | .getCertificate slot offset len => certSlot slot && below16 offset && below16 len
  | .challenge slot nonce => certSlot slot && nonceOk nonce
  | .getMeasurements _ => true
  | .spdmUnsupportedRequest _ => true
  | .ceilRaise _ => true
  | .ceilReturn _ => true
  | .phaseFailShort _ _ => true
  | .phaseFailOpen _ _ => true
  | .crackSuspect _ _ _ _ _ _ => true
  | .levelRampDone => true
  | .capRecompute => true
  | .rthUpdate _ _ => true
  | .budgetPeriod _ plots => plotsOk plots
  | .budgetMessageStale _ => true
  | .overcurrentDutyCut _ _ => true
  | .autoCeilAdjust _ => true
  | .diodeConversion _ _ => true
  | .throttleStep _ => true
  | .diodeBroken _ => true
  | .diodeSubstitute _ => true
  | .sensorBroken _ _ => true
  | .coolInWrite _ => true
  | .coolInStale => true
  | .powerControlWrite _ _ => true
  | .sleepTargetS0 => true
  | .sleepTargetS1 => true
  | .sleepTargetS2 => true
  | .sleepTargetS4 => true
  | .sleepBlockAnswer _ => true
  | .sleepEntryTimeout => true
  | .sleepEntryDone => true
  | .sleepExitDone => true
  | .read32 off => below32 off
  | .write32 off _ => below32 off
  | .read64 off => below32 off
  | .write64 off _ => below32 off
  | .setEndpointId _ => true
  | .getEndpointId => true
  | .getEndpointUuid => true
  | .getMctpVersionSupport => true
  | .getMessageTypeSupport => true
  | .mctpUnsupportedType _ => true
  | .i3cDynamicAddress _ => true
  | .getFruRecordTable => true
  | .setEventReceiver => true
  | .pollForPlatformEventMessage => true
  | .eventSend => true
  | .heartbeat => true
  | .resend _ _ _ => true
  | .arpRequest ip => below32 ip
  | .icmpEcho ip _ => below32 ip
  | .dhcpExchange ip mask gateway => below32 ip && below32 mask && below32 gateway
  | .ptpSync domain master _ _ _ => ptpDomain domain && below64 master
  | .ptpFollowUp domain master _ => ptpDomain domain && below64 master
  | .ptpDelayResp domain master _ _ => ptpDomain domain && below64 master
  | .ptpAnnounce domain master _ => ptpDomain domain && below64 master
  | .ptpSyncLoss => true
  | .timeSet _ => true
  | .tlmCfgWrite _ _ => true
  | .tlmSampleDone _ _ => true
  | .gleanGo _ => true
  | .gleanTimeReached => true
  | .traceCtlWrite _ => true
  | .traceRecordStore rec _ _ => traceOk rec
  | .debugHalt _ _ index => fieldIndex index
  | .debugResume _ _ index => fieldIndex index
  | .dbgDataWrite _ => true
  | .wfgGo _ => true
  | .wfgAuto => true
  | .wfgReportDone => true
  | .wfgDataRead src _ _ _ => srcOk src
  | .hostMemRead _ addr len _ => localAddr addr && readLen len
  | .hostMemWrite _ addr bytes _ => localAddr addr && payloadOk bytes
  | .hostFetchadd _ addr _ _ _ => localAddr addr
  | .hostSwap _ addr _ _ _ => localAddr addr
  | .hostCas _ addr _ _ _ _ => localAddr addr
  | .cxlMemRead _ _ _ => true
  | .cxlMemWrite _ bytes _ _ => lineOk bytes
  | .hdmDecoderCommit _ => true
  | .hostLinkTrain width _ _ _ => laneWidth width
  | .hostLinkDown => true
  | .vfFlr _ => true
  | .pfFlr => true
  | .d3hotEntry _ => true
  | .d0Return _ => true
  | .atsInvalidate _ _ => true
  | .partCreate _ => true
  | .partDestroy _ => true
  | .allocCreate _ => true
  | .allocRelease _ => true
  | .inputSag => true
  | .refclkLoss => true
  | .standbyStageStart => true
  | .standbyStageStop => true
  | .sparePhaseSoftStartDone _ => true
  | .pldmSensorRefresh _ _ _ _ => true
  | .msixVectorUnmask _ _ => true

end Sys2Proof
end

