-- ==== Sys2Proof/Safety.lean ====
section
/-!
DEFINITION. Safety.lean: the words the statements are written with: a command completes in a state of which something holds, and the conditions
under which the spec says that each kind of command runs.
-/
namespace Sys2Proof.Machine

/-- The command completes: `exec` answers a next state, and `P` holds of it. -/
def completes (c : Instr) (s : State) (P : State → Prop) : Prop := ∃ t, exec c s = .next t ∧ P t

/-! ## Control processors -/

/-- The control processor of core `n` executes, and its next instruction is not the last of the image (R154). -/
def dciAt (s : State) (n : Nat) : Prop := s.cpRuns n = true ∧ (s.core n).pc + 1 < (s.core n).instrCount

/-- Nothing but core `n` differs, as far as memory, registers, rings and the other cores go. -/
def onlyCore (s t : State) (n : Nat) : Prop :=
  (∀ m, m ≠ n → t.core m = s.core m) ∧ t.mem = s.mem ∧ t.regs = s.regs ∧ t.chaff = s.chaff ∧ t.link = s.link ∧ t.moves = s.moves

/-- Core `n` has written `v` into scalar register `rd` (into none for s0, R66) and gone on to program counter `pc`: every other scalar register,
its scratch, queues, LAYER and OPER stand. -/
def wroteReg (s t : State) (n : Nat) (rd : Reg) (v : W64) (pc : Nat) : Prop :=
  (∀ r, (t.core n).reg r = if r = rd ∧ r ≠ 0 then v else (s.core n).reg r) ∧ (t.core n).pc = pc ∧
  (t.core n).scratch = (s.core n).scratch ∧ (t.core n).layer = (s.core n).layer ∧ (t.core n).oper = (s.core n).oper ∧
  (t.core n).qm = (s.core n).qm ∧ (t.core n).qmv = (s.core n).qmv ∧ (t.core n).wait = (s.core n).wait ∧ onlyCore s t n

/-- The instruction completes with `v` in `rd` and the next instruction follows. -/
def gives (c : Instr) (s : State) (n : Nat) (rd : Reg) (v : W64) : Prop :=
  completes c s fun t => wroteReg s t n rd v ((s.core n).pc + 1)

/-- The work item of core `n` has been ended with a status (R153, R154): the control processor waits for the end, queued commands are discarded,
and a work item of a ring that is not cancelled reports the status to the front end (R171). -/
def itemEnded (s t : State) (n status soft : Nat) : Prop :=
  (t.core n).wait = some .ending ∧ (t.core n).qm = [] ∧ (t.core n).qv = [] ∧ (t.core n).qh = [] ∧ (t.core n).qmv = [] ∧ (t.core n).qs = [] ∧
  (∀ w r, (s.core n).wi = some w → w.ring = some r → w.dead = false →
    t.errQ = s.errQ ++ [{ ring := r, step := w.step, status := status, core := n, soft := soft, entry := some w.place,
                          item := decide ((s.core n).status = 0) }]) ∧
  onlyCore s t n

/-- The instruction ends the work item with a status. -/
def endsItem (c : Instr) (s : State) (n status soft : Nat) : Prop := completes c s fun t => itemEnded s t n status soft

/-- A load or store at `a` of `k` bytes is aligned and within scratch, and no earlier command of the core stands in its way (R69, R154). -/
def scratchOk (s : State) (n a k : Nat) (write : Bool) : Prop :=
  a % k = 0 ∧ a + k ≤ 0x18000 ∧ s.scratchFree n (s.core n).nextSeq [(write, a, a + k)] = true

/-- Command `d` is what CMD forms (R158): header from the CSRs, body s[RA] OR BODY, CHECK over the other 14 bytes. -/
def formed (c : Core) (kind op : BitVec 4) (ra : Reg) (body : Imm) (d : Cmd) : Prop :=
  d.layer = c.layer ∧ d.oper = c.oper ∧ d.step = (c.wi.map WorkItem.step).getD 0 ∧ d.kind = kind.toNat ∧ d.op = op.toNat ∧
  d.body.toNat = ((c.reg ra).toNat % 2 ^ 40) ||| body.toNat ∧
  d.chk = moduleCheck (cmdBytes c.layer c.oper d.step kind.toNat op.toNat d.body)

/-- A command may be issued on core `n`: its control processor executes, nothing holds issue, and a next instruction follows. -/
def issueAt (s : State) (n : Nat) : Prop := dciAt s n ∧ s.issueHeld n = false

/-! ## Units of a core -/

/-- The command at the head of queue `q` of core `n` is `d`, of operation `op`, with `rest` behind it and `f` in its frame of `len` bytes, and
nothing keeps its unit from taking it: no hold of the core or its field, the CHECKs of command and frame match, the frame is in its place and no
earlier command of the core holds it (R628, R160 to R162, R69). -/
abbrev atHead (s : State) (n q op len : Nat) (d : Cmd) (rest : List Cmd) (f : List Byte) : Prop :=
  (s.core n).queueOf q = d :: rest ∧ s.startHeld n = false ∧ d.op = op ∧ d.checkOk = true ∧ d.frame % len = 0 ∧ d.frame + len ≤ 0x18000 ∧
  s.scratchFree n d.seq [(false, d.frame, d.frame + len)] = true ∧ f = (s.core n).sread n d.frame len ∧ checkOk f len = true

/-- The envelope of a command of core `n` (R398, R399): the entry its OPER names in the table of its work item's partition. -/
def envFor (s : State) (n : Nat) (d : Cmd) : Env := (s.envOf (((s.core n).wi.map WorkItem.part).getD 0) d.oper).1

/-- Core `n` keeps its registers, program counter and work item, and the queues other than `q`; the other cores and memory stand. -/
def unitFrame (s t : State) (n q : Nat) : Prop :=
  (∀ r, (t.core n).reg r = (s.core n).reg r) ∧ (t.core n).pc = (s.core n).pc ∧ (t.core n).wi = (s.core n).wi ∧
  (∀ p, p < 5 → p ≠ q → (t.core n).queueOf p = (s.core n).queueOf p) ∧ (∀ m, m ≠ n → t.core m = s.core m) ∧ t.mem = s.mem

/-- The command at the head of queue `q` fails with a status and writes nothing (R162, R171): it leaves its queue, and the ring of its work item is told. -/
def failsWith (c : Instr) (s : State) (n q status : Nat) (rest : List Cmd) : Prop :=
  completes c s fun t =>
    (t.core n).queueOf q = rest ∧ (t.core n).scratch = (s.core n).scratch ∧ unitFrame s t n q ∧
    ∀ w r, (s.core n).wi = some w → w.ring = some r → w.dead = false →
      t.errQ = s.errQ ++ [{ ring := r, step := w.step, status := status, core := n, soft := 0, entry := some w.place,
                            item := decide ((s.core n).status = 0) }]

/-- The command at the head of the vector queue is `d` with frame parameters `v`, its checks pass, and its regions are free of earlier commands (and,
with A in the vault, its reads are in order, R54). -/
abbrev vecReady (s : State) (n op sub : Nat) (d : Cmd) (rest : List Cmd) (f : List Byte) : Prop :=
  atHead s n 1 op 64 d rest f ∧ d.sub = sub ∧ vecRsvd d f = false ∧ vecCheck n (vecParse d f) = 0 ∧
  s.scratchFree n d.seq (vecParse d f).spans = true ∧
  ((vecParse d f).aVault = true → s.orderHeld n d.seq false false = false ∧ s.memFree n d.seq (s.cmdMem n d) = true)

/-- What the operands of a vector command read: operand A from scratch, or from the core's own vault. -/
def vecA (s : State) (n : Nat) (v : VecFrame) : Nat → Byte := if v.aVault then s.rd8 else (s.core n).sget n

/-- The bytes of D, and of DS, are in their places in scratch, and no other byte of scratch, no register, queue, other core or memory byte has
changed. -/
def wroteD (s t : State) (n : Nat) (v : VecFrame) (rest : List Cmd) (d ds : List Byte) : Prop :=
  (t.core n).queueOf 1 = rest ∧ unitFrame s t n 1 ∧
  ∀ a, (t.core n).sget n a = if v.dsA ≤ a ∧ a < v.dsA + ds.length then ds.getD (a - v.dsA) 0
    else if v.dA ≤ a ∧ a < v.dA + d.length then d.getD (a - v.dA) 0 else (s.core n).sget n a

/-- The command at the head of the huller queue is `d`, its parameters pass R227, and no fence holds it. -/
abbrev hulReady (s : State) (n op : Nat) (d : Cmd) (rest : List Cmd) (f : List Byte) : Prop :=
  atHead s n 2 op 64 d rest f ∧ hulRsvd d f = false ∧ s.hulCheck n (hulParse d f) = 0 ∧ s.orderHeld n d.seq false (op = 3) = false

/-- The issue port has taken the command with its parameters and its envelope: one waiting bank task for each bank its mask names. -/
def hulTook (s t : State) (n : Nat) (d : Cmd) (rest : List Cmd) (f : List Byte) : Prop :=
  let h := hulParse d f
  (t.core n).hul = (s.core n).hul ++ [{ h with env := envFor s n d, chaff := d.chaff, tasks := h.banks.map (⟨·, .waiting, 0, 0, false⟩) }] ∧
  (t.core n).queueOf 2 = rest ∧ (t.core n).scratch = (s.core n).scratch ∧ unitFrame s t n 2

/-- Do the outputs of a command that failed its envelope stand (R404 to R406): the checksums of a matrix instruction or DOT hold, the bytes of any
other vector command or of a record are those a recompute gives. -/
def verifyHolds (s : State) (n : Nat) (v : Verify) : Prop :=
  match v with
  | .mtx i => s.verifyMtx n i = (none, none)
  | .dot d f => s.verifyDot n d f = (none, none)
  | .recompute d f e ds => (s.core n).sread n (vecParse d f).dA e.length = e ∧ (s.core n).sread n (vecParse d f).dsA ds.length = ds
  | .bank _ _ a e _ _ => (s.core n).sread n a e.length = e

/-! ## Moves, combining, synchronization -/

/-- The move command at the head of core `n`'s queue passes its common checks and those of R627 with these descriptors, and neither scratch, memory
order nor the drill (R166) keeps it. -/
abbrev moveReady (s : State) (n op sub : Nat) (d : Cmd) (rest : List Cmd) (f : List Byte) (a b : Desc) (x : Option Desc) (perm : List Nat)
    (ov need : Nat) (ch : Bool) : Prop :=
  atHead s n 3 op 32 d rest f ∧ (op = 3 → d.sub = sub) ∧ bitsOf d.body.toNat 0 24 = 0 ∧ moveRsvd op d.sub f = false ∧
  s.moveCheck (some n) (s.itemPart n) op d.sub f = .ok a b x perm ov need ch ∧
  s.scratchFree n d.seq (a.scratchSpans false ++ b.scratchSpans true ++ (match x with | some i => i.scratchSpans false | none => [])) = true ∧
  s.memFree n d.seq (s.memSpans (some n) op d.sub (some a) (some b) x) = true ∧
  (a.kind = 2 ∨ s.orderHeld n d.seq false false = false) ∧
  (b.kind = 2 ∨ s.orderHeld n d.seq (s.collective (some n) op d.sub b) true = false) ∧
  (op = 4 → (s.moves.any fun m => m.core = some n && m.op = 4) = false)

/-- The numbers of the moves in progress lie below the next one to be given. `MoveNumbersAreFresh` states that every step keeps this. -/
def movesFresh (s : State) : Prop := ∀ m ∈ s.moves, m.id < s.nextMove

/-- The move engine has taken the command: a move of the core with these descriptors is in progress. With its destination in scratch no byte of
memory and no other core has changed. -/
def moveBegun (s t : State) (n op : Nat) (d : Cmd) (rest : List Cmd) (a b : Desc) (x : Option Desc) : Prop :=
  (∃ m ∈ t.moves, m.id = s.nextMove ∧ m.core = some n ∧ m.part = s.itemPart n ∧ m.cmd = d ∧ m.op = op ∧ m.sub = d.sub ∧
    m.src = a ∧ m.dst = b ∧ m.idx = x) ∧
  t.nextMove = s.nextMove + 1 ∧ t.moves.length = s.moves.length + 1 ∧ (t.core n).queueOf 3 = rest ∧
  (∀ r, (t.core n).reg r = (s.core n).reg r) ∧ (t.core n).pc = (s.core n).pc ∧ (t.core n).wi = (s.core n).wi ∧
  (b.kind = 2 → t.mem = s.mem ∧ ∀ m, m ≠ n → t.core m = s.core m)

/-- The move command at the head of core `n`'s queue, its common checks passed, gets this answer from the checks of R627. -/
abbrev moveJudged (s : State) (n op sub : Nat) (d : Cmd) (rest : List Cmd) (f : List Byte) (answer : MoveChk) : Prop :=
  atHead s n 3 op 32 d rest f ∧ (op = 3 → d.sub = sub) ∧ bitsOf d.body.toNat 0 24 = 0 ∧ moveRsvd op d.sub f = false ∧
  s.moveCheck (some n) (s.itemPart n) op d.sub f = answer

/-- A fence command of type `type` stands at the head of the sync queue, and the unit is free (Table 5-19). -/
abbrev fenceReady (s : State) (n type : Nat) (d : Cmd) (rest : List Cmd) : Prop :=
  (s.core n).queueOf 4 = d :: rest ∧ (s.core n).sync = none ∧ s.startHeld n = false ∧ d.op = 0 ∧ d.checkOk = true ∧
  bitsOf d.body.toNat 2 2 = 0 ∧ bitsOf d.body.toNat 8 32 = 0 ∧ bitsOf d.body.toNat 0 2 = type

/-- The sync unit has taken a fence: it stands there where it covers a class of the core. -/
def fenceTook (s t : State) (n : Nat) (d : Cmd) (rest : List Cmd) : Prop :=
  (t.core n).sync = (if bitAt d.body.toNat 4 || bitAt d.body.toNat 6 then some d else none) ∧ (t.core n).queueOf 4 = rest ∧
  (t.core n).scratch = (s.core n).scratch ∧ unitFrame s t n 4

/-- The sync unit has taken a WAIT, which is in the wait table with what its frame names, its awaited value not seen yet. -/
def waitTook (s t : State) (n : Nat) (d : Cmd) (rest : List Cmd) (f : List Byte) (eq : Bool) : Prop :=
  (∃ w : SemWait, t.waits = s.waits ++ [w] ∧ w.core = some n ∧ w.sem = localOf (fieldB f 0 7) ∧ w.value = fieldB f 8 8 ∧ w.eq = eq ∧
    w.deadline = (if fieldB f 16 4 = 0 then none else some (s.time.elapsed + fieldB f 16 4 * 1000)) ∧ w.met = none) ∧
  (t.core n).sync = some d ∧ (t.core n).queueOf 4 = rest ∧ (t.core n).scratch = (s.core n).scratch ∧ unitFrame s t n 4

/-- A SIGNAL (`op` 1) or WAIT (`op` 2) stands at the head of the sync queue, and its frame `f` passes the checks before those of R167. -/
abbrev semReady (s : State) (n op sub : Nat) (d : Cmd) (rest : List Cmd) (f : List Byte) : Prop :=
  (s.core n).sync = none ∧ atHead s n 4 op 32 d rest f ∧ d.sub = sub ∧ bitsOf d.body.toNat 0 24 = 0 ∧ semRsvd f (op = 2) = false

/-! ## Registers and rings -/

/-- Register fields other than those listed (field and copy) read as before, and nothing else of the state differs. -/
def regsOnly (s t : State) (l : List (Fld × Nat)) : Prop :=
  t = { s with regs := t.regs } ∧ ∀ f i, (∀ x ∈ l, f.key i ≠ x.1.key x.2) → t.fget f i = s.fget f i

/-- The contexts and model descriptors that the engine reads at START have good CHECKs (R317, R431). -/
def rshIntact (s : State) (p : Nat) : Prop :=
  (∀ k ∈ (s.rshNamed p).1, s.strmOn = false ∨ s.ctxIntact k = true) ∧ ∀ i ∈ (s.rshNamed p).2, s.mdlIntact i = true

/-- FLAGS.AFTER_COMMIT, a step closed for an export, and the limit of four open steps let an entry of a type be taken (R145, R421). -/
def entryFits (x : Ring) (e : List Byte) (type : Nat) : Bool :=
  match x.cur with
  | some o => o.st = .run && (!entAfter e || x.steps.all fun y => !y.commitTaken)
  | none => (!entAfter e || x.steps.isEmpty) && (type = 7 || decide (x.steps.length < 4))

/-- The entry at the head of a ring that runs is `e`, its CHECK matches, it is of `type`, it is its turn (R134), it is not being discarded, and FLAGS and the four open
steps (R145) let it be taken. -/
abbrev entryHead (s : State) (r : Nat) (given : List Byte) (e : List Byte) (type : Nat) : Prop :=
  s.ringOpen r = true ∧ s.entryTurn r = true ∧ s.entryAt r given = some e ∧ checkOk e 64 = true ∧ entType e = type ∧ (s.ring r).discard = [] ∧
  entryFits (s.ring r) e type = true

/-- The front end has gone past the entry at the head (which no replay reads), and the entry's step is open: opened by it when no step was being taken. -/
def tookEntry (s t : State) (r : Nat) (e : List Byte) : Prop :=
  t.fget F.ringHead_HEAD r = (s.fget F.ringHead_HEAD r + 1) % (2 * s.ringSize r) % 2 ^ 17 ∧
  (t.ring r).steps.map OpenStep.step = (s.ring r).steps.map OpenStep.step ++ (if (s.ring r).cur.isSome then [] else [entStep e]) ∧
  (t.ring r).tail = (s.ring r).tail

/-- The ring halts with a code (R172). -/
def ringHalted (t : State) (r code : Nat) : Prop := t.flag F.ringState_HALTED r = true ∧ t.fget F.ringState_ERR_CODE r = code

/-! ## Links -/

/-- Only register fields of a list, the links and what was sent differ. -/
def linkOnly (s t : State) (l : List (Fld × Nat)) : Prop :=
  t = { s with regs := t.regs, link := t.link, out := t.out } ∧ ∀ f i, (∀ x ∈ l, f.key i ≠ x.1.key x.2) → t.fget f i = s.fget f i

/-- Memory, chaff, cores, rings, moves and partitions stand. -/
def keepsData (s t : State) : Prop :=
  t.mem = s.mem ∧ t.chaff = s.chaff ∧ t.cores = s.cores ∧ t.rings = s.rings ∧ t.moves = s.moves ∧ t.parts = s.parts

/-- The packets among what was sent, without the control flits between them (R363). -/
def packetsOf (l : List Out) : List Out := l.filter fun o => match o with | .packet _ control _ => !control | _ => false

/-- Lane `k` is the one active lane that is bad; `0xF`: none is. -/
def badLane (bad : BitVec 9) (k : Nat) : Prop :=
  (k = 0xF ∧ ∀ i, i < 8 → bad.getLsbD i = false) ∨ (k < 8 ∧ bad.getLsbD 8 = false ∧ ∀ i, i < 8 → bad.getLsbD i = decide (i = k))

/-- Lane `lane` of a plot's Headland link, in a direction, has failed. -/
def laneFailed (s : State) (plot : Nat) (inward : Bool) (lane : Nat) : Bool := (s.headland plot).failed.contains (hlKey inward lane)

/-- A lane of a plot's Headland link, in a direction: the flits it holds, and the resends of the oldest (R354). -/
def laneOf (s : State) (plot : Nat) (inward : Bool) (lane : Nat) : LaneSt := (s.headland plot).lane (hlKey inward lane)

/-! ## Packets -/

/-- The flits of a packet of a type arrive at a port that is UP, intact, in sequence and well formed. -/
abbrev arrives (s : State) (p : Nat) (b : List Byte) (type op : Nat) : Prop :=
  s.portUp p = true ∧ wireCrcOk b = true ∧ fieldB b 14 2 % 4096 = (s.port p).rxSeq ∧ wireOk b = true ∧
  (Packet.parse b).type = type ∧ (type = 8 → (Packet.parse b).op = op)

/-- A packet that comes in by port `p` is performed at once: the active set names it for this module, and none of its class and module that came
in by that port waits in the router (R380, R53). -/
abbrev comesHere (s : State) (p : Nat) (k : Packet) : Prop :=
  s.isHere k = true ∧ ∀ h ∈ s.link.queue, h.inp = p → h.pkt.cls = k.cls → h.pkt.dst ≠ k.dst

/-- The port has taken the packet: it expects the next SEQ, and no NAK stands. -/
def tookPacket (s t : State) (p : Nat) : Prop :=
  (t.port p).rxSeq = ((s.port p).rxSeq + 1) % 4096 ∧ (t.port p).nak = false

/-- One packet has joined the router: the answer to a request, of a type, with its status and payload. -/
def answered (s t : State) (k : Packet) (type status : Nat) (payload : List Byte) : Prop :=
  ∃ q : Packet, t.link.queue = s.link.queue ++ [{ inp := ownInput, pkt := q, up := false }] ∧ q.type = type ∧ q.cls = 2 ∧ q.dst = k.src ∧ q.srcId = k.srcId ∧ q.txn = k.txn ∧
    q.bytes = status ∧ q.payload = payload

/-- The rows that receive packets, with the TYPE and the OP each receives. -/
def packetRows (p : PortId) (b : List Byte) (mm : Nat) : List (Instr × Nat × Nat) :=
  [(.rdReq p b, 1, 0), (.wr p b, 2, 0), (.signal p b mm, 3, 0), (.combine p b, 4, 0), (.rdRsp p b, 5, 0), (.cpl p b, 6, 0), (.abort p b, 7, 0),
   (.sweepReq p b, 8, 1), (.sweepRsp p b, 8, 2), (.breakNotice p b, 8, 3)]

/-! ## Faults, replay, stored words -/

/-- A confirmed fault makes no unit permanent: it is charged to none, or to one that no earlier replay of the step was charged to and that has had
fewer than two faults (R427). -/
def slight (s : State) (f : FaultRec) (charged : List Nat) : Prop :=
  ∀ u, f.unit = some u → charged.contains u = false ∧ (s.history.filter fun h => h.1 = u).length < 2

/-- A read of the word at `addr` finds `e` (R434 to R437): a corrected error is counted and queued for its scrub-rewrite, an uncorrectable one is
counted and leaves the word chaff; no byte outside an uncorrectable word changes. `cor` and `unc`: copy `i` of the counters. -/
def wordRead (s t : State) (addr : Nat) (e : Ecc) (cor unc : Fld) (i : Nat) : Prop :=
  (e ≠ .uncorrectable → t.mem = s.mem) ∧ (∀ a, granuleOf a ≠ granuleOf addr → memGet t.mem a = memGet s.mem a) ∧
  t.cores = s.cores ∧ t.rings = s.rings ∧
  match e with
  | .clean => t.chaff = s.chaff ∧ t.fget cor i = s.fget cor i ∧ t.fget unc i = s.fget unc i ∧ t.ecc.rewrite = s.ecc.rewrite
  | .corrected _ => t.chaff = s.chaff ∧ t.fget cor i = (s.fget cor i + 1) % 2 ^ 64 ∧ t.fget unc i = s.fget unc i ∧
      (addr < 0x8000000000 → t.ecc.rewrite.contains (granuleOf addr) = true)
  | .uncorrectable => t.isChaff addr = true ∧ t.fget unc i = (s.fget unc i + 1) % 2 ^ 64 ∧ t.fget cor i = s.fget cor i

/-- What an event writes into log entry `i`: the word's place, the time, PERM where the fault is permanent, and its count. -/
def logHolds (t : State) (i : Nat) (e : EccEvent) (sec count : Nat) (perm : Bool) : Prop :=
  let x := logEnt i
  t.flag x.valid x.copy = true ∧ t.fget x.unit x.copy = (wordPlace e.addr).1 % 2 ^ x.unit.width ∧
  t.fget x.word x.copy = (wordPlace e.addr).2 % 2 ^ x.word.width ∧ t.fget x.place x.copy = e.place % 2 ^ x.place.width ∧
  t.fget x.last x.copy = sec ∧ t.fget x.count x.copy = count ∧ (perm = true → t.flag x.perm x.copy = true) ∧
  (e.uncorr = true → t.fget x.kind x.copy = 1)

/-! ## Resets -/

/-- RST_CAUSE.CAUSE after a reset with `bits`: a reset that meets another, or its bring-up, is merged with it (R483). -/
def causeAfter (s : State) (bits : Nat) : Nat := (if s.bringing then Nat.lor (s.fget F.rstCause_CAUSE 0) bits else bits) % 2 ^ 7

/-- What both resets leave: no work anywhere, the cause of the reset, and memory, part, pins and waiting commands as they were. -/
def wasReset (s t : State) (bits : Nat) : Prop :=
  t.cores = [] ∧ t.rings = [] ∧ t.parts = [] ∧ t.allocs = [] ∧ t.moves = [] ∧ t.waits = [] ∧ t.contribs = [] ∧ t.rsh = [] ∧ t.errQ = [] ∧ t.faultQ = [] ∧
  t.mem = s.mem ∧ t.partNo = s.partNo ∧ t.pending = s.pending ∧ t.rst.job = none ∧ t.fget F.rstCause_CAUSE 0 = causeAfter s bits ∧
  t.fget F.rstCause_GLITCHES 0 = 0

/-- A cold reset: the Reeve restarts too (Table 14-3). -/
def coldTaken (s t : State) (bits : Nat) : Prop :=
  wasReset s t bits ∧ t.rst.cold = true ∧ t.fget F.rstCause_WARM_COUNT 0 = 0 ∧ t.time.counter = 0 ∧ t.time.undisc = true ∧ t.mgmt = State.reset.mgmt ∧
  (∀ p, t.portState p = 0) ∧ ∀ a ∈ t.chaff, a < 0x8000000000

/-- A warm reset that met no cold one: the Reeve, the counters that are kept and the time counter go on; trained ports keep their lock and send
FAULT_IDLE with reason RESET (R482). -/
def warmTaken (s t : State) (bits : Nat) : Prop :=
  wasReset s t bits ∧ t.fget F.rstCause_WARM_COUNT 0 = min 0xFFFF (s.fget F.rstCause_WARM_COUNT 0 + 1) ∧ t.time = s.time ∧ t.mgmt = s.mgmt ∧
  t.chaff = s.chaff ∧ (∀ p, t.fget F.crcErr_COUNT p = s.fget F.crcErr_COUNT p) ∧
  ∀ p, p < 12 → if 2 ≤ s.portState p then t.portState p = 5 ∧ t.fget F.portStat_FI_REASON p = 5 else alFind s.cfg (F.portStat_STATE.key p) = none → t.portState p = 0

/-! ## Bring-up -/

/-- The step that runs, and the code and DETAIL it will end with (0: DONE). -/
def runs (t : State) (step code detail : Nat) : Prop :=
  t.fget F.bringStatus_STEP 0 = step ∧ t.bringState = 0 ∧ t.fget F.bringStatus_CODE 0 = 0 ∧
  ∃ j, t.rst.job = some j ∧ j.code = code ∧ (code ≠ 0 → j.detail = detail) ∧ j.since = t.time.elapsed

/-! ## Management, update, attestation -/


/-! ## Register accesses, partitions -/

/-- A write of `w` to copy `i` of a register is a plain one: the register has no behaviour of its own. -/
def plainWrite (s : State) (src : Src) (r : RegDef) (i w : Nat) : Prop := s.writeWork r i w = none ∧ s.writeModule src r i w = none

/-- The value of a field after a plain write of `w`, by its access code (Table 0-4). -/
def fieldAfter (s : State) (f : Fld) (i w : Nat) : Nat :=
  match f.acc with
  | .ro => s.fget f i
  | .w1c => (BitVec.ofNat f.width (s.fget f i) &&& ~~~ BitVec.ofNat f.width (f.of w)).toNat
  | .rw | .wo | .rws => f.of w % 2 ^ f.width

/-- Copy `i` of `r` lies at `off`, alone, outside the log entries and the registers whose reads have a behaviour of their own. -/
def plainAt (off : Nat) (r : RegDef) (i : Nat) : Prop :=
  (∀ b, b < r.width / 8 → findReg (off + b) regTable = some (r, i, b)) ∧ (r.width = 32 ∨ r.width = 64) ∧ off % (r.width / 8) = 0 ∧
  (blockOf off).isSome = true ∧ off < 0x8000000 ∧ ¬ (0x91000 ≤ off ∧ off < 0x91900) ∧ off ≠ R.routeData.base ∧ off ≠ R.timeNs.base ∧
  off ≠ R.timeS.base ∧ ¬ (0x20000E0 ≤ off ∧ off < 0x20000E8)

/-- A response to a register access message (Table 17-2). -/
def regResponse (op status off data : Nat) : Out :=
  .mgmt 0x7E status ([0x1F, 0x2E] ++ toLE 1 (op + 128) ++ toLE 1 status ++ toLE 2 0 ++ toLE 4 off ++ toLE 8 data)

/-- What the state `t` after the message with OP `op` that reads `size` bytes at `off` holds: the response to one that is turned away, or to the read performed. -/
def mctpReadDone (s t : State) (op off size : Nat) : Prop :=
  (blockOf off = none → t = { s with out := s.out ++ [regResponse op 2 off 0] }) ∧
  ((blockOf off).isSome = true → off % size ≠ 0 → t = { s with out := s.out ++ [regResponse op 3 off 0] }) ∧
  ((blockOf off).isSome = true → off % size = 0 → s.notReachable off = true → t = { s with out := s.out ++ [regResponse op 1 off 0] }) ∧
  ((blockOf off).isSome = true → off % size = 0 → s.notReachable off = false →
    t = { (s.regRead .reeve off size).1 with
          out := (s.regRead .reeve off size).1.out ++ [regResponse op 0 off (s.regRead .reeve off size).2] })

/-- The same of a message that writes: it is answered after its write is performed. -/
def mctpWriteDone (s t : State) (op off size val : Nat) : Prop :=
  (blockOf off = none → t = { s with out := s.out ++ [regResponse op 2 off 0] }) ∧
  ((blockOf off).isSome = true → off % size ≠ 0 → t = { s with out := s.out ++ [regResponse op 3 off 0] }) ∧
  ((blockOf off).isSome = true → off % size = 0 → s.notReachable off = true → t = { s with out := s.out ++ [regResponse op 1 off 0] }) ∧
  ((blockOf off).isSome = true → off % size = 0 → s.notReachable off = false →
    t = { s.regWrite .reeve off size val with out := (s.regWrite .reeve off size val).out ++ [regResponse op 0 off 0] })

/-- Half `half` (0 low, 1 high) of a 64-bit value is `v`, the other as in `old`. -/
def halfPut (old half v : Nat) : Nat := if half = 0 then old / 2 ^ 32 * 2 ^ 32 + v else old % 2 ^ 32 + v * 2 ^ 32 + old / 2 ^ 64 * 2 ^ 64

/-! ## The host interface -/

/-- Nothing keeps a request of function `fn` waiting: no earlier request waits, no write of it is under way, no block reset and no substitution runs, memory is awake. -/
def atOnce (s : State) (fn : Nat) : Prop :=
  s.host.held = [] ∧ s.hostWriting fn = false ∧ s.blk = none ∧ s.ret.job = none ∧ s.memAsleep = false

/-- The request is refused (R591): counted, logged if it is the first, answered with `ans`; nothing else changes. -/
def hostRefused (c : Instr) (s : State) (fn addr kind : Nat) (ans : List Out) : Prop :=
  completes c s fun t =>
    t.fget F.hostErrCnt_COUNT 0 = (s.fget F.hostErrCnt_COUNT 0 + 1) % 2 ^ F.hostErrCnt_COUNT.width ∧ t.flag F.hostErrLog_VALID 0 = true ∧
    t.fget F.hostErrLog_KIND 0 = (if s.flag F.hostErrLog_VALID 0 then s.fget F.hostErrLog_KIND 0 else kind) ∧
    t.fget F.hostErrLog_FN 0 = (if s.flag F.hostErrLog_VALID 0 then s.fget F.hostErrLog_FN 0 else fn % 2 ^ F.hostErrLog_FN.width) ∧
    t.fget F.hostErrLog_ADDR 0 = (if s.flag F.hostErrLog_VALID 0 then s.fget F.hostErrLog_ADDR 0 else addr % 2 ^ F.hostErrLog_ADDR.width) ∧
    t = { s with regs := t.regs, out := s.out ++ ans }

/-- Memory after a host atomic: `w` bytes at `addr` hold `v`, every other byte stands. -/
def holdsAt (s t : State) (addr w v : Nat) : Prop :=
  ∀ a, memGet t.mem a = if addr ≤ a ∧ a < addr + w then BitVec.ofNat 8 (v / 256 ^ (a - addr)) else memGet s.mem a

end Sys2Proof.Machine
end

