-- ==== Sys2Proof/Certificates/Slice0/Obligations.lean ====
section
/-!
DEFINITION. Obligations.lean: the statements for the provers.
-/
open Sys2Proof Sys2Proof.Machine

/-- DCI instructions give the results of Table 5-10. In every state in which the control processor of a core executes and its checks agree, ADD to MAX and ADDI to LIH complete with the result of Table 5-10 in s[RD] (nothing written for s0), the next program counter, and nothing else of the core, the other cores, memory or the registers changed; a shift or LIH whose upper immediate bits are not zero ends the work item with DCI_ILLEGAL. -/
def Obligations.DciResults : Prop :=
  (∀ (s : State) (n : CoreId) (rd ra rb : Reg), dciAt s n →
    let a := (s.core n).reg ra
    let b := (s.core n).reg rb
    let k := b.toNat % 64
    gives (.add n rd ra rb false) s n rd (a + b) ∧
    gives (.sub n rd ra rb false) s n rd (a - b) ∧
    gives (.and n rd ra rb false) s n rd (a &&& b) ∧
    gives (.or n rd ra rb false) s n rd (a ||| b) ∧
    gives (.xor n rd ra rb false) s n rd (a ^^^ b) ∧
    gives (.sll n rd ra rb false) s n rd (BitVec.ofNat 64 (a.toNat * 2 ^ k)) ∧
    gives (.srl n rd ra rb false) s n rd (BitVec.ofNat 64 (a.toNat / 2 ^ k)) ∧
    gives (.sra n rd ra rb false) s n rd (BitVec.ofInt 64 (a.toInt / 2 ^ k)) ∧
    gives (.mul n rd ra rb false) s n rd (BitVec.ofNat 64 (a.toNat * b.toNat)) ∧
    gives (.mulhu n rd ra rb false) s n rd (BitVec.ofNat 64 (a.toNat * b.toNat / 2 ^ 64)) ∧
    gives (.mulh n rd ra rb false) s n rd (BitVec.ofInt 64 (a.toInt * b.toInt / 2 ^ 64)) ∧
    gives (.slt n rd ra rb false) s n rd ((if a.toInt < b.toInt then 1 else 0)) ∧
    gives (.sltu n rd ra rb false) s n rd ((if a.toNat < b.toNat then 1 else 0)) ∧
    gives (.min n rd ra rb false) s n rd ((if a.toInt ≤ b.toInt then a else b)) ∧
    gives (.max n rd ra rb false) s n rd ((if a.toInt ≤ b.toInt then b else a))) ∧
  (∀ (s : State) (n : CoreId) (rd ra : Reg) (imm : Imm), dciAt s n →
    let a := (s.core n).reg ra
    let b := imm.signExtend 64
    let k := imm.toNat
    gives (.addi n rd ra imm false) s n rd (a + b) ∧
    gives (.andi n rd ra imm false) s n rd (a &&& b) ∧
    gives (.ori n rd ra imm false) s n rd (a ||| b) ∧
    gives (.xori n rd ra imm false) s n rd (a ^^^ b) ∧
    gives (.slti n rd ra imm false) s n rd ((if a.toInt < imm.toInt then 1 else 0)) ∧
    gives (.sltiu n rd ra imm false) s n rd ((if a.toNat < b.toNat then 1 else 0)) ∧
    (k < 64 → gives (.slli n rd ra imm false) s n rd (BitVec.ofNat 64 (a.toNat * 2 ^ k))) ∧ (64 ≤ k → endsItem (.slli n rd ra imm false) s n 0x0301 0) ∧
    (k < 64 → gives (.srli n rd ra imm false) s n rd (BitVec.ofNat 64 (a.toNat / 2 ^ k))) ∧ (64 ≤ k → endsItem (.srli n rd ra imm false) s n 0x0301 0) ∧
    (k < 64 → gives (.srai n rd ra imm false) s n rd (BitVec.ofInt 64 (a.toInt / 2 ^ k))) ∧ (64 ≤ k → endsItem (.srai n rd ra imm false) s n 0x0301 0) ∧
    (k < 2 ^ 24 → gives (.lih n rd ra imm false) s n rd (BitVec.ofNat 64 (a.toNat % 2 ^ 40 + k * 2 ^ 40))) ∧
    (2 ^ 24 ≤ k → endsItem (.lih n rd ra imm false) s n 0x0301 0))

/-- DCI loads read scratch, stores write the low bytes of s[RD]. A load at s[RA] + IMM that is naturally aligned, within scratch and not held by an earlier command puts the little-endian bytes there, sign- or zero-extended, into s[RD]; a store writes exactly the low 1, 2, 4 or 8 bytes of s[RD], little-endian, and no other byte of scratch. A misaligned one ends the work item with DCI_ALIGN, one out of range with SCRATCH_RANGE. -/
def Obligations.DciLoadsAndStores : Prop :=
  (∀ (s : State) (n : CoreId) (rd ra : Reg) (imm : Imm), dciAt s n →
    let a := (((s.core n).reg ra).toNat + (imm.signExtend 64).toNat) % 2 ^ 64
    let v := fun k => leNat ((s.core n).sread n a k)
    (scratchOk s n a 1 false → gives (.ldb n rd ra imm false) s n rd (BitVec.signExtend 64 (BitVec.ofNat 8 (v 1)))) ∧
    (scratchOk s n a 2 false → gives (.ldh n rd ra imm false) s n rd (BitVec.signExtend 64 (BitVec.ofNat 16 (v 2)))) ∧
    (scratchOk s n a 4 false → gives (.ldw n rd ra imm false) s n rd (BitVec.signExtend 64 (BitVec.ofNat 32 (v 4)))) ∧
    (scratchOk s n a 8 false → gives (.ldd n rd ra imm false) s n rd (BitVec.ofNat 64 (v 8))) ∧
    (scratchOk s n a 1 false → gives (.ldbu n rd ra imm false) s n rd (BitVec.ofNat 64 (v 1))) ∧
    (scratchOk s n a 2 false → gives (.ldhu n rd ra imm false) s n rd (BitVec.ofNat 64 (v 2))) ∧
    (scratchOk s n a 4 false → gives (.ldwu n rd ra imm false) s n rd (BitVec.ofNat 64 (v 4))) ∧
    (a % 1 ≠ 0 → endsItem (.ldb n rd ra imm false) s n 0x0302 0) ∧ (a % 1 = 0 → 0x18000 < a + 1 → endsItem (.ldb n rd ra imm false) s n 0x0303 0) ∧
    (a % 2 ≠ 0 → endsItem (.ldh n rd ra imm false) s n 0x0302 0) ∧ (a % 2 = 0 → 0x18000 < a + 2 → endsItem (.ldh n rd ra imm false) s n 0x0303 0) ∧
    (a % 4 ≠ 0 → endsItem (.ldw n rd ra imm false) s n 0x0302 0) ∧ (a % 4 = 0 → 0x18000 < a + 4 → endsItem (.ldw n rd ra imm false) s n 0x0303 0) ∧
    (a % 8 ≠ 0 → endsItem (.ldd n rd ra imm false) s n 0x0302 0) ∧ (a % 8 = 0 → 0x18000 < a + 8 → endsItem (.ldd n rd ra imm false) s n 0x0303 0) ∧
    (a % 1 ≠ 0 → endsItem (.ldbu n rd ra imm false) s n 0x0302 0) ∧ (a % 1 = 0 → 0x18000 < a + 1 → endsItem (.ldbu n rd ra imm false) s n 0x0303 0) ∧
    (a % 2 ≠ 0 → endsItem (.ldhu n rd ra imm false) s n 0x0302 0) ∧ (a % 2 = 0 → 0x18000 < a + 2 → endsItem (.ldhu n rd ra imm false) s n 0x0303 0) ∧
    (a % 4 ≠ 0 → endsItem (.ldwu n rd ra imm false) s n 0x0302 0) ∧ (a % 4 = 0 → 0x18000 < a + 4 → endsItem (.ldwu n rd ra imm false) s n 0x0303 0)) ∧
  (∀ (s : State) (n : CoreId) (rd ra : Reg) (imm : Imm), dciAt s n →
    let a := (((s.core n).reg ra).toNat + (imm.signExtend 64).toNat) % 2 ^ 64
    let v := (s.core n).reg rd
    (scratchOk s n a 1 true → completes (.stb n rd ra imm false) s fun t =>
      (∀ b, (t.core n).sget n b = if a ≤ b ∧ b < a + 1 then v.extractLsb' (8 * (b - a)) 8 else (s.core n).sget n b) ∧
      (∀ r, (t.core n).reg r = (s.core n).reg r) ∧ (t.core n).pc = (s.core n).pc + 1 ∧ onlyCore s t n) ∧
    (a % 1 ≠ 0 → endsItem (.stb n rd ra imm false) s n 0x0302 0) ∧ (a % 1 = 0 → 0x18000 < a + 1 → endsItem (.stb n rd ra imm false) s n 0x0303 0) ∧
    (scratchOk s n a 2 true → completes (.sth n rd ra imm false) s fun t =>
      (∀ b, (t.core n).sget n b = if a ≤ b ∧ b < a + 2 then v.extractLsb' (8 * (b - a)) 8 else (s.core n).sget n b) ∧
      (∀ r, (t.core n).reg r = (s.core n).reg r) ∧ (t.core n).pc = (s.core n).pc + 1 ∧ onlyCore s t n) ∧
    (a % 2 ≠ 0 → endsItem (.sth n rd ra imm false) s n 0x0302 0) ∧ (a % 2 = 0 → 0x18000 < a + 2 → endsItem (.sth n rd ra imm false) s n 0x0303 0) ∧
    (scratchOk s n a 4 true → completes (.stw n rd ra imm false) s fun t =>
      (∀ b, (t.core n).sget n b = if a ≤ b ∧ b < a + 4 then v.extractLsb' (8 * (b - a)) 8 else (s.core n).sget n b) ∧
      (∀ r, (t.core n).reg r = (s.core n).reg r) ∧ (t.core n).pc = (s.core n).pc + 1 ∧ onlyCore s t n) ∧
    (a % 4 ≠ 0 → endsItem (.stw n rd ra imm false) s n 0x0302 0) ∧ (a % 4 = 0 → 0x18000 < a + 4 → endsItem (.stw n rd ra imm false) s n 0x0303 0) ∧
    (scratchOk s n a 8 true → completes (.std n rd ra imm false) s fun t =>
      (∀ b, (t.core n).sget n b = if a ≤ b ∧ b < a + 8 then v.extractLsb' (8 * (b - a)) 8 else (s.core n).sget n b) ∧
      (∀ r, (t.core n).reg r = (s.core n).reg r) ∧ (t.core n).pc = (s.core n).pc + 1 ∧ onlyCore s t n) ∧
    (a % 8 ≠ 0 → endsItem (.std n rd ra imm false) s n 0x0302 0) ∧ (a % 8 = 0 → 0x18000 < a + 8 → endsItem (.std n rd ra imm false) s n 0x0303 0))

/-- DCI branches and jumps, and failed checks of the control processor. A branch goes to PC + OFF when s[RA] compares true against s[RB], to the next instruction otherwise, changing nothing else; JAL and JALR put PC + 1 into s[RD] and go to PC + IMM, or to s[RA] + IMM as read before the link is written. A target outside the image ends the work item with DCI_BRANCH. Where the doubled arithmetic or the parity of the control processor disagrees, the instruction writes no result (register, scratch, program counter), and a fault with cause CP_CHECK of its step is confirmed. -/
def Obligations.DciBranchesAndJumps : Prop :=
  (∀ (s : State) (n : CoreId) (ra rb : Reg) (off : Imm), dciAt s n →
    let a := (s.core n).reg ra
    let b := (s.core n).reg rb
    let pc := (s.core n).pc
    let x := (pc : Int) + off.toInt
    let inImage := fun (x : Int) => 0 ≤ x ∧ x < (s.core n).instrCount
    (¬ (a = b) → completes (.beq n ra rb off false) s fun t => wroteReg s t n 0 0 (pc + 1)) ∧
    (a = b → inImage x → completes (.beq n ra rb off false) s fun t => wroteReg s t n 0 0 x.toNat) ∧
    (a = b → ¬ inImage x → endsItem (.beq n ra rb off false) s n 0x0304 0) ∧
    (¬ (a ≠ b) → completes (.bne n ra rb off false) s fun t => wroteReg s t n 0 0 (pc + 1)) ∧
    (a ≠ b → inImage x → completes (.bne n ra rb off false) s fun t => wroteReg s t n 0 0 x.toNat) ∧
    (a ≠ b → ¬ inImage x → endsItem (.bne n ra rb off false) s n 0x0304 0) ∧
    (¬ (a.toInt < b.toInt) → completes (.blt n ra rb off false) s fun t => wroteReg s t n 0 0 (pc + 1)) ∧
    (a.toInt < b.toInt → inImage x → completes (.blt n ra rb off false) s fun t => wroteReg s t n 0 0 x.toNat) ∧
    (a.toInt < b.toInt → ¬ inImage x → endsItem (.blt n ra rb off false) s n 0x0304 0) ∧
    (¬ (b.toInt ≤ a.toInt) → completes (.bge n ra rb off false) s fun t => wroteReg s t n 0 0 (pc + 1)) ∧
    (b.toInt ≤ a.toInt → inImage x → completes (.bge n ra rb off false) s fun t => wroteReg s t n 0 0 x.toNat) ∧
    (b.toInt ≤ a.toInt → ¬ inImage x → endsItem (.bge n ra rb off false) s n 0x0304 0) ∧
    (¬ (a.toNat < b.toNat) → completes (.bltu n ra rb off false) s fun t => wroteReg s t n 0 0 (pc + 1)) ∧
    (a.toNat < b.toNat → inImage x → completes (.bltu n ra rb off false) s fun t => wroteReg s t n 0 0 x.toNat) ∧
    (a.toNat < b.toNat → ¬ inImage x → endsItem (.bltu n ra rb off false) s n 0x0304 0) ∧
    (¬ (b.toNat ≤ a.toNat) → completes (.bgeu n ra rb off false) s fun t => wroteReg s t n 0 0 (pc + 1)) ∧
    (b.toNat ≤ a.toNat → inImage x → completes (.bgeu n ra rb off false) s fun t => wroteReg s t n 0 0 x.toNat) ∧
    (b.toNat ≤ a.toNat → ¬ inImage x → endsItem (.bgeu n ra rb off false) s n 0x0304 0)) ∧
  (∀ (s : State) (n : CoreId) (rd ra : Reg) (imm : Imm), dciAt s n →
    let pc := (s.core n).pc
    let link := BitVec.ofNat 64 (pc + 1)
    let inImage := fun (x : Int) => 0 ≤ x ∧ x < (s.core n).instrCount
    let x := (pc : Int) + imm.toInt
    let y := ((s.core n).reg ra + imm.signExtend 64).toInt
    (inImage x → completes (.jal n rd imm false) s fun t => wroteReg s t n rd link x.toNat) ∧
    (¬ inImage x → endsItem (.jal n rd imm false) s n 0x0304 0) ∧
    (inImage y → completes (.jalr n rd ra imm false) s fun t => wroteReg s t n rd link y.toNat) ∧
    (¬ inImage y → endsItem (.jalr n rd ra imm false) s n 0x0304 0)) ∧
  (∀ (s : State) (n : CoreId) (rd ra rb : Reg) (imm : Imm) (kind op : BitVec 4) (q : BitVec 3) (w : WorkItem),
    s.cpRuns n = true → (s.core n).wi = some w →
    let f := { (FaultRec.blank 8).atCore n with
      part := w.part, ring := w.ring.getD 0xFF, step := w.step, layer := (s.core n).layer, oper := (s.core n).oper,
      tag := s.itemTag n }
    ∀ c ∈ ([.add n rd ra rb true, .sub n rd ra rb true, .and n rd ra rb true, .or n rd ra rb true, .xor n rd ra rb true, .sll n rd ra rb
            true, .srl n rd ra rb true, .sra n rd ra rb true, .mul n rd ra rb true, .mulhu n rd ra rb true, .mulh n rd ra rb true, .slt n
            rd ra rb true, .sltu n rd ra rb true, .min n rd ra rb true, .max n rd ra rb true, .addi n rd ra imm true, .andi n rd ra imm
            true, .ori n rd ra imm true, .xori n rd ra imm true, .slli n rd ra imm true, .srli n rd ra imm true, .srai n rd ra imm true,
            .slti n rd ra imm true, .sltiu n rd ra imm true, .lih n rd ra imm true, .ldb n rd ra imm true, .ldh n rd ra imm true, .ldw n
            rd ra imm true, .ldd n rd ra imm true, .ldbu n rd ra imm true, .ldhu n rd ra imm true, .ldwu n rd ra imm true, .stb n rd ra
            imm true, .sth n rd ra imm true, .stw n rd ra imm true, .std n rd ra imm true, .jalr n rd ra imm true, .beq n ra rb imm true,
            .bne n ra rb imm true, .blt n ra rb imm true, .bge n ra rb imm true, .bltu n ra rb imm true, .bgeu n ra rb imm true, .jal n
            rd imm true, .cmd n kind op ra imm true, .fchk n ra q imm true, .csrr n rd imm true, .csrw n ra imm true, .err n ra true] : List Instr),
      completes c s fun t => t = { s with faultQ := s.faultQ ++ [f] })

/-- The words of DCI instructions decode to the rows they stand for. For every DCI row and every value of its operands that R153 to R155 allow, the word built by Tables 5-9 and 5-10 is legal and decodes to that row; exactly the illegal words decode to DCI_ILLEGAL_INSTRUCTION; the no-operation ADD s0, s0, s0 is 0x0100_0000_0000_0000 and the zero word is illegal; the row at the program counter is the one that the little-endian word of the code image there decodes to. -/
def Obligations.DciWordsDecode : Prop :=
  (∀ (n : CoreId) (rd ra rb : Reg) (imm : Imm) (q : BitVec 3) (kind op : BitVec 4),
    let agrees := fun (i : Instr) => ∃ w, encodeDci i = some w ∧ dciLegal w = true ∧ decodeDci n w = i
    (∀ i ∈ ([.add n rd ra rb false, .sub n rd ra rb false, .and n rd ra rb false, .or n rd ra rb false, .xor n rd ra rb false, .sll n rd ra rb false, .srl n rd ra rb false, .sra n rd ra rb false, .mul n rd ra rb false, .mulhu n rd ra rb false, .mulh n rd ra rb false, .slt n rd ra rb false, .sltu n rd ra rb false, .min n rd ra rb false, .max n rd ra rb false] : List Instr), agrees i) ∧
    (∀ i ∈ ([.addi n rd ra imm false, .andi n rd ra imm false, .ori n rd ra imm false, .xori n rd ra imm false, .slti n rd ra imm false, .sltiu n rd ra imm false, .ldb n rd ra imm false, .ldh n rd ra imm false, .ldw n rd ra imm false, .ldd n rd ra imm false, .ldbu n rd ra imm false, .ldhu n rd ra imm false, .ldwu n rd ra imm false, .stb n rd ra imm false, .sth n rd ra imm false, .stw n rd ra imm false, .std n rd ra imm false, .beq n rd ra imm false, .bne n rd ra imm false, .blt n rd ra imm false, .bge n rd ra imm false, .bltu n rd ra imm false, .bgeu n rd ra imm false, .jalr n rd ra imm false] : List Instr), agrees i) ∧
    (imm.toNat < 64 → ∀ i ∈ ([.slli n rd ra imm false, .srli n rd ra imm false, .srai n rd ra imm false] : List Instr), agrees i) ∧
    (imm.toNat < 2 ^ 24 → agrees (.lih n rd ra imm false)) ∧
    agrees (.jal n rd imm false) ∧ agrees (.cmd n kind op ra imm false) ∧ (q ≠ 5 → q ≠ 6 → agrees (.waitq n q imm)) ∧ agrees (.fchk n ra q imm false) ∧
    (imm.toNat ∈ ([0, 1, 2, 3, 4, 5, 6, 7, 0x10, 0x11, 0x12, 0x13, 0x14, 0x18, 0x20, 0x21] : List Nat) → agrees (.csrr n rd imm false)) ∧
    (imm.toNat < 2 → agrees (.csrw n ra imm false)) ∧ agrees (.err n ra false) ∧ agrees (.endItem n)) ∧
  (∀ (n : CoreId) (w : W64), decodeDci n w = .dciIllegalInstruction n w ↔ dciLegal w = false) ∧
  (∀ n : CoreId, encodeDci (.add n 0 0 0 false) = some 0x0100000000000000 ∧ decodeDci n 0 = .dciIllegalInstruction n 0) ∧
  (∀ (s : State) (n : CoreId) (r : Nat) (w : W64), (s.core n).image = some r →
    leNat (s.rdN (s.roleCode r + 8 * (s.core n).pc) 8) = w.toNat → s.fetchDci n = some (decodeDci n w))

/-- Work items start and end. A free control processor with a work item queued starts it, with the registers R151 gives and the program counter at its role's entry point. After END, when no command of the core is outstanding, the work item ends: WORK_ITEMS counts, and its open step has one work item fewer (a boot item leaves its status instead). -/
def Obligations.WorkItemsStartAndEnd : Prop :=
  (∀ (s : State) (n : CoreId) (w : WorkItem) (rest : List WorkItem),
    let f := s.field (n.val / 24)
    (s.core n).wi = none → (s.core n).queue = w :: rest → f.resetting = false → f.halted = false → s.blk = none →
    w.role < s.roles.length → w.entry < s.roleEntries w.role →
    completes (.workItemStart n) s fun t =>
      (t.core n).wi = some w ∧ (t.core n).queue = rest ∧ (t.core n).wait = none ∧ (t.core n).pc = s.roleEntry w.role w.entry ∧
      (t.core n).layer = w.layer ∧ (t.core n).oper = w.oper ∧ (t.core n).warn = 0 ∧ (t.core n).status = 0 ∧ (t.core n).regChaff = [] ∧
      (t.core n).reg 1 = BitVec.ofNat 64 (n.val - w.firstCore) ∧ (t.core n).reg 2 = w.arg0 ∧ (t.core n).reg 3 = w.arg1 ∧
      (t.core n).reg 4 = w.arg2 ∧ (t.core n).reg 5 = w.arg3 ∧ (t.core n).reg 6 = BitVec.ofNat 64 w.batch ∧
      (∀ r : Reg, 6 < r.toNat → (t.core n).reg r = 0) ∧ (t.core n).scratch = (s.core n).scratch ∧
      (t.core n).instrCount = s.roleInstrs w.role ∧
      (t.core n).epoch = (if (s.core n).image = some w.role then (s.core n).epoch else ((s.core n).epoch + 1) % 65536) ∧ onlyCore s t n) ∧
  (∀ (s : State) (n : CoreId) (w : WorkItem), (s.core n).wi = some w → (s.core n).wait = some .ending → s.outstandingAll n = 0 →
    completes (.workItemEnd n) s fun t =>
      (t.core n).wi = none ∧ (t.core n).wait = none ∧ (t.core n).queue = (s.core n).queue ∧
      t.fget F.coreCtr_COUNT (n * 64 + 3) = (s.fget F.coreCtr_COUNT (n * 64 + 3) + 1) % 2 ^ 64 ∧
      (∀ r, w.ring = some r → w.dead = false →
        (t.ring r).steps = (s.ring r).steps.map fun o => if o.step = w.step then { o with items := o.items - 1 } else o) ∧
      (w.ring = none → w.dead = false → t.bootEnd = s.bootEnd ++ [(n.val, (s.core n).status)]) ∧ (w.dead = false → t.mem = s.mem) ∧
      ∀ m, m ≠ n.val → t.core m = s.core m)

/-- CMD forms a command and places it in its queue. CMD puts the formed command at the end of the queue its KIND names and goes on; with the queue full the control processor waits with it, until the queue has room and the command is placed at its end; an unlisted KIND ends the work item. -/
def Obligations.CommandIssue : Prop :=
  (∀ (s : State) (n : CoreId) (kind op : BitVec 4) (ra : Reg) (body : Imm), issueAt s n →
    let q := kind.toNat - 1
    (1 ≤ kind.toNat ∧ kind.toNat ≤ 5 → s.hasRoom n q = true → completes (.cmd n kind op ra body false) s fun t =>
      (∃ d, formed (s.core n) kind op ra body d ∧ (t.core n).queueOf q = (s.core n).queueOf q ++ [d]) ∧
      (∀ p, p < 5 → p ≠ q → (t.core n).queueOf p = (s.core n).queueOf p) ∧ (t.core n).pc = (s.core n).pc + 1 ∧
      (∀ r, (t.core n).reg r = (s.core n).reg r) ∧
      t.fget F.coreCtr_COUNT (n * 64 + 2) = (s.fget F.coreCtr_COUNT (n * 64 + 2) + 1) % 2 ^ 64 ∧ t.mem = s.mem) ∧
    (1 ≤ kind.toNat ∧ kind.toNat ≤ 5 → s.hasRoom n q = false → completes (.cmd n kind op ra body false) s fun t =>
      (∃ d, formed (s.core n) kind op ra body d ∧ (t.core n).wait = some (.full d)) ∧ (t.core n).pc = (s.core n).pc ∧
      (∀ p, p < 5 → (t.core n).queueOf p = (s.core n).queueOf p) ∧ t.mem = s.mem) ∧
    (kind = 0 ∨ 5 < kind.toNat → endsItem (.cmd n kind op ra body false) s n 0x0203 0)) ∧
  (∀ (s : State) (n : CoreId) (d : Cmd), (s.core n).wait = some (.full d) → 1 ≤ d.kind → d.kind ≤ 5 → s.hasRoom n (d.kind - 1) = true →
    s.issueHeld n = false → (s.core n).pc + 1 < (s.core n).instrCount →
    completes (.queueSpaceIssue n) s fun t =>
      (t.core n).wait = none ∧ (t.core n).queueOf (d.kind - 1) = (s.core n).queueOf (d.kind - 1) ++ [d] ∧ (t.core n).pc = (s.core n).pc + 1 ∧
      (∀ r, (t.core n).reg r = (s.core n).reg r) ∧ t.mem = s.mem ∧ ∀ m, m ≠ n.val → t.core m = s.core m)

/-- WAITQ, FCHK, the gating of the array, instruction-cache lines. WAITQ goes on when at most IMM commands of its queue are outstanding and waits otherwise, Q 5 and 6 being illegal; a wait that is satisfied ends; FCHK writes the module check of the other bytes into the last two of its frame; an idle array gates with its state kept; a missing line of the image enters the instruction cache. -/
def Obligations.WaitqFchkGateLine : Prop :=
  ∀ (s : State) (n : CoreId) (q : BitVec 3) (ra : Reg) (imm : Imm) (line : Nat),
    (dciAt s n → ∀ k, s.waitCount n q = some k → k ≤ imm.toNat → completes (.waitq n q imm) s fun t => wroteReg s t n 0 0 ((s.core n).pc + 1)) ∧
    (dciAt s n → ∀ k, s.waitCount n q = some k → imm.toNat < k → completes (.waitq n q imm) s fun t =>
      (t.core n).wait = some (.waitq q.toNat imm.toNat) ∧ (t.core n).pc = (s.core n).pc ∧ onlyCore s t n) ∧
    (dciAt s n → q = 5 ∨ q = 6 → endsItem (.waitq n q imm) s n 0x0301 0) ∧
    (∀ k, (s.core n).wait = some (.waitq q.toNat imm.toNat) → s.waitCount n q = some k → k ≤ imm.toNat →
      (s.core n).pc + 1 < (s.core n).instrCount → completes (.waitqSatisfied n) s fun t =>
        (t.core n).wait = none ∧ (t.core n).pc = (s.core n).pc + 1 ∧ (∀ r, (t.core n).reg r = (s.core n).reg r) ∧ onlyCore s t n) ∧
    (let k := if q.getLsbD 0 then 64 else 32
     let a := (((s.core n).reg ra).toNat + (imm.signExtend 64).toNat) % 2 ^ 64
     (dciAt s n → scratchOk s n a k true → completes (.fchk n ra q imm false) s fun t =>
       (t.core n).sread n (a + k - 2) 2 = toLE 2 (moduleCheck ((s.core n).sread n a (k - 2))).toNat ∧
       (∀ b, b < a + k - 2 ∨ a + k ≤ b → (t.core n).sget n b = (s.core n).sget n b) ∧ (t.core n).pc = (s.core n).pc + 1 ∧ onlyCore s t n) ∧
     (dciAt s n → a % k ≠ 0 → endsItem (.fchk n ra q imm false) s n 0x0302 0) ∧
     (dciAt s n → a % k = 0 → 0x18000 < a + k → endsItem (.fchk n ra q imm false) s n 0x0303 0)) ∧
    (s.outstanding n 0 = 0 → completes (.arrayGate n) s fun t => (t.core n).gated = true ∧ (t.core n).qm = (s.core n).qm ∧ onlyCore s t n) ∧
    ((s.core n).image.isSome = true → line * 32 < (s.core n).instrCount → line ∉ (s.core n).lines → completes (.icacheFill n line) s fun t =>
      line ∈ (t.core n).lines ∧ (∀ l ∈ (t.core n).lines, l = line ∨ l ∈ (s.core n).lines) ∧ (t.core n).pc = (s.core n).pc ∧ onlyCore s t n)

/-- CSR accesses, END, ERR and illegal words. CSRR gives the value of Table 5-11 (TIME_NS latches TIME_S), CSRW writes LAYER or OPER, any other number is illegal; ERR ends the work item with DCI_SOFT and s[RA][15:0]; END waits for the commands issued; an illegal word ends the work item with DCI_ILLEGAL. -/
def Obligations.CsrEndErrIllegal : Prop :=
  ∀ (s : State) (n : CoreId) (rd ra : Reg) (imm : Imm) (word : W64) (w : WorkItem), dciAt s n → (s.core n).wi = some w →
    let c := s.core n
    let v := (c.reg ra).toNat % 65536
    (∀ x ∈ ([(0, c.layer), (1, c.oper), (2, w.step), (3, n.val - w.firstCore), (4, n.val), (5, w.part), (6, w.model),
             (7, (w.ring.getD 0) % 4), (0x10, s.outstanding n 0), (0x11, s.outstanding n 1), (0x12, s.outstanding n 2),
             (0x13, s.outstanding n 3), (0x14, s.outstanding n 4), (0x18, c.warn), (0x21, c.timeS)] : List (Nat × Nat)),
      imm.toNat = x.1 → gives (.csrr n rd imm false) s n rd (BitVec.ofNat 64 x.2)) ∧
    (imm.toNat = 0x20 → completes (.csrr n rd imm false) s fun t =>
      (t.core n).reg rd = (if rd = 0 then 0 else BitVec.ofNat 64 (s.time.counter % 1000000000)) ∧
      (t.core n).timeS = s.time.counter / 1000000000 ∧ onlyCore s t n) ∧
    (imm.toNat ∉ ([0, 1, 2, 3, 4, 5, 6, 7, 0x10, 0x11, 0x12, 0x13, 0x14, 0x18, 0x20, 0x21] : List Nat) →
      endsItem (.csrr n rd imm false) s n 0x0301 0) ∧
    (imm.toNat = 0 → completes (.csrw n ra imm false) s fun t =>
      (t.core n).layer = v ∧ (t.core n).oper = c.oper ∧ (t.core n).pc = c.pc + 1 ∧ (∀ r, (t.core n).reg r = c.reg r) ∧ onlyCore s t n) ∧
    (imm.toNat = 1 → completes (.csrw n ra imm false) s fun t =>
      (t.core n).oper = v ∧ (t.core n).layer = c.layer ∧ (t.core n).pc = c.pc + 1 ∧ (∀ r, (t.core n).reg r = c.reg r) ∧ onlyCore s t n) ∧
    (1 < imm.toNat → endsItem (.csrw n ra imm false) s n 0x0301 0) ∧
    (completes (.err n ra false) s fun t => itemEnded s t n 0x0305 v) ∧
    (completes (.endItem n) s fun t => (t.core n).wait = some .ending ∧ (t.core n).qm = c.qm ∧ (t.core n).qmv = c.qmv ∧ t.errQ = s.errQ ∧ onlyCore s t n) ∧
    (dciLegal word = false → completes (.dciIllegalInstruction n word) s fun t => itemEnded s t n 0x0301 0)

/-- MMA is checked and its tile loads beside the instruction that streams. The array takes an MMA that passes R82 into the shadow, parsed from its body and frame and with its envelope, or fails it with the status of the first check of R82; the shadow tile loads the stationary bytes (in OS the accumulators are cleared, or preloaded under ACC), and the instruction streams at once when the array is free. Scratch is not written. -/
def Obligations.MatrixInstructions : Prop :=
  ∀ (s : State) (n : CoreId),
    (∀ d rest f, atHead s n 0 0 32 d rest f → (s.core n).shadow = none → mtxRsvd d f = false →
      (mtxCheck (mtxParse d f) = 0 → completes (.mma n) s fun t =>
        (t.core n).shadow = some { mtxParse d f with env := envFor s n d, chaff := d.chaff || (s.core n).schaffIn d.frame 32 } ∧
        (t.core n).queueOf 0 = rest ∧ (t.core n).active = (s.core n).active ∧ (t.core n).scratch = (s.core n).scratch ∧ unitFrame s t n 0) ∧
      (mtxCheck (mtxParse d f) ≠ 0 → failsWith (.mma n) s n 0 (mtxCheck (mtxParse d f)) rest)) ∧
    (∀ i, (s.core n).shadow = some i → i.loaded = false → s.scratchFree n i.cmd.seq i.loadNeed = true →
      completes (.shadowTileLoaded n) s fun t =>
        (∃ j : MtxInst, (if (s.core n).active = none then (t.core n).active = some j ∧ (t.core n).shadow = none
                         else (t.core n).shadow = some j ∧ (t.core n).active = (s.core n).active) ∧
          j.cmd = i.cmd ∧ j.loaded = true ∧ j.done = i.done ∧ j.env = i.env ∧
          (i.mode ≠ 2 → j.tile = (s.core n).sread n i.sA i.sLen ∧ j.cells = []) ∧
          (i.mode = 2 → j.cells = (List.range 256).map fun x =>
            if i.acc then BitVec.ofNat 32 (leNat ((s.core n).sread n (i.oA + 4 * x) 4)) else 0)) ∧
        (t.core n).scratch = (s.core n).scratch ∧ unitFrame s t n 9)

/-- One array step. On a core whose work item is not cancelled (R171 leaves what a cancelled one writes undefined): in WS and IS a step writes the 16 words of its output row: word r of the active rows is the old accumulator (none without ACC) plus the exact products, rounded once (R112) or exact and saturating for an integer pairing (R114); other rows read zero; no other scratch byte changes and array steps are counted. In OS a step updates the cells, those outside the active part holding zero; scratch stands before the last step, which drains the cells into the output region and nothing else. Either way the words are those a transient has struck, if any, and after the last step the loaded shadow instruction streams. -/
def Obligations.ArrayStep : Prop :=
  ∀ (s : State) (n : CoreId) (i : MtxInst) (flips : List (Nat × Nat)), (s.core n).active = some i → s.stepHeld n = false →
    s.workDead n = false → s.scratchFree n i.cmd.seq i.stepNeed = true →
    let rd := (s.core n).sget n
    let row := i.oA + 64 * i.done
    let ks := List.range i.kAct
    let js := List.range i.d
    let words := strike flips ((List.range 16).map fun r =>
      if r < i.mAct then
        (i.update (if i.acc then some (leNat ((s.core n).sread n (row + 4 * r) 4)) else none)
          (ks.map fun k => i.prod (i.stat r k) (i.strm rd i.done k))
          (ks.all fun k => (i.stat r k).isFin && (i.strm rd i.done k).isFin)).1
      else 0)
    let cells := strike flips ((List.range 256).map fun x =>
      if x / 16 < i.mAct ∧ x % 16 < i.cAct then
        (i.update (some (i.cells.getD x 0).toNat)
          (js.map fun j => i.prod (i.elA rd i.done (x / 16) j) (i.elB rd i.done j (x % 16)))
          (js.all fun j => (i.elA rd i.done (x / 16) j).isFin && (i.elB rd i.done j (x % 16)).isFin)).1
      else 0)
    let counted := fun (t : State) => t.fget F.coreCtr_COUNT (n * 64) = (s.fget F.coreCtr_COUNT (n * 64) + 1) % 2 ^ 64
    (i.mode ≠ 2 → completes (.arrayStep n flips) s fun t =>
      (∀ r, r < 16 → leNat ((t.core n).sread n (row + 4 * r) 4) = words.getD r 0 % 2 ^ 32) ∧
      (∀ a, a < row ∨ row + 64 ≤ a → (t.core n).sget n a = (s.core n).sget n a) ∧ counted t ∧
      (i.done + 1 < i.n → ∃ j, (t.core n).active = some j ∧ j.done = i.done + 1 ∧ j.cmd = i.cmd ∧ j.tile = i.tile) ∧
      (i.n ≤ i.done + 1 → (t.core n).active = (s.core n).shadow.filter MtxInst.loaded) ∧ unitFrame s t n 9) ∧
    (i.mode = 2 → i.done + 1 < i.n → completes (.arrayStep n flips) s fun t =>
      (∃ j, (t.core n).active = some j ∧ j.done = i.done + 1 ∧ j.cmd = i.cmd ∧ j.cells = cells.map (BitVec.ofNat 32)) ∧
      (t.core n).scratch = (s.core n).scratch ∧ counted t ∧ unitFrame s t n 9) ∧
    (i.mode = 2 → i.n ≤ i.done + 1 → completes (.arrayStep n flips) s fun t =>
      (∀ x, x < 256 → leNat ((t.core n).sread n (i.oA + 4 * x) 4) = cells.getD x 0 % 2 ^ 32) ∧
      (∀ a, a < i.oA ∨ i.oA + 1024 ≤ a → (t.core n).sget n a = (s.core n).sget n a) ∧ counted t ∧
      (t.core n).active = (s.core n).shadow.filter MtxInst.loaded ∧ unitFrame s t n 9)

/-- Every vector command writes its result into D and DS and nothing else. Each of the 21 operations of the vector path, taken from the head of its queue with its checks passed, completes with its computed elements (struck by any transient) packed at D_ADDR and its scales at DS_ADDR; no other byte of scratch, no register, other queue, other core or byte of memory changes. -/
def Obligations.VectorCommandsWriteTheirResult : Prop :=
  ∀ (s : State) (n : CoreId) (d : Cmd) (rest : List Cmd) (f : List Byte) (flips : List (Nat × Nat)),
    let v := vecParse d f
    let rd := (s.core n).sget n
    let o := v.compute d.step (vecA s n v) rd
    let b := v.dBytes rd (strike flips o.d)
    (vecReady s n 0 0 d rest f → completes (.dot n flips) s fun t => wroteD s t n v rest b o.ds) ∧
    (vecReady s n 1 0 d rest f → completes (.ewAdd n flips) s fun t => wroteD s t n v rest b o.ds) ∧
    (vecReady s n 1 1 d rest f → completes (.ewSub n flips) s fun t => wroteD s t n v rest b o.ds) ∧
    (vecReady s n 1 2 d rest f → completes (.ewMul n flips) s fun t => wroteD s t n v rest b o.ds) ∧
    (vecReady s n 1 3 d rest f → completes (.ewFma n flips) s fun t => wroteD s t n v rest b o.ds) ∧
    (vecReady s n 1 4 d rest f → completes (.ewMin n flips) s fun t => wroteD s t n v rest b o.ds) ∧
    (vecReady s n 1 5 d rest f → completes (.ewMax n flips) s fun t => wroteD s t n v rest b o.ds) ∧
    (vecReady s n 1 6 d rest f → completes (.ewCmp n flips) s fun t => wroteD s t n v rest b o.ds) ∧
    (vecReady s n 1 7 d rest f → completes (.ewSel n flips) s fun t => wroteD s t n v rest b o.ds) ∧
    (vecReady s n 2 0 d rest f → completes (.fnRcp n flips) s fun t => wroteD s t n v rest b o.ds) ∧
    (vecReady s n 2 1 d rest f → completes (.fnRsqrt n flips) s fun t => wroteD s t n v rest b o.ds) ∧
    (vecReady s n 2 2 d rest f → completes (.fnExp n flips) s fun t => wroteD s t n v rest b o.ds) ∧
    (vecReady s n 2 3 d rest f → completes (.fnLog n flips) s fun t => wroteD s t n v rest b o.ds) ∧
    (vecReady s n 2 4 d rest f → completes (.fnTanh n flips) s fun t => wroteD s t n v rest b o.ds) ∧
    (vecReady s n 2 5 d rest f → completes (.fnLogistic n flips) s fun t => wroteD s t n v rest b o.ds) ∧
    (vecReady s n 2 6 d rest f → completes (.fnErf n flips) s fun t => wroteD s t n v rest b o.ds) ∧
    (vecReady s n 3 0 d rest f → completes (.cvt n flips) s fun t => wroteD s t n v rest b o.ds) ∧
    (vecReady s n 4 0 d rest f → completes (.statSum n flips) s fun t => wroteD s t n v rest b o.ds) ∧
    (vecReady s n 4 1 d rest f → completes (.statSumsq n flips) s fun t => wroteD s t n v rest b o.ds) ∧
    (vecReady s n 4 2 d rest f → completes (.statMax n flips) s fun t => wroteD s t n v rest b o.ds) ∧
    (vecReady s n 5 0 d rest f → completes (.pack3 n flips) s fun t => wroteD s t n v rest b o.ds)

/-- What the vector unit computes. For FP32 operands every element of EW is the exact result of Table 5-15 rounded once (R120), CMP giving 1.0 or 0; for FN it is the function of the element (R121). STAT sums groups of 64 elements (or their squares) in order of position, each group exactly with the running value and rounded once, or takes the largest value, NaN if the row holds one; DOT does so with the products of a weight row and an activation vector in groups of the lane width; CVT to FP32 converts each value of its format with its scale. -/
def Obligations.VectorResults : Prop :=
  (∀ (s : State) (n : CoreId) (d : Cmd) (rest : List Cmd) (f : List Byte) (i : Nat),
    let v := vecParse d f
    let a := BitVec.ofNat 32 (elemRaw 1 (fun o => vecA s n v (v.aA + o)) i)
    let b := if v.bcast then (convElem 1 .rne false (f32 v.scalar)).bits else elemRaw 1 (fun o => (s.core n).sget n (v.bA + o)) i
    let old := elemRaw 1 (fun o => (s.core n).sget n (v.dA + o)) i
    let fa := f32 a.toNat
    let fb := f32 b
    let is := fun (c : Instr) (op sub : Nat) (r : Nat) => vecReady s n op sub d rest f → v.fA = 1 → v.fD = 1 → i < v.count →
      completes c s fun t => BitVec.ofNat 32 (elemRaw 1 (fun o => (t.core n).sget n (v.dA + o)) i) = BitVec.ofNat 32 r
    is (.ewAdd n []) 1 0 (round32 (numSum [fa, fb])) ∧
    is (.ewSub n []) 1 1 (round32 (numSum [fa, fb.neg])) ∧
    is (.ewMul n []) 1 2 (round32 (fa.mul fb)) ∧
    is (.ewFma n []) 1 3 (round32 (numSum [fa.mul fb, f32 old])) ∧
    is (.ewMin n []) 1 4 (round32 (numMin fa fb)) ∧
    is (.ewMax n []) 1 5 (round32 (numMax fa fb)) ∧
    is (.ewCmp n []) 1 6 (if numCmp v.pred fa fb then 0x3F800000 else 0) ∧
    is (.fnRcp n []) 2 0 (fpFn 0 a).toNat ∧
    is (.fnRsqrt n []) 2 1 (fpFn 1 a).toNat ∧
    is (.fnExp n []) 2 2 (fpFn 2 a).toNat ∧
    is (.fnLog n []) 2 3 (fpFn 3 a).toNat ∧
    is (.fnTanh n []) 2 4 (fpFn 4 a).toNat ∧
    is (.fnLogistic n []) 2 5 (fpFn 5 a).toNat ∧
    is (.fnErf n []) 2 6 (fpFn 6 a).toNat) ∧
  (∀ (s : State) (n : CoreId) (d : Cmd) (rest : List Cmd) (f : List Byte) (i : Nat),
    let v := vecParse d f
    let rd := (s.core n).sget n
    let rdA := vecA s n v
    let row := (List.range v.k).map fun k => rowElem v.fA rdA (v.aA + i * rowBytes v.fA v.k) (v.asA + i * ((v.k + 31) / 32)) k
    let is := fun (c : Instr) (op sub j r : Nat) => vecReady s n op sub d rest f → i < v.count →
      completes c s fun t => BitVec.ofNat 32 (elemRaw 1 (fun o => (t.core n).sget n (v.dA + o)) j) = BitVec.ofNat 32 r
    is (.statSum n []) 4 0 i (sumGroups 64 (v.k + 1) none (row.map fun x => (x, x.isFin))).1 ∧
    is (.statSumsq n []) 4 1 i (sumGroups 64 (v.k + 1) none (row.map fun x => (x.mul x, x.isFin))).1 ∧
    is (.statMax n []) 4 2 i (round32 (rowMax row)) ∧
    (∀ x, x < v.bCount → is (.dot n []) 0 0 (x * v.count + i)
      (sumGroups v.lane (v.k + 1) none ((List.range v.k).map fun k =>
        (elProd v.fA v.fB (v.weight rdA i k) (v.actv rd x k), (v.weight rdA i k).isFin && (v.actv rd x k).isFin))).1) ∧
    (v.fD = 1 → v.fA ≠ 0x12 → is (.cvt n []) 3 0 i
      (convElem 1 ((rmodeOf v.rmode v.seed d.step i).getD .rne) v.sat (rowElem v.fA rdA v.aA v.asA i)).bits))

/-- The huller issue port accepts its commands or fails them. ATTN, DOTV, RED and FILL that pass R227 become a huller command with one waiting task for each bank named by the mask; one that fails a check fails with the status of the first check in R227 and no task. -/
def Obligations.HullerCommands : Prop :=
  ∀ (s : State) (n : CoreId) (d : Cmd) (rest : List Cmd) (f : List Byte),
    (hulReady s n 0 d rest f → completes (.attn n) s fun t => hulTook s t n d rest f) ∧
    (hulReady s n 1 d rest f → completes (.dotv n) s fun t => hulTook s t n d rest f) ∧
    (hulReady s n 2 d rest f → d.sub = 0 → completes (.redSum n) s fun t => hulTook s t n d rest f) ∧
    (hulReady s n 2 d rest f → d.sub = 1 → completes (.redMax n) s fun t => hulTook s t n d rest f) ∧
    (hulReady s n 2 d rest f → d.sub = 2 → completes (.redMin n) s fun t => hulTook s t n d rest f) ∧
    (hulReady s n 3 d rest f → completes (.fill n) s fun t => hulTook s t n d rest f) ∧
    (∀ x ∈ ([(0, 0, .attn n), (1, d.sub, .dotv n), (2, 0, .redSum n), (2, 1, .redMax n), (2, 2, .redMin n), (3, d.sub, .fill n)] : List (Nat × Nat × Instr)),
      atHead s n 2 x.1 64 d rest f → (x.1 = 2 → d.sub = x.2.1) → hulRsvd d f = false →
      s.hulCheck n (hulParse d f) ≠ 0 → failsWith x.2.2 s n 2 (s.hulCheck n (hulParse d f)) rest)

/-- Bank tasks and the end of a verification. The slot of a layer slice takes its first waiting task where its bank is free, in the full cap in any slice, below it where it is the first waiting of the core; a task whose turn it is at the plot limiter is admitted and its command keeps its query; FILL of a work item that is not cancelled writes its bytes to exactly its range of the bank; another task writes its record at its ordinal place in scratch and no memory: what it computes from the bank, where nothing it read was written meanwhile and no chaff is in it; outputs that failed their envelope and that verification bears out stand, others confirm a fault ARITH. -/
def Obligations.BankTasks : Prop :=
  ∀ (s : State) (n : CoreId) (bank : Fin 32) (slice : Fin 8),
    let c := s.core n
    let slot := fun (h : HulCmd) => h.tasks.any fun t => t.bank = bank.val && t.st = .slot
    let runs := fun (h : HulCmd) => h.tasks.any fun t => t.bank = bank.val && t.st = .computing
    (∀ (x : Nat × Nat), c.waitingTasks.find? (fun t => t.2 / 4 = slice.val) = some x → (∀ u ∈ c.inSlots, u / 4 ≠ slice.val) →
      s.retHeld n x.2 = false → (s.field (n.val / 24)).resetting = false →
      (s.vaultCap n = 8 ∧ c.inSlots.length < 8 ∨ c.inSlots.length < 4 ∧ c.waitingTasks.head? = some x) →
      completes (.bankTaskSlotTake n slice) s fun t =>
        (t.core n).hul = onTask x.2 .waiting (fun k => { k with st := .slot, asked := s.nextAsk }) c.hul ∧ t.nextAsk = s.nextAsk + 1 ∧
        (t.core n).scratch = c.scratch ∧ unitFrame s t n 9) ∧
    (∀ h, c.hul.find? slot = some h →
      let asked := ((h.tasks.find? fun t => t.bank = bank.val && t.st = .slot).map BankTask.asked).getD 0
      (c.computing = 0 ∧ (∀ a ∈ s.plotAsks (plotOfCore n), a.2 = true → asked ≤ a.1) ∨
       c.computing ≠ 0 ∧ s.plotComputing (plotOfCore n) < s.fget F.hulPlotStat_CAP (plotOfCore n) ∧
         ∀ a ∈ s.plotAsks (plotOfCore n), a.2 = false ∧ asked ≤ a.1) →
      s.taskFree n h bank = true →
      completes (.bankTaskAdmit n bank) s fun t =>
        (∃ g ∈ (t.core n).hul, g.cmd = h.cmd ∧ runs g = true ∧
          g.query = some (h.query.getD (c.sread n h.qA h.qLen))) ∧
        (t.core n).scratch = c.scratch ∧ unitFrame s t n 9) ∧
    (∀ h, c.hul.find? runs = some h → h.op = 3 → s.workDead n = false →
      s.goneAt (h.base n bank) = false → h.off + h.len ≤ 0x40000 → 0 < h.len →
      completes (.bankTaskEnd n bank [] []) s fun t =>
        (∀ i, i < h.len / eb h.fmtB * eb h.fmtB → t.rd8 (h.base n bank + i) = h.fillBytes.getD i 0) ∧
        (∀ a, a < h.base n bank ∨ h.base n bank + h.len ≤ a → t.rd8 a = s.rd8 a) ∧ (t.core n).scratch = c.scratch) ∧
    (∀ h k, c.hul.find? runs = some h → h.op < 3 → h.tasks.find? (fun t => t.bank = bank.val && t.st = .computing) = some k →
      let o := h.ordinal bank
      let base := h.base n bank
      let ra := h.pA + o * h.recLen
      let rec_ := h.record bank (h.included o).length h.chaff ((List.range h.g).map (s.hulBody h base (h.query.getD []) o))
      s.scratchFree n h.cmd.seq [(true, ra, ra + h.recLen)] = true →
      completes (.bankTaskEnd n bank [] []) s fun t =>
        (t.core n).sread n ra 2 = [BitVec.ofNat 8 h.op, BitVec.ofNat 8 bank] ∧ t.mem = s.mem ∧
        (s.workDead n = false → k.chaff = false → (∀ w ∈ h.words base, s.isChaff w = false) → h.torn base o (s.hits.drop k.from_) = false →
          (t.core n).sread n ra rec_.length = rec_) ∧
        (∀ r, (t.core n).reg r = c.reg r) ∧ (t.core n).pc = c.pc ∧ ∀ m, m ≠ n.val → t.core m = s.core m) ∧
    (∀ v rest, c.verify = v :: rest → verifyHolds s n v → completes (.envelopeVerifyDone n) s fun t =>
      (t.core n).verify = rest ∧ (t.core n).scratch = c.scratch ∧ unitFrame s t n 9 ∧ t.faultQ = s.faultQ ∧
      (s.itemPart n < 32 → t.fget F.envStood_COUNT (s.itemPart n) = (s.fget F.envStood_COUNT (s.itemPart n) + 1) % 2 ^ F.envStood_COUNT.width)) ∧
    (∀ v rest, c.verify = v :: rest → ¬ verifyHolds s n v → completes (.envelopeVerifyDone n) s fun t =>
      (t.core n).verify = rest ∧ (t.core n).scratch = c.scratch ∧ unitFrame s t n 9 ∧
      ∃ g : FaultRec, t.faultQ = s.faultQ ++ [g] ∧ g.cause = 1 ∧ g.core = n.val ∧ g.oper = v.cmd.oper ∧ g.step = v.cmd.step)

/-- Move commands are accepted, or fail as R627 says. COPY, TCOPY, GATHER, the four SCATTERs and DRILL, their checks passed and nothing holding them, become a move in progress with the resolved descriptors (with its destination in scratch no byte of memory and no other core changes); one that fails a check of R627 fails with the status of the first; a descriptor whose CHECK does not match confirms a fault DESC with its TAG, and nothing is copied. -/
def Obligations.MoveCommands : Prop :=
  ∀ (s : State) (n : CoreId) (d : Cmd) (rest : List Cmd) (f : List Byte) (flips : List (Nat × Nat)), movesFresh s →
    (∀ a b x perm ov need ch, moveReady s n 0 0 d rest f a b x perm ov need ch → completes (.copy n flips) s fun t => moveBegun s t n 0 d rest a b x) ∧
    (∀ a b x perm ov need ch, moveReady s n 1 0 d rest f a b x perm ov need ch → completes (.tcopy n flips) s fun t => moveBegun s t n 1 d rest a b x) ∧
    (∀ a b x perm ov need ch, moveReady s n 2 0 d rest f a b x perm ov need ch → completes (.gather n flips) s fun t => moveBegun s t n 2 d rest a b x) ∧
    (∀ a b x perm ov need ch, moveReady s n 3 0 d rest f a b x perm ov need ch → completes (.scatterReplace n flips) s fun t => moveBegun s t n 3 d rest a b x) ∧
    (∀ a b x perm ov need ch, moveReady s n 3 1 d rest f a b x perm ov need ch → completes (.scatterAdd n flips) s fun t => moveBegun s t n 3 d rest a b x) ∧
    (∀ a b x perm ov need ch, moveReady s n 3 2 d rest f a b x perm ov need ch → completes (.scatterMax n flips) s fun t => moveBegun s t n 3 d rest a b x) ∧
    (∀ a b x perm ov need ch, moveReady s n 3 3 d rest f a b x perm ov need ch → completes (.scatterMin n flips) s fun t => moveBegun s t n 3 d rest a b x) ∧
    (∀ a b x perm ov need ch, moveReady s n 4 0 d rest f a b x perm ov need ch → completes (.drill n flips) s fun t => moveBegun s t n 4 d rest a b x) ∧
    (∀ x ∈ ([(0, 0, .copy n flips), (1, 0, .tcopy n flips), (2, 0, .gather n flips), (3, 0, .scatterReplace n flips), (3, 1, .scatterAdd n flips), (3, 2, .scatterMax n flips), (3, 3, .scatterMin n flips), (4, 0, .drill n flips)] : List (Nat × Nat × Instr)),
      (∀ e, moveJudged s n x.1 x.2.1 d rest f (.status e) → failsWith x.2.2 s n 3 e rest) ∧
      (∀ tag, moveJudged s n x.1 x.2.1 d rest f (.fault tag) → completes x.2.2 s fun t =>
        t.faultQ = s.faultQ ++ [{ s.coreFault n 5 d with tag := tag }] ∧ t.mem = s.mem ∧ t.moves = s.moves))

/-- The course of a move. Staging space and Granary drills go to the first move that waits while there is room (64 MiB, 128 drills); a move all of whose writes are performed completes and leaves the table, reporting its status if it has one; the deterministic contributions of the oldest step are combined once its COMMIT is taken, its work has ended and no fault or error of it waits; the second disagreement of the arithmetic units leaves them and confirms a fault GRN_ALU (DESIGN CHOICE: log 194 applies R397 to the staged contributions as a whole). -/
def Obligations.MoveCourse : Prop :=
  ∀ (s : State) (m : Move) (ring : RingId) (mm : Nat),
    (s.moves.find? (fun m => m.st = .staging && !m.staged) = some m → s.stagingUsed + m.overlap ≤ 0x4000000 →
      completes .stagingSpaceGrant s fun t =>
        t.moves.map Move.id = s.moves.map Move.id ∧ ∀ x ∈ t.moves, x.id = m.id → x.staged = true) ∧
    (s.moves.find? (fun m => m.st = .drill && !m.drill) = some m → (s.moves.filter fun x => x.drill).length < 128 →
      completes .granaryDrillGrant s fun t =>
        t.moves.map Move.id = s.moves.map Move.id ∧ ∀ x ∈ t.moves, x.id = m.id → x.drill = true) ∧
    (s.moves.find? (fun x => x.id = m.id) = some m → m.op ≠ 5 → m.st = .writing → m.msgs = 0 → m.waits = 0 →
      (∀ c ∈ s.contribs, c.move ≠ some m.id) → completes (.moveComplete m.id) s fun t =>
        t.moves = s.moves.filter (fun x => x.id ≠ m.id) ∧ t.mem = s.mem ∧
        (m.err = 0 → t.errQ = s.errQ) ∧
        (m.core = none → m.err ≠ 0 → t.errQ = s.errQ ++
          [{ ring := m.ring.getD 128, step := m.step, status := m.err, core := 0xFFFF, soft := 0, entry := m.entry, item := false }]) ∧
        (∀ n w r, m.core = some n → m.err ≠ 0 → (s.core n).wi = some w → w.ring = some r → w.dead = false →
          t.errQ = s.errQ ++
            [{ ring := r, step := w.step, status := m.err, core := n, soft := 0, entry := some w.place, item := (s.core n).status = 0 }])) ∧
    (∀ o rest, (s.ring ring).steps = o :: rest → o.commitTaken = true → o.items = 0 → o.entries = 0 → o.st = .run → o.detDone = false →
      s.stepBusy ring o.step = false → (∀ f ∈ s.faultQ, f.ring = ring.val → f.step ≠ o.step) → (∀ e ∈ s.errQ, e.ring = ring.val → e.step ≠ o.step) →
      (mm < 2 → completes (.detScatterCombine ring mm) s fun t =>
        (∀ x ∈ (t.ring ring).steps, x.step = o.step → x.detDone = true) ∧
        (∀ x ∈ t.det, x.ring = ring.val → x.step = o.step → x.items = []) ∧ (t.ring ring).steps.length = (s.ring ring).steps.length) ∧
      (2 ≤ mm → (∃ x ∈ s.det, x.ring = ring.val ∧ x.step = o.step ∧ x.items ≠ []) → completes (.detScatterCombine ring mm) s fun t =>
        ∃ f : FaultRec, t = { s with faultQ := s.faultQ ++ [f] } ∧ f.cause = 9 ∧ f.ring = ring.val ∧ f.step = o.step))

/-- The home Granary combines an element. A contribution to a bin of its partition leaves at the destination element the old value combined with it (the exact sum, maximum or minimum rounded once, INT32 sums clamped and counted) and no other byte of memory changed; the contributions held for one burst of a vault leave together, in their order of arrival, as one message to its vault interface, which combines them; a second disagreement of the two units leaves the element and confirms a fault GRN_ALU. -/
def Obligations.CombineAtHome : Prop :=
  ∀ (s : State) (c : Contrib) (rest : List Contrib) (mm : Nat), s.contribs = c :: rest → (∀ x u, c.src ≠ .remote x u) →
    let a := localOf c.addr
    let k := etBits c.etype / 8
    let r := combineBits c.etype c.stype c.op (leNat (s.rdN a k)) c.bits
    let held := s.contribs.filter fun x => localOf x.addr / 256 = a / 256
    (0x4000000000 ≤ a → a < 0x4040000000 → a % 4 = 0 → c.etype ∈ [1, 2, 3, 0x12] → c.pads = [] → s.access c.part a true = 0 → s.goneAt a = false →
      mm < 2 → completes (.combineContribution mm) s fun t =>
        t.rdN a k = toLE k r.1 ∧ t.contribs = rest ∧ (∀ x, x < a ∨ a + k ≤ x → memGet t.mem x = memGet s.mem x) ∧
        t.scatterSat = s.scatterSat + (if r.2 then 1 else 0)) ∧
    (a < 0x3600000000 → s.burstHeld (a / 256) = false → (∀ x ∈ held, x.pads = [] ∧ s.contribStatus x = 0) →
      mm < 2 → completes (.combineContribution mm) s fun t =>
        t.mem = s.mem ∧ t.contribs = s.contribs.filter (fun x => localOf x.addr / 256 ≠ a / 256) ∧
        ∃ m : Msg, (t.core (a / 0x800000)).vqGran = (s.core (a / 0x800000)).vqGran ++ [m] ∧ m.comb = held.map Contrib.item ∧ m.lo = a / 256 * 256 ∧
          m.stamp = s.stampOf (a / 0x800000)) ∧
    (0x3600000000 ≤ a ∨ s.burstHeld (a / 256) = false → 2 ≤ mm → completes (.combineContribution mm) s fun t =>
      t.mem = s.mem ∧ t.contribs = rest ∧ ∃ f : FaultRec, t.faultQ = s.faultQ ++ [f] ∧ f.cause = 9 ∧ f.step = c.step ∧ f.addr = c.addr)

/-- Fences and waits of the sync unit. A fence that covers a class of the core occupies the sync unit until the accesses it names are performed, and then ends; a WAIT enters the wait table with its semaphore, value and bound, and ends when its semaphore has reached the value since it began (or is poisoned), or fails with SEM_TIMEOUT once the bound has passed; memory, registers and scratch stand. -/
def Obligations.SyncFencesAndWaits : Prop :=
  ∀ (s : State) (n : CoreId) (d : Cmd) (rest : List Cmd) (f : List Byte),
    (fenceReady s n 1 d rest → completes (.fenceRel n) s fun t => fenceTook s t n d rest) ∧
    (fenceReady s n 2 d rest → completes (.fenceAcq n) s fun t => fenceTook s t n d rest) ∧
    (fenceReady s n 3 d rest → completes (.fenceFull n) s fun t => fenceTook s t n d rest) ∧
    (∀ c ∈ ([.fenceRel n, .fenceAcq n, .fenceFull n] : List Instr), fenceReady s n 0 d rest → failsWith c s n 4 0x0903 rest) ∧
    ((s.core n).sync = some d → d.op = 0 →
      s.coreOpen n d.seq (bitAt d.body.toNat 4) (bitAt d.body.toNat 6) (bitsOf d.body.toNat 0 2 = 2) = false →
      completes (.fenceComplete (.core n)) s fun t =>
        (t.core n).sync = none ∧ (t.core n).queueOf 4 = (s.core n).queueOf 4 ∧ (t.core n).scratch = (s.core n).scratch ∧ unitFrame s t n 4) ∧
    (semReady s n 2 0 d rest f → s.semCheck (s.itemPart n) (fieldB f 0 7) 0 true = 0 → completes (.waitGe n) s fun t => waitTook s t n d rest f false) ∧
    (semReady s n 2 0 d rest f → s.semCheck (s.itemPart n) (fieldB f 0 7) 0 true ≠ 0 →
      failsWith (.waitGe n) s n 4 (s.semCheck (s.itemPart n) (fieldB f 0 7) 0 true) rest) ∧
    (semReady s n 2 1 d rest f → s.semCheck (s.itemPart n) (fieldB f 0 7) 1 true = 0 → completes (.waitEq n) s fun t => waitTook s t n d rest f true) ∧
    (semReady s n 2 1 d rest f → s.semCheck (s.itemPart n) (fieldB f 0 7) 1 true ≠ 0 →
      failsWith (.waitEq n) s n 4 (s.semCheck (s.itemPart n) (fieldB f 0 7) 1 true) rest) ∧
    (∀ w, s.waitOf (.core n) = some w → s.waitMet w = true → completes (.semWaitComplete (.core n)) s fun t =>
      t.waits = s.waits.erase w ∧ (t.core n).sync = none ∧ (t.core n).scratch = (s.core n).scratch ∧ t.errQ = s.errQ ∧ unitFrame s t n 9) ∧
    (∀ w k, s.waitOf (.core n) = some w → w.deadline = some k → k ≤ s.time.elapsed → s.waitMet w = false →
      completes (.semTimeout (.core n)) s fun t =>
        t.waits = s.waits.erase w ∧ (t.core n).sync = none ∧ t.mem = s.mem ∧
        ∀ v r, (s.core n).wi = some v → v.ring = some r → v.dead = false →
          t.errQ = s.errQ ++
            [{ ring := r, step := v.step, status := 0x0902, core := n, soft := 0, entry := some v.place, item := (s.core n).status = 0 }]) ∧
    (∀ (w : SemWait) (a : Nat) (bs : List (Byte × Bool)), w ∈ s.waits → w.met = none → a < 0x8000000000 → s.goneAt a = false →
      w.sem < a + bs.length → a < w.sem + 8 →
      let t := s.wrMarked a bs
      ∃ x ∈ t.waits, x.sem = w.sem ∧ x.value = w.value ∧ x.eq = w.eq ∧
        (w.reached (leNat ((List.range 8).map fun i => memGet t.mem (w.sem + i))) = true → x.met.isSome = true))

/-- Signals. Once the core has no access outstanding, SIGNAL ADD adds its value to a semaphore of this module modulo 2^64 and SET replaces it, no other byte of memory changing; a second disagreement of the Granary leaves the semaphore and confirms GRN_ALU; a signal to another module leaves as a SIGNAL packet, and the unit waits for its answer. -/
def Obligations.Signals : Prop :=
  ∀ (s : State) (n : CoreId) (d : Cmd) (rest : List Cmd) (f : List Byte) (mm : Nat),
    let addr := fieldB f 0 7
    let a := localOf addr
    let v := fieldB f 8 8
    let here := addr / 0x10000000000 = s.selfId
    let alone := s.coreOpen n d.seq true true false = false ∧ (s.core n).verify = []
    (semReady s n 1 0 d rest f → s.semCheck (s.itemPart n) addr 0 false ≠ 0 → failsWith (.signalAdd n mm) s n 4 (s.semCheck (s.itemPart n) addr 0 false) rest) ∧
    (semReady s n 1 0 d rest f → s.semCheck (s.itemPart n) addr 0 false = 0 → alone →
      (here → mm < 2 → s.goneAt a = false → completes (.signalAdd n mm) s fun t =>
        t.semValue a = (s.semValue a + v) % 2 ^ 64 ∧ (∀ x, x < a ∨ a + 8 ≤ x → memGet t.mem x = memGet s.mem x) ∧
        (t.core n).queueOf 4 = rest ∧ (t.core n).sync = none ∧ (t.core n).scratch = (s.core n).scratch ∧ ∀ m, m ≠ n.val → t.core m = s.core m) ∧
      (here → 2 ≤ mm → completes (.signalAdd n mm) s fun t =>
        t.mem = s.mem ∧ (t.core n).queueOf 4 = rest ∧ t.faultQ = s.faultQ ++ [{ s.coreFault n 9 d with addr := addr }]) ∧
      (¬ here → completes (.signalAdd n mm) s fun t =>
        t.mem = s.mem ∧ (t.core n).queueOf 4 = rest ∧ (t.core n).sync = some d ∧
        ∃ x : Txn, t.link.txns = s.link.txns ++ [x] ∧ x.pkt.type = 3 ∧ x.pkt.dst = addr / 0x10000000000 % 65536 ∧ x.pkt.addr = a ∧ x.pkt.op = 0 ∧
          x.pkt.payload = toLE 8 v)) ∧
    (semReady s n 1 1 d rest f → s.semCheck (s.itemPart n) addr 1 false ≠ 0 → failsWith (.signalSet n mm) s n 4 (s.semCheck (s.itemPart n) addr 1 false) rest) ∧
    (semReady s n 1 1 d rest f → s.semCheck (s.itemPart n) addr 1 false = 0 → alone →
      (here → mm < 2 → s.goneAt a = false → completes (.signalSet n mm) s fun t =>
        t.semValue a = v ∧ (∀ x, x < a ∨ a + 8 ≤ x → memGet t.mem x = memGet s.mem x) ∧
        (t.core n).queueOf 4 = rest ∧ (t.core n).sync = none ∧ (t.core n).scratch = (s.core n).scratch ∧ ∀ m, m ≠ n.val → t.core m = s.core m) ∧
      (here → 2 ≤ mm → completes (.signalSet n mm) s fun t =>
        t.mem = s.mem ∧ (t.core n).queueOf 4 = rest ∧ t.faultQ = s.faultQ ++ [{ s.coreFault n 9 d with addr := addr }]) ∧
      (¬ here → completes (.signalSet n mm) s fun t =>
        t.mem = s.mem ∧ (t.core n).queueOf 4 = rest ∧ (t.core n).sync = some d ∧
        ∃ x : Txn, t.link.txns = s.link.txns ++ [x] ∧ x.pkt.type = 3 ∧ x.pkt.dst = addr / 0x10000000000 % 65536 ∧ x.pkt.addr = a ∧ x.pkt.op = 1 ∧
          x.pkt.payload = toLE 8 v))

/-- Fences and waits of the front end. A wait or fence at the head of a ring ends when its semaphore has reached the value, when its bound has passed (SEM_TIMEOUT, at the entry), or when the accesses that came before it are performed; the ring goes on and memory stands. -/
def Obligations.RingWaits : Prop :=
  ∀ (s : State) (r : RingId) (p : PartId) (w : SemWait),
    (s.waitOf (.ring r) = some w → s.waitMet w = true → completes (.semWaitComplete (.ring r)) s fun t =>
      t.waits = s.waits.erase w ∧ (t.ring r).hold = none ∧ t.mem = s.mem ∧ t.errQ = s.errQ) ∧
    (∀ k, s.waitOf (.ring r) = some w → w.deadline = some k → k ≤ s.time.elapsed → s.waitMet w = false →
      completes (.semTimeout (.ring r)) s fun t =>
        t.waits = s.waits.erase w ∧ (t.ring r).hold = none ∧ t.mem = s.mem ∧
        t.errQ = s.errQ ++ [{ ring := r, step := w.step, status := 0x0902, core := 0xFFFF, soft := 0, entry := w.entry, item := false }]) ∧
    (∀ k type mask step at_, ((List.range 4).find? fun k => match (s.ring (p * 4 + k)).hold with
        | some (.fence type mask _ at_) => !s.feOpen p at_ (bitAt mask 0) (bitAt mask 2) (bitAt mask 3) (type = 2)
        | _ => false) = some k → (s.ring (p * 4 + k)).hold = some (.fence type mask step at_) →
      completes (.fenceComplete (.frontEnd p)) s fun t => (t.ring (p * 4 + k)).hold = none ∧ t.mem = s.mem)

/-- The vault interface and the misdelivery queue. The interface serves the first requester after the one served last whose bank can take its burst and is held by no substitution, records of bank tasks before any; a read takes its turn and changes no byte; a message whose stamped epoch is the core's is performed: exactly its bytes are written, or its element is combined with the burst and written back in the same turn; with another epoch it bounces into the misdelivery queue and nothing is written. A bounced message is sent again to the core that holds its role and rank, with that core's epoch, when the queue looks for it; once HOLD_US has elapsed it is logged and confirms MISDELIVERED. -/
def Obligations.VaultInterface : Prop :=
  ∀ (s : State) (n : CoreId) (busy : BitVec 32) (reads : List VaultRead) (turn idx : Nat) (m : Msg) (b : Bounced),
    let c := s.core n
    let held := busy ||| s.retBanks n
    (∀ x, c.turn busy reads = some (turn, x) → ∃ i, i < 6 ∧ turn = (c.rot + 1 + i) % 6 ∧ c.nextBurst reads turn = some x ∧
      busy.getLsbD x.bank = false ∧ ∀ k y, k < i → c.nextBurst reads ((c.rot + 1 + k) % 6) = some y → busy.getLsbD y.bank = true) ∧
    (∀ records, 0 < records → completes (.vaultBurst n busy records reads) s fun t => t = s) ∧
    (∀ x, c.turn held reads = some (turn, .read x) → completes (.vaultBurst n busy 0 reads) s fun t =>
      (t.core n).rot = turn ∧ (t.core n).vqMesh = c.vqMesh ∧ (t.core n).vqGran = c.vqGran ∧ (x.ecc ≠ .uncorrectable → t.mem = s.mem ∧ t.chaff = s.chaff)) ∧
    (c.turn held reads = some (turn, .write m) → m.reply = none →
      let popped := fun (t : State) => (t.core n).rot = turn ∧ (turn = 3 → (t.core n).vqMesh = c.vqMesh.drop 1 ∧ (t.core n).vqGran = c.vqGran) ∧
        (turn ≠ 3 → (t.core n).vqGran = c.vqGran.drop 1 ∧ (t.core n).vqMesh = c.vqMesh)
      (m.stamp.epoch = c.epoch → m.comb = [] → (m.data.map Prod.fst).Nodup → (∀ x ∈ m.data, x.1 < 0x800000 ∧ s.goneAt (vaultBase n + x.1) = false) →
        completes (.vaultBurst n busy 0 reads) s fun t =>
          (∀ x ∈ m.data, t.rd8 (vaultBase n + x.1) = x.2.1) ∧
          (∀ a, (∀ x ∈ m.data, a ≠ vaultBase n + x.1) → memGet t.mem a = memGet s.mem a) ∧ popped t ∧ t.mdq = s.mdq) ∧
      (∀ k : Contrib, m.stamp.epoch = c.epoch → m.comb = [k.item] → (∀ x u, k.src ≠ .remote x u) → k.pads = [] → k.etype ∈ [1, 2, 3, 0x12] →
        1 ≤ k.op → localOf k.addr % 4 = 0 → localOf k.addr / 256 = m.lo / 256 →
        let a := vaultBase n + localOf k.addr % 0x800000
        let w := etBits k.etype / 8
        let r := combineBits k.etype k.stype k.op (leNat (s.rdN a w)) k.bits
        s.goneAt a = false → completes (.vaultBurst n busy 0 reads) s fun t =>
          t.rdN a w = toLE w r.1 ∧ (∀ x, x < a ∨ a + w ≤ x → memGet t.mem x = memGet s.mem x) ∧ popped t ∧
          t.scatterSat = s.scatterSat + (if r.2 then 1 else 0)) ∧
      (m.stamp.epoch ≠ c.epoch → s.mdq.length < 7168 → completes (.vaultBurst n busy 0 reads) s fun t =>
        t.mem = s.mem ∧ t.mdq = s.mdq ++ [{ msg := m, since := s.time.elapsed, seen := none }] ∧ popped t ∧
        t.fget F.mdqBounced_BOUNCED 0 = (s.fget F.mdqBounced_BOUNCED 0 + 1) % 2 ^ 64)) ∧
    (s.mdq[idx]? = some b →
      let now := s.epochsOf b.msg.stamp.part
      (∀ k, s.roleHolder b.msg.stamp = some k → s.time.elapsed < b.since + s.holdNs → b.seen ≠ some now → completes (.misdeliveryResend idx) s fun t =>
        t.mdq = s.mdq.eraseIdx idx ∧ t.mem = s.mem ∧ t.fget F.mdqResent_RESENT 0 = (s.fget F.mdqResent_RESENT 0 + 1) % 2 ^ 64 ∧
        (t.core k).vqGran = (s.core k).vqGran ++ [{ b.msg with core := k, stamp := { b.msg.stamp with epoch := (s.core k).epoch } }]) ∧
      (s.roleHolder b.msg.stamp = none → s.time.elapsed < b.since + s.holdNs → b.seen ≠ some now → completes (.misdeliveryResend idx) s fun t =>
        t = { s with mdq := s.mdq.set idx { b with seen := some now } }) ∧
      (b.since + s.holdNs ≤ s.time.elapsed → b.msg.comb = [] → b.msg.ring.isSome = true → completes (.misdeliveryHoldExpire idx) s fun t =>
        t.mdq = s.mdq.eraseIdx idx ∧ t.mem = s.mem ∧ t.fget F.mdqLogged_LOGGED 0 = (s.fget F.mdqLogged_LOGGED 0 + 1) % 2 ^ 64 ∧
        ∃ f : FaultRec, t.faultQ = s.faultQ ++ [f] ∧ f.cause = 0xA ∧ f.step = b.msg.step ∧ f.tag = b.msg.stamp.epoch))

/-- The registers of a submission ring. RING_BASE and CPL_BASE are written while the ring is disabled (an address beyond the scratchpad space sets BASE_ERR), and are ignored while it is enabled; RING_CFG sets vector, interrupts, sizes (6 for a value out of range) and ENABLE, a clear of ENABLE waiting for IDLE; RESET empties the ring and RESUME ends a halt; a doorbell whose TAIL is at most a ring beyond RING_HEAD is taken, any other sets DB_ERR. -/
def Obligations.RingRegisters : Prop :=
  ∀ (s : State) (r : RingId) (val : W64) (v : W32),
    (s.flag F.ringCfg_ENABLE r = false → (bitAt val.toNat 0 = false ∨ bitsOf val.toNat 30 34 = 0) →
      (completes (.ringBaseWrite r false val) s fun t =>
        t.fget F.ringBase_ADDR r = val.toNat / 4096 ∧ t.fget F.ringBase_LOC r = val.toNat % 2 ∧ regsOnly s t [(F.ringBase_ADDR, r), (F.ringBase_LOC, r)]) ∧
      (completes (.ringBaseWrite r true val) s fun t =>
        t.fget F.cplBase_ADDR r = val.toNat / 4096 ∧ t.fget F.cplBase_LOC r = val.toNat % 2 ∧ regsOnly s t [(F.cplBase_ADDR, r), (F.cplBase_LOC, r)])) ∧
    (s.flag F.ringCfg_ENABLE r = false → bitAt val.toNat 0 = true → bitsOf val.toNat 30 34 ≠ 0 → ∀ cpl,
      completes (.ringBaseWrite r cpl val) s fun t => t.flag F.ringCtl_BASE_ERR r = true ∧ regsOnly s t [(F.ringCtl_BASE_ERR, r)]) ∧
    (∀ cpl, s.flag F.ringCfg_ENABLE r = true → completes (.ringBaseWrite r cpl val) s fun t => t = s) ∧
    (s.flag F.ringCfg_ENABLE r = false → s.flag F.ringState_IDLE r = true → bitAt v.toNat 0 = true → s.isReady = true →
      completes (.ringCfgWrite r v) s fun t =>
        t.flag F.ringCfg_ENABLE r = true ∧ t.fget F.ringCfg_VECTOR r = bitsOf v.toNat 8 8 ∧ t.fget F.ringCfg_IRQ r = bitsOf v.toNat 1 1 ∧
        t.fget F.ringCfg_RING_LOG2 r = logOf (bitsOf v.toNat 16 5) ∧ t.fget F.ringCfg_CPL_LOG2 r = logOf (bitsOf v.toNat 24 5) ∧
        (t.ring r).next = none ∧ (t.ring r).steps = (s.ring r).steps ∧ t.mem = s.mem) ∧
    (s.flag F.ringCfg_ENABLE r = true → bitAt v.toNat 0 = false → completes (.ringCfgWrite r v) s fun t =>
      (if (s.ring r).steps = [] ∧ (s.ring r).hold = none then t.flag F.ringCfg_ENABLE r = false
       else t.flag F.ringCfg_ENABLE r = true ∧ (t.ring r).disabling = true) ∧ (t.ring r).steps = (s.ring r).steps ∧ t.mem = s.mem) ∧
    ((s.ring r).held = [] → completes (.cplHeadWrite r v) s fun t =>
      t.fget F.cplHead_HEAD r = bitsOf v.toNat 0 17 ∧ regsOnly s t [(F.cplHead_HEAD, r)]) ∧
    (∀ x, (s.ring r).held = [x] → (s.ring r).lost = none →
      let s1 := s.fset F.cplHead_HEAD r (bitsOf v.toNat 0 17)
      s1.cplWaits r = false → s1.cplBlocked r = 0 → completes (.cplHeadWrite r v) s fun t =>
        (t.ring r).held = [] ∧ t.fget F.cplTail_TAIL r = (s.fget F.cplTail_TAIL r + 1) % (2 * s.cplSize r) % 2 ^ F.cplTail_TAIL.width) ∧
    (completes (.ringReset r) s fun t =>
      (t.ring r).steps = [] ∧ (t.ring r).held = [] ∧ (t.ring r).tail = 0 ∧ (t.ring r).next = none ∧ t.fget F.ringHead_HEAD r = 0 ∧
      t.fget F.cplTail_TAIL r = 0 ∧ t.fget F.cplHead_HEAD r = 0 ∧ t.flag F.ringState_HALTED r = false ∧ t.fget F.ringState_ERR_CODE r = 0) ∧
    (s.flag F.ringState_HALTED r = true → s.isUnready = false → s.isFailsafe = false → completes (.ringResume r) s fun t =>
      t.flag F.ringState_HALTED r = false ∧ (t.ring r).late = none ∧ ((s.ring r).late = none → regsOnly s t [(F.ringState_HALTED, r)])) ∧
    (∀ p j, (s.partOf (r.val / 4)).isSome = true → s.descJobs.filter (fun x => x.part = r.val / 4) = [j] →
      completes (.doorbell (.core p) r v) s fun t =>
        t.flag F.descStatus_BUSY (r.val / 4) = false ∧ t.fget F.descStatus_CODE (r.val / 4) = j.code % 2 ^ F.descStatus_CODE.width ∧
        t.descJobs = s.descJobs.filter (fun x => x.part ≠ r.val / 4)) ∧
    (∀ p, (s.partOf (r.val / 4)).isSome = true →
      let t0 := bitsOf v.toNat 0 17
      let n := s.ringSize r
      (t0 < 2 * n → (t0 + 2 * n - s.fget F.ringHead_HEAD r) % (2 * n) ≤ n → completes (.doorbell (.core p) r v) s fun t =>
        (t.ring r).tail = t0 ∧ (t.ring r).steps = (s.ring r).steps ∧ t.mem = s.mem) ∧
      ((2 * n ≤ t0 ∨ n < (t0 + 2 * n - s.fget F.ringHead_HEAD r) % (2 * n)) → completes (.doorbell (.core p) r v) s fun t =>
        t.flag F.ringCtl_DB_ERR r = true ∧ (t.ring r) = s.ring r ∧ t.mem = s.mem ∧
        ((∀ j ∈ s.descJobs, j.part ≠ r.val / 4) → regsOnly s t [(F.ringCtl_DB_ERR, r)])))

/-- Entries of a ring are taken. A NOP, COMMIT, FENCE, SEM or MOVE entry whose CHECK, reserved bits and step number are right, its own checks passed, is taken: RING_HEAD advances, its step is open, and it has its effect: COMMIT closes the step, FENCE and WAIT hold the ring, SIGNAL changes exactly its semaphore, MOVE becomes a move of the front end. -/
def Obligations.EntriesTaken : Prop :=
  ∀ (s : State) (r : RingId) (given e : List Byte) (mm : Nat), (s.ring r).replay = none → (s.ring r).orderOk e = true →
    (entryHead s r given e 6 → entRsvd e 12 = false → completes (.nopEntry r given) s fun t => tookEntry s t r e ∧ t.mem = s.mem) ∧
    (entryHead s r given e 2 → entRsvd e 12 = false → completes (.commitEntry r given) s fun t =>
      tookEntry s t r e ∧ t.mem = s.mem ∧ (t.ring r).next = some ((entStep e + 1) % 2 ^ 32) ∧
      ∀ o ∈ (t.ring r).steps, o.step = entStep e → o.commitTaken = true ∧ o.commitIdx = s.fget F.ringHead_HEAD r ∧ o.commitIrq = entIrq e) ∧
    (entryHead s r given e 4 → entRsvd e 14 = false → 1 ≤ fieldB e 12 1 → fieldB e 12 1 ≤ 3 → fieldB e 13 1 ≤ 15 →
      completes (.fenceEntry r given) s fun t =>
        tookEntry s t r e ∧ t.mem = s.mem ∧
        (t.ring r).hold = (if bitAt (fieldB e 13 1) 0 || bitAt (fieldB e 13 1) 2 || bitAt (fieldB e 13 1) 3 then
          some (.fence (fieldB e 12 1) (fieldB e 13 1) (entStep e) (s.feSeq (r.val / 4))) else none)) ∧
    (entryHead s r given e 5 → fieldB e 12 1 = 2 → s.semEntryCheck r e true = 0 → completes (.semWaitEntry r given) s fun t =>
      tookEntry s t r e ∧ t.mem = s.mem ∧
      ∃ w : SemWait, t.waits = s.waits ++ [w] ∧ w.core = none ∧ w.ring = some r.val ∧ w.step = entStep e ∧ w.sem = localOf (fieldB e 16 7) ∧
        w.value = fieldB e 24 8 ∧ w.eq = (fieldB e 13 1 = 1) ∧ (t.ring r).hold = some (.wait (entStep e) w.sem w.value (fieldB e 13 1) w.deadline)) ∧
    (entryHead s r given e 5 → fieldB e 12 1 = 1 → s.semEntryCheck r e false = 0 →
      s.feOpen (r.val / 4) (s.feSeq (r.val / 4)) true true true false = false →
      let a := localOf (fieldB e 16 7)
      let here := fieldB e 16 7 / 0x10000000000 = s.selfId
      (here → s.goneAt a = false → mm < 2 → completes (.semSignalEntry r given mm) s fun t =>
        tookEntry s t r e ∧ t.semValue a = (if fieldB e 13 1 = 1 then fieldB e 24 8 else (s.semValue a + fieldB e 24 8) % 2 ^ 64) ∧
        ∀ x, x < a ∨ a + 8 ≤ x → memGet t.mem x = memGet s.mem x) ∧
      (here → 2 ≤ mm → completes (.semSignalEntry r given mm) s fun t =>
        tookEntry s t r e ∧ t.mem = s.mem ∧ ∃ f : FaultRec, t.faultQ = s.faultQ ++ [f] ∧ f.cause = 9 ∧ f.step = entStep e ∧ f.addr = fieldB e 16 7) ∧
      (¬ here → completes (.semSignalEntry r given mm) s fun t =>
        tookEntry s t r e ∧ t.mem = s.mem ∧ ∃ x : Txn, t.link.txns = s.link.txns ++ [x] ∧ x.pkt.type = 3 ∧ x.pkt.addr = a ∧
          x.pkt.op = (if fieldB e 13 1 = 1 then 1 else 0) ∧ x.pkt.payload = toLE 8 (fieldB e 24 8) ∧ x.step = entStep e)) ∧
    (∀ a b x perm ov need ch, entryHead s r given e 3 → fieldB e 12 1 ≤ 4 → entRsvd e 46 = false → zeroB e 14 2 = true →
      moveRsvd (fieldB e 12 1) (fieldB e 13 1) (sliceB e 16 30) = false →
      s.moveCheck none (r.val / 4) (fieldB e 12 1) (fieldB e 13 1) (sliceB e 16 30) = .ok a b x perm ov need ch →
      s.moveHeld (r.val / 4) (s.memSpans none (fieldB e 12 1) (fieldB e 13 1) (some a) (some b) x) = false →
      completes (.moveEntry r given) s fun t =>
        tookEntry s t r e ∧ t.nextMove = s.nextMove + 1 ∧
        ∃ m ∈ t.moves, m.id = s.nextMove ∧ m.core = none ∧ m.ring = some r.val ∧ m.part = r.val / 4 ∧ m.step = entStep e ∧
          m.op = fieldB e 12 1 ∧ m.sub = fieldB e 13 1 ∧ m.src = a ∧ m.dst = b ∧ m.idx = x ∧
          m.entry = some ⟨3, s.fget F.ringHead_HEAD r, entIrq e⟩) ∧
    (∀ st, entryHead s r given e 3 → fieldB e 12 1 ≤ 4 → entRsvd e 46 = false → zeroB e 14 2 = true →
      moveRsvd (fieldB e 12 1) (fieldB e 13 1) (sliceB e 16 30) = false → st < 65536 →
      s.moveCheck none (r.val / 4) (fieldB e 12 1) (fieldB e 13 1) (sliceB e 16 30) = .status st →
      completes (.moveEntry r given) s fun t => ringHalted t r st)

/-- DISPATCH places a work item on every core of its range. A DISPATCH whose cores belong to its partition puts one work item, with its layer, operation, entry, arguments and step, at the end of each core's work queue and changes no other core; with cores outside the partition the ring halts with CORE_RANGE and no work item is placed. -/
def Obligations.DispatchPlacesWork : Prop :=
  ∀ (s : State) (r : RingId) (given e : List Byte) (q : Part), (s.ring r).replay = none → (s.ring r).orderOk e = true → entryHead s r given e 1 → s.isFailsafe = false →
    entRsvd e 60 = false → zeroB e 22 2 = true → s.partOf (r.val / 4) = some q → fieldB e 20 2 = 0xFFFF → fieldB e 56 4 = 0 →
    let first := fieldB e 16 2
    let count := fieldB e 18 2
    (1 ≤ count → q.first ≤ first → first + count ≤ q.first + q.count → (∀ i, i < count → (s.core (first + i)).queue.length < 32) →
      completes (.dispatch r given) s fun t =>
        tookEntry s t r e ∧ t.mem = s.mem ∧
        (∃ w : WorkItem, (∀ i, i < count → (t.core (first + i)).queue = (s.core (first + i)).queue ++ [w]) ∧
          w.ring = some r.val ∧ w.part = r.val / 4 ∧ w.step = entStep e ∧ w.layer = fieldB e 2 2 ∧ w.oper = fieldB e 4 2 ∧ w.entry = fieldB e 14 2 ∧
          w.firstCore = first ∧ w.arg0 = BitVec.ofNat 64 (fieldB e 24 8) ∧ w.arg1 = BitVec.ofNat 64 (fieldB e 32 8) ∧
          w.arg2 = BitVec.ofNat 64 (fieldB e 40 8) ∧ w.arg3 = BitVec.ofNat 64 (fieldB e 48 8) ∧
          w.place = ⟨1, s.fget F.ringHead_HEAD r, entIrq e⟩) ∧
        (∀ m, (∀ i, i < count → m ≠ first + i) → t.core m = s.core m) ∧ ∀ i, i < count → (t.core (first + i)).wi = (s.core (first + i)).wi) ∧
    (count = 0 ∨ first < q.first ∨ q.first + q.count < first + count → completes (.dispatch r given) s fun t =>
      ringHalted t r 0x0B05 ∧ ∀ m, (t.core m).queue.length ≤ (s.core m).queue.length)

/-- Completion records, commits and errors of a ring. MARK writes a completion record with its TAG at CPL_TAIL and opens no step; an unlisted entry type halts the ring with ENTRY_TYPE; the oldest step commits and leaves the ring, with chaff counted; an entry that cannot be read halts the ring with RING_FETCH, a record that cannot be written halts it and loses the records and steps behind it; the error of a work item or command cancels its step and halts the ring. -/
def Obligations.RingRecordsAndErrors : Prop :=
  ∀ (s : State) (r : RingId) (given e : List Byte),
    (entryHead s r given e 7 → entRsvd e 16 = false → (s.ring r).replay = none → (s.ring r).held = [] → s.cplUsed r < s.cplSize r →
      s.flag F.cplBase_LOC r = false → s.host.link = true → completes (.mark r given) s fun t =>
        (∃ c ph, ∃ l, t.out = s.out ++ [.cpl (s.ringFn r) r (s.fget F.cplTail_TAIL r % s.cplSize r) (CplRec.bytes c ph)] ++ l ∧
          c.step = fieldB e 12 4 ∧ c.type = 7 ∧ c.status = 0 ∧ c.entry = s.fget F.ringHead_HEAD r ∧ ph = decide (s.fget F.cplTail_TAIL r < s.cplSize r)) ∧
        (t.ring r).steps = (s.ring r).steps ∧ t.mem = s.mem) ∧
    (entryHead s r given e 7 → entRsvd e 16 = false → (s.ring r).replay = none → (s.ring r).held = [] → s.cplUsed r < s.cplSize r →
      s.cplBlocked r ≠ 0 → completes (.mark r given) s fun t =>
        (t.ring r).lost = some (s.cplBlocked r) ∧ (t.ring r).held.length = 1 ∧ t.out = s.out ∧ t.mem = s.mem) ∧
    (s.ringOpen r = true → s.entryTurn r = true → s.entryAt r given = some e → checkOk e 64 = true → (entType e = 0 ∨ 7 < entType e) → (s.ring r).discard = [] →
      (∀ o, (s.ring r).cur = some o → o.st = .run) → completes (.unlistedEntryType r given) s fun t => ringHalted t r 0x0B01) ∧
    (∀ o rest, (s.ring r).steps = o :: rest → s.canCommit r o = true → s.isFailsafe = false → o.live = [] → (∀ j ∈ s.rsh, j.st ≠ .holding) → completes (.stepCommit r) s fun t =>
      (t.ring r).steps = rest.filter (fun x => x.step ≠ o.step) ∧
      (o.chaff = true → t.fget F.chaffSteps_COUNT (r.val / 4) = (s.fget F.chaffSteps_COUNT (r.val / 4) + 1) % 2 ^ 64) ∧
      (o.chaff = false → t.fget F.chaffSteps_COUNT (r.val / 4) = s.fget F.chaffSteps_COUNT (r.val / 4))) ∧
    (s.ringOpen r = true → s.ringOff r = none → (s.ring r).fetched = none → completes (.ringReadFail r) s fun t => ringHalted t r 0x0B08) ∧
    (∀ c l code, (s.ring r).held = c :: l → (s.ring r).lost = some code → code < 65536 → completes (.cplWriteFail r) s fun t =>
        ringHalted t r code ∧ (t.ring r).held = [] ∧ (t.ring r).lost = none ∧ (t.ring r).steps = [] ∧
        t.fget F.ringState_ERR_STEP r = c.2.step % 2 ^ 32) ∧
    (∀ x rest o, s.errQ = x :: rest → x.ring = r.val → (s.ring r).openStep x.step = some o → o.st = .run → x.status < 65536 →
      completes .cmdErrorReport s fun t =>
        ringHalted t r x.status ∧ (∀ y ∈ (t.ring r).steps, y.step ≠ x.step) ∧ t.fget F.ringState_ERR_STEP r = x.step % 2 ^ 32) ∧
    (∀ x rest o, s.errQ = x :: rest → x.ring = r.val → (s.ring r).openStep x.step = some o → o.st ≠ .run → completes .cmdErrorReport s fun t =>
      t = { s with errQ := rest })

/-- Descriptor registers, the huller limit of a plot, vault bands. DESC_TABLE and DESC_DET are written while the partition's rings are disabled and idle, and name an area within its scratchpad (else DESC_TABLE in the status); the write of DESC_TABLE invalidates every entry. CREATE installs exactly the staged 128 bytes when they pass Table 6-9, and INVALIDATE takes the entry out, no other entry changing. HUL_PLOT_LIMIT holds at most 3,539, the plot cap 6,912 to 55,296. An estimate raises the band of each vault with a reading to that of its temperature and lowers none. -/
def Obligations.DescriptorsAndPlotLimit : Prop :=
  ∀ (s : State) (p : PartId) (plot : PlotId) (val : W64) (v : W32) (index : BitVec 16),
    let off := bitsOf val.toNat 12 18
    (s.ringsBusy p = true → (completes (.descTableWrite p val) s fun t => t = s) ∧ completes (.descDetWrite p val) s fun t => t = s) ∧
    (s.ringsBusy p = false → s.spHas p (off * 4096) (bitsOf val.toNat 32 16 * 128) = true → completes (.descTableWrite p val) s fun t =>
      t.fget F.descTable_OFFSET p = off ∧ t.fget F.descTable_COUNT p = bitsOf val.toNat 32 16 ∧ (∀ i, t.descValid p i = false) ∧
      (∀ q i, q ≠ p.val → i < 65536 → t.descs.contains (q * 65536 + i) = s.descs.contains (q * 65536 + i)) ∧ t.mem = s.mem) ∧
    (s.ringsBusy p = false → s.spHas p (off * 4096) (bitsOf val.toNat 32 16 * 128) = false → completes (.descTableWrite p val) s fun t =>
      t.fget F.descStatus_CODE p = 0x080D ∧ regsOnly s t [(F.descStatus_CODE, p)]) ∧
    (s.ringsBusy p = false → s.spHas p (off * 4096) (bitsOf val.toNat 32 18 * 4096) = true → completes (.descDetWrite p val) s fun t =>
      t.fget F.descDet_OFFSET p = off ∧ t.fget F.descDet_SIZE p = bitsOf val.toNat 32 18 ∧ t.descLost = setDel s.descLost (32 + p.val) ∧
      regsOnly { s with descLost := t.descLost } t [(F.descDet_OFFSET, p), (F.descDet_SIZE, p)]) ∧
    (s.flag F.descStatus_BUSY p = true → (completes (.descCreate p index) s fun t => t = s.fset F.descStatus_LOST p 1) ∧
      completes (.descInvalidate p index) s fun t => t = s.fset F.descStatus_LOST p 1) ∧
    (s.flag F.descStatus_BUSY p = false →
     let i := index.toNat
     let b := s.stageBytes p 0x80 128
     (∀ a, s.descIndexCheck p i = 0 → s.descCheck p b = 0 → s.spAddr p (s.fget F.descTable_OFFSET p * 4096 + i * 128) = some a → s.goneAt a = false →
       completes (.descCreate p index) s fun t =>
         t.descJobs = s.descJobs ++ [{ part := p, code := 0 }] ∧ t.flag F.descStatus_BUSY p = true ∧ t.descValid p i = true ∧ t.descBytes p i = b ∧
         (∀ x, x < a ∨ a + 128 ≤ x → memGet t.mem x = memGet s.mem x) ∧
         ∀ j, j < 65536 → j ≠ i → t.descValid p j = s.descValid p j) ∧
     (s.descIndexCheck p i ≠ 0 → completes (.descCreate p index) s fun t =>
       t = ({ s with descJobs := s.descJobs ++ [{ part := p, code := s.descIndexCheck p i }] } : State).fset F.descStatus_BUSY p 1) ∧
     (s.descIndexCheck p i = 0 → s.descCheck p b ≠ 0 → completes (.descCreate p index) s fun t =>
       t = ({ s with descJobs := s.descJobs ++ [{ part := p, code := s.descCheck p b }] } : State).fset F.descStatus_BUSY p 1) ∧
     (s.descIndexCheck p i ≠ 0 → completes (.descInvalidate p index) s fun t =>
       t = ({ s with descJobs := s.descJobs ++ [{ part := p, code := s.descIndexCheck p i }] } : State).fset F.descStatus_BUSY p 1) ∧
     (s.descIndexCheck p i = 0 → completes (.descInvalidate p index) s fun t =>
       t.descJobs = s.descJobs ++ [{ part := p, code := 0 }] ∧ t.flag F.descStatus_BUSY p = true ∧ t.descValid p i = false ∧ (∀ j, j < 65536 → j ≠ i → t.descValid p j = s.descValid p j) ∧ t.mem = s.mem)) ∧
    (completes (.hulPlotLimitWrite plot v) s fun t =>
      t.fget F.hulPlotLimit_LIMIT plot = min 3539 (v.toNat % 65536) ∧ 6912 ≤ t.fget F.hulPlotStat_CAP plot ∧ t.fget F.hulPlotStat_CAP plot ≤ 55296 ∧
      regsOnly s t [(F.hulPlotLimit_LIMIT, plot), (F.hulPlotStat_BUDGET, plot), (F.hulPlotStat_CAP, plot)]) ∧
    (completes .bandEstimate s fun t =>
      (∀ n, s.flag F.coreTemp_VALID n = true → alFind s.regs (F.coreTemp_VALID.key n) ≠ none → s.power.broken.contains n = false →
        t.fget F.vaultBand_BAND n = max (s.fget F.vaultBand_BAND n) (bandOf (s.layer0 n))) ∧
      (∀ n, s.power.broken.contains n = true → t.fget F.vaultBand_BAND n = s.fget F.vaultBand_BAND n) ∧ t.mem = s.mem ∧ t.cores = s.cores)

/-- Bin modes, the seedstore, collective windows. A transition of Table 8-4 whose condition holds begins: MODE and OWNER change, BUSY is set, a bin taken as or from scratchpad is zero and no other byte changes, a cache bin starts a flush; another write sets ERR. Transitions and flushes end; a seedstore write stores exactly its bytes and a read answers them; an address beyond the populated seedstore is unmapped; a window within the scratchpad is written, another refused with ERR. -/
def Obligations.BinsAndSeedstore : Prop :=
  ∀ (s : State) (k : BinId) (o : PartId) (j : Fin 16) (val : W64),
    let m := s.fget F.grnBinCfg_MODE k
    let idle := s.flag F.grnBinCfg_BUSY k = false
    (m = 0 → idle → (s.partOf o).isSome = true → s.ret.gone.contains (884736 + k.val) = false → completes (.binFreeToScratch k o) s fun t =>
      t.fget F.grnBinCfg_MODE k = 2 ∧ t.fget F.grnBinCfg_OWNER k = o.val ∧ t.fget F.grnBinCfg_SLOT k = s.binsOf o % 64 ∧ t.flag F.grnBinCfg_BUSY k = true ∧
      (∀ i, i < 0x1000000 → t.rd8 (binBase k + i) = 0) ∧
      ∀ a, a < binBase k ∨ binBase k + 0x1000000 ≤ a → memGet t.mem a = memGet s.mem a) ∧
    (m = 2 → idle → s.fget F.grnBinCfg_SLOT k + 1 = s.binsOf (s.fget F.grnBinCfg_OWNER k) → s.ringsOff (s.fget F.grnBinCfg_OWNER k) = true →
      completes (.binScratchToFree k) s fun t =>
        t.fget F.grnBinCfg_MODE k = 0 ∧ t.flag F.grnBinCfg_BUSY k = true ∧ (∀ i, i < 0x1000000 → memGet t.mem (binBase k + i) = 0) ∧
        ∀ a, a < binBase k ∨ binBase k + 0x1000000 ≤ a → memGet t.mem a = memGet s.mem a) ∧
    (m = 0 → idle → s.flag F.grnCacheStat_FLUSH 0 = false → completes (.binFreeToCache k) s fun t =>
      t.fget F.grnBinCfg_MODE k = 1 ∧ t.flag F.grnBinCfg_BUSY k = true ∧ t.flag F.grnCacheStat_FLUSH 0 = true ∧ t.mem = s.mem) ∧
    (m = 1 → idle → s.flag F.grnCacheStat_FLUSH 0 = false → completes (.binCacheToFree k) s fun t =>
      t.fget F.grnBinCfg_MODE k = 0 ∧ t.flag F.grnBinCfg_BUSY k = true ∧ t.flag F.grnCacheStat_FLUSH 0 = true ∧ t.mem = s.mem) ∧
    (s.flag F.grnBinCfg_BUSY k = true → m = 0 → completes (.binFreeToScratch k o) s fun t =>
      t.flag F.grnBinCfg_ERR k = true ∧ regsOnly s t [(F.grnBinCfg_ERR, k)]) ∧
    (s.flag F.grnBinCfg_BUSY k = true → s.binFlushes k = false → completes (.binTransitionDone k) s fun t =>
      t.flag F.grnBinCfg_BUSY k = false ∧ t.fget F.grnBinCfg_MODE k = m ∧ t.mem = s.mem) ∧
    (s.flag F.grnCacheStat_FLUSH 0 = true → completes .cacheFlushDone s fun t =>
      t.flag F.grnCacheStat_FLUSH 0 = false ∧ t.lines = [] ∧ t.mem = s.mem ∧
      t.fget F.grnCacheStat_BINS 0 = ((List.range 64).filter fun k => s.fget F.grnBinCfg_MODE k = 1).length) ∧
    (∀ (src : Src) (addr run : Nat) (bs : List Byte), bs ≠ [] → 0x8000000000 ≤ addr → addr + bs.length ≤ 0x8000000000 + s.partNo.capacity →
      s.ssChaff ≤ 65536 → s.goneAt addr = false →
      (completes (.seedstoreAccess src addr bs.length (some bs) run .clean 0) s fun t =>
        s.partNo = t.partNo ∧ (∀ i, i < bs.length → memGet t.mem (addr + i) = bs.getD i 0) ∧
        (∀ a, a < addr ∨ addr + bs.length ≤ a → memGet t.mem a = memGet s.mem a) ∧ ∃ l, t.out = s.out ++ l ++ [.answer src 0 []]) ∧
      (completes (.seedstoreAccess src addr bs.length none run .clean 0) s fun t =>
        t.mem = s.mem ∧ ∃ l x, t.out = s.out ++ l ++ [.answer src x (s.rdN addr bs.length)])) ∧
    (∀ (src : Src) (addr len run : Nat), s.partNo.capacity + 0x8000000000 ≤ addr → addr < 0xF000000000 →
      completes (.seedstoreAccess src addr len none run .clean 0) s fun t => t = s.emit (.answer src 2 [])) ∧
    (let i := o.val * 16 + j.val
     let offB := bitsOf val.toNat 12 18
     let sizeB := bitsOf val.toNat 30 18
     (s.spHas o (offB * 4096) (sizeB * 4096) = true → completes (.cwinWrite o j val) s fun t =>
       t.fget F.cwin_OFFSET i = offB ∧ t.fget F.cwin_SIZE i = sizeB ∧ t.fget F.cwin_VALID i = bitsOf val.toNat 63 1 ∧
       regsOnly s t [(F.cwin_OFFSET, i), (F.cwin_SIZE, i), (F.cwin_VALID, i), (F.cwin_ERR, i)]) ∧
     (s.spHas o (offB * 4096) (sizeB * 4096) = false → completes (.cwinWrite o j val) s fun t =>
       t.flag F.cwin_ERR i = true ∧ regsOnly s t [(F.cwin_ERR, i)]))

/-- Streams and models are opened, closed and read. With the context table on and its structures intact, OPEN makes a FREE context a LIVE one of the partition with the staged fields and counts it, CLOSE frees an owned context that nothing holds, READ copies one to STRM_READ; INSTALL makes an EMPTY descriptor RESIDENT with the staged fields, EVICT empties one not in use, QUERY answers its state and streams; a command that fails answers its RESULT and changes nothing else. -/
def Obligations.StreamsAndModels : Prop :=
  ∀ (s : State) (p : PartId) (id : BitVec 21) (index : BitVec 12),
    let k := id.toNat
    let i := index.toNat
    let c := s.ctx k
    let b := s.stageBytes p 0x180 64
    let m := s.stageBytes p 0x200 256
    s.isFailsafe = false →
    (s.strmOn = false → (completes (.strmOpen p id) s fun t => t.fget F.strmStatus_RESULT p = 5 ∧ regsOnly s t [(F.strmStatus_RESULT, p)]) ∧
      (completes (.strmClose p id) s fun t => t.fget F.strmStatus_RESULT p = 5 ∧ regsOnly s t [(F.strmStatus_RESULT, p)]) ∧
      completes (.strmRead p id) s fun t => t.fget F.strmStatus_RESULT p = 5 ∧ alGet [] t.strmRead p = List.replicate 64 0 ∧ t.mem = s.mem) ∧
    (s.strmOn = true → s.ctxIntact k = true → s.goneAt (ctxAddr k) = false →
      (c.state = 0 → stageOk b = true → s.mdlIntact (fieldB b 2 2) = true → s.mdlResident p (fieldB b 2 2) = true →
        s.fget F.strmUse_OWNED p < s.fget F.strmUse_QUOTA p → completes (.strmOpen p id) s fun t =>
          t.fget F.strmStatus_RESULT p = 0 ∧ t.fget F.strmUse_OWNED p = (s.fget F.strmUse_OWNED p + 1) % 2 ^ 22 ∧ (t.ctx k).state = 1 ∧ (t.ctx k).part = p ∧
          (t.ctx k).model = fieldB b 2 2 ∧ (t.ctx k).kvSlot = fieldB b 4 4 ∧ (t.ctx k).limit = fieldB b 12 4 ∧ (t.ctx k).position = 0 ∧
          (t.ctx k).tag = fieldB b 24 8) ∧
      (c.state ≠ 0 → completes (.strmOpen p id) s fun t =>
        t.fget F.strmStatus_RESULT p = 1 ∧ regsOnly s t [(F.strmStatus_RESULT, p)]) ∧
      (c.state = 0 → stageOk b = false → completes (.strmOpen p id) s fun t =>
        t.fget F.strmStatus_RESULT p = 7 ∧ regsOnly s t [(F.strmStatus_RESULT, p)]) ∧
      (c.ownedBy p = true → c.holdBy = false → c.holdJob = false → s.mdlIntact c.model = true → completes (.strmClose p id) s fun t =>
        t.fget F.strmStatus_RESULT p = 0 ∧ t.ctx k = Ctx.free ∧ t.fget F.strmUse_OWNED p = (s.fget F.strmUse_OWNED p - 1) % 2 ^ 22) ∧
      (c.ownedBy p = true → (c.holdBy = true ∨ c.holdJob = true) → completes (.strmClose p id) s fun t =>
        t.fget F.strmStatus_RESULT p = 3 ∧ regsOnly s t [(F.strmStatus_RESULT, p)]) ∧
      (c.ownedBy p = true → completes (.strmRead p id) s fun t =>
        t.fget F.strmStatus_RESULT p = 0 ∧ alGet [] t.strmRead p = s.ctxBytes k ∧ t.mem = s.mem) ∧
      (c.ownedBy p = false → completes (.strmRead p id) s fun t =>
        t.fget F.strmStatus_RESULT p = 2 ∧ alGet [] t.strmRead p = List.replicate 64 0 ∧ t.mem = s.mem)) ∧
    (s.mdlIntact i = true → s.goneAt (mdlAddr i) = false →
      ((s.mdl i).state = 0 → s.mdlStageOk p m = true → completes (.mdlInstall p index) s fun t =>
        t.fget F.mdlStatus_RESULT p = 0 ∧ t.mdlResident p i = true ∧ t.mdlIntact i = true ∧ (t.mdl i).roleBase = fieldB m 4 2 ∧
        (t.mdl i).roleCount = fieldB m 6 2 ∧ (t.mdl i).tag = fieldB m 32 8 ∧
        ∀ a, a < mdlAddr i ∨ mdlAddr i + 256 ≤ a → memGet t.mem a = memGet s.mem a) ∧
      ((s.mdl i).state ≠ 0 → completes (.mdlInstall p index) s fun t => t.fget F.mdlStatus_RESULT p = 1 ∧ regsOnly s t [(F.mdlStatus_RESULT, p)]) ∧
      (s.mdlResident p i = true → s.mdlInUse p i = false → completes (.mdlEvict p index) s fun t =>
        t.fget F.mdlStatus_RESULT p = 0 ∧ (t.mdl i).state = 0 ∧ t.mdlIntact i = true ∧
        ∀ a, a < mdlAddr i ∨ mdlAddr i + 256 ≤ a → memGet t.mem a = memGet s.mem a) ∧
      (s.mdlResident p i = true → s.mdlInUse p i = true → completes (.mdlEvict p index) s fun t =>
        t.fget F.mdlStatus_RESULT p = 3 ∧ regsOnly s t [(F.mdlStatus_RESULT, p)]) ∧
      ((s.mdl i).state = 0 ∨ (s.mdl i).part = p.val → completes (.mdlQuery p index) s fun t =>
        t.fget F.mdlStatus_RESULT p = 0 ∧ t.fget F.mdlUse_STATE p = (s.mdl i).state ∧ t.fget F.mdlUse_STREAMS p = (s.mdl i).streams % 2 ^ 22 ∧
        regsOnly s t [(F.mdlStatus_RESULT, p), (F.mdlUse_STATE, p), (F.mdlUse_STREAMS, p)]))

/-- The course of a re-shard job. START is ignored with ERR while a job runs, answers the code of the first check that fails, or queues the job (it waits while four have their places); the first job that waits gets a free place; once every copy is performed the peers are signalled and the job waits; it ends when its semaphore has reached SEM_BASE + PEERS, with code 0x32 when its time has run out, with 0x33 when aborted, its writes performed. -/
def Obligations.Resharding : Prop :=
  ∀ (s : State) (p : PartId) (j : RshJob), s.isFailsafe = false →
    (s.rshBlocked = false → s.flag F.rshStatus_RUNNING p = true → completes (.rshStart p) s fun t =>
      t.flag F.rshStatus_ERR p = true ∧ regsOnly s t [(F.rshStatus_ERR, p)]) ∧
    (∀ n, s.rshBlocked = false → s.flag F.rshStatus_RUNNING p = false → (s.fset F.rshStatus_DONE p 0).rshCheck p = .code n → (n = 0x20 ∨ rshIntact s p) →
      completes (.rshStart p) s fun t =>
        t.fget F.rshStatus_CODE p = n % 256 ∧ t.flag F.rshStatus_RUNNING p = false ∧ regsOnly s t [(F.rshStatus_CODE, p), (F.rshStatus_DONE, p)]) ∧
    (s.rshBlocked = false → s.flag F.rshStatus_RUNNING p = false → (s.fset F.rshStatus_DONE p 0).rshCheck p = .ok j → rshIntact s p →
      ((4 ≤ s.rshPlaced ∨ ∃ x ∈ s.rsh, x.st = .queued) → completes (.rshStart p) s fun t =>
        t.rsh = s.rsh ++ [j] ∧ t.flag F.rshStatus_RUNNING p = true ∧ t.fget F.rshStatus_CODE p = 0x0F ∧ t.fget F.rshStatus_DONE p = 0 ∧ t.mem = s.mem) ∧
      (s.rshPlaced < 4 → (∀ x ∈ s.rsh, x.st ≠ .queued) → completes (.rshStart p) s fun t =>
        (∀ x ∈ t.rsh, x.st ≠ .queued) ∧ t.rsh.length = s.rsh.length + 1 ∧ t.flag F.rshStatus_RUNNING p = true ∧
        (t.fget F.rshStatus_CODE p = 0x10 ∨ t.fget F.rshStatus_CODE p = 0x11))) ∧
    (s.rsh.find? (fun j => j.st = .queued) = some j → s.rshPlaced < 4 → s.rshBlocked = false → completes .rshJobPlace s fun t =>
      (∀ x ∈ t.rsh, x.part = j.part → x.st ≠ .queued) ∧ t.rsh.length = s.rsh.length ∧
      (t.fget F.rshStatus_CODE j.part = 0x10 ∨ t.fget F.rshStatus_CODE j.part = 0x11)) ∧
    (s.rshOf p = some j → s.rshOpen j = false → completes (.rshAbort p) s fun t =>
      t.rsh = s.rsh.filter (fun x => x.part ≠ p.val) ∧ t.fget F.rshStatus_CODE p = 0x33 ∧ t.flag F.rshStatus_RUNNING p = false) ∧
    (s.rshOf p = some j → s.rshOpen j = true → completes (.rshAbort p) s fun t => t = s.onRsh p fun x => { x with abort := 0x33 }) ∧
    (s.rshOf p = some j → j.st = .moving → j.abort = 0 → (∀ id ∈ j.moves, ∀ m ∈ s.moves, m.id = id → m.msgs = 0 ∧ m.waits = 0 ∧ m.err = 0) →
      ∀ mm, completes (.rshMoveDone p mm) s fun t =>
        (∀ x ∈ t.rsh, x.part = p.val → x.st = .waiting ∧ x.since = s.time.elapsed) ∧ t.fget F.rshStatus_CODE p = 0x12 ∧
        t.fget F.rshStatus_DONE p = (s.fget F.rshStatus_DONE p + (j.moves.filter fun id => s.moves.any fun m => m.id = id).length) % 2 ^ 13 ∧
        (2 ≤ mm → s.selfId ∈ j.peers → ∃ f ∈ t.faultQ, f.cause = 9 ∧ f.part = p.val)) ∧
    (s.rshOf p = some j → j.st = .moving → j.abort = 0 → (∃ id ∈ j.moves, ∃ m ∈ s.moves, m.id = id ∧ m.err ≠ 0) →
      (∀ id ∈ j.moves, ∀ m ∈ s.moves, m.id = id → m.msgs = 0 ∧ m.waits = 0) → ∀ mm, completes (.rshMoveDone p mm) s fun t =>
        t.fget F.rshStatus_CODE p = 0x30 ∧ t.flag F.rshStatus_RUNNING p = false ∧ t.rsh.length ≤ s.rsh.length ∧ ∀ x ∈ t.rsh, x.part ≠ p.val) ∧
    (s.rshOf p = some j → j.st = .waiting → j.abort = 0 → s.semValue j.sem ≠ poison → j.semBase + j.peers.length ≤ s.semValue j.sem →
      completes (.rshWaitDone p) s fun t =>
        t.isFailsafe = true ∨ (t.rsh = s.rsh.filter (fun x => x.part ≠ j.part) ∧ t.fget F.rshStatus_CODE p = 1 ∧ t.flag F.rshStatus_RUNNING p = false)) ∧
    (s.rshOf p = some j → j.st = .waiting → s.semValue j.sem < j.semBase + j.peers.length → j.since + j.timeout * 1000 ≤ s.time.elapsed →
      completes (.rshTimeout p) s fun t =>
        t.rsh = s.rsh.filter (fun x => x.part ≠ p.val) ∧ t.fget F.rshStatus_CODE p = 0x32 ∧ t.flag F.rshStatus_RUNNING p = false)

/-- An Oncon port goes through its states. ENABLE trains a port that is DOWN with a fresh link, RETRAIN any port but one in FI_TX with its cause present; while a cause of FAULT_IDLE is present they make it send FAULT_IDLE with that reason instead. FORCE_FI makes a port send FAULT_IDLE with reason FIRMWARE, or is taken back. A port that leaves UP sets BROKE and gives its waiting packets back to the front of the router. In training a partner's signal measures the lanes, a bad one replaced by the spare; in FI_TX it clears LOST; training ends in HELLO with each substitution that is not in the spare map recorded, or in DOWN with TRAIN_FAIL; HELLO records the neighbour and the port is UP. -/
def Obligations.PortStates : Prop :=
  ∀ (s : State) (p : PortId) (flit : List Byte),
    let cause := s.fiCause p
    let left := F.portStat_STATE
    let fresh (t : State) : Prop := (t.port p).retry = [] ∧ (t.port p).txSeq = 0 ∧ (t.port p).rxSeq = 0 ∧ (t.port p).measured = false ∧ (t.port p).fec = (s.port p).fec
    let idles (t : State) (reason : Nat) : Prop :=
      t.portState p = 5 ∧ t.fget F.portStat_FI_REASON p = reason % 2 ^ F.portStat_FI_REASON.width ∧ t.out = s.out ++ [.packet p true (t.controlFlit p)]
    let waits := (s.port p).out.filter fun h => !(h.pkt.type = 8 && h.pkt.op = 3)
    (s.portState p ≠ 0 → completes (.portEnable p) s fun t => t = s.fset F.portCtl_ENABLE p 1) ∧
    (s.portState p = 0 → cause = 0 → completes (.portEnable p) s fun t =>
      t.flag F.portCtl_ENABLE p = true ∧ t.portState p = 1 ∧ fresh t ∧ linkOnly s t [(F.portCtl_ENABLE, p), (left, p)]) ∧
    (s.portState p = 0 → cause ≠ 0 → completes (.portEnable p) s fun t =>
      t.flag F.portCtl_ENABLE p = true ∧ idles t cause ∧ linkOnly s t [(F.portCtl_ENABLE, p), (left, p), (F.portStat_FI_REASON, p)]) ∧
    (cause = 0 → completes (.portRetrain p) s fun t =>
      t.portState p = 1 ∧ fresh t ∧ t.flag F.portStat_BROKE p = (s.portUp p || s.flag F.portStat_BROKE p) ∧
      t.link.queue = (if s.portUp p then waits else []) ++ s.link.queue ∧
      linkOnly s t [(left, p), (F.portStat_BROKE, p), (F.hopDrop_COUNT, 0)]) ∧
    (cause ≠ 0 → s.portState p ≠ 5 → completes (.portRetrain p) s fun t =>
      idles t cause ∧ t.flag F.portStat_BROKE p = (s.portUp p || s.flag F.portStat_BROKE p) ∧
      linkOnly s t [(left, p), (F.portStat_BROKE, p), (F.portStat_FI_REASON, p), (F.hopDrop_COUNT, 0)]) ∧
    (cause ≠ 0 → s.portState p = 5 → completes (.portRetrain p) s fun t => t = s) ∧
    (s.portState p ≠ 5 → completes (.portForceFi p true) s fun t =>
      idles t 4 ∧ t.flag F.portCtl_FORCE_FI p = true ∧ t.link.queue = (if s.portUp p then waits else []) ++ s.link.queue ∧
      linkOnly s t [(left, p), (F.portStat_BROKE, p), (F.portStat_FI_REASON, p), (F.portCtl_FORCE_FI, p), (F.hopDrop_COUNT, 0)]) ∧
    (s.portState p = 5 → completes (.portForceFi p true) s fun t => t = s.fset F.portCtl_FORCE_FI p 1) ∧
    (completes (.portForceFi p false) s fun t => t = s.fset F.portCtl_FORCE_FI p 0) ∧
    (∀ rx tx a b, s.portState p = 1 → badLane rx a → badLane tx b → completes (.partnerSignalDetect p rx tx) s fun t =>
      t.fget F.portStat_RX_SUB p = a ∧ t.fget F.portStat_TX_SUB p = b ∧ (t.port p).signal = true ∧ (t.port p).measured = true ∧ (t.port p).twoBad = false ∧
      linkOnly s t [(F.portStat_RX_SUB, p), (F.portStat_TX_SUB, p)]) ∧
    (∀ rx tx, s.portState p = 5 → (s.port p).cause = 7 → completes (.partnerSignalDetect p rx tx) s fun t =>
      (t.port p).cause = 0 ∧ (t.port p).signal = true ∧ linkOnly s t []) ∧
    (s.portState p = 1 → (s.port p).signal = true → (s.port p).measured = true →
      ((s.port p).twoBad = true → completes (.trainingDone p) s fun t =>
        t.portState p = 0 ∧ t.flag F.portStat_TRAIN_FAIL p = true ∧ regsOnly s t [(left, p), (F.portStat_TRAIN_FAIL, p)]) ∧
      ((s.port p).twoBad = false →
        let r := s.fget F.portStat_RX_SUB p
        let x := s.fget F.portStat_TX_SUB p
        completes (.trainingDone p) s fun t =>
          t.portState p = 2 ∧ t.out = s.out ++ [.packet p true (t.controlFlit p)] ∧ keepsData s t ∧
          t.alm.queue.length = s.alm.queue.length + (if r = 0xF ∨ s.oncMapped p (16 + r) = true then 0 else 1) +
            (if x = 0xF ∨ s.oncMapped p x = true then 0 else 1))) ∧
    (s.portState p = 1 → ((s.port p).signal = false ∨ (s.port p).measured = false) → completes (.trainingDone p) s fun t => t = s) ∧
    (s.portState p = 2 → ctlOk flit 2 = true → completes (.hello p flit) s fun t =>
      t.portState p = 3 ∧ t.flag F.portNbr_VALID p = true ∧ t.fget F.portNbr_MODULE p = bitsOf (fieldB flit 22 6) 0 16 ∧
      t.fget F.portNbr_PORT p = bitsOf (fieldB flit 22 6) 16 4 ∧ t.fget F.portNbr_TOPO_ID p = bitsOf (fieldB flit 22 6) 20 28 ∧
      linkOnly s t [(left, p), (F.portNbr_VALID, p), (F.portNbr_MODULE, p), (F.portNbr_PORT, p), (F.portNbr_TOPO_ID, p)])

/-- Acknowledgement, replay and errors of a port that is UP. An IDLE flit frees the acknowledged packets of the retry buffer and the port, with nothing to send, sends a control flit; with NAK every packet after the acknowledged ones is sent again and counted, once while that NAK stands; so does the passing of 4 microseconds without acknowledgement, and a ninth resend degrades the port; FAULT_IDLE and a loss of lock break the link; an uncorrectable codeword is counted, its packet asked for again, and more than 16 in 10 s set MARGINAL. -/
def Obligations.LinkErrorsAndRetries : Prop :=
  ∀ (s : State) (p : PortId) (flit : List Byte), s.portUp p = true →
    (∀ i fixed, ctlOk flit 1 = true → bitAt (fieldB flit 2 2) 15 = false → (s.port p).out = [] →
      (s.port p).retry.findIdx? (fun t => t.seq = bitsOf (fieldB flit 2 2) 0 12) = some i → completes (.idle p flit fixed) s fun t =>
        (t.port p).retry = (s.port p).retry.drop (i + 1) ∧ (t.port p).naked = none ∧ t.portUp p = true ∧
        t.out = s.out ++ [.packet p true (t.controlFlit p)] ∧ t.fget F.fecCorr_COUNT p = (s.fget F.fecCorr_COUNT p + fixed) % 2 ^ 64 ∧
        linkOnly s t [(F.fecCorr_COUNT, p)]) ∧
    (∀ fixed, ctlOk flit 1 = true → bitAt (fieldB flit 2 2) 15 = true → (s.port p).out = [] → (s.port p).retry ≠ [] →
      (∀ t ∈ (s.port p).retry, t.seq ≠ bitsOf (fieldB flit 2 2) 0 12 ∧ t.resends < 8) →
      ((s.port p).naked ≠ some (bitsOf (fieldB flit 2 2) 0 12) → completes (.idle p flit fixed) s fun t =>
        (∃ l, t.out = s.out ++ l ∧ packetsOf l = (s.port p).retry.map (fun k => .packet p false (k.pkt.wire k.seq k.shared))) ∧
        t.fget F.retry_COUNT p = (s.fget F.retry_COUNT p + (s.port p).retry.length) % 2 ^ 64 ∧
        (t.port p).retry.map TxPkt.resends = (s.port p).retry.map (fun k => k.resends + 1) ∧
        (t.port p).naked = some (bitsOf (fieldB flit 2 2) 0 12) ∧ linkOnly s t [(F.retry_COUNT, p), (F.fecCorr_COUNT, p)]) ∧
      ((s.port p).naked = some (bitsOf (fieldB flit 2 2) 0 12) → completes (.idle p flit fixed) s fun t =>
        (∃ l, t.out = s.out ++ l ∧ packetsOf l = []) ∧ (t.port p).retry = (s.port p).retry ∧ linkOnly s t [(F.fecCorr_COUNT, p)])) ∧
    (ctlOk flit 5 = true → 1 ≤ fieldB flit 1 1 → fieldB flit 1 1 < 16 → completes (.faultIdle p flit) s fun t =>
      t.portState p = 6 ∧ t.flag F.portStat_BROKE p = true ∧ t.fget F.portStat_FI_REASON p = fieldB flit 1 1 ∧ (t.port p).retry = [] ∧
      t.link.epoch = s.link.epoch + 1 ∧ t.mem = s.mem ∧ t.cores = s.cores) ∧
    (completes (.lossOfLock p) s fun t =>
      t.portState p = 5 ∧ t.flag F.portStat_BROKE p = true ∧ t.fget F.portStat_FI_REASON p = 7 ∧ (t.port p).cause = 7 ∧ (t.port p).signal = false ∧
      (t.port p).retry = [] ∧ t.link.epoch = s.link.epoch + 1 ∧ t.mem = s.mem ∧ t.cores = s.cores) ∧
    (∀ i, (s.port p).retry.findIdx? (fun t => decide (t.last + 4000 ≤ s.time.elapsed)) = some i →
      ((∀ k ∈ (s.port p).retry.drop i, k.resends < 8) → completes (.retryTimeout p) s fun t =>
        (∃ l, t.out = s.out ++ l ∧ packetsOf l = ((s.port p).retry.drop i).map (fun k => .packet p false (k.pkt.wire k.seq k.shared))) ∧
        (t.port p).retry.length = (s.port p).retry.length ∧ (t.port p).retry.take i = (s.port p).retry.take i ∧
        t.portUp p = true ∧ linkOnly s t [(F.retry_COUNT, p)]) ∧
      ((∃ k ∈ (s.port p).retry.drop i, 8 ≤ k.resends) → completes (.retryTimeout p) s fun t =>
        t.portState p = 4 ∧ t.fget F.portStat_FI_REASON p = 3 ∧ (t.port p).retry = [] ∧ t.flag F.portStat_BROKE p = true)) ∧
    (completes (.fecUncorrectable p) s fun t =>
      t.fget F.fecUncorr_COUNT p = (s.fget F.fecUncorr_COUNT p + 1) % 2 ^ 64 ∧ (t.port p).nak = true ∧ t.portUp p = true ∧ keepsData s t ∧
      (16 ≤ ((s.port p).fec.filter fun x => decide (s.time.elapsed < x + 10000000000)).length → t.flag F.portStat_MARGINAL p = true))

/-- Flits of the Headland and the mesh. A Headland flit comes on the lane of its packet; the oldest flit held on the lane comes first, another is held behind it, up to 16. One that fails its check is held, asked for again and counted; after 8 resends its lane has failed and its traffic, the flits held first, moves to the next free spare of its direction. A mesh flit that fails is asked for again; after 8 resends it is delivered as chaff, with a confirmed PATH fault charged to the router that sent it. -/
def Obligations.HeadlandAndMeshFlits : Prop :=
  ∀ (s : State) (plot : PlotId) (inward : Bool) (lane : Nat) (flit : HlFlit) (got : List Byte) (fid : FieldId) (m : MeshFlit),
    let l := laneOf s plot inward lane
    let good : Prop := moduleCheck (sliceB got 0 32) = flit.chk
    let spare := if inward then F.hlStat_SPARE_IN else F.hlStat_SPARE_OUT
    let at_ := fid.val * 65536 + m.from_
    let sent := alGet 0 s.link.mesh at_
    ((s.headland plot).carrier inward flit ≠ hlKey inward lane → completes (.headlandFlitReceive plot inward lane flit got) s fun t => t = s) ∧
    (lane < 68 → laneFailed s plot inward lane = false → (s.headland plot).carrier inward flit = hlKey inward lane →
      (∀ g rest, l.replay = g :: rest → g ≠ flit → (rest.length + 1 < 16 → flit ∉ l.replay → completes (.headlandFlitReceive plot inward lane flit got) s fun t =>
          (laneOf t plot inward lane).replay = l.replay ++ [flit] ∧ t = { s with link := t.link }) ∧
        (16 ≤ rest.length + 1 → completes (.headlandFlitReceive plot inward lane flit got) s fun t => t = s)) ∧
      (l.replay = [] ∨ l.replay.head? = some flit →
        (good → completes (.headlandFlitReceive plot inward lane flit got) s fun t =>
          (laneOf t plot inward lane).resends = 0 ∧ (laneOf t plot inward lane).replay = l.replay.drop 1 ∧ laneFailed t plot inward lane = false ∧
          alGet [] (laneOf t plot inward lane).recv flit.cls = (if flit.last then [] else alGet [] l.recv flit.cls ++ [flit]) ∧ t = { s with link := t.link }) ∧
        (¬ good → l.resends < 8 → completes (.headlandFlitReceive plot inward lane flit got) s fun t =>
          (laneOf t plot inward lane).resends = l.resends + 1 ∧ (laneOf t plot inward lane).replay = flit :: l.replay.drop 1 ∧ laneFailed t plot inward lane = false ∧
          t.fget F.hlStat_RESENDS plot = min 255 (s.fget F.hlStat_RESENDS plot + 1) ∧ linkOnly s t [(F.hlStat_RESENDS, plot)]) ∧
        (¬ good → 8 ≤ l.resends → lane < 64 → ∀ k, k < 4 → s.fget spare plot = 2 ^ k - 1 → laneFailed s plot inward (64 + k) = false →
          completes (.headlandFlitReceive plot inward lane flit got) s fun t =>
            laneFailed t plot inward lane = true ∧ t.fget spare plot = 2 ^ (k + 1) - 1 ∧
            (laneOf t plot inward (64 + k)).replay = l.replay ++ (laneOf s plot inward (64 + k)).replay ∧ (laneOf t plot inward (64 + k)).resends = 0 ∧
            t.flag F.hlStat_UNREPAIRED plot = s.flag F.hlStat_UNREPAIRED plot ∧ t.alm.queue.length = s.alm.queue.length + 1 ∧ keepsData s t))) ∧
    (moduleCheck (sliceB m.bytes 0 32) = m.chk → completes (.meshFlitReceive fid m) s fun t => alGet 0 t.link.mesh at_ = 0 ∧ t = { s with link := t.link }) ∧
    (moduleCheck (sliceB m.bytes 0 32) ≠ m.chk → sent < 8 → completes (.meshFlitReceive fid m) s fun t =>
      alGet 0 t.link.mesh at_ = sent + 1 ∧ t = { s with link := t.link }) ∧
    (moduleCheck (sliceB m.bytes 0 32) ≠ m.chk → 8 ≤ sent →
      let charged (t : State) : Prop := alGet 0 t.link.mesh at_ = 0 ∧
        ∃ f ∈ t.faultQ, f.cause = 7 ∧ f.plot = m.from_ / 288 ∧ f.field = m.from_ % 288 ∧ f.step = m.step ∧ f.ring = m.ring.getD 0xFF
      (m.dest = none → completes (.meshFlitReceive fid m) s fun t =>
        charged t ∧ t.mem = s.mem ∧ t.cores = s.cores ∧ ∀ r o, m.ring = some r → (t.ring r).openStep m.step = some o → o.chaff = true) ∧
      (∀ a, m.dest = some a → (a + 32 ≤ 0x4000000000 ∨ 0x4000000000 ≤ a ∧ a + 32 ≤ 0x8000000000) → s.goneAt a = false → completes (.meshFlitReceive fid m) s fun t =>
        charged t ∧ (∀ i, i < 32 → memGet t.mem (a + i) = m.bytes.getD i 0 ∧ t.isChaff (a + i) = true) ∧
        (∀ x, x < a ∨ a + 32 ≤ x → memGet t.mem x = memGet s.mem x) ∧ t.cores = s.cores))

/-- Packets at a port. A packet in sequence with its CRC right is acknowledged and, not for this module, or behind another of its input, class and module, goes to the router unchanged; a wrong CRC is counted and the packet asked for again, as is one out of sequence; one whose form breaks Table 11-3 or 11-4 is counted in PKT_BAD and dropped. Memory, cores and rings stand. -/
def Obligations.PacketsAtAPort : Prop :=
  ∀ (s : State) (p : PortId) (b : List Byte) (mm : Nat) (c : Instr) (type op : Nat), (c, type, op) ∈ packetRows p b mm →
    let k := Packet.parse b
    (arrives s p b type op → ¬ comesHere s p k → ¬ (type = 8 ∧ op = 3) → completes c s fun t =>
      tookPacket s t p ∧ t.link.queue = s.link.queue ++ [{ inp := p, pkt := k, up := false }] ∧ t.out = s.out ++ [.packet p true (t.controlFlit p)] ∧ linkOnly s t []) ∧
    (s.portUp p = true → wireCrcOk b = false → completes c s fun t =>
      t.fget F.crcErr_COUNT p = (s.fget F.crcErr_COUNT p + 1) % 2 ^ 64 ∧ (t.port p).nak = true ∧ (t.port p).rxSeq = (s.port p).rxSeq ∧
      t.link.queue = s.link.queue ∧ linkOnly s t [(F.crcErr_COUNT, p)]) ∧
    (s.portUp p = true → wireCrcOk b = true → fieldB b 14 2 % 4096 ≠ (s.port p).rxSeq → completes c s fun t =>
      (t.port p).nak = true ∧ (t.port p).rxSeq = (s.port p).rxSeq ∧ t.link.queue = s.link.queue ∧ linkOnly s t []) ∧
    (s.portUp p = true → wireCrcOk b = true → fieldB b 14 2 % 4096 = (s.port p).rxSeq → wireOk b = false → completes c s fun t =>
      tookPacket s t p ∧ t.fget F.pktBad_COUNT p = (s.fget F.pktBad_COUNT p + 1) % 2 ^ 64 ∧ t.link.queue = s.link.queue ∧
      linkOnly s t [(F.pktBad_COUNT, p)])

/-- Packets at their destination. A read answers with the bytes read, a write outside the vaults writes its bytes and into a vault becomes a message, a signal changes its semaphore, a combine hands over its contributions, each answered or refused with its status; a response completes its transaction or counts as late, an ABORT ends it with a LINK_BROKEN fault of its port, or aborts the re-shard job whose signal it was; a sweep request answers with the neighbours of the ports, a sweep response ends the sweep with its result, and a BREAK notice is forwarded once on every other UP port. -/
def Obligations.PacketsAtTheirDestination : Prop :=
  ∀ (s : State) (p : PortId) (b : List Byte),
    let k := Packet.parse b
    (comesHere s p k → arrives s p b 1 0 →
      ((s.remoteCheck k k.bytes false).1 = 0 → completes (.rdReq p b) s fun t =>
        tookPacket s t p ∧ answered s t k 5 0 (s.rdN k.addr k.bytes) ∧ t.mem = s.mem ∧ t.cores = s.cores) ∧
      ((s.remoteCheck k k.bytes false).1 ≠ 0 → completes (.rdReq p b) s fun t =>
        tookPacket s t p ∧ answered s t k 5 (s.remoteCheck k k.bytes false).1 [] ∧ t.mem = s.mem ∧ t.cores = s.cores)) ∧
    (comesHere s p k → arrives s p b 2 0 →
      ((s.remoteCheck k k.bytes true).1 = 0 → 0x3600000000 ≤ k.addr → s.goneAt k.addr = false →
        (k.addr < 0x8000000000 ∨ (k.poison = 0 ∧ (s.chaff.filter fun x => decide (0x8000000000 ≤ x)).length ≤ 65536)) → completes (.wr p b) s fun t =>
          tookPacket s t p ∧ answered s t k 6 0 [] ∧ (∀ i, i < k.bytes → memGet t.mem (k.addr + i) = k.payload.getD i 0) ∧
          (∀ a, a < k.addr ∨ k.addr + k.bytes ≤ a → memGet t.mem a = memGet s.mem a) ∧ t.cores = s.cores) ∧
      ((s.remoteCheck k k.bytes true).1 = 0 → k.addr < 0x3600000000 → completes (.wr p b) s fun t =>
        let n := k.addr / 0x800000
        tookPacket s t p ∧ t.mem = s.mem ∧ t.link.queue = s.link.queue ∧ (∀ m, m ≠ n → t.core m = s.core m) ∧
        ∃ m : Msg, (t.core n).vqGran = (s.core n).vqGran ++ [m] ∧ m.reply = some (k.src, k.srcId, k.txn) ∧
          m.data.map (fun x => (x.1, x.2.1)) = (List.range k.bytes).map fun i => (k.addr % 0x800000 + i, k.payload.getD i 0)) ∧
      ((s.remoteCheck k k.bytes true).1 ≠ 0 → completes (.wr p b) s fun t =>
        tookPacket s t p ∧ answered s t k 6 (s.remoteCheck k k.bytes true).1 [] ∧ t.mem = s.mem ∧ t.cores = s.cores)) ∧
    (comesHere s p k → arrives s p b 3 k.op → (s.remoteCheck k 8 true).1 = 0 → ∀ mm,
      (k.addr % 8 = 0 → s.inScratchBin k.addr = true → s.goneAt k.addr = false → mm < 2 → completes (.signal p b mm) s fun t =>
        tookPacket s t p ∧ answered s t k 6 0 [] ∧
        t.semValue k.addr = (if k.op = 1 then fieldB k.payload 0 8 else (s.semValue k.addr + fieldB k.payload 0 8) % 2 ^ 64) ∧
        (∀ a, a < k.addr ∨ k.addr + 8 ≤ a → memGet t.mem a = memGet s.mem a) ∧ t.cores = s.cores) ∧
      (k.addr % 8 ≠ 0 ∨ s.inScratchBin k.addr = false → completes (.signal p b mm) s fun t => tookPacket s t p ∧ answered s t k 6 0x0901 [] ∧ t.mem = s.mem) ∧
      (k.addr % 8 = 0 → s.inScratchBin k.addr = true → 2 ≤ mm → completes (.signal p b mm) s fun t =>
        tookPacket s t p ∧ answered s t k 7 0 [] ∧ t.mem = s.mem ∧ ∃ f : FaultRec, t.faultQ = s.faultQ ++ [f] ∧ f.cause = 9)) ∧
    (comesHere s p k → arrives s p b 4 k.op → (s.remoteCheck k k.bytes true).1 = 0 → k.etype ∈ [1, 2, 3, 0x12] →
      let w := etBits k.etype / 8
      k.bytes % w = 0 → k.addr % w = 0 → completes (.combine p b) s fun t =>
        tookPacket s t p ∧ t.mem = s.mem ∧ t.cores = s.cores ∧ ∃ l : List Contrib, t.contribs = s.contribs ++ l ∧
          l.map (fun x => (x.addr, x.bits, x.op, x.etype)) =
            (List.range (k.bytes / w)).map (fun i => (s.glob (k.addr + i * w), fieldB k.payload (i * w) w, k.op, k.etype)) ∧
          ∀ x ∈ l, x.src = .remote k.src k.srcId) ∧
    (comesHere s p k →
      let found (x : Txn) : Prop := s.link.txns.find? (fun x => x.txn = k.txn) = some x
      let late (t : State) : Prop := tookPacket s t p ∧ t.fget F.lateRsp_COUNT 0 = (s.fget F.lateRsp_COUNT 0 + 1) % 2 ^ 64 ∧ linkOnly s t [(F.lateRsp_COUNT, 0)]
      let ended (t : State) : Prop := tookPacket s t p ∧ t.link.txns = s.link.txns.filter (fun y => y.txn ≠ k.txn) ∧ t.mem = s.mem
      let moveGoesOn (id : Nat) (t : State) : Prop := ended t ∧ t.cores = s.cores ∧
        t.moves.map (fun m => (m.id, m.waits, m.err)) =
          s.moves.map (fun m => if m.id = id then (m.id, m.waits - 1, if m.err = 0 then k.bytes else m.err) else (m.id, m.waits, m.err))
      let signalEnds (n : Nat) (t : State) : Prop := ended t ∧ (t.core n).sync = none ∧ t.errQ = s.errQ ∧ ∀ m, m ≠ n → t.core m = s.core m
      (arrives s p b 5 k.op →
        ((∀ x ∈ s.link.txns, x.txn ≠ k.txn) → completes (.rdRsp p b) s late) ∧
        (∀ x id, found x → x.move = some id → (∀ m ∈ s.moves, m.id = id → 2 ≤ m.waits) → completes (.rdRsp p b) s fun t =>
          moveGoesOn id t ∧ (k.bytes = 0 → ∀ m ∈ t.moves, m.id = id → ∀ i, i < x.pkt.bytes →
            (x.pkt.dst * 0x10000000000 + x.pkt.addr + i, k.payload.getD i 0, bitAt k.poison (i / 32)) ∈ m.got)) ∧
        (∀ x n d, found x → x.move = none → x.core = some n → (s.core n).sync = some d → d.op = 1 → k.bytes = 0 → completes (.rdRsp p b) s (signalEnds n))) ∧
      (arrives s p b 6 k.op →
        ((∀ x ∈ s.link.txns, x.txn ≠ k.txn) → completes (.cpl p b) s late) ∧
        (∀ x id, found x → x.move = some id → (∀ m ∈ s.moves, m.id = id → 2 ≤ m.waits) → completes (.cpl p b) s (moveGoesOn id)) ∧
        (∀ x n d, found x → x.move = none → x.core = some n → (s.core n).sync = some d → d.op = 1 → k.bytes = 0 → completes (.cpl p b) s (signalEnds n)))) ∧
    (comesHere s p k → arrives s p b 7 0 →
      ((∀ x ∈ s.link.txns, x.txn ≠ k.txn) → completes (.abort p b) s fun t =>
        tookPacket s t p ∧ t.fget F.lateRsp_COUNT 0 = (s.fget F.lateRsp_COUNT 0 + 1) % 2 ^ 64 ∧ linkOnly s t [(F.lateRsp_COUNT, 0)]) ∧
      (∀ x r, s.link.txns.find? (fun x => x.txn = k.txn) = some x → x.ring = some r → ((s.ring r).openStep x.step).isSome = true → x.move = none →
        completes (.abort p b) s fun t =>
          tookPacket s t p ∧ t.link.txns = s.link.txns.filter (fun y => y.txn ≠ k.txn) ∧ t.mem = s.mem ∧
          ∃ f : FaultRec, t.faultQ = s.faultQ ++ [f] ∧ f.cause = 0xB ∧ f.ring = r ∧ f.step = x.step ∧ f.port = p.val) ∧
      (∀ x j, s.link.txns.find? (fun x => x.txn = k.txn) = some x → x.ring = none → x.move = none → x.pkt.srcId = srcIdOf .reshard →
        s.rsh = [j] → j.sem = x.pkt.addr → j.abort = 0 → completes (.abort p b) s fun t => tookPacket s t p ∧ t.rsh = [{ j with abort := 0x30 }])) ∧
    (comesHere s p k → arrives s p b 8 1 → completes (.sweepReq p b) s fun t =>
      tookPacket s t p ∧ linkOnly s t [] ∧ ∃ q : Packet, t.link.queue = s.link.queue ++ [{ inp := ownInput, pkt := q, up := false }] ∧ q.type = 8 ∧ q.op = 2 ∧ q.dst = k.src ∧
        q.payload = (List.range 12).flatMap fun i => toLE 8 (s.regWord R.portNbr i)) ∧
    (∀ w, comesHere s p k → arrives s p b 8 2 → s.link.sweep = some w → w.todo = [] → w.asked = [k.src] → w.differ = none → completes (.sweepRsp p b) s fun t =>
      tookPacket s t p ∧ t.link.sweep = none ∧ t.flag F.sweepStat_RUNNING 0 = false ∧ t.fget F.sweepStat_VISITED 0 = (s.fget F.sweepStat_VISITED 0 + 1) % 2 ^ 17 ∧
      ((∀ i, i < 12 → fieldB k.payload (i * 8) 8 = alGet 0 s.link.topo (k.src * 16 + i)) → t.fget F.sweepStat_RESULT 0 = 1) ∧
      ((∃ i, i < 12 ∧ fieldB k.payload (i * 8) 8 ≠ alGet 0 s.link.topo (k.src * 16 + i)) →
        t.fget F.sweepStat_RESULT 0 = 2 ∧ t.fget F.sweepFirst_MODULE 0 = k.src % 2 ^ 16)) ∧
    (arrives s p b 8 3 →
      let key := (fieldB k.payload 0 2, fieldB k.payload 2 1, fieldB k.payload 4 4)
      (s.link.breaks.contains key = true → completes (.breakNotice p b) s fun t => tookPacket s t p ∧ t.link.breaks = s.link.breaks ∧ linkOnly s t []) ∧
      (s.link.breaks.contains key = false → completes (.breakNotice p b) s fun t =>
        tookPacket s t p ∧ t.link.breaks = s.link.breaks ++ [key] ∧ t.mem = s.mem ∧ t.cores = s.cores ∧
        (bitAt (fieldB k.payload 3 1) 0 = true → t.flag F.routeCtl_PENDING 0 = true) ∧
        (∀ q, q < 12 → q ≠ p.val → s.portUp q = true → (t.port q).out.length = (s.port q).out.length + 1) ∧ (t.port p).out = (s.port p).out))

/-- The router, route sets, sweeps and response timeouts. The router moves a packet that no earlier one of its input, class and module precedes: to a port of its route entry with HOPS one less, which sends it where it has credit; to its destination here; or, without a valid entry, with HOPS used up or LEVEL at its limit, discarded, counted and a request answered NOT_REACHABLE; it keeps a packet while no port of its route is UP. SWITCH exchanges the route sets; ROUTE_DATA reads and writes entries of the inactive set; a sweep asks up to 64 modules at a time; a transaction unanswered in its time ends with a LINK_BROKEN fault. -/
def Obligations.RoutingSweepsAndTimeouts : Prop :=
  ∀ (s : State) (src : Src) (v : W32),
    (∀ k : Packet,
      let e := s.activeEntry k.dst
      let spent : Prop := k.hops = 0 ∨ (bitAt e 15 = true ∧ 3 ≤ k.level)
      (bitAt e 31 = false → s.way k = some 13) ∧ (bitAt e 31 = true → bitAt e 30 = true → s.way k = some 12) ∧
      (bitAt e 31 = true → bitAt e 30 = false → spent → s.way k = some 13) ∧
      (bitAt e 31 = true → bitAt e 30 = false → ¬ spent → s.way k = s.outPort e k)) ∧
    (∀ h o, s.nextHop = some (h, o) → s.way h.pkt = some o ∧
      ∃ i : Nat, s.link.queue[i]? = some h ∧ ∀ (j : Nat) (y : Hop), j < i → s.link.queue[j]? = some y → ¬ (y.inp = h.inp ∧ y.pkt.cls % 4 = h.pkt.cls % 4 ∧ h.inp < 13 ∧ y.inp < 13 ∧ y.pkt.dst = h.pkt.dst)) ∧
    (∀ h o, s.link.queue = [h] → h.inp < 13 → s.way h.pkt = some o → o < 14 → s.nextHop = some (h, o)) ∧
    (s.nextHop = none → ∀ mm, completes (.packetRoute mm) s fun t => t = s) ∧
    (∀ h o mm, s.nextHop = some (h, o) →
      let k := h.pkt
      let rest := s.link.queue.erase h
      (o < 12 → s.portUp o = true → (s.port o).out = [] →
        let up := bitAt (s.activeEntry k.dst) 15
        let q := { k with hops := k.hops - 1, level := k.level + one up }
        completes (.packetRoute mm) s fun t =>
          t.link.queue = rest ∧ linkOnly s t [] ∧
          (∀ c, (s.port o).credit q = some c → (t.port o).out = [] ∧ (∃ l, t.out = s.out ++ l ∧ packetsOf l = [.packet o false (q.wire (s.port o).txSeq c)]) ∧
            (t.port o).txSeq = ((s.port o).txSeq + 1) % 4096 ∧ (t.port o).retry.map TxPkt.pkt = (s.port o).retry.map TxPkt.pkt ++ [q]) ∧
          ((s.port o).credit q = none → (t.port o).out = [{ h with up := up }] ∧ (t.port o).retry = (s.port o).retry)) ∧
      (o = 12 → k.type = 1 → (s.remoteCheck k k.bytes false).1 = 0 → completes (.packetRoute mm) s fun t =>
        (∃ q : Packet, t.link.queue = rest ++ [{ inp := ownInput, pkt := q, up := false }] ∧ q.type = 5 ∧ q.dst = k.src ∧ q.txn = k.txn ∧ q.bytes = 0 ∧
          q.payload = s.rdN k.addr k.bytes) ∧ t.mem = s.mem ∧ t.cores = s.cores) ∧
      (o = 13 → completes (.packetRoute mm) s fun t =>
        t.fget F.hopDrop_COUNT 0 = (s.fget F.hopDrop_COUNT 0 + 1) % 2 ^ 64 ∧ linkOnly s t [(F.hopDrop_COUNT, 0)] ∧
        (1 < k.cls → t.link.queue = rest) ∧
        (k.cls ≤ 1 → ∃ q : Packet, t.link.queue = rest ++ [{ inp := ownInput, pkt := q, up := false }] ∧ q.dst = k.src ∧ q.txn = k.txn ∧ q.srcId = k.srcId ∧
          q.bytes = 0x0A01))) ∧
    (s.fget F.routeCtl_ACTIVE 0 ≤ 1 → completes .routeSwitch s fun t =>
      t.fget F.routeCtl_ACTIVE 0 = 1 - s.fget F.routeCtl_ACTIVE 0 ∧ t.flag F.routeCtl_PENDING 0 = false ∧ t.link.routes = s.link.routes ∧
      t.link.epoch = s.link.epoch + 1 ∧ t.mem = s.mem ∧ t.cores = s.cores) ∧
    (let set := s.fget F.routeIdx_SET 0
     let dest := s.fget F.routeIdx_DEST 0
     completes (.routeDataAccess src none) s fun t =>
       t.out = s.out ++ [.answer src 0 (toLE 4 (s.routeEntry set dest))] ∧ t.fget F.routeIdx_DEST 0 = (dest + 1) % 65536 ∧ t.link = s.link ∧
       linkOnly s t [(F.routeIdx_DEST, 0)]) ∧
    (let set := s.fget F.routeIdx_SET 0
     let dest := s.fget F.routeIdx_DEST 0
     completes (.routeDataAccess src (some v)) s fun t =>
       t.fget F.routeIdx_DEST 0 = (dest + 1) % 65536 ∧
       if set = s.fget F.routeCtl_ACTIVE 0 then t.link = s.link ∧ t.flag F.routeCtl_SW_ERR 0 = true ∧ linkOnly s t [(F.routeIdx_DEST, 0), (F.routeCtl_SW_ERR, 0)]
       else t.routeEntry set dest = v.toNat ∧ (∀ x y, y < 65536 → dest < 65536 → (x, y) ≠ (set, dest) → t.routeEntry x y = s.routeEntry x y) ∧
         linkOnly s t [(F.routeIdx_DEST, 0)]) ∧
    (s.link.sweep = none →
      let ms := (s.link.routes.filter fun r => r.1 / 65536 = s.fget F.routeCtl_ACTIVE 0 && bitAt r.2 31).map fun r => r.1 % 65536
      completes .sweepStart s fun t =>
        (ms ≠ [] → t.flag F.sweepStat_RUNNING 0 = true ∧ t.fget F.sweepStat_VISITED 0 = 0 ∧ t.fget F.sweepStat_RESULT 0 = 0 ∧
          ∃ w, t.link.sweep = some w ∧ w.asked = ms.take 64 ∧ w.todo = ms.drop 64 ∧
            t.link.queue.length = s.link.queue.length + (ms.take 64).length) ∧
        (ms = [] → t.flag F.sweepStat_RUNNING 0 = false ∧ t.fget F.sweepStat_RESULT 0 = 1 ∧ t.link.sweep = none) ∧ t.mem = s.mem ∧ t.cores = s.cores) ∧
    (s.link.sweep ≠ none → completes .sweepStart s fun t => t = s) ∧
    (∀ x r, s.link.txns.find? (fun y => y.txn = x.txn) = some x → x.sent + s.rspNs ≤ s.time.elapsed → x.ring = some r →
      ((s.ring r).openStep x.step).isSome = true → x.move = none → completes (.oncResponseTimeout x.txn) s fun t =>
        t.link.txns = s.link.txns.filter (fun y => y.txn ≠ x.txn) ∧ t.mem = s.mem ∧
        ∃ f : FaultRec, t.faultQ = s.faultQ ++ [f] ∧ f.cause = 0xB ∧ f.ring = r ∧ f.step = x.step) ∧
    (∀ x, s.link.txns.find? (fun y => y.txn = x.txn) = some x → s.time.elapsed < x.sent + s.rspNs → completes (.oncResponseTimeout x.txn) s fun t => t = s)

/-- Confirmed faults, replay and substitution. A confirmed fault of a running step stops it and every later step for a replay, up to REPLAY_MAX, after which the ring halts with the replay limit; an exported step is closed with chaff and its semaphores are poisoned; a fault without an open step is recorded. Once quiet, the semaphores of the ledger have their values from before and the steps begin again from the first entry; a permanent core gives its place to its field's spare, whose diode is its own. -/
def Obligations.FaultsAndReplay : Prop :=
  ∀ (s : State) (r : RingId) (n : CoreId),
    (∀ f rest o, s.faultQ = f :: rest → (s.ring f.ring).openStep f.step = some o → o.st = .run → slight s f o.charged →
      (o.replays < s.replayMax → (o.exported = false ∨ f.cause = 0xB) → completes .faultConfirmed s fun t =>
        t.faultQ = rest ∧ (∃ o', (t.ring f.ring).openStep f.step = some o' ∧ o'.st = .stopped false ∧ o'.replays = o.replays + 1 ∧ o'.head = o.head) ∧
        (t.ring f.ring).steps.map OpenStep.step = (s.ring f.ring).steps.map OpenStep.step ∧
        (∀ o' ∈ (t.ring f.ring).steps.dropWhile (fun x => x.step ≠ f.step), o'.isStopped = true) ∧
        (∀ e ∈ t.errQ, e.ring = f.ring → e.step ≠ f.step) ∧ t.mem = s.mem) ∧
      (s.replayMax ≤ o.replays → (o.exported = false ∨ f.cause = 0xB) → completes .faultConfirmed s fun t =>
        ringHalted t f.ring 0x0C02 ∧ (∀ x ∈ (t.ring f.ring).steps, x.step ≠ f.step) ∧
        t.fget F.limits_COUNT (partOfRing f.ring) = (s.fget F.limits_COUNT (partOfRing f.ring) + 1) % 2 ^ 64) ∧
      (o.exported = true → f.cause ≠ 0xB → completes .faultConfirmed s fun t =>
        t.faultQ = rest ∧ (∃ o', (t.ring f.ring).openStep f.step = some o' ∧ o'.st = .closing ∧ o'.chaff = true ∧ o'.replays = o.replays) ∧
        ∀ e, o.ledger = [e] → e.addr / 0x10000000000 = s.selfId → localOf e.addr % 8 = 0 → 0x4000000000 ≤ localOf e.addr →
          localOf e.addr < 0x4040000000 → s.goneAt (localOf e.addr) = false → t.semValue (localOf e.addr) = poison)) ∧
    (∀ f rest, s.faultQ = f :: rest → (s.ring f.ring).openStep f.step = none → slight s f [] → completes .faultConfirmed s fun t =>
      t.faultQ = rest ∧ t.rings = s.rings ∧ t.mem = s.mem ∧ t.cores = s.cores ∧
      (f.part < 32 → ∃ g, alFind t.lastFault f.part = some g ∧ g.cause = f.cause ∧ g.outcome = 7 ∧ g.step = f.step)) ∧
    (let l := (s.ring r).steps.filter OpenStep.isStopped
     ((∀ o ∈ l, s.stepBusy r o.step = false ∧ (o.broken = false ∨ s.flag F.routeCtl_PENDING 0 = false)) → completes (.replayQuiesced r) s fun t =>
        (t.ring r).steps = (s.ring r).steps.map (fun o => if o.isStopped then { o with st := .stopped true } else o) ∧ t.mem = s.mem ∧ t.regs = s.regs) ∧
     (∀ o1 more, ((s.ring r).steps.map OpenStep.step).Nodup → l = o1 :: more → (∀ o ∈ l, o.st = .stopped true ∧ (o.broken = false ∨ s.flag F.routeCtl_PENDING 0 = false) ∧ s.stepBusy r o.step = false ∧ ∀ e ∈ o.ledger, e.addr / 0x10000000000 = s.selfId) →
        (∀ o ∈ (s.ring r).steps, o.st ≠ .closing) → (∀ x ∈ s.subst, s.partOfCore x.1 ≠ some (partOfRing r)) → completes (.replayRestored r) s fun t =>
          (t.ring r).steps.map (fun o => (o.step, o.st, o.replays, o.head)) =
            (s.ring r).steps.map (fun o => (o.step, if o.isStopped then .run else o.st, o.replays, o.head)) ∧
          (∀ o ∈ (t.ring r).steps, o.step = o1.step → o.commitTaken = false ∧ o.items = 0) ∧
          ((∀ o ∈ (s.ring r).steps, o.isStopped = false → o.commitTaken = true) → (t.ring r).replay = some o1.head.entry) ∧
          t.fget F.replays_COUNT (partOfRing r) = (s.fget F.replays_COUNT (partOfRing r) + l.length) % 2 ^ 64 ∧
          (more = [] → ∀ e, o1.ledger = [e] → localOf e.addr % 8 = 0 → 0x4000000000 ≤ localOf e.addr → localOf e.addr < 0x4040000000 →
            s.goneAt (localOf e.addr) = false → t.semValue (localOf e.addr) = e.before % 2 ^ 64) ∧
          (o1.ledger = [] → more = [] → t.mem = s.mem))) ∧
    (∀ cause, alFind s.subst n = some cause → completes (.coreSubstitutionDone n) s fun t =>
      alFind t.subst n = none ∧ alFind t.spare (fieldOfCore n) = some n.val ∧ (t.field (fieldOfCore n)).resetting = true ∧
      (t.core n).hold = false ∧ t.alm.queue.length = s.alm.queue.length + 1 ∧ t.mem = s.mem ∧
      t.flag F.vaultBand_DIODE_FAIL n = false ∧ t.power.broken.contains n.val = false ∧
      (1 ≤ s.fget F.intStatus_SPARES_FREE 0 → s.fget F.intStatus_SPARES_FREE 0 < 2048 →
        t.fget F.intStatus_SPARES_FREE 0 = s.fget F.intStatus_SPARES_FREE 0 - 1))

/-- Events of stored words, the Harrows and the log. The Reeve logs the oldest event of a word in the word's entry (its own, a free one, or the oldest that is not permanent) with place, time and count, PERM for the third within 30 days or one after a scrub-rewrite, or counts it in LOG_OVF; a scrub-rewrite takes the oldest queued word whose bank no huller task has, and its next error is a new event; each Harrow reads the next word of its pass, counting what it finds, that of a vault unless a huller task has the bank; an entry that is not permanent is freed after 30 days or by LOG_CLR. -/
def Obligations.StoredWords : Prop :=
  ∀ (s : State) (core : CoreId) (w : Fin 8) (ecc : Ecc) (idx : Nat) (val : W32),
    (∀ e rest, s.ecc.events = e :: rest →
      let at_ := if s.time.undisc then (s.alm.log.map AlmRec.time).foldl max 0 else e.time
      let sec := at_ / 1000000000 % 2 ^ 32
      let seen := ((s.ecc.history ++ [(e.addr, at_)]).filter fun h => decide (h.1 = e.addr ∧ at_ - h.2 ≤ 2592000000000000)).length
      let perm := e.scrubbed || decide (3 ≤ seen)
      (∀ i, s.logPick e.addr = some i → completes .eventClassify s fun t =>
        t.ecc.events = rest ∧ t.ecc.history = s.ecc.history ++ [(e.addr, at_)] ∧ keepsData s t ∧
        logHolds t i e sec (if s.logIs i e.addr then min 255 (s.fget (logEnt i).count (logEnt i).copy + 1) else 1) perm) ∧
      (s.logPick e.addr = none → completes .eventClassify s fun t =>
        t.ecc.events = rest ∧ keepsData s t ∧ t.fget F.logOvf_COUNT 0 = (s.fget F.logOvf_COUNT 0 + 1) % 2 ^ 64)) ∧
    ((∀ a ∈ s.ecc.rewrite, s.bankTaken a = true) → completes .scrubRewrite s fun t => t = s) ∧
    (∀ a, s.ecc.rewrite.find? (fun a => !s.bankTaken a) = some a → completes .scrubRewrite s fun t =>
      t.ecc.rewrite = s.ecc.rewrite.erase a ∧ t.ecc.seen.contains a = false ∧ t.ecc.scrubbed.contains a = true ∧ keepsData s t ∧
      (a < 0x3600000000 → ∀ k, k = 4 ∨ k = 5 → t.fget F.coreCtr_COUNT (a / 0x800000 * 64 + k) = (s.fget F.coreCtr_COUNT (a / 0x800000 * 64 + k) + 1) % 2 ^ 64) ∧
      ∀ i, (logOfWord a).find? (fun i => s.logIs i a) = some i → t.flag (logEnt i).rewritten (logEnt i).copy = true) ∧
    (s.flag F.harrowCtl_PAUSE 0 = false →
      (∀ b, let h := alGet ⟨0, 0, 0⟩ s.ecc.vaultHarrow core
        s.valid.find? (fun b => decide (core.val * 32768 + h.next ≤ b ∧ b < (core.val + 1) * 32768)) = some b →
        (s.bankTaken (b * 256) = true → completes (.harrowVaultRead core w ecc false) s fun t => t = s) ∧
        (s.bankTaken (b * 256) = false → s.isChaff (b * 256 + w.val * 32) = false → completes (.harrowVaultRead core w ecc false) s fun t =>
          t.fget F.coreCtr_COUNT (core * 64 + 4) = (s.fget F.coreCtr_COUNT (core * 64 + 4) + 1) % 2 ^ 64 ∧
          wordRead s t (b * 256 + w.val * 32) ecc F.vcorr_COUNT F.vuncorr_COUNT (plotOfCore core) ∧
          alGet ⟨0, 0, 0⟩ t.ecc.vaultHarrow core = { h with next := b % 32768 + 1 })) ∧
      (s.isChaff (0x4000000000 + s.ecc.grnHarrow.next * 8) = false → s.ecc.grnHarrow.next + 1 < 0x8000000 → completes (.harrowGranaryRead ecc) s fun t =>
        wordRead s t (0x4000000000 + s.ecc.grnHarrow.next * 8) ecc F.gcorr_COUNT F.guncorr_COUNT 0 ∧
        t.ecc.grnHarrow = { s.ecc.grnHarrow with next := s.ecc.grnHarrow.next + 1 }) ∧
      (let a := 0x8000000000 + s.ecc.ssHarrow.next * 256
       s.isChaff a = false → (∀ l ∈ s.lines, l.addr ≠ a) → s.ssChaff < 65536 → (s.ecc.ssHarrow.next + 1) * 256 < s.partNo.capacity →
       completes (.harrowSeedstoreRead ecc) s fun t =>
        wordRead s t a ecc F.ssCorr_COUNT F.ssUncorr_COUNT 0 ∧ t.ecc.ssHarrow = { s.ecc.ssHarrow with next := s.ecc.ssHarrow.next + 1 })) ∧
    (let x := logEnt idx
     idx < 144 → s.flag x.valid x.copy = true →
      (s.flag x.perm x.copy = false → alGet 0 s.ecc.lastAt idx + 2592000000000000 ≤ s.time.elapsed → completes (.logEntryAgeOut idx) s fun t =>
        t.flag x.valid x.copy = false ∧ t = { s with regs := t.regs }) ∧
      ((s.flag x.perm x.copy = true ∨ s.time.elapsed < alGet 0 s.ecc.lastAt idx + 2592000000000000) → completes (.logEntryAgeOut idx) s fun t => t = s)) ∧
    (let i := if bitAt val.toNat 31 then 128 + bitsOf val.toNat 0 5 else bitsOf val.toNat 5 2 * 32 + bitsOf val.toNat 0 5
     let x := logEnt i
     i < 144 → (s.flag x.perm x.copy = false → completes (.logClr val) s fun t => t.flag x.valid x.copy = false ∧ t = { s with regs := t.regs }) ∧
      (s.flag x.perm x.copy = true → completes (.logClr val) s fun t => t = s))

/-- Retirement of rows, banks and bins. A RET_CMD is taken when none is in progress (else LOST is set; a target that does not exist answers BAD_TARGET); a page uses a spare row, or its bank's spare slice when none is left, a bank the spare slice, a bin a spare bin, with the result of Table 13-4 and the events of the words retired dropped; while it lasts the stall timers of the units it holds are suspended; without a spare the unit is retired without a substitute. -/
def Obligations.Retirement : Prop :=
  ∀ (s : State) (val : W32), let v := val.toNat
    (let scope := bitsOf v 30 2
     let target := bitsOf v 0 16
     let exists_ : Prop := if scope = 3 then target < 64 else target < 27648
     let lost (t : State) : Prop := t.flag F.retStatus_LOST 0 = true ∧ regsOnly s t [(F.retStatus_LOST, 0)]
     let noTarget (t : State) : Prop := t.fget F.retStatus_RESULT 0 = 4 ∧ regsOnly s t [(F.retStatus_RESULT, 0), (F.retStatus_BUSY, 0)]
     let taken (t : State) : Prop := t.flag F.retStatus_BUSY 0 = true ∧ t = { s with regs := t.regs, ret := t.ret, pauses := t.pauses } ∧
       ∃ j : RetJob, (if s.sleep = 2 then t.ret.waiting = some j ∧ t.ret.job = s.ret.job ∧ t.pauses = s.pauses
           else t.ret.job = some j ∧ t.ret.waiting = s.ret.waiting ∧ ∀ u ∈ j.units, ∃ p ∈ t.pauses, p.of = .unit u ∧ p.until_ = none) ∧
         j.scope = (if scope = 1 ∧ 8 ≤ s.rowsUsed target (bitsOf v 16 5) then 2 else scope) ∧ j.row = bitsOf v 21 7 ∧ j.bank = bitsOf v 16 5 ∧ j.target = target
     (s.flag F.retStatus_BUSY 0 = true →
       (scope = 1 → completes (.retirePage val) s lost) ∧ (scope = 2 → completes (.retireBank val) s lost) ∧ (scope = 3 → completes (.retireBin val) s lost)) ∧
     (s.flag F.retStatus_BUSY 0 = false → ¬ exists_ →
       (scope = 1 → completes (.retirePage val) s noTarget) ∧ (scope = 2 → completes (.retireBank val) s noTarget) ∧ (scope = 3 → completes (.retireBin val) s noTarget)) ∧
     (s.flag F.retStatus_BUSY 0 = false → exists_ →
       (scope = 1 → completes (.retirePage val) s taken) ∧ (scope = 2 → completes (.retireBank val) s taken) ∧ (scope = 3 → completes (.retireBin val) s taken))) ∧
    (∀ j, s.ret.job = some j → s.retRunning j = true → completes .retireCopyDone s fun t => t = s) ∧
    (∀ j, s.ret.job = some j → s.retRunning j = false → completes .retireCopyDone s fun t => ∀ u ∈ j.units, ∀ p ∈ t.pauses, p.of = .unit u → p.until_ ≠ none) ∧
    (∀ j, s.ret.job = some j → s.retRunning j = false →
      let key := j.target * 32 + j.bank
      (j.scope = 1 → completes .retireCopyDone s fun t =>
        t.ret.job = none ∧ t.fget F.retStatus_RESULT 0 = 0 ∧ t.flag F.retStatus_BUSY 0 = false ∧ t.rowsUsed j.target j.bank = s.rowsUsed j.target j.bank + 1 ∧
        t.ret.gone = s.ret.gone ∧ keepsData s t) ∧
      (j.scope = 2 → s.ret.slices.contains j.target = false → completes .retireCopyDone s fun t =>
        t.ret.job = none ∧ t.fget F.retStatus_RESULT 0 = 1 ∧ t.flag F.retStatus_BUSY 0 = false ∧ t.ret.slices.contains j.target = true ∧
        t.flag F.retStatus_SLICE_FREE 0 = false ∧ t.ret.gone = s.ret.gone ∧ keepsData s t) ∧
      (j.scope = 3 → s.ret.bins < 2 → completes .retireCopyDone s fun t =>
        t.ret.job = none ∧ t.fget F.retStatus_RESULT 0 = 2 ∧ t.flag F.retStatus_BUSY 0 = false ∧ t.ret.bins = s.ret.bins + 1 ∧ t.ret.gone = s.ret.gone ∧
        keepsData s t ∧ ∀ h ∈ t.ecc.history, ¬ (binBase j.target ≤ h.1 ∧ h.1 < binBase j.target + 0x1000000)) ∧
      (j.scope = 2 ∧ s.ret.slices.contains j.target = true ∨ j.scope = 3 ∧ 2 ≤ s.ret.bins → completes .retireCopyDone s fun t =>
        t.ret.job = none ∧ t.ret.gone.contains (if j.scope = 3 then 884736 + j.target else key) = true))

/-- Holds, rates and stalls of a field. The vaults recalibrate at their moment, 1 ms after the one before, and pending falls of band take effect. A field below 0.50 V holds new issue until it reads 0.53 V or more; the end of a window of 10 microseconds since the field left reset or S2 updates FIELD_RATE as a whole and counts consecutive windows below 0.90 of the expected rate, 100 of which are reported; STALL_CTL takes a bound of 10 to 1,000 for requests raised from then on, or sets BOUND_ERR; a handshake that its timer has held open longer than the bound of its moment is a stall and holds its field; 2 microseconds later a primary one resets the field with a STALL fault of its step, the handshakes that face it completing with chaff, while a secondary one goes on with chaff. -/
def Obligations.HoldsRatesAndStalls : Prop :=
  ∀ (s : State) (fid : FieldId) (mv : Nat) (a c : BitVec 16) (val : W32) (hs : Handshake),
    (∀ m, s.power.recal = some m → m ≤ s.time.elapsed → completes .vaultRecalibration s fun t =>
      t.power = { s.power with falls := [], recal := some (m + 1000000) } ∧
      (∀ n b, s.power.falls = [(n, b)] → t.fget F.vaultBand_BAND n = b % 2 ^ F.vaultBand_BAND.width) ∧
      t = { s with regs := t.regs, power := t.power }) ∧
    ((∀ m, s.power.recal = some m → s.time.elapsed < m) → completes .vaultRecalibration s fun t => t = s) ∧
    (mv < 500 → completes (.droopHold fid mv) s fun t => t.field fid = { s.field fid with droop := true } ∧ t = { s with fields := t.fields }) ∧
    (500 ≤ mv → completes (.droopHold fid mv) s fun t => t = s) ∧
    (530 ≤ mv → completes (.droopResume fid mv) s fun t => t.field fid = { s.field fid with droop := false } ∧ t = { s with fields := t.fields }) ∧
    (mv < 530 → completes (.droopResume fid mv) s fun t => t = s) ∧
    (∀ w, s.windowFrom fid = some w → w + 10000 ≤ s.time.elapsed → completes (.rateWindowEnd fid a c) s fun t =>
      t.flag F.fieldRate_VALID fid = true ∧ t.fget F.fieldRate_WINDOW_SEQ fid = (s.fget F.fieldRate_WINDOW_SEQ fid + 1) % 2 ^ 16 ∧
      t.fget F.fieldRate_ACTUAL fid = a.toNat ∧ t.fget F.fieldRate_CAPABLE fid = c.toNat ∧ (t.field fid).window = s.time.elapsed ∧
      (∀ x y, s.expectedRate fid = some (x, y) →
        (t.field fid).slow = if c.toNat * y * 100 < 90 * x then (s.field fid).slow + 1 else 0) ∧ keepsData s t) ∧
    ((∀ w, s.windowFrom fid = some w → s.time.elapsed < w + 10000) → completes (.rateWindowEnd fid a c) s fun t => t = s) ∧
    (100 ≤ (s.field fid).slow → completes (.slowFieldReport fid) s fun t =>
      (t.field fid).slow = 0 ∧ t.mgmt.evSeq = s.mgmt.evSeq + 1 ∧ keepsData s t) ∧
    (let v := bitsOf val.toNat 0 16
     completes (.stallCtlWrite val) s fun t =>
      t.fget F.stallCtl_BOUND_US 0 = (if 10 ≤ v ∧ v ≤ 1000 then v else s.fget F.stallCtl_BOUND_US 0) ∧
      t.flag F.stallCtl_BOUND_ERR 0 = ((v ≠ 0 && !(10 ≤ v && v ≤ 1000)) || (s.flag F.stallCtl_BOUND_ERR 0 && !bitAt val.toNat 16)) ∧
      t.bounds = (if 10 ≤ v ∧ v ≤ 1000 then (s.time.elapsed, v) :: s.bounds else s.bounds) ∧
      regsOnly s { t with bounds := s.bounds } [(F.stallCtl_BOUND_US, 0), (F.stallCtl_BOUND_ERR, 0)]) ∧
    (s.timed hs = true → s.boundAt hs.raised * 1000 < s.openNs hs → completes (.stall hs) s fun t =>
      t = { s with fields := t.fields, stalls := t.stalls } ∧ (∀ f, watchOf hs.port = .field f → (t.field f).held = true) ∧
      ∃ x : StallRep, t.stalls = s.stalls ++ [x] ∧ x.hs = hs ∧ x.at_ = s.time.elapsed ∧
        x.secondary = (match hs.faces with | some b => s.stalls.any fun y => watchOf y.hs.port = b | none => false)) ∧
    (s.timed hs = false ∨ s.openNs hs ≤ s.boundAt hs.raised * 1000 → completes (.stall hs) s fun t => t = s) ∧
    (∀ x f others, s.stalls = [x] → watchOf x.hs.port = .field f →
      (s.time.elapsed < x.at_ + 2000 → completes (.stallCollectionClose others) s fun t => t = s) ∧
      (x.at_ + 2000 ≤ s.time.elapsed → x.secondary = false → f < 1152 → completes (.stallCollectionClose others) s fun t =>
        t.stalls = [] ∧ (t.field f).resetting = true ∧ (t.field f).held = true ∧ t.mem = s.mem ∧
        (∃ k : FaultRec, t.faultQ = s.faultQ ++ [k] ∧ k.cause = 2 ∧ (∀ r st, s.stallStep x.hs = some (r, st) → k.ring = r ∧ k.step = st)) ∧
        (∀ h ∈ others, h.faces = some (.field f) → ∀ r o, h.ring = some r → (t.ring r).openStep h.step = some o → o.chaff = true) ∧
        ∀ n, fieldOfCore n = f → (t.core n).wi = none ∧ (t.core n).queue = (s.core n).queue) ∧
      (x.at_ + 2000 ≤ s.time.elapsed → x.secondary = true → completes (.stallCollectionClose others) s fun t =>
        t.stalls = [] ∧ (t.field f).held = false ∧ t.faultQ = s.faultQ ∧ t.mem = s.mem ∧ t.cores = s.cores ∧
        ∀ r o, x.hs.ring = some r → (t.ring r).openStep x.hs.step = some o → o.chaff = true)) ∧
    ((s.field fid).resetting = true → completes (.fieldResetDone fid) s fun t =>
      (t.field fid).resetting = false ∧ (t.field fid).since = s.time.elapsed ∧ (t.field fid).held = (s.subst.any fun n => fieldOfCore n.1 = fid.val) ∧ t = { s with fields := t.fields })

/-- Resets. PWR_OK taken high, the end of an emergency commit and RST_CTL.COLD with its key reset everything, the Reeve too; PERST#, WARM_RST# and RST_CTL.WARM reset everything but the Reeve, with trained ports keeping their lock; a seed image may make PERST# reset the host interface alone. No reset changes a byte of memory. The fall of PWR_OK sheds load and begins the emergency commit; a short assertion of a reset pin is counted only. -/
def Obligations.Resets : Prop :=
  ∀ (s : State) (key : BitVec 16),
    let up := s.rst.pwrOk = true ∧ s.rst.emergency = false
    let warm := (s.bringing && s.rst.cold) = false
    (s.rst.pwrOk = false → s.rst.standby = true → s.rst.emergency = false → completes .pwrOkRise s fun t => coldTaken s t 1 ∧ t.rst.pwrOk = true) ∧
    (s.rst.pwrOk = true → s.rst.emergency = false → completes .pwrOkFall s fun t =>
      t.rst.pwrOk = false ∧ t.rst.emergency = true ∧ t.power.shed = true ∧ t.host.link = false ∧ (∀ p, p < 12 → t.portState p = 0) ∧
      (∀ n, (t.core n).wi = none) ∧ t.mem = s.mem ∧ t.moves = [] ∧ t.alm.queue = []) ∧
    (s.rst.emergency = true → completes .emergencyCommitEnd s fun t =>
      coldTaken s t (if s.power.tripped then 6 else 2) ∧ t.rst.emergency = false ∧ t.power.tripped = false) ∧
    (up → s.rst.perst = false → warm → (∀ i, s.seed.image = some i → i.perstHost = false) → completes .perstAssert s fun t =>
      warmTaken s t 64 ∧ t.rst.perst = true ∧ t.host.link = false) ∧
    (up → s.rst.perst = false → s.bringing = false → (∃ i, s.seed.image = some i ∧ i.perstHost = true) → completes .perstAssert s fun t =>
      t.rst.perst = true ∧ t.host.link = false ∧ t.host.held = [] ∧ t.host.hdm = false ∧ (s.power.sleep.isSome = true → t.power.sleep = none ∧ t.fget F.sleepStat_RESULT 0 = 4) ∧ ((∀ x ∈ s.rings, x.2.steps = []) → s.rsh = [] → t.mem = s.mem ∧ t.parts = s.parts) ∧
      t.fget F.rstCause_CAUSE 0 = s.fget F.rstCause_CAUSE 0 ∧
      ∀ r, r < 128 → t.flag F.ringCfg_ENABLE r = false ∧ (t.ring r).steps = [] ∧ t.fget F.ringHead_HEAD r = 0) ∧
    (completes .perstRelease s fun t => t = { s with rst := { s.rst with perst := false, alert := if s.rst.warm then s.rst.alert else none } }) ∧
    (up → s.rst.warm = false → warm → completes .warmRstAssert s fun t => warmTaken s t 16 ∧ t.rst.warm = true) ∧
    (completes .warmRstRelease s fun t => t = { s with rst := { s.rst with warm := false, alert := if s.rst.perst then s.rst.alert else none } }) ∧
    (completes .resetPinGlitch s fun t =>
      t.fget F.rstCause_GLITCHES 0 = min 255 (s.fget F.rstCause_GLITCHES 0 + 1) ∧ regsOnly s t [(F.rstCause_GLITCHES, 0)]) ∧
    (up → key = 0x5EED → completes (.rstCtlCold key) s fun t => coldTaken s t 8) ∧
    (up → key = 0x5EED → warm → completes (.rstCtlWarm key) s fun t => warmTaken s t 32) ∧
    (key ≠ 0x5EED → (completes (.rstCtlCold key) s fun t => t = s) ∧ completes (.rstCtlWarm key) s fun t => t = s)

/-- Resets of one block. BLK_RST is lost while a block reset is under way, refused when the module is not READY or its target does not exist, and else taken; when the block is idle, or IDLE_US (10 ms at most) has passed, it is reset: a field with its cores, the Oncon ports (enabled ones train, or send FAULT_IDLE for a cause that is present), the host interface with its rings, the seedstore cache (a forced reset leaves dirty lines as chaff), the re-shard engine; RESULT tells a clean from a forced reset. -/
def Obligations.BlockResets : Prop :=
  ∀ (s : State) (target : BitVec 24) (b : BlkJob),
    let t := target.toNat
    (let lost (u : State) : Prop := u.flag F.blkStatus_LOST 0 = true ∧ regsOnly s u [(F.blkStatus_LOST, 0)]
     s.flag F.blkStatus_BUSY 0 = true →
       completes (.blkRstField target) s lost ∧ completes (.blkRstOncon target) s lost ∧ completes (.blkRstHost target) s lost ∧
       completes (.blkRstSeedstore target) s lost ∧ completes (.blkRstReshard target) s lost) ∧
    (let notReady (u : State) : Prop := u.fget F.blkStatus_RESULT 0 = 2 ∧ regsOnly s u [(F.blkStatus_RESULT, 0)]
     s.flag F.blkStatus_BUSY 0 = false → s.isReady = false →
       completes (.blkRstField target) s notReady ∧ completes (.blkRstOncon target) s notReady ∧ completes (.blkRstHost target) s notReady ∧
       completes (.blkRstSeedstore target) s notReady ∧ completes (.blkRstReshard target) s notReady) ∧
    (let noTarget (u : State) : Prop := u.fget F.blkStatus_RESULT 0 = 3 ∧ regsOnly s u [(F.blkStatus_RESULT, 0)]
     let taken (kind unit : Nat) (u : State) : Prop := u.flag F.blkStatus_BUSY 0 = true ∧
       u.blk = some { kind := kind, target := unit, since := s.time.elapsed } ∧
       (s.power.sleep.isSome = true → u.power.sleep = none ∧ u.fget F.sleepStat_RESULT 0 = 4 ∧ u.flag F.sleepStat_ENTERING 0 = false) ∧
       u = { s with regs := u.regs, blk := u.blk, power := if s.power.sleep.isSome then u.power else s.power }
     let field : Prop := t / 2048 = 0 ∧ t % 512 < 288
     s.flag F.blkStatus_BUSY 0 = false → s.isReady = true →
       (field → completes (.blkRstField target) s (taken 1 (bitsOf t 9 2 * 288 + t % 512))) ∧ (¬ field → completes (.blkRstField target) s noTarget) ∧
       (t = 0 → completes (.blkRstOncon target) s (taken 2 0) ∧ completes (.blkRstHost target) s (taken 3 0) ∧
         completes (.blkRstSeedstore target) s (taken 4 0) ∧ completes (.blkRstReshard target) s (taken 5 0)) ∧
       (t ≠ 0 → completes (.blkRstOncon target) s noTarget ∧ completes (.blkRstHost target) s noTarget ∧
         completes (.blkRstSeedstore target) s noTarget ∧ completes (.blkRstReshard target) s noTarget)) ∧
    (s.blk = some b →
      let ended (forced : Bool) (u : State) : Prop := u.blk = none ∧ u.fget F.blkStatus_RESULT 0 = one forced ∧ u.flag F.blkStatus_BUSY 0 = false
      let idle : Prop := s.blkIdle b = true
      let late : Prop := b.since + 10000000 ≤ s.time.elapsed
      let fieldReset (forced : Bool) (u : State) : Prop := ended forced u ∧ (u.field b.target).resetting = true ∧
        (∀ n, fieldOfCore n = b.target → (u.core n).wi = none) ∧ u.mem = s.mem
      let onconReset (forced : Bool) (u : State) : Prop := ended forced u ∧ u.mem = s.mem ∧ u.cores = s.cores ∧
        ∀ p, p < 12 → u.portState p = if s.flag F.portCtl_ENABLE p = false then 0
          else if s.isFailsafe || s.isUnready || s.flag F.portCtl_FORCE_FI p then 5 else 1
      let hostReset (forced : Bool) (u : State) : Prop := ended forced u ∧
        (∀ r, r < 128 → u.flag F.ringCfg_ENABLE r = false ∧ (u.ring r).steps = []) ∧
        u.host.held = (s.host.held.filter fun (h : HeldReq) => decide (b.since < h.since)) ∧
        ((∀ x ∈ s.rings, x.2.steps = []) → s.rsh = [] → u.mem = s.mem)
      let cacheReset (forced : Bool) (u : State) : Prop := ended forced u ∧ u.lines = [] ∧ u.mem = s.mem ∧ u.cores = s.cores ∧
        (forced = false → u.chaff = s.chaff) ∧
        (forced = true → s.ssChaff + s.lines.length ≤ 65536 → ∀ l ∈ s.lines, l.dirty = true → u.chaff.contains l.addr = true)
      let engineReset (forced : Bool) (u : State) : Prop := ended forced u ∧ (s.rsh = [] → keepsData s u)
      (¬ idle → completes .blockIdleReached s fun u => u = s) ∧
      (b.kind = 1 → b.target < 1152 → (∀ x ∈ s.rings, x.2.steps = []) →
        (idle → completes .blockIdleReached s (fieldReset false)) ∧ (late → completes .blockIdleTimeout s (fieldReset true))) ∧
      (b.kind = 2 → (idle → completes .blockIdleReached s (onconReset false)) ∧ (late → completes .blockIdleTimeout s (onconReset true))) ∧
      (b.kind = 3 → (idle → completes .blockIdleReached s (hostReset false)) ∧ (late → completes .blockIdleTimeout s (hostReset true))) ∧
      (b.kind = 4 → (idle → completes .blockIdleReached s (cacheReset false)) ∧ (late → completes .blockIdleTimeout s (cacheReset true))) ∧
      (b.kind = 5 → (idle → completes .blockIdleReached s (engineReset false)) ∧ (late → completes .blockIdleTimeout s (engineReset true))))

/-- The steps of bring-up, from STEP_STRAP to STEP_FETCH. A step that R460 does not accept sets ORDER and does nothing else. STEP_STRAP samples OPTSEL; STEP_SEED loads the image its policy and the journal choose; STEP_REPAIR counts the boot and the trial, once in a bring-up, and rebuilds the repair map, a core it finds permanent taking its field's spare; STEP_POWER puts the boot level in force and into REQ; STEP_VAULT zeroes the bins, and on a cold bring-up vaults and seedstore; STEP_FIELD and STEP_FETCH substitute slow cores and give every core its boot work item; each keeps running, with the code it will end with. -/
def Obligations.BringUpSteps : Prop :=
  ∀ (s : State) (a b r : SlotRead) (ans : BitVec 2) (n : CoreId) (lane : List (Nat × Bool × Nat)) (present : Bool),
    (∀ c code, (c, code) ∈ [(Instr.stepSeed ans 0 a b r, 2), (.stepRepair none, 3), (.stepPower none lane none, 4), (.stepVault none none, 5), (.stepField [n], 6),
        (.stepFetch, 7), (.stepLink, 8), (.stepTopo, 9), (.stepReady present, 10)] → s.stepAccepted code = false → completes c s fun t =>
          t.flag F.bringStatus_ORDER 0 = true ∧ regsOnly s t [(F.bringStatus_ORDER, 0)]) ∧
    (∀ counts c, s.stepsOpen = true → s.rst.job = none → s.bringState = 0 → s.fget F.bringStatus_STEP 0 = 1 → counts.length = 8 →
      (∀ x ∈ counts, min 63 x / 4 = c) → completes (.stepStrap counts) s fun t =>
        runs t 1 0 0 ∧ t.flag F.optselStat_VALID 0 = true ∧ t.fget F.optselStat_CODE 0 = c ∧ t.fget F.optselStat_POLICY 0 = c % 4 ∧
        t.fget F.optselStat_COUNT 0 = min 63 (counts.getLastD 0) ∧ t.mem = s.mem) ∧
    (∀ counts set, s.stepsOpen = true → s.rst.job = none → s.bringState = 0 → s.fget F.bringStatus_STEP 0 = 1 → strapSets 4 counts = (none, set) →
      completes (.stepStrap counts) s fun t => (∃ d, runs t 1 1 d) ∧ t.flag F.optselStat_VALID 0 = s.flag F.optselStat_VALID 0) ∧
    (s.stepAccepted 2 = true →
      (completes (.stepSeed 0 0 a b r) s fun t => runs t 2 3 0 ∧ t.seed.journal = s.seed.journal) ∧
      (∀ i slot j d, ans ≠ 0 → s.seedChoose a b r = (some (i, slot), j, d) → completes (.stepSeed ans 0 a b r) s fun t =>
        runs t 2 0 0 ∧ t.seed.journal = j ∧ t.seed.image = some i ∧ t.seed.booted = slot ∧ t.cfg = imageCfg i (if s.rst.cold then i.strmOn else s.strmOn) ∧ t.roles = roleTable 0 i.roles ∧
        t.mdq = [] ∧ t.fget F.optselStat_SLOT 0 = slot % 4) ∧
      (∀ j d, ans ≠ 0 → s.seedChoose a b r = (none, j, d) → completes (.stepSeed ans 0 a b r) s fun t =>
        runs t 2 2 d ∧ t.seed.journal = j ∧ t.seed.image = s.seed.image)) ∧
    (s.stepAccepted 3 = true →
      (∀ off, completes (.stepRepair (some off)) s fun t => runs t 3 0x10 off ∧ t.alm.boot = (if s.fget F.bringStatus_STEP 0 = 3 ∧ s.fget F.bringStatus_ATTEMPTS 0 ≠ 0 then s.alm.boot else s.alm.boot + 1) ∧ t.mem = s.mem) ∧
      (∀ x m, s.alm.log = [x] → x.kind = 5 → x.body.headD 9 = 1 → x.body.getD 1 0 = m → (∀ i, s.seed.image = some i → i.spares = []) →
        completes (.stepRepair none) s fun t => runs t 3 0 0 ∧ alFind t.spare (fieldOfCore m) = some m ∧ t.fget F.intStatus_SPARES_FREE 0 = 1151) ∧
      ((∀ x ∈ s.alm.log, x.kind ≠ 4 ∧ x.kind ≠ 5) → completes (.stepRepair none) s fun t =>
        runs t 3 0 0 ∧ t.alm.boot = (if s.fget F.bringStatus_STEP 0 = 3 ∧ s.fget F.bringStatus_ATTEMPTS 0 ≠ 0 then s.alm.boot else s.alm.boot + 1) ∧ t.ret.gone = [] ∧ t.mem = s.mem ∧
        t.seed.journal.trials = (if ¬ (s.fget F.bringStatus_STEP 0 = 3 ∧ s.fget F.bringStatus_ATTEMPTS 0 ≠ 0) ∧ s.seed.journal.trial ≤ 1 ∧ s.seed.booted = s.seed.journal.trial then min 3 (s.seed.journal.trials + 1) else s.seed.journal.trials) ∧
        ((∀ x ∈ s.alm.log, x.kind ≠ 3) → (∀ i, s.seed.image = some i → i.spares = []) → t.spare = [] ∧ t.fget F.intStatus_SPARES_FREE 0 = 1152))) ∧
    (s.stepAccepted 4 = true →
      (completes (.stepPower none [] none) s fun t =>
        let l := (s.seed.image.map fun i => i.bootLevel % 8).getD 3
        runs t 4 0 0 ∧ t.fget F.plStat_LEVEL 0 = l ∧ t.fget F.plCtl_REQ 0 = l ∧ t.power.volt = (levelOf l).1 ∧ t.power.shed = false ∧ t.mem = s.mem) ∧
      (∀ p mv, p < 16 → mv < 65536 → completes (.stepPower (some (p, mv)) lane none) s fun t => runs t 4 0x20 (p + mv * 65536)) ∧
      (∀ p dir, p < 16 → completes (.stepPower none lane (some (p, dir))) s fun t => runs t 4 0x21 (p + one dir * 16))) ∧
    (s.stepAccepted 5 = true →
      (completes (.stepVault none none) s fun t =>
        runs t 5 0 0 ∧ (∀ x, 0x4000000000 ≤ x → x < 0x4000000000 + 63 * 0x1000000 → memGet t.mem x = 0) ∧
        (s.rst.cold = true → t.valid = [] ∧ ∀ x, x < 0x3600000000 ∨ (0x8000000000 ≤ x ∧ x < 0x8000000000 + s.partNo.capacity) → memGet t.mem x = 0) ∧
        (s.rst.cold = false → t.valid = s.valid ∧ ∀ x, x < 0x4000000000 ∨ 0x4000000000 + 63 * 0x1000000 ≤ x → memGet t.mem x = memGet s.mem x)) ∧
      (∀ c, c < 64 → completes (.stepVault (some c) none) s fun t => runs t 5 0x30 c ∧ t.mem = s.mem) ∧
      (completes (.stepVault none (some n)) s fun t => runs t 5 0x31 n.val ∧ t.mem = s.mem)) ∧
    (s.stepAccepted 6 = true →
      (completes (.stepField []) s fun t =>
        runs t 6 0 0 ∧ t.fields = [] ∧ t.fieldsUp = some s.time.elapsed ∧ t.bounds = [] ∧ t.pauses = [] ∧ t.spare = s.spare ∧ t.mem = s.mem) ∧
      (alFind s.spare (fieldOfCore n) = none → completes (.stepField [n]) s fun t =>
        runs t 6 0 0 ∧ alFind t.spare (fieldOfCore n) = some n.val ∧ t.alm.queue.length = s.alm.queue.length + 1 ∧ t.mem = s.mem) ∧
      (∀ k, alFind s.spare (fieldOfCore n) = some k → completes (.stepField [n]) s fun t => runs t 6 0x11 (1 + n.val * 65536) ∧ t.spare = s.spare)) ∧
    (s.stepAccepted 7 = true →
      ((∀ i, i < s.roles.length → s.roleOk i = true) → completes .stepFetch s fun t =>
        runs t 7 0 0 ∧ t.bootEnd = [] ∧ t.mem = s.mem ∧ (t.core n).queue = (s.core n).queue ++ [s.bootItem n]) ∧
      (∀ i, (List.range s.roles.length).find? (fun i => !s.roleOk i) = some i → completes .stepFetch s fun t => runs t 7 0x50 i ∧ t.cores = s.cores))

/-- The end of bring-up. STEP_LINK trains every enabled port, one that kept its lock going to HELLO; STEP_TOPO loads module ID, routes and topology; STEP_READY compares them. A step whose work is done ends DONE, the last one with the module READY and a READY event, recovery after STEP_SEED of the recovery image; one that failed or exceeds its bound ends FAILED with its code; a boot work item that fails has its core substituted. -/
def Obligations.BringUpEnds : Prop :=
  ∀ (s : State) (n : CoreId) (present : Bool) (j : BringJob),
    (s.stepAccepted 8 = true → completes .stepLink s fun t =>
      runs t 8 0 0 ∧ t.mem = s.mem ∧ ∀ p, p < 12 → t.portState p =
        if s.flag F.portCtl_ENABLE p = false then s.portState p else if s.portState p = 5 ∧ (s.port p).cause = 5 then 2
        else if s.isFailsafe || s.isUnready || s.flag F.portCtl_FORCE_FI p then 5 else 1) ∧
    (s.stepAccepted 9 = true → ∀ i, s.seed.image = some i →
      ((∀ x ∈ i.routes, bitsOf x.2 24 6 = 0 ∧ bitsOf x.2 0 15 = 0) → completes .stepTopo s fun t =>
        runs t 9 0 0 ∧ t.hasId = true ∧ t.selfId = i.moduleId % 2 ^ 16 ∧ t.fget F.routeCtl_ACTIVE 0 = 0 ∧ t.link.topoId = i.topoId ∧
        t.link.expect = i.expect ∧ t.link.topo = i.topo ∧ (∀ k e, i.routes = [(k, e)] → t.link.routes = [(k, e)]) ∧ t.mem = s.mem) ∧
      (∀ x, i.routes.find? (fun r => bitsOf r.2 24 6 ≠ 0 || bitsOf r.2 0 15 ≠ 0) = some x → completes .stepTopo s fun t =>
        runs t 9 0x70 (x.1 % 65536) ∧ t.link = s.link)) ∧
    (s.stepAccepted 10 = true → completes (.stepReady present) s fun t =>
      (if s.readyDetail present = 0 then runs t 10 0 0 else runs t 10 0x80 (s.readyDetail present)) ∧ t.mem = s.mem) ∧
    (s.rst.job = some j → j.code = 0 → s.stepWorkDone = true →
      (s.fget F.bringStatus_STEP 0 ≠ 10 → ¬ (s.fget F.bringStatus_STEP 0 = 2 ∧ s.seed.booted = 2) → completes .bringStepDone s fun t =>
        t.bringState = 1 ∧ t.rst.job = none ∧
        t.power = (if s.fget F.bringStatus_STEP 0 = 5 then { s.power with recal := some (s.time.elapsed + 1000000) } else s.power) ∧
        regsOnly s { t with rst := s.rst, power := s.power } [(F.bringStatus_STATE, 0), (F.stepTime_ELAPSED_US, 0)]) ∧
      (s.fget F.bringStatus_STEP 0 = 2 → s.seed.booted = 2 → completes .bringStepDone s fun t =>
        t.bringState = 4 ∧ t.rst.job = none ∧ regsOnly s { t with rst := s.rst } [(F.bringStatus_STATE, 0), (F.stepTime_ELAPSED_US, 0)]) ∧
      (s.fget F.bringStatus_STEP 0 = 10 → completes .bringStepDone s fun t =>
        t.isReady = true ∧ t.rst.job = none ∧ t.flag F.hifStatus_READY 0 = true ∧ t.mgmt.evSeq = s.mgmt.evSeq + 1 ∧ t.mem = s.mem ∧ t.cores = s.cores)) ∧
    (s.rst.job = some j → j.code ∉ [0, 2, 3, 0x10, 0x11, 0x50, 0x70] → j.code < 256 → completes .bringStepDone s fun t =>
      t.bringState = 2 ∧ t.fget F.bringStatus_CODE 0 = j.code ∧ t.rst.job = none ∧ t.mem = s.mem ∧ t.cores = s.cores) ∧
    (s.rst.job = some j → s.fget F.bringStatus_STEP 0 ≠ 8 → j.since + j.bound ≤ s.time.elapsed → completes .bringStepTimeout s fun t =>
      t.bringState = 2 ∧ t.fget F.bringStatus_CODE 0 = 0xF0 ∧ t.rst.job = none ∧ t.mem = s.mem ∧ t.cores = s.cores) ∧
    (s.rst.job = some j → s.time.elapsed < j.since + j.bound → (completes .bringStepTimeout s fun t => t = s) ∧ completes .stepLinkLimit s fun t => t = s) ∧
    (s.rst.job = some j → s.fget F.bringStatus_STEP 0 = 8 → j.since + j.bound ≤ s.time.elapsed → completes .stepLinkLimit s fun t =>
      t.bringState = 1 ∧ t.rst.job = none ∧ t.mem = s.mem ∧ t.cores = s.cores) ∧
    (s.rst.job = some j → s.fget F.bringStatus_STEP 0 = 7 → s.bringState = 0 → alFind s.spare (fieldOfCore n) = none →
      (∃ st, s.bootEnd.find? (fun x => x.1 = n.val) = some (n.val, st) ∧ st ≠ 0) ∨
        (s.bootEnd.find? (fun x => x.1 = n.val) = none ∧ j.since.max (alGet 0 j.again n) + 1000000 ≤ s.time.elapsed) →
      completes (.bootItemTimeout n) s fun t =>
        alFind t.spare (fieldOfCore n) = some n.val ∧ (t.core n).queue = [s.bootItem n] ∧ (t.core n).wi = none ∧ t.mem = s.mem ∧
        t.bootEnd.find? (fun x => x.1 = n.val) = none ∧ ∀ m, m ≠ n.val → t.core m = s.core m)

/-- Field updates and the Almanac. An update is taken while no slot is on trial: the component's slot is marked LOADING and erased, its data are programmed in order, the slot verified and marked VERIFIED or BAD; activation puts a VERIFIED slot at or above the floor on trial, and CONFIRM with its key, on a READY module that runs the trial slot, makes it active and raises the floor. A record is committed with the next SEQ, a device that fails twice becomes fallow, and the oldest segment is erased when few are left. -/
def Obligations.FieldUpdates : Prop :=
  ∀ (s : State) (size : Nat) (data : List Byte) (read : SlotRead) (val : W32), let j := s.seed.journal
    (1 < j.trial → s.seed.stage = 0 → s.bringState ≠ 4 → completes .requestUpdate s fun t =>
      t.seed.upd = some { slot := j.target, size := none } ∧ t.seed.stage = 1 ∧ t.seed.journal.slot j.target = 1 ∧
      t.seed.journal.active = j.active ∧ t.seed.journal.trial = j.trial ∧ t.out = s.out ++ [.mgmt 1 0 []] ∧ keepsData s t) ∧
    ((j.trial ≤ 1 ∨ s.seed.stage ≠ 0) → (completes .requestUpdate s fun t => t = s.emit (.mgmt 1 4 []))) ∧
    (∀ u, s.seed.upd = some u → u.size = none →
      (1 ≤ size → size ≤ 41943040 → completes (.updateComponent size) s fun t =>
        t.seed.upd = some { u with size := some size } ∧ t.seed.journal.slot u.slot = 1 ∧ alFind t.seed.slots u.slot = none ∧
        t.seed.journal.active = j.active ∧ t.out = s.out ++ [.mgmt 1 0 []] ∧ keepsData s t) ∧
      (size = 0 ∨ 41943040 < size → (completes (.updateComponent size) s fun t => t = s.emit (.mgmt 1 0x82 [])))) ∧
    (∀ u n, s.seed.upd = some u → u.size = some n →
      let all := (((alFind s.seed.slots u.slot).getD []) ++ data).take n
      completes (.firmwareData data) s fun t =>
        alFind t.seed.slots u.slot = some all ∧ keepsData s t ∧
        (if all.length < n then t.seed.upd = some u ∧ t.seed.journal = j
         else t.seed.upd = none ∧ t.seed.stage = 2 ∧ t.seed.journal.slot u.slot = 2 ∧ t.mgmt.evSeq = s.mgmt.evSeq + 1)) ∧
    (s.seed.stage = 2 →
      (s.imageReason read false = 0 → completes (.slotVerifyDone read none) s fun t =>
        t.seed.stage = 3 ∧ t.seed.journal.slot j.target = 3 ∧ t.seed.journal.active = j.active ∧ keepsData s t ∧
        t.mgmt.evSeq = s.mgmt.evSeq + 1 ∧ t.out = s.out ++ [.mgmt 1 0 []]) ∧
      (s.imageReason read false ≠ 0 → completes (.slotVerifyDone read none) s fun t =>
        t.seed.stage = 0 ∧ t.seed.journal.slot j.target = 4 ∧ t.seed.journal.active = j.active ∧ keepsData s t ∧
        t.out = s.out ++ [.mgmt 1 (s.imageReason read false) []])) ∧
    (1 < j.trial → j.slot j.target = 3 → j.floor ≤ alGet 0 s.seed.sec j.target → completes .activateFirmware s fun t =>
      t.seed.journal = { j with trial := j.target, trials := 0 } ∧ t.seed.stage = 4 ∧ t.mgmt.evSeq = s.mgmt.evSeq + 1 ∧
      t.out = s.out ++ [.mgmt 1 0 [1]] ∧ keepsData s t) ∧
    ((j.trial ≤ 1 ∨ j.slot j.target ≠ 3 ∨ alGet 0 s.seed.sec j.target < j.floor) → (completes .activateFirmware s fun t => t = s.emit (.mgmt 1 0x84 []))) ∧
    (bitAt val.toNat 0 = true →
      (bitsOf val.toNat 16 16 = 0x5EEC → s.isReady = true → s.rst.emergency = false → j.trial ≤ 1 → s.seed.booted = j.trial → completes (.seedConfirm val) s fun t =>
        t.seed.journal = { j with active := j.trial, trial := 0xFF, trials := 0, floor := s.fget F.seedVer_SEC_VERSION 0 } ∧ t.seed.stage = 0 ∧
        (∀ ks, s.seed.image.bind Image.keys = some ks → t.seed.keys = ks) ∧ t.mgmt.evSeq = s.mgmt.evSeq + 1 ∧ keepsData s t) ∧
      ((bitsOf val.toNat 16 16 ≠ 0x5EEC ∨ s.isReady = false ∨ 1 < j.trial ∨ s.seed.booted ≠ j.trial) → completes (.seedConfirm val) s fun t =>
        t.flag F.seedCtl_CONF_ERR 0 = true ∧ regsOnly s t [(F.seedCtl_CONF_ERR, 0)])) ∧
    (∀ r rest, s.alm.queue = r :: rest → s.rst.job = none → s.rst.emergency = false → s.alm.fullFor r = false → s.seed.fallow = [] →
      (completes (.almanacRecordWrite true true) s fun t =>
        t.alm.queue = rest ∧ t.fget F.almSeq_SEQ 0 = (s.fget F.almSeq_SEQ 0 + 1) % 2 ^ F.almSeq_SEQ.width ∧
        t.alm.segs.flatten = s.alm.segs.flatten ++ [{ r with seq := s.fget F.almSeq_SEQ 0 + 1 }] ∧ t.seed.fallow = [] ∧ keepsData s t) ∧
      (s.seed.weak = [] → completes (.almanacRecordWrite false true) s fun t =>
        t.alm.queue = s.alm.queue ∧ t.seed.weak = [0] ∧ t.seed.fallow = [] ∧ t.alm.segs = s.alm.segs ∧ keepsData s t) ∧
      (s.seed.weak = [0] → completes (.almanacRecordWrite false true) s fun t =>
        t.seed.fallow = [0] ∧ t.alm.segs.flatten = s.alm.segs.flatten ++ [{ r with seq := s.fget F.almSeq_SEQ 0 + 1 }] ∧ keepsData s t)) ∧
    (∀ region, region ≠ 0 → completes (.almanacCompact region) s fun t =>
      t.alm.control = (if 16 - s.alm.control < 2 then s.alm.control - 1 else s.alm.control) ∧ t.alm.segs = s.alm.segs ∧ keepsData s t) ∧
    (∀ k, s.alm.compactAt = some k → s.time.elapsed < k + 10000000000 → s.alm.segs.length ≤ 508 → completes (.almanacCompact 0) s fun t => t = s) ∧
    (∀ seg more, s.alm.segs = [] :: seg :: more → 497 ≤ s.alm.segs.length → (∀ k, s.alm.compactAt = some k → k + 10000000000 ≤ s.time.elapsed) →
      ((s.alm.log.filter fun r => almMapKind r.kind).map fun r => almSize r.kind).sum < 496 * segRoom → completes (.almanacCompact 0) s fun t =>
        t.alm.segs = seg :: more ∧ t.alm.erases = s.alm.erases + 1 ∧ t.alm.queue = s.alm.queue ∧ keepsData s t)

/-- Requests of the management endpoint. Each SPDM request is answered as the responder of R511 to R513 does (slot 0 alone holds a chain, an absent block and another slot are an error, sessions are not supported) and changes nothing; MCTP control assigns and reports the endpoint; PLDM answers with the identification data, takes an event receiver, hands it the oldest pending event, and its sensors hold the monitors' values, none for what is unpowered. -/
def Obligations.ManagementRequests : Prop :=
  ∀ (s : State) (eid : BitVec 8) (k : BitVec 8) (addr : BitVec 7) (slot off len index : Nat) (nonce : List Byte) (vin iin pin ss : Nat),
    (completes .getVersion s fun t => t = s.emit (.mgmt 5 4 [0x13])) ∧ (completes .getCapabilities s fun t => t = s.emit (.mgmt 5 0x61 (toLE 4 0x16))) ∧
    (completes .negotiateAlgorithms s fun t => t = s.emit (.mgmt 5 0x63 (toLE 4 0x80 ++ toLE 4 2))) ∧
    (completes .getDigests s fun t => t = s.emit (.mgmt 5 1 (1 :: sha384 Config.certChain))) ∧
    (off < Config.certChain.length → ∃ part rest, Config.certChain = Config.certChain.take off ++ part ++ rest ∧ part.length = min len (Config.certChain.length - off) ∧
      (completes (.getCertificate 0 off len) s fun t => t = s.emit (.mgmt 5 2 (toLE 2 part.length ++ toLE 2 rest.length ++ part)))) ∧
    (slot ≠ 0 → (completes (.getCertificate slot off len) s fun t => t = s.emit (.mgmt 5 0x7F [1])) ∧ (completes (.challenge slot nonce) s fun t => t = s.emit (.mgmt 5 0x7F [1]))) ∧
    (completes (.challenge 0 nonce) s fun t => t = s.emit (.mgmt 5 3 (sha384 Config.certChain ++ Config.sign (sha384 Config.certChain ++ nonce)))) ∧
    (∀ b, s.measure index = some b → index ≠ 0 → index ≠ 0xFF →
      (completes (.getMeasurements index) s fun t => t = s.emit (.mgmt 5 0x60 (1 :: BitVec.ofNat 8 index :: (toLE 2 b.length ++ b))))) ∧
    (s.measure index = none → index ≠ 0 → index ≠ 0xFF → (completes (.getMeasurements index) s fun t => t = s.emit (.mgmt 5 0x7F [1]))) ∧
    (∀ img, s.seed.image = some img → 4 ≤ img.digests.length →
      (completes (.getMeasurements 0) s fun t => t = s.emit (.mgmt 5 0x60 [if s.seed.booted = 2 then 6 else 7]))) ∧
    (∃ l : List (Nat × List Byte), (∀ x, x ∈ l ↔ x.1 < 8 ∧ s.measure x.1 = some x.2) ∧ l.Pairwise (fun x y => x.1 < y.1) ∧
      (completes (.getMeasurements 0xFF) s fun t => t = s.emit (.mgmt 5 0x60 (toLE 1 l.length ++ l.flatMap fun x => toLE 1 x.1 ++ toLE 2 x.2.length ++ x.2)))) ∧
    (completes (.spdmUnsupportedRequest k) s fun t => t = s.emit (.mgmt 5 0x7F [7, k])) ∧
    (eid ≠ 0 → eid ≠ 0xFF → completes (.setEndpointId eid) s fun t =>
      t.mgmt.eid = eid.toNat ∧ t.out = s.out ++ [.mgmt 0 0 [0, eid]] ∧ t = { s with mgmt := t.mgmt, out := t.out }) ∧
    (eid = 0 ∨ eid = 0xFF → (completes (.setEndpointId eid) s fun t => t = s.emit (.mgmt 0 2 []))) ∧
    (completes .getEndpointId s fun t => t = s.emit (.mgmt 0 0 (toLE 1 s.mgmt.eid))) ∧ (completes .getEndpointUuid s fun t => t = s.emit (.mgmt 0 0 Config.uuid)) ∧
    (completes .getMctpVersionSupport s fun t => t = s.emit (.mgmt 0 0 [1, 0xF1, 0xF3, 0xFF, 0])) ∧ (completes .getMessageTypeSupport s fun t => t = s.emit (.mgmt 0 0 [3, 1, 5, 0x7E])) ∧
    (completes (.mctpUnsupportedType k) s fun t => t = s) ∧
    (completes (.i3cDynamicAddress addr) s fun t => t.mgmt.i3c = some addr.toNat ∧ t = { s with mgmt := t.mgmt }) ∧
    (∃ part gib, (completes .getFruRecordTable s fun t => t = s.emit (.mgmt 1 0 (ascii "Hjelex" ++ ascii part ++ toLE 1 gib ++ Config.serial ++ Config.madeOn ++ Config.mac ++
        toLE 2 s.moduleId ++ toLE 1 (one s.hasId)))) ∧
      (part, gib) = match s.partNo with | .a64 => ("HJX-PW1-A64", 64) | .a128 => ("HJX-PW1-A128", 128)) ∧
    (completes .setEventReceiver s fun t => t.mgmt.receiver = true ∧ t.out = s.out ++ [.mgmt 1 0 []] ∧ t = { s with mgmt := t.mgmt, out := t.out }) ∧
    (s.mgmt.poll = [] → (completes .pollForPlatformEventMessage s fun t => t = s.emit (.mgmt 1 0 []))) ∧
    (∀ e rest, s.mgmt.poll = e :: rest → completes .pollForPlatformEventMessage s fun t =>
      t.mgmt.poll = rest ∧ t.out = s.out ++ [.pldmEvent e] ∧ t = { s with mgmt := t.mgmt, out := t.out }) ∧
    (completes (.pldmSensorRefresh vin iin pin ss) s fun t =>
      t = { s with mgmt := { s.mgmt with sensors := t.mgmt.sensors } } ∧ alFind t.mgmt.sensors 1 = some vin ∧ alFind t.mgmt.sensors 2 = some iin ∧
      alFind t.mgmt.sensors 3 = some pin ∧ alFind t.mgmt.sensors 4 = some (s.fget F.capStat_CAP_W 0) ∧ alFind t.mgmt.sensors 17 = some s.timeUnc ∧
      (s.coreOff = false → alFind t.mgmt.sensors 7 = some (s.fget F.hotStat_TEMP 0) ∧ alFind t.mgmt.sensors 16 = some ss ∧
        ∀ p, p < 4 → alFind t.mgmt.sensors (12 + p) = some (s.fget F.plotPwr_POWER p)) ∧
      (s.coreOff = true → ∀ k, 7 ≤ k → k ≤ 16 → t.sensor k = none) ∧ t.sensor 33 = some s.sleep ∧ ∀ p, p < 12 → t.sensor (36 + p) = some (s.portState p))

/-- Levels, phases and the division of power. CEIL rises and returns by one level, and the level in force is the higher of REQ and CEIL; a failed phase is fallow and a spare starts; the cap is what TJ_LIMIT, the inlet and RTH allow, between 800 W and the board cap, RTH moving an eighth of the way to its estimate; each budget period divides the compute budget among the plots by demand, none below an eighth of it; more than 1,200 A cuts a plot's duty by an eighth. -/
def Obligations.PowerAndLevels : Prop :=
  ∀ (s : State) (plot : PlotId) (phase : Fin 96) (cluster : Fin 12) (mv others current ago amps predicted avgW hot other : Nat) (val : W32) (plots : List PlotReading),
    let c := s.fget F.plCtl_CEIL 0
    let awake := s.sleep = 0 ∧ s.flag F.sleepStat_ENTERING 0 = false ∧ s.fget F.plStat_LEVEL 0 < 8
    (c < 7 → completes (.ceilRaise plot) s fun t =>
      t.fget F.plCtl_CEIL 0 = c + 1 ∧ t.power.floor = c + 1 ∧ t.mgmt.evSeq = s.mgmt.evSeq + 1 ∧ keepsData s t ∧
      (awake → t.fget F.plStat_LEVEL 0 = max (s.fget F.plCtl_REQ 0) (c + 1) % 8)) ∧
    (7 ≤ c → completes (.ceilRaise plot) s fun t => t = s) ∧
    (1 ≤ c → c < 8 → 1 ≤ s.power.floor → completes (.ceilReturn plot) s fun t =>
      t.fget F.plCtl_CEIL 0 = c - 1 ∧ t.power.floor = s.power.floor - 1 ∧ t.mgmt.evSeq = s.mgmt.evSeq + 1 ∧ keepsData s t ∧
      (awake → t.fget F.plStat_LEVEL 0 = max (s.fget F.plCtl_REQ 0) (c - 1) % 8)) ∧
    (s.voltNow ≠ (levelOf (s.fget F.plStat_LEVEL 0)).1 → completes .levelRampDone s fun t => t = s) ∧
    (s.flag F.plStat_MOVING 0 = true → s.voltNow = (levelOf (s.fget F.plStat_LEVEL 0)).1 → completes .levelRampDone s fun t =>
      t.flag F.plStat_MOVING 0 = false ∧ (t.power.volt, t.power.bias, t.power.assist) = (let x := levelOf (s.fget F.plStat_LEVEL 0); (x.1, x.2.2.1, x.2.2.2)) ∧
      t = { s with regs := t.regs, power := t.power }) ∧
    (s.flag F.plCtl_AUTO 0 = true → s.sleep = 0 →
      (s.power.dutyAvg * 100 < 80 * 65536 → c < 7 → completes (.autoCeilAdjust predicted) s fun t =>
        t.fget F.plCtl_CEIL 0 = c + 1 ∧ t = { s with regs := t.regs, power := t.power }) ∧
      (80 * 65536 ≤ s.power.dutyAvg * 100 → 950 ≤ predicted → s.power.floor < c → s.fget F.plCtl_REQ 0 < c → c < 8 →
        completes (.autoCeilAdjust predicted) s fun t => t.fget F.plCtl_CEIL 0 = c - 1 ∧ t = { s with regs := t.regs, power := t.power })) ∧
    (s.flag F.plCtl_AUTO 0 = false → completes (.autoCeilAdjust predicted) s fun t => t = s) ∧
    (let tj := bitsOf val.toNat 24 8
     completes (.powerControlWrite true val) s fun t =>
      t.fget F.pwrCap_TJ_LIMIT 0 = (if 70 ≤ tj ∧ tj ≤ 105 then tj else 95) ∧
      t.fget F.pwrCap_BOARD_CAP 0 = max 800 (min 3600 (bitsOf val.toNat 0 16)) ∧ regsOnly s t [(F.pwrCap_TJ_LIMIT, 0), (F.pwrCap_BOARD_CAP, 0)]) ∧
    (completes (.powerControlWrite false val) s fun t =>
      t.fget F.plCtl_REQ 0 = bitsOf val.toNat 0 3 ∧ t.fget F.plCtl_AUTO 0 = bitsOf val.toNat 4 1 ∧ regsOnly s t [(F.plCtl_REQ, 0), (F.plCtl_AUTO, 0)]) ∧
    (let k := plot.val * 96 + phase.val
     let free := s.fget F.plotPhase_SPARES_FREE plot
     let started (t : State) : Prop := t.power.fallow.contains k = true ∧ t.fget F.plotPhase_SPARES_FREE plot = free - 1 ∧
       alGet 0 t.power.starting plot = alGet 0 s.power.starting plot + 1 ∧ t.alm.queue.length = s.alm.queue.length + 1 ∧
       t.mgmt.evSeq = s.mgmt.evSeq + 1 ∧ keepsData s t
     let lost (t : State) : Prop := t.power.fallow.contains k = true
     (s.power.fallow.contains k = true →
       (completes (.phaseFailShort plot phase) s fun t => t = s) ∧ completes (.phaseFailOpen plot phase) s fun t => t = s) ∧
     (s.power.fallow.contains k = false → 1 ≤ free → free < 9 →
       completes (.phaseFailShort plot phase) s started ∧ completes (.phaseFailOpen plot phase) s started) ∧
     (s.power.fallow.contains k = false → free = 0 →
       completes (.phaseFailShort plot phase) s lost ∧ completes (.phaseFailOpen plot phase) s lost)) ∧
    (2 ≤ s.sleep → completes (.sparePhaseSoftStartDone plot) s fun t => t = s) ∧
    (∀ n, alFind s.power.starting plot = some n → s.sleep < 2 → completes (.sparePhaseSoftStartDone plot) s fun t =>
      alFind t.power.starting plot = (if n ≤ 1 then none else some (n - 1)) ∧ t = { s with power := t.power }) ∧
    (s.flag F.plStat_MOVING 0 = false → s.flag F.sleepStat_EXITING 0 = false → alFind s.power.starting plot = none → 12 ≤ mv →
      others ≤ 4 → current < 30 → 100000 ≤ ago → s.crackQuiet plot cluster (s.time.elapsed - ago) = true →
      completes (.crackSuspect plot cluster mv others current ago) s fun t =>
        t.fget F.plotPhase_CRACKS plot = min 255 (s.fget F.plotPhase_CRACKS plot + 1) ∧ t.mgmt.evSeq = s.mgmt.evSeq + 1 ∧
        t.alm.queue.length = s.alm.queue.length + 1 ∧ keepsData s t) ∧
    (mv < 12 ∨ 4 < others ∨ 30 ≤ current ∨ ago < 100000 → completes (.crackSuspect plot cluster mv others current ago) s fun t => t = s) ∧
    (s.sleep = 0 → completes .capRecompute s fun t =>
      (let tj := s.fget F.pwrCap_TJ_LIMIT 0
       let limit := if 70 ≤ tj ∧ tj ≤ 105 then tj else 95
       let board := max 800 (min 3600 (s.fget F.pwrCap_BOARD_CAP 0))
       t.fget F.capStat_CAP_W 0 = if s.fget F.capStat_RTH 0 = 0 then board
        else min board (max 800 ((limit * 10 - s.inlet) * 100000 / s.fget F.capStat_RTH 0))) ∧
      t.fget F.plStat_DUTY 0 = s.lowDuty ∧ t = { s with regs := t.regs, power := t.power } ∧
      (s.flag F.plCtl_AUTO 0 = false → awake →
        t.fget F.plStat_LEVEL 0 = max (s.fget F.plCtl_REQ 0) (s.power.floor % 8) % 8)) ∧
    (completes (.rthUpdate avgW hot) s fun t =>
      t.fget F.capStat_AVG_W 0 = avgW % 2 ^ F.capStat_AVG_W.width ∧ regsOnly s t [(F.capStat_AVG_W, 0), (F.capStat_RTH, 0)] ∧
      (avgW < 1000 → t.fget F.capStat_RTH 0 = s.fget F.capStat_RTH 0) ∧
      (1000 ≤ avgW → t.fget F.capStat_RTH 0 = min 65535 ((s.fget F.capStat_RTH 0 : Int) +
        ((((hot : Int) - 160) * 250000 - (s.inlet : Int) * 100000) / (avgW : Int) - s.fget F.capStat_RTH 0) / 8).toNat)) ∧
    (s.sleep < 2 → completes (.budgetPeriod other plots) s fun t =>
      let cap := (s.fget F.capStat_CAP_W 0 - other) * 10000
      let r := fun p => plots.getD p ⟨none, 0, 0, 0, 0, 0, 0⟩
      let dem := fun p => (r p).demand.getD (alGet 0 s.power.demand p)
      let total := dem 0 + dem 1 + dem 2 + dem 3
      let share := fun p => if total = 0 then cap / 4 else cap * dem p / total
      let low := (List.range 4).filter fun p => share p ≤ cap / 8
      let high := (List.range 4).filter fun p => cap / 8 < share p
      t = { s with regs := t.regs, power := t.power } ∧ ∀ p, p < 4 →
        t.fget F.plotPwr_BUDGET p = min (if share p ≤ cap / 8 then cap / 8 else (cap - low.length * (cap / 8)) * share p / (high.map share).sum)
          (12000 * (r p).vout) / 10000 % 2 ^ F.plotPwr_BUDGET.width ∧
        alFind t.power.demand p = some (dem p) ∧ alGet 0 t.power.duty p ≤ 65536 ∧
        t.fget F.plotPwr_POWER p = (r p).power / 10000 % 2 ^ F.plotPwr_POWER.width ∧ t.fget F.plotPwr_VMIN p = (r p).vmin % 2 ^ F.plotPwr_VMIN.width) ∧
    (completes (.budgetMessageStale plot) s fun t => t.mgmt.evSeq = s.mgmt.evSeq + 1 ∧ t.power = s.power ∧ keepsData s t) ∧
    (1200 < amps → completes (.overcurrentDutyCut plot amps) s fun t =>
      alFind t.power.duty plot = some (alGet 65536 s.power.duty plot - alGet 65536 s.power.duty plot / 8) ∧ t = { s with regs := t.regs, power := t.power }) ∧
    (amps ≤ 1200 → completes (.overcurrentDutyCut plot amps) s fun t => t = s)

/-- Temperatures and sleep states. A diode's reading updates CORE_TEMP and HOT_STAT, and the substituted readings beside it; above 105 degrees the core is throttled to half its duty, falling by an eighth and rising again below 103; 115 degrees trips the module; a broken diode reads 115 and holds its core until its neighbours' highest reading plus 4 degrees replaces it; a broken sensor without substitute is fail-safe. An entry into a sleep state asks every block and is committed when all accept, ends when one refuses or WAIT_MS has passed, and the exit returns to S0, from S2 with the vaults recalibrated. -/
def Obligations.TemperatureAndSleep : Prop :=
  ∀ (s : State) (n : CoreId) (q : Int) (val : W32) (kind unit : Nat) (block : Fin 9),
    let d := s.dutyOf n
    let broken := fun t : State => t.fget F.coreTemp_TEMP n = tempOf 115 ∧ t.flag F.coreTemp_VALID n = true ∧ t.fget F.vaultBand_BAND n = 4 ∧
      t.flag F.vaultBand_DIODE_FAIL n = true ∧ (t.core n).hold = true ∧ t.power.broken.contains n.val = true ∧ alFind t.power.falls n = none ∧ t.mem = s.mem ∧
      ∀ m, m ≠ n.val → t.core m = s.core m
    (s.flag F.coreTemp_SUBST n = false → completes (.diodeBroken n) s broken) ∧
    (s.flag F.coreTemp_SUBST n = false → s.power.broken.contains n.val = false →
      (q < -80 ∨ 600 < q → completes (.diodeConversion n q) s broken) ∧
      (-80 ≤ q → q ≤ 420 → completes (.diodeConversion n q) s fun t =>
        t.fget F.coreTemp_TEMP n = (q + 160).toNat ∧ t.flag F.coreTemp_VALID n = true ∧ t.power = s.power ∧ keepsData s t ∧
        (∀ k ∈ s.neighbours n, s.flag F.coreTemp_SUBST k = true → t.ownReadings k ≠ [] →
          t.fget F.coreTemp_TEMP k = ((t.ownReadings k).foldl max 0 + 16) % 2 ^ F.coreTemp_TEMP.width) ∧
        ((∀ k ∈ s.neighbours n, s.flag F.coreTemp_SUBST k = false) → s.fget F.hotStat_TEMP 0 ≤ (q + 160).toNat → t.fget F.hotStat_TEMP 0 = (q + 160).toNat ∧ t.fget F.hotStat_CORE 0 = n.val)) ∧
      (420 < q → q < 460 → alFind s.power.throttle n = none → completes (.diodeConversion n q) s fun t =>
        t.fget F.coreTemp_TEMP n = (q + 160).toNat ∧ t.flag F.coreTemp_THROTTLED n = decide (d / 2 < alGet 65536 s.power.duty (plotOfCore n)) ∧ alFind t.power.throttle n = some (d / 2) ∧ keepsData s t) ∧
      (460 ≤ q → q ≤ 600 → s.power.tripped = false → completes (.diodeConversion n q) s fun t =>
        t.power.tripped = true ∧ t.power.shed = true ∧ t.host.link = false ∧ (∀ p, p < 12 → t.portState p = 0) ∧ t.mem = s.mem)) ∧
    (∀ x, alFind s.power.throttle n = some x →
      (tempOf 105 < s.fget F.coreTemp_TEMP n → completes (.throttleStep n) s fun t =>
        alFind t.power.throttle n = some (max 8192 (x - x / 8)) ∧
        t.flag F.coreTemp_THROTTLED n = decide (max 8192 (x - x / 8) < alGet 65536 s.power.duty (plotOfCore n)) ∧ keepsData s t) ∧
      (s.fget F.coreTemp_TEMP n < tempOf 103 → completes (.throttleStep n) s fun t =>
        alFind t.power.throttle n = (if alGet 65536 s.power.duty (plotOfCore n) ≤ x + 8192 then none else some (x + 8192)) ∧ keepsData s t) ∧
      (tempOf 103 ≤ s.fget F.coreTemp_TEMP n → s.fget F.coreTemp_TEMP n ≤ tempOf 105 → completes (.throttleStep n) s fun t => t = s)) ∧
    (s.power.broken.contains n.val = true →
      let own := (s.neighbours n).filter fun k => s.flag F.coreTemp_VALID k && !s.flag F.coreTemp_SUBST k && !s.power.broken.contains k
      ((alFind s.subst n).isSome = true → completes (.diodeSubstitute n) s fun t => t = s) ∧
      (own ≠ [] → alFind s.subst n = none → completes (.diodeSubstitute n) s fun t =>
        t.fget F.coreTemp_TEMP n = ((own.map fun k => s.fget F.coreTemp_TEMP k).foldl max 0 + 16) % 2 ^ F.coreTemp_TEMP.width ∧
        t.flag F.coreTemp_SUBST n = true ∧ (t.core n).hold = false ∧ t.power.broken.contains n.val = false ∧ t.mem = s.mem ∧
        t.alm.queue.length = s.alm.queue.length + 1) ∧
      (own = [] → alFind s.spare (fieldOfCore n) = none → (∀ x ∈ s.subst, fieldOfCore x.1 ≠ fieldOfCore n) → completes (.diodeSubstitute n) s fun t =>
        alFind t.subst n = some 0 ∧ (t.field (fieldOfCore n)).held = true ∧ t.mem = s.mem ∧ t.cores = s.cores)) ∧
    (s.isFailsafe = false → completes (.sensorBroken kind unit) s fun t =>
      t.isFailsafe = true ∧ t.bringState = 5 ∧ t.moves = [] ∧ (∀ p, p < 12 → t.portState p = 5) ∧ t.mem = s.mem) ∧
    (completes (.coolInWrite val) s fun t =>
      t.fget F.coolIn_INLET 0 = bitsOf val.toNat 0 12 ∧ t.flag F.coolIn_STALE 0 = false ∧ t.power.coolAt = some s.time.elapsed ∧
      t = { s with regs := t.regs, power := t.power }) ∧
    (∀ x, s.power.coolAt = some x → completes .coolInStale s fun t =>
      t.flag F.coolIn_STALE 0 = (decide (x + 10000000000 ≤ s.time.elapsed) || s.flag F.coolIn_STALE 0) ∧ regsOnly s t [(F.coolIn_STALE, 0)]) ∧
    (s.power.coolAt = none → completes .coolInStale s fun t => t.flag F.coolIn_STALE 0 = true ∧ regsOnly s t [(F.coolIn_STALE, 0)]) ∧
    (let busy : Prop := s.flag F.sleepStat_ENTERING 0 = true ∨ s.flag F.sleepStat_EXITING 0 = true
     let lost (t : State) : Prop := t.flag F.sleepCtl_LOST 0 = true ∧ regsOnly s t [(F.sleepCtl_LOST, 0)]
     let notReady (t : State) : Prop := t.fget F.sleepStat_RESULT 0 = 3 ∧ regsOnly s t [(F.sleepStat_RESULT, 0)]
     let begun (k : Nat) (t : State) : Prop := t.flag F.sleepStat_ENTERING 0 = true ∧
       (∃ e, t.power.sleep = some e ∧ e.target = k ∧ e.accepted = [] ∧ e.committed = false) ∧ t = { s with regs := t.regs, power := t.power }
     (busy → completes .sleepTargetS1 s lost ∧ completes .sleepTargetS2 s lost ∧ completes .sleepTargetS4 s lost) ∧
     (¬ busy → s.isReady = false →
       (s.sleep < 1 → completes .sleepTargetS1 s notReady) ∧ (s.sleep < 2 → completes .sleepTargetS2 s notReady) ∧
       (s.sleep < 3 → completes .sleepTargetS4 s notReady)) ∧
     (¬ busy → s.isReady = true →
       (s.sleep < 1 → completes .sleepTargetS1 s (begun 1)) ∧ (s.sleep < 2 → completes .sleepTargetS2 s (begun 2)) ∧
       (s.sleep < 3 → completes .sleepTargetS4 s (begun 3)))) ∧
    (s.flag F.sleepStat_ENTERING 0 = false → s.flag F.sleepStat_EXITING 0 = false →
      (s.sleep = 1 ∨ s.sleep = 2 → completes .sleepTargetS0 s fun t => t.flag F.sleepStat_EXITING 0 = true ∧ regsOnly s t [(F.sleepStat_EXITING, 0)]) ∧
      (s.sleep = 3 → completes .sleepTargetS0 s fun t =>
        t.sleep = 0 ∧ t.time = s.time ∧ t.mgmt = s.mgmt ∧ t.cores = [] ∧ t.rings = [] ∧ t.valid = [] ∧
        ∀ x ∈ t.mem, 0x4000000000 ≤ x.1 ∧ x.1 < 0x8000000000)) ∧
    (∀ e, s.power.sleep = some e → e.committed = false →
      (e.accepted.contains block.val = false →
        (s.sleepAnswer block e.target = .accept → completes (.sleepBlockAnswer block) s fun t =>
          (∃ e', t.power.sleep = some e' ∧ e'.accepted = setIns e.accepted block ∧ e'.committed = decide (e'.accepted.length = 9) ∧ e'.target = e.target) ∧
          t = { s with power := t.power }) ∧
        (s.sleepAnswer block e.target = .delay → completes (.sleepBlockAnswer block) s fun t =>
          t.power = s.power ∧ t.fget F.sleepStat_BLOCK 0 = block.val + 1 ∧ t.mem = s.mem) ∧
        (s.sleepAnswer block e.target = .refuse → completes (.sleepBlockAnswer block) s fun t =>
          t.power.sleep = none ∧ t.fget F.sleepStat_BLOCK 0 = block.val + 1 ∧ t.fget F.sleepStat_RESULT 0 = 1 ∧ t.flag F.sleepStat_ENTERING 0 = false ∧
          t = { s with regs := t.regs, power := t.power })) ∧
      (let w := s.fget F.sleepCtl_WAIT_MS 0
       e.since + (if w = 0 then 10 else w) * 1000000 ≤ s.time.elapsed → completes .sleepEntryTimeout s fun t =>
        t.power.sleep = none ∧ t.fget F.sleepStat_RESULT 0 = 2 ∧ t.flag F.sleepStat_ENTERING 0 = false ∧ t = { s with regs := t.regs, power := t.power })) ∧
    (∀ e, s.power.sleep = some e → e.committed = true → 1 ≤ e.target → e.target ≤ 3 → completes .sleepEntryDone s fun t =>
      t.sleep = e.target ∧ t.flag F.sleepStat_ENTERING 0 = false ∧ t.fget F.sleepStat_RESULT 0 = 0 ∧ t.power.sleep = none ∧ t.mem = s.mem ∧ t.cores = s.cores ∧
      t.flag F.sleepStat_EXITING 0 = ((s.power.wake && decide (e.target ≠ 3)) || s.flag F.sleepStat_EXITING 0) ∧
      (e.target = 2 → t.power.volt = 450) ∧
      (e.target ≠ 1 → t.fieldsUp = none ∧ t.power.recal = none ∧ (∀ p, p < 12 → t.portState p = 0) ∧ ∀ f, f < 1152 → t.flag F.fieldRate_VALID f = false) ∧ (e.target = 3 → t.host.link = false)) ∧
    (s.flag F.sleepStat_EXITING 0 = true → completes .sleepExitDone s fun t =>
      t.sleep = 0 ∧ t.flag F.sleepStat_EXITING 0 = false ∧ t.mem = s.mem ∧ t.cores = s.cores ∧
      (s.sleep = 2 → t.fieldsUp = some s.time.elapsed ∧ t.power.falls = [] ∧ t.power.recal = some (s.time.elapsed + 1000000)) ∧
      ∀ j, s.ret.waiting = some j → t.ret.job = some j ∧ t.ret.waiting = none)

/-- Events and module time. Events are sent in the order of their SEQ, to the collector and the receiver, and kept in a history of 4,096, from which RESEND sends again what reads correctly; an event beyond the admitted rate takes its SEQ and is counted as dropped. The port answers for its own address, which DHCP gives where CONFIG holds none. A Sync of the master in use steps the counter forward or slews it, never backward; the loss of Sync leads from LOCKED to HOLDOVER; software sets the time forward while PTP is off. -/
def Obligations.EventsAndTime : Prop :=
  ∀ (s : State) (first count ip mask gw : Nat) (data : List Nat) (dom master iv org sent recv : Nat) (set : List Nat) (two : Bool) (val : W32),
    (∀ e rest, s.mgmt.evQueue = e :: rest → completes .eventSend s fun t =>
      t.mgmt.evQueue = rest ∧ t.mgmt.evHist = (s.mgmt.evHist ++ [e]).drop (s.mgmt.evHist.length + 1 - 4096) ∧
      t.out = s.out ++ (if s.portIp.isSome && s.seed.image.isSome then [.event e false] else []) ++ (if s.mgmt.receiver then [.pldmEvent e] else []) ∧
      (e.kind = 6 ∨ e.kind = 7 → t.flag F.alertStatus_LINK 0 = true) ∧ (e.kind = 8 → t.flag F.alertStatus_POWER 0 = true) ∧
      (e.kind = 10 → t.flag F.alertStatus_MEMORY 0 = true) ∧ t.mgmt.evSeq = s.mgmt.evSeq ∧ keepsData s t) ∧
    (completes .heartbeat s fun t => t.mgmt.evSeq = s.mgmt.evSeq + 1 ∧ keepsData s t) ∧
    (1 ≤ refill s.mgmt.evTokens s.mgmt.evRefill s.time.elapsed 2000 4096 → completes .heartbeat s fun t =>
      ∃ e, t.mgmt.evQueue = s.mgmt.evQueue ++ [e] ∧ e.kind = 15 ∧ e.seq = s.mgmt.evSeq ∧ e.time = s.time.counter ∧ e.body.headD 9 = s.bringState) ∧
    (refill s.mgmt.evTokens s.mgmt.evRefill s.time.elapsed 2000 4096 = 0 → completes .heartbeat s fun t =>
      t.mgmt.evQueue = s.mgmt.evQueue ∧ t.mgmt.dropped = s.mgmt.dropped + 1 ∧ t.flag F.alertStatus_EVT_DROP 0 = true) ∧
    (∀ bad : List Nat,
      (1 ≤ count → count ≤ 256 → completes (.resend first count bad) s fun t =>
        t.out = s.out ++ (s.mgmt.evHist.filter fun e => decide (first ≤ e.seq ∧ e.seq < first + count) && !bad.contains e.seq).map (fun e => .event e true) ∧
        (bad = [] → t = { s with out := t.out }) ∧ keepsData s t ∧
        (∀ e ∈ s.mgmt.evHist, bad = [e.seq] → first ≤ e.seq → e.seq < first + count →
          t.mgmt.dropped = s.mgmt.dropped + 1 ∧ t.flag F.alertStatus_EVT_DROP 0 = true ∧ ∀ x ∈ t.mgmt.evHist, x.seq ≠ e.seq)) ∧
      (count = 0 ∨ 256 < count → completes (.resend first count bad) s fun t => t = s)) ∧
    (s.portIp = some ip → (completes (.arpRequest ip) s fun t => t = s.emit (.other 1 [ip])) ∧ (completes (.icmpEcho ip data) s fun t => t = s.emit (.other 2 (ip :: data)))) ∧
    (s.portIp ≠ some ip → (completes (.arpRequest ip) s fun t => t = s) ∧ completes (.icmpEcho ip data) s fun t => t = s) ∧
    (∀ i, s.seed.image = some i →
      (i.ip = 0 → completes (.dhcpExchange ip mask gw) s fun t => t.portIp = some ip ∧ t.mgmt.mask = mask ∧ t.mgmt.gateway = gw ∧ t = { s with mgmt := t.mgmt }) ∧
      (i.ip ≠ 0 → completes (.dhcpExchange ip mask gw) s fun t => t = s)) ∧
    (s.ptpOn = true → dom = s.ptpDomain →
      (∀ id w, bestMaster (alPut s.time.ptp.foreign master set) = some (id, w) → completes (.ptpAnnounce dom master set) s fun t =>
        t.time.ptp.master = some id ∧ t.time.counter = s.time.counter ∧ keepsData s t ∧
        (s.time.ptp.master ≠ some id → t.time.state = 1)) ∧
      (s.time.ptp.master = some master →
        (two = true → completes (.ptpSync dom master iv org two) s fun t =>
          t.time.ptp.waiting = some s.time.counter ∧ t.time.ptp.interval = iv ∧ t.time.counter = s.time.counter ∧ t = { s with time := t.time }) ∧
        (let behind : Int := s.time.ptp.delay + s.asym - ((s.time.counter : Int) - org)
         two = false → completes (.ptpSync dom master iv org two) s fun t =>
          (t.time.counter : Int) = (if 100000 < behind ∨ (1000 < behind ∧ s.time.undisc = true) then s.time.counter + behind else s.time.counter) ∧
          (¬ (100000 < behind ∨ (1000 < behind ∧ s.time.undisc = true)) → t.time.slew = behind) ∧ t.time.elapsed = s.time.elapsed ∧
          t.time.ptp.interval = iv ∧ keepsData s t) ∧
        (∀ w, s.time.ptp.waiting = some w → let behind : Int := s.time.ptp.delay + s.asym - ((w : Int) - org)
          completes (.ptpFollowUp dom master org) s fun t =>
            (t.time.counter : Int) = (if 100000 < behind ∨ (1000 < behind ∧ s.time.undisc = true) then s.time.counter + behind else s.time.counter) ∧
            t.time.ptp.waiting = none ∧ t.time.elapsed = s.time.elapsed ∧ keepsData s t) ∧
        (completes (.ptpDelayResp dom master sent recv) s fun t =>
          t.time.ptp.delay = ((s.time.ptp.ms + ((recv : Int) - sent)) / 2).toNat ∧ t.time.counter = s.time.counter ∧ t = { s with time := t.time }))) ∧
    (s.ptpOn = false ∨ dom ≠ s.ptpDomain → (completes (.ptpAnnounce dom master set) s fun t => t = s) ∧ (completes (.ptpSync dom master iv org two) s fun t => t = s) ∧
      (completes (.ptpFollowUp dom master org) s fun t => t = s) ∧ completes (.ptpDelayResp dom master sent recv) s fun t => t = s) ∧
    (s.time.state = 2 → s.time.ptp.lastSync + 4 * s.time.ptp.interval ≤ s.time.elapsed → completes .ptpSyncLoss s fun t =>
      t.time.state = 3 ∧ t.time.ptp.master = none ∧ t.flag F.alertStatus_TIME 0 = true ∧ t.mgmt.evSeq = s.mgmt.evSeq + 1 ∧
      t.time.counter = s.time.counter ∧ keepsData s t) ∧
    (let ns := bitsOf val.toNat 0 30
     let new := s.fget F.timeSetS_S 0 * 1000000000 + ns
     bitAt val.toNat 31 = true →
      (s.ptpOn = false → ns ≤ 999999999 → s.time.counter ≤ new → completes (.timeSet val) s fun t =>
        t.time.counter = new ∧ t.time.slew = 0 ∧ t.time.elapsed = s.time.elapsed ∧ t.mgmt.evSeq = s.mgmt.evSeq + 1 ∧ keepsData s t) ∧
      (s.ptpOn = true ∨ 999999999 < ns ∨ new < s.time.counter → completes (.timeSet val) s fun t =>
        t.flag F.timeSetCtl_SET_ERR 0 = true ∧ t.time = s.time ∧ keepsData s t))

/-- Telemetry, gleans, traces, debug and the wait-for graph. A changed converter marks its next two samples STALE; a glean within its window is pending until its time, when counters are copied under one tag; a trace session needs a buffer in its partition's scratchpad, stores the records its filters admit and stops, or wraps, when it is full; a field is halted, its stall timers with it, with the key where CONFIG permits debug, and DBG_DATA then writes one register of one halted core; a report records the waits at a glean, with its header checked; a word of it that reads uncorrectably is fail-safe. -/
def Obligations.ObservationAndDebug : Prop :=
  ∀ (s : State) (conv : Fin 16) (val : W32) (v16 : BitVec 16) (rec : TraceRec) (held : Nat) (plot : PlotId) (index : Nat) (key : BitVec 16) (v : W64)
      (src : Src) (off size : Nat),
    (let avg := min 8 (bitsOf val.toNat 8 4)
     let chan := bitsOf val.toNat 0 8
     (s.fget F.tlmCfg_AVG conv ≠ avg ∨ s.fget F.tlmCfg_CHAN conv ≠ chan → completes (.tlmCfgWrite conv val) s fun t =>
        t.fget F.tlmCfg_AVG conv = avg ∧ t.fget F.tlmCfg_CHAN conv = chan ∧ t.flag F.tlmSample_VALID conv = false ∧ alGet 0 t.obs.stale conv = 2 ∧
        t = { s with regs := t.regs, obs := t.obs }) ∧
     (s.fget F.tlmCfg_AVG conv = avg → s.fget F.tlmCfg_CHAN conv = chan → completes (.tlmCfgWrite conv val) s fun t => t = s)) ∧
    (tlmChannel (s.fget F.tlmCfg_CHAN conv) = true → completes (.tlmSampleDone conv v16) s fun t =>
      t.fget F.tlmSample_VALUE conv = v16.toNat ∧ t.flag F.tlmSample_VALID conv = true ∧
      t.flag F.tlmSample_STALE conv = decide (0 < alGet 0 s.obs.stale conv) ∧ alGet 0 t.obs.stale conv = alGet 0 s.obs.stale conv - 1 ∧
      t = { s with regs := t.regs, obs := t.obs }) ∧
    (s.obs.glean.isSome = true → completes (.gleanGo val) s fun t => t.flag F.gleanStat_LOST 0 = true ∧ regsOnly s t [(F.gleanStat_LOST, 0)]) ∧
    (let at_ := s.fget F.gleanTS_S 0 * 1000000000 + bitsOf val.toNat 0 30
     s.obs.glean = none → bitAt val.toNat 31 = true →
      (s.time.counter + 10000 ≤ at_ → at_ ≤ s.time.counter + 1000000000 → completes (.gleanGo val) s fun t =>
        t.obs.glean = some at_ ∧ t.flag F.gleanStat_PENDING 0 = true ∧ t = { s with regs := t.regs, obs := t.obs }) ∧
      (at_ < s.time.counter + 10000 ∨ s.time.counter + 1000000000 < at_ → completes (.gleanGo val) s fun t =>
        t.flag F.gleanStat_REFUSED 0 = true ∧ t.obs = s.obs ∧ t = { s with regs := t.regs })) ∧
    (∀ g, s.obs.glean = some g → g ≤ s.time.counter → completes .gleanTimeReached s fun t =>
      t.obs.glean = none ∧ t.flag F.gleanStat_PENDING 0 = false ∧ t.obs.tag = tagOf g s.time.undisc ∧
      t.fget F.gleanStat_SEQ 0 = (s.fget F.gleanStat_SEQ 0 + 1) % 2 ^ F.gleanStat_SEQ.width ∧
      (∀ x, s.obs.wfg = some x → t.obs.edges = some s.waitEdges) ∧ t = { s with regs := t.regs, obs := t.obs }) ∧
    (let area := s.traceArea
     bitAt val.toNat 0 = true →
      ((s.partOf (s.fget F.traceBuf_PART 0)).isSome && s.spHas (s.fget F.traceBuf_PART 0) area.1 area.2) = false → completes (.traceCtlWrite val) s fun t =>
        t.flag F.traceCtl_BUF_ERR 0 = true ∧ regsOnly s t [(F.traceCtl_BUF_ERR, 0)]) ∧
    (let area := s.traceArea
     bitAt val.toNat 0 = true → s.flag F.traceCtl_ENABLE 0 = false →
      ((s.partOf (s.fget F.traceBuf_PART 0)).isSome && s.spHas (s.fget F.traceBuf_PART 0) area.1 area.2) = true → completes (.traceCtlWrite val) s fun t =>
        t.flag F.traceCtl_ENABLE 0 = true ∧ t.fget F.traceStat_HEAD 0 = 0 ∧ t.flag F.traceStat_FULL 0 = decide (area.2 = 0) ∧ keepsData s t) ∧
    (let last := alGet 0 s.obs.traceAt (if rec.core = 0xFFFF then 2000 else fieldOfCore rec.core)
     (s.traced rec = false ∨ rec.time < last ∨ s.time.counter < rec.time → completes (.traceRecordStore rec false held) s fun t => t = s) ∧
     (s.traced rec = true → last ≤ rec.time → rec.time ≤ s.time.counter →
      let head := s.fget F.traceStat_HEAD 0
      (s.flag F.traceStat_FULL 0 = true → completes (.traceRecordStore rec false held) s fun t =>
        t.fget F.traceDrop_COUNT 0 = (s.fget F.traceDrop_COUNT 0 + 1) % 2 ^ 64 ∧ keepsData s t) ∧
      (s.flag F.traceStat_FULL 0 = false → completes (.traceRecordStore rec false held) s fun t =>
        t.fget F.traceStat_HEAD 0 = (if (head + 1) * 32 < s.traceArea.2 then head + 1 else if s.flag F.traceCtl_WRAP 0 then 0 else head + 1) %
          2 ^ F.traceStat_HEAD.width ∧
        t.flag F.traceStat_FULL 0 = (decide (s.traceArea.2 ≤ (head + 1) * 32) && !s.flag F.traceCtl_WRAP 0) ∧ t.cores = s.cores))) ∧
    (let fid := plot.val * 288 + index
     let done (halt : Bool) (t : State) : Prop := (t.field fid).halted = halt ∧ t = { s with obs := t.obs, fields := t.fields, pauses := t.pauses } ∧
       ((∃ p ∈ t.pauses, p.of = .field fid ∧ p.until_ = none) ↔ halt = true)
     let denied (t : State) : Prop := t.flag F.dbgStat_DENIED 0 = true ∧ regsOnly s t [(F.dbgStat_DENIED, 0)]
     (key = 0xDB60 → s.debugOk = true → index < 288 →
       completes (.debugHalt key plot index) s (done true) ∧ completes (.debugResume key plot index) s (done false)) ∧
     (key = 0xDB60 → s.debugOk = false ∨ 288 ≤ index →
       completes (.debugHalt key plot index) s denied ∧ completes (.debugResume key plot index) s denied) ∧
     (key ≠ 0xDB60 → (completes (.debugHalt key plot index) s fun t => t = s) ∧ completes (.debugResume key plot index) s fun t => t = s)) ∧
    (let i := s.fget F.dbgCore_INDEX 0
     (∀ n, s.dbgTarget = some n → completes (.dbgDataWrite v) s fun t =>
        (∀ m, m ≠ n → t.core m = s.core m) ∧ t = { s with cores := t.cores } ∧
        (∀ r : Reg, (t.core n).reg r = if r.toNat = i ∧ i ≠ 0 then v else (s.core n).reg r) ∧
        (t.core n).pc = (if i = 32 then v.toNat else (s.core n).pc) ∧ (t.core n).layer = (if i = 64 then v.toNat % 65536 else (s.core n).layer) ∧
        (t.core n).oper = if i = 65 then v.toNat % 65536 else (s.core n).oper) ∧
     (s.dbgTarget = none → completes (.dbgDataWrite v) s fun t => t = s)) ∧
    (completes (.wfgGo val) s fun t =>
      t.fget F.wfgCtl_AUTO_MS 0 = bitsOf val.toNat 0 16 ∧ keepsData s t ∧
      (bitAt val.toNat 31 = true → s.flag F.wfgCtl_BUSY 0 = false → t.flag F.wfgCtl_BUSY 0 = true ∧ t.obs.glean.isSome = true ∧
        ∃ g, t.obs.wfg = some (g, false) ∧ t.obs.glean = some g) ∧
      (bitAt val.toNat 31 = false ∨ s.flag F.wfgCtl_BUSY 0 = true → t.obs = s.obs)) ∧
    (let ms := s.fget F.wfgCtl_AUTO_MS 0
     ms ≠ 0 → s.flag F.wfgCtl_BUSY 0 = false → (∃ e ∈ s.waitEdges, ms * 1000000 < e.age ∧ s.obs.seen.contains (s.waitName e) = false) →
      completes .wfgAuto s fun t =>
        t.flag F.wfgCtl_BUSY 0 = true ∧ t.flag F.alertStatus_WFG 0 = true ∧ (∃ g, t.obs.wfg = some (g, true)) ∧ keepsData s t) ∧
    (∀ es g a, s.obs.edges = some es → s.obs.wfg = some (g, a) → completes .wfgReportDone s fun t =>
      t.flag F.wfgCtl_BUSY 0 = false ∧ t.obs.wfg = none ∧ t.obs.report.length = 1 + min 16384 es.length ∧ t.mgmt.evSeq = s.mgmt.evSeq + 1 ∧
      checkOk (t.obs.report.headD []) 32 = true ∧ keepsData s t) ∧
    ((size = 4 ∨ size = 8) → off % size = 0 → off + size ≤ 32 → completes (.wfgDataRead src off size false) s fun t =>
      t.out = s.out ++ [.answer src 0 (sliceB s.wfgEntry off size)] ∧
      t.fget F.wfgIdx_INDEX 0 = (if off + size = 32 then (s.fget F.wfgIdx_INDEX 0 + 1) % 2 ^ F.wfgIdx_INDEX.width else s.fget F.wfgIdx_INDEX 0) ∧
      t = { s with regs := t.regs, out := t.out }) ∧
    ((size = 4 ∨ size = 8) → off % size = 0 → off + size ≤ 32 → completes (.wfgDataRead src off size true) s fun t => t.isFailsafe = true)

/-- Register accesses of the board controller and the host. A write of a register without a behaviour of its own sets each field by its access code and nothing else; one of half of a 64-bit register leaves the bits of the other half; a read of the low half of a 64-bit register latches the high half, which the following read of that half returns. An access of a wrong size, misaligned or in no block does nothing. A register access message is answered with BAD_OFFSET, ALIGN, NOT_REACHABLE, or after its access is performed. The PF of the host writes and reads the region the same way. Which check of a message comes first is the model's choice (assumption 176). -/
def Obligations.RegisterAccesses : Prop :=
  (∀ (s : State) (off i : Nat) (r : RegDef) (val : W64), plainAt off r i →
    let w := val.toNat % 2 ^ r.width
    let blk := (blockOf off).getD 0
    (plainWrite s .reeve r i w → completes (.registerWrite .reeve off (r.width / 8) val) s fun t =>
      t = { s with regs := t.regs } ∧ (∀ f ∈ r.fields, t.fget f i = fieldAfter s f i w) ∧
      ∀ k, (∀ f ∈ r.fields, k ≠ f.key i) → alFind t.regs k = alFind s.regs k) ∧
    (∀ half, half < 2 → r.width = 64 → (∀ f ∈ r.fields, f.acc ≠ .w1c) →
      let w4 := halfPut (s.otherHalf r i) half (val.toNat % 2 ^ 32)
      plainWrite s .reeve r i w4 → completes (.registerWrite .reeve (off + 4 * half) 4 val) s fun t =>
        t = { s with regs := t.regs } ∧ ∀ f ∈ r.fields, t.fget f i = fieldAfter s f i w4) ∧
    (r.width = 32 → completes (.latchedLowRead .reeve off 4) s fun t => t = { s with out := s.out ++ [.answer .reeve 0 (toLE 4 (s.regValue r i))] }) ∧
    (r.width = 64 → s.latch blk .reeve = none →
      (completes (.latchedLowRead .reeve off 8) s fun t => t = { s with out := s.out ++ [.answer .reeve 0 (toLE 8 (s.regValue r i))] }) ∧
      completes (.latchedLowRead .reeve off 4) s fun t =>
        t.latch blk .reeve = some (off, s.regValue r i / 2 ^ 32 % 2 ^ 32) ∧
        t = { s with out := s.out ++ [.answer .reeve 0 (toLE 4 (s.regValue r i))], latches := t.latches }) ∧
    (∀ x, r.width = 64 → s.latch blk .reeve = some (off, x) → completes (.latchedLowRead .reeve (off + 4) 4) s fun t =>
      t.latch blk .reeve = none ∧ t = { s with out := s.out ++ [.answer .reeve 0 (toLE 4 x)], latches := t.latches })) ∧
  (∀ (s : State) (off size : Nat) (val : W64),
    (size ≠ 4 ∧ size ≠ 8) ∨ off % size ≠ 0 ∨ blockOf off = none →
      completes (.registerWrite .reeve off size val) s (fun t => t = s) ∧ completes (.latchedLowRead .reeve off size) s fun t => t = s) ∧
  (∀ (s : State) (off size : Nat) (val : W64), s.isFailsafe = false → s.host.held = [] → s.hostWriting 0 = false → s.blk = none →
    size = 4 ∨ size = 8 → off % size = 0 → (blockOf off).isSome = true →
      completes (.registerWrite (.host 0) off size val) s (fun t => t = s.regWrite (.host 0) off size val.toNat) ∧
      completes (.latchedLowRead (.host 0) off size) s fun t =>
        t = { (s.regRead (.host 0) off size).1 with
              out := (s.regRead (.host 0) off size).1.out ++ [.answer (.host 0) 0 (toLE size (s.regRead (.host 0) off size).2)] }) ∧
  (∀ (s : State) (off : Nat) (v32 : W32) (v64 : W64),
    (completes (.read32 off) s fun t => mctpReadDone s t 1 off 4) ∧ (completes (.write32 off v32) s fun t => mctpWriteDone s t 2 off 4 v32.toNat) ∧
    (completes (.read64 off) s fun t => mctpReadDone s t 3 off 8) ∧ (completes (.write64 off v64) s fun t => mctpWriteDone s t 4 off 8 v64.toNat))

/-- Partitions and allocations. A partition is created after the checks of Table 18-6 in their order, with the staged owner, cores, quota and layout mode; a failed check loads its code and changes nothing else. A partition not in use is destroyed: its scratch bins go to FREE zeroed, its allocations end. An allocation is created after the checks of Table 18-7 in a slot that is free, with its handle in ALLOC_HANDLE; a release invalidates every descriptor that names it, and ends once no accepted move uses it. An operation on a busy register sets LOST. -/
def Obligations.PartitionsAndAllocations : Prop :=
  (∀ (s : State) (index : PartId),
    let p := index.val
    let first := s.fget F.partStage0_FIRST_CORE 0
    let n := s.fget F.partStage0_CORE_COUNT 0
    let fn := s.fget F.partStage0_OWNER_FN 0
    let cores := n ≠ 0 ∧ first + n ≤ 27648 ∧ ∀ x ∈ s.parts, first + n ≤ x.2.first ∨ x.2.first + x.2.count ≤ first
    let owner := fn ≤ 32 ∧ (fn = 0 ∨ ∀ x ∈ s.parts, x.2.owner ≠ fn)
    let no := fun code => completes (.partCreate index) s fun t => t.fget F.partStatus_RESULT 0 = code ∧ regsOnly s t [(F.partStatus_RESULT, 0)]
    (s.isReady = false → no 7) ∧
    (s.isReady = true → (s.partOf p).isSome = true → no 1) ∧
    (s.isReady = true → s.partOf p = none → ¬ cores → no 3) ∧
    (s.isReady = true → s.partOf p = none → cores → ¬ owner → no 4) ∧
    (s.isReady = true → s.partOf p = none → cores → owner → 2097152 < s.fget F.partStage1_QUOTA 0 → no 5) ∧
    (s.isReady = true → s.partOf p = none → cores → owner → s.fget F.partStage1_QUOTA 0 ≤ 2097152 → completes (.partCreate index) s fun t =>
      (∃ x, t.partOf p = some x ∧ x.owner = fn ∧ x.first = first ∧ x.count = n ∧ x.quota = s.fget F.partStage1_QUOTA 0 ∧ x.model = none ∧
        (s.fget F.partStage0_LAYOUT_SEL 0 = 1 → x.layout = 0) ∧ (s.fget F.partStage0_LAYOUT_SEL 0 = 2 → x.layout = 1)) ∧
      (∀ q, q ≠ p → t.partOf q = s.partOf q) ∧ t.fget F.partStatus_RESULT 0 = 0 ∧ t.mem = s.mem ∧ t.cores = s.cores ∧ t.allocs = s.allocs)) ∧
  (∀ (s : State) (index : PartId),
    let p := index.val
    (s.partOf p = none → completes (.partDestroy index) s fun t =>
      t.fget F.partStatus_RESULT 0 = 2 ∧ regsOnly s t [(F.partStatus_RESULT, 0)]) ∧
    ((s.partOf p).isSome = true → s.partInUse p = true → completes (.partDestroy index) s fun t =>
      t.fget F.partStatus_RESULT 0 = 6 ∧ regsOnly s t [(F.partStatus_RESULT, 0)]) ∧
    ((s.partOf p).isSome = true → s.partInUse p = false → s.isFailsafe = false → (∀ k ∈ s.ctxUsed, s.strmOn = false ∨ s.ctxIntact k = true) →
      (∀ i, i < 4096 → s.mdlIntact i = true) → (∀ k, k < 64 → 59 ≤ k ∨ (51 ≤ k ∧ s.strmOn = true) → s.fget F.grnBinCfg_MODE k ≠ 2) → completes (.partDestroy index) s fun t =>
      t.partOf p = none ∧ (∀ q, q ≠ p → t.partOf q = s.partOf q) ∧ t.fget F.partStatus_RESULT 0 = 0 ∧ t.cores = s.cores ∧
      t.allocs = s.allocs.filter (fun a => a.part ≠ p) ∧
      ∀ k, k < 64 → s.fget F.grnBinCfg_MODE k = 2 → s.fget F.grnBinCfg_OWNER k = p →
        t.fget F.grnBinCfg_MODE k = 0 ∧ ∀ i, i < 0x1000000 → memGet t.mem (binBase k + i) = 0)) ∧
  (∀ (s : State) (part : PartId),
    let p := part.val
    let kind := s.fget F.allocLen_KIND p
    let base := s.fget F.allocBase_BASE p
    let len := s.fget F.allocLen_LENGTH p
    let no := fun code => completes (.allocCreate part) s fun t => t.fget F.allocStatus_RESULT p = code ∧ regsOnly s t [(F.allocStatus_RESULT, p)]
    let even := base % 256 = 0 ∧ len % 256 = 0 ∧ len ≠ 0
    let inRange := fun x => (kind = 1 ∧ base + len ≤ 0x800000) ∨
      (kind = 0 ∧ ((base / 0x10000000000 = s.selfId ∧ s.rangeOwned x p (base % 0x10000000000) len = true) ∨
        (base / 0x10000000000 ≠ s.selfId ∧ base % 0x10000000000 + len ≤ 0xF000000000)))
    (s.flag F.allocStatus_BUSY p = true → completes (.allocCreate part) s fun t =>
      t.flag F.allocStatus_LOST p = true ∧ regsOnly s t [(F.allocStatus_LOST, p)]) ∧
    (s.flag F.allocStatus_BUSY p = false →
      (s.partOf p = none → no 6) ∧
      (∀ x, s.partOf p = some x →
        (2 ≤ kind → no 2) ∧
        (kind < 2 → ¬ (even ∧ inRange x) → no 3) ∧
        (kind < 2 → even → inRange x → 16384 ≤ s.allocs.length → no 1) ∧
        (kind < 2 → even → inRange x → s.allocs.length < 16384 → completes (.allocCreate part) s fun t =>
          ∃ a : Allocation, t.allocs = s.allocs ++ [a] ∧ a.part = p ∧ a.base = base ∧ a.len = len ∧ (a.vault = true ↔ kind = 1) ∧
            a.write = s.flag F.allocLen_WRITE p ∧ (∀ b ∈ s.allocs, b.slot ≠ a.slot) ∧ 1 ≤ a.slot ∧ a.slot ≤ 16384 ∧
            t.fget F.allocHandle_SLOT p = a.slot ∧ t.fget F.allocHandle_GEN p = a.gen ∧ t.fget F.allocStatus_RESULT p = 0 ∧
            (∀ g, alFind s.allocGen a.slot = some g → a.gen = (g + 1) % 65536) ∧
            t = { s with regs := t.regs, allocs := t.allocs, allocGen := t.allocGen })))) ∧
  (∀ (s : State) (part : PartId),
    let p := part.val
    let handle := s.fget F.allocHandle_GEN p * 0x10000 + s.fget F.allocHandle_SLOT p
    (s.flag F.allocStatus_BUSY p = true → completes (.allocRelease part) s fun t =>
      t.flag F.allocStatus_LOST p = true ∧ regsOnly s t [(F.allocStatus_LOST, p)]) ∧
    (s.flag F.allocStatus_BUSY p = false →
      (s.partOf p = none → completes (.allocRelease part) s fun t => t.fget F.allocStatus_RESULT p = 6 ∧ regsOnly s t [(F.allocStatus_RESULT, p)]) ∧
      ((s.partOf p).isSome = true → s.findAlloc p handle = none → completes (.allocRelease part) s fun t =>
        t.fget F.allocStatus_RESULT p = 5 ∧ regsOnly s t [(F.allocStatus_RESULT, p)]) ∧
      (∀ a, (s.partOf p).isSome = true → s.findAlloc p handle = some a →
        (completes (.allocRelease part) s fun t =>
          (∀ b ∈ t.allocs, b.part = p → b.slot = a.slot → (p, a.slot) ∈ t.rel) ∧ t.moves = s.moves ∧ t.mem = s.mem ∧
          ∀ k ∈ t.descs, k / 65536 = p → (parseDesc (s.descBytes p (k % 65536))).alloc ≠ handle ∧ (parseDesc (s.descBytes p (k % 65536))).scaleAlloc ≠ handle) ∧
        (s.rel = [] → (∀ b ∈ s.allocs, b.part = p → b.slot = a.slot → b = a) →
          ((s.moves.any fun m => m.uses p a.handle) = true → completes (.allocRelease part) s fun t =>
            t.flag F.allocStatus_BUSY p = true ∧ t.allocs = s.allocs ∧ t.rel = [(p, a.slot)]) ∧
          ((s.moves.any fun m => m.uses p a.handle) = false → completes (.allocRelease part) s fun t =>
            t.flag F.allocStatus_BUSY p = false ∧ t.fget F.allocStatus_RESULT p = 0 ∧ t.allocs = s.allocs.filter (fun b => b.slot ≠ a.slot) ∧ t.rel = [])))))

/-- Memory requests of the host. A request that nothing keeps waiting is resolved by the rows of Table 18-5 in their order: refused, it changes nothing, is counted, and logged if it is the first. A read answers the bytes stored, with EP where they are chaff; a write to a bin stores exactly its bytes, with EP as chaff; a write to a vault is on its way. FetchAdd, Swap and compare-and-swap act on an aligned place of a bin and answer the old value; elsewhere, and of 128 bits, they are refused; two disagreements of the units leave the target unchanged. The answer to two disagreements is the model's choice (assumption 177). -/
def Obligations.HostMemoryRequests : Prop :=
  (∀ (s : State) (fn : FnId) (addr len : Nat) (ecc : List Ecc) (bytes : List Byte) (ep wide : Bool) (value cmp : W64) (width : BitVec 2) (mm : Nat),
    atOnce s fn →
    ∀ x ∈ ([(.hostMemRead fn addr len ecc, len, false, true), (.hostMemWrite fn addr bytes ep, bytes.length, true, false),
            (.hostFetchadd fn addr wide value mm, widthOf wide, true, true), (.hostSwap fn addr wide value mm, widthOf wide, true, true),
            (.hostCas fn addr width cmp value mm, (if width = 0 then 4 else if width = 1 then 8 else 16), true, true)] : List (Instr × Nat × Bool × Bool)),
      let n := x.2.1
      let write := x.2.2.1
      let no := fun kind status => hostRefused x.1 s fn addr kind (if x.2.2.2 then [.answer (.host fn) status []] else [])
      let vf := fn.val = 0 ∨ ∃ p, s.partOfFn fn = some p ∧ ∀ i, i < n → s.vfMay p (addr + i) write = true
      let open_ := s.isFailsafe = false ∧ s.isReady = true
      let narrow := x.1 ≠ .hostCas fn addr width cmp value mm ∨ width.toNat < 2
      (s.isFailsafe = true → no 5 3) ∧
      (s.isFailsafe = false → s.isReady = false → no 4 3) ∧
      (open_ → s.memRegion addr n = none → no 1 2) ∧
      (narrow → open_ → (s.memRegion addr n).isSome = true → ¬ vf → no 2 3) ∧
      (narrow → open_ → (s.memRegion addr n).isSome = true → vf → (∃ i, i < n ∧ s.binMay fn (addr + i) write = false) → no 2 3)) ∧
  (∀ (s : State) (fn : FnId) (addr len : Nat) (ecc : List Ecc), atOnce s fn → s.hostResolve fn addr len false false false = none →
    completes (.hostMemRead fn addr len ecc) s fun t =>
      ∃ st data, t.out.getLast? = some (.answer (.host fn) st data) ∧ st ≤ 1 ∧
        ((∀ e ∈ ecc, e ≠ .uncorrectable) → t.mem = s.mem ∧ data = s.rdN addr len) ∧
        (ecc = [] → addr < 0x8000000000 → (∀ i, i < len → s.isChaff (addr + i) = false) → st = 0) ∧
        ((∃ i, i < len ∧ s.isChaff (addr + i) = true) → st = 1)) ∧
  (∀ (s : State) (fn : FnId) (addr : Nat) (bytes : List Byte) (ep : Bool), atOnce s fn →
    s.hostResolve fn addr bytes.length true false false = none → bytes ≠ [] →
      (s.memKind addr = some 1 → s.goneAt addr = false → completes (.hostMemWrite fn addr bytes ep) s fun t =>
        (∀ a, memGet t.mem a = if addr ≤ a ∧ a < addr + bytes.length then bytes.getD (a - addr) 0 else memGet s.mem a) ∧
        (ep = true → ∀ i, i < bytes.length → t.isChaff (addr + i) = true) ∧ t.out = s.out ∧ t.regs = s.regs ∧ t.cores = s.cores) ∧
      (s.memKind addr = some 0 → completes (.hostMemWrite fn addr bytes ep) s fun t => t.mem = s.mem ∧ t.out = s.out)) ∧
  (∀ (s : State) (fn : FnId) (addr : Nat) (wide : Bool) (v cmp : W64) (width : BitVec 2) (mm : Nat), atOnce s fn →
    let chaff := fun w => ∃ i, i < w ∧ s.isChaff (addr + i) = true
    let may := fun w => s.hostResolve fn addr w true false false = none
    let fits := fun w => addr % w = 0 ∧ s.memKind addr = some 1
    let old := fun w => leNat (s.rdN addr w)
    let gives := fun (c : Instr) (w new : Nat) => may w → fits w → mm < 2 → ¬ chaff w → s.goneAt addr = false → completes c s fun t =>
      holdsAt s t addr w new ∧ t.out = s.out ++ [.answer (.host fn) 0 (s.rdN addr w)] ∧ t.regs = s.regs ∧ t.cores = s.cores
    let stops := fun (c : Instr) (w : Nat) =>
      (may w → ¬ fits w → hostRefused c s fn addr 3 [.answer (.host fn) 3 []]) ∧
      (may w → fits w → 2 ≤ mm → completes c s fun t =>
        t.mem = s.mem ∧ t.out = s.out ++ [.answer (.host fn) 3 []] ∧
        t.fget F.hostErrCnt_COUNT 0 = (s.fget F.hostErrCnt_COUNT 0 + 1) % 2 ^ F.hostErrCnt_COUNT.width)
    let w := widthOf wide
    gives (.hostFetchadd fn addr wide v mm) w ((old w + v.toNat) % 256 ^ w) ∧ gives (.hostSwap fn addr wide v mm) w (v.toNat % 256 ^ w) ∧
    stops (.hostFetchadd fn addr wide v mm) w ∧ stops (.hostSwap fn addr wide v mm) w ∧
    (let k := if width = 0 then 4 else 8
     (width.toNat < 2 → gives (.hostCas fn addr width cmp v mm) k (if old k = cmp.toNat % 256 ^ k then v.toNat % 256 ^ k else old k) ∧
       stops (.hostCas fn addr width cmp v mm) k) ∧
     (2 ≤ width.toNat → s.isFailsafe = false → s.isReady = true → (s.memRegion addr 16).isSome = true →
       hostRefused (.hostCas fn addr width cmp v mm) s fn addr 3 [.answer (.host fn) 2 []])))

/-- The host link, its functions and the power pins. The HDM decoder commits only the populated seedstore and 1 GiB; a CXL.mem access of a line in its range is resolved as the PF's, a cacheable read marks the line, a write gives it back. The link comes up at ×16 only; when it goes down, what waits is lost. A function in D3hot or reset is quiet until it returns; a vector unmasked is sent if it is pending; a Function Level Reset resets the rings of its partitions and leaves its allocations. A doorbell waits for the earlier writes of its function, and a memory access in S2 wakes the module and waits. Where the standby stage stops, all but the flash is lost and no pin but SLOT_PRESENT# is driven; an input sag commits as PWR_OK falling does, with the host and Oncon pins off; ALERT# and THERMTRIP# show an unmasked alert and a latched trip. -/
def Obligations.HostLinkAndFunctions : Prop :=
  (∀ (s : State) (line : Nat) (cacheable poison : Bool) (ecc : List Ecc) (bytes : List Byte) (enable : BitVec 64) (size : Nat),
    let off := line * 64
    let cap := s.partNo.capacity
    (completes (.hdmDecoderCommit size) s fun t =>
      t.host.hdm = decide (size = cap + 0x40000000) ∧ t = { s with host := { s.host with hdm := t.host.hdm }, out := t.out }) ∧
    (atOnce s 63 → s.host.hdm = false ∨ cap + 0x40000000 ≤ off →
      completes (.cxlMemRead line cacheable ecc) s (fun t => t = s) ∧ completes (.cxlMemWrite line bytes enable poison) s fun t => t = s) ∧
    (atOnce s 63 → s.host.hdm = true → off < cap + 0x40000000 →
      let a := if off < cap then 0x8000000000 + off else 0x4000000000 + (off - cap)
      (∀ why, s.hostResolve 0 a 64 false true false = some why → hostRefused (.cxlMemRead line cacheable ecc) s 63 a why.2 [.answer (.host 63) 1 []]) ∧
      (∀ why, s.hostResolve 0 a 64 true true false = some why → hostRefused (.cxlMemWrite line bytes enable poison) s 63 a why.2 []) ∧
      (s.hostResolve 0 a 64 false true false = none → completes (.cxlMemRead line cacheable ecc) s fun t =>
        (∃ st data, st ≤ 1 ∧ t.out.getLast? = some (.answer (.host 63) st data) ∧
          ((∀ e ∈ ecc, e ≠ .uncorrectable) → t.mem = s.mem ∧ data = s.rdN a 64)) ∧
        (∀ l, l ∈ t.host.lines ↔ l ∈ s.host.lines ∨ (cacheable = true ∧ l = a))) ∧
      (s.hostResolve 0 a 64 true true false = none → bytes.length = 64 → enable ≠ 0 → poison = false → s.goneAt a = false → s.ssChaff ≤ 65536 →
        completes (.cxlMemWrite line bytes enable poison) s fun t =>
          (∀ x, memGet t.mem x = if a ≤ x ∧ x < a + 64 ∧ enable.getLsbD (x - a) = true then bytes.getD (x - a) 0 else memGet s.mem x) ∧ a ∉ t.host.lines))) ∧
  (∀ (s : State) (width : Nat) (speed : Fin 6) (flit cxl : Bool),
    (s.hostDomain = false → completes (.hostLinkTrain width speed flit cxl) s fun t => t = s) ∧
    (s.hostDomain = true → width ≠ 16 → completes (.hostLinkTrain width speed flit cxl) s fun t =>
      t.host.link = false ∧ t.host.widthErr = true ∧ t.host.held = [] ∧ t = { s with host := t.host }) ∧
    (s.hostDomain = true → width = 16 → completes (.hostLinkTrain width speed flit cxl) s fun t =>
      t.host.link = true ∧ t.host.speed = speed.val + 1 ∧ t.host.flit = (flit || decide (speed.val = 5)) ∧ t.host.cxl = cxl ∧ t.host.widthErr = false ∧
      ((∀ r, (s.ring r).held = []) → t = { s with host := t.host })) ∧
    (let down := fun t : State => (s.host.link = false → t = s) ∧ (s.host.link = true → t.host.link = false ∧ t.host.held = [] ∧ t.host.lines = []) ∧
       (s.host.link = true → s.rings = [] → t = { s with host := t.host })
     completes .hostLinkDown s down ∧ completes .refclkLoss s down)) ∧
  (∀ (s : State) (fn : FnId) (tag : BitVec 5) (vector : BitVec 8) (vf : Fin 32),
    (completes (.d3hotEntry fn) s fun t => t.host.d3.contains fn.val = true ∧ t = { s with host := { s.host with d3 := t.host.d3 } }) ∧
    (completes (.d0Return fn) s fun t =>
      t.host.d3.contains fn.val = false ∧ t.host.off.contains fn.val = false ∧
      ((∀ r, (s.ring r).held = []) → t = { s with host := { s.host with d3 := t.host.d3, off := t.host.off } })) ∧
    (completes (.atsInvalidate fn tag) s fun t => t = { s with out := s.out ++ [.other 7 [fn.val, tag.toNat]] }) ∧
    (let v := vector.toNat
     let k := fn.val * 256 + v
     let quiet := s.host.d3.contains fn.val || s.host.off.contains fn.val
     (vectorsOf fn ≤ v → completes (.msixVectorUnmask fn vector) s fun t => t = s) ∧
     (v < vectorsOf fn → completes (.msixVectorUnmask fn vector) s fun t =>
        t.host.unmasked.contains k = true ∧ t.mem = s.mem ∧ t.cores = s.cores ∧
        (s.host.pend.contains k = true → quiet = false → t.host.pend.contains k = false ∧
          (s.host.link = true → t.out = s.out ++ [.msix fn v]) ∧
          (s.host.link = false → t.out = s.out ∧ t.fget F.hostErrCnt_COUNT 0 = (s.fget F.hostErrCnt_COUNT 0 + 1) % 2 ^ F.hostErrCnt_COUNT.width)) ∧
        (s.host.pend.contains k = false ∨ quiet = true → t.host.pend = s.host.pend ∧ t.out = s.out ∧ t.regs = s.regs))) ∧
    (completes (.vfFlr vf) s fun t =>
      t.host.off.contains (vf.val + 1) = true ∧ t.host.d3.contains (vf.val + 1) = false ∧ (s.rel = [] → t.allocs = s.allocs) ∧
      (∀ v, v < 256 → t.host.unmasked.contains ((vf.val + 1) * 256 + v) = false) ∧ (∀ h ∈ t.host.held, h.req.fn ≠ vf.val + 1) ∧
      ∀ p x, (p, x) ∈ s.parts → x.owner = vf.val + 1 → ∀ i, i < 4 → (t.ring (p * 4 + i)).steps = [] ∧ (t.ring (p * 4 + i)).held = []) ∧
    (completes .pfFlr s fun t =>
      (∀ f : FnId, t.host.off.contains f.val = true ∧ t.host.d3.contains f.val = false) ∧ t.host.held = [] ∧ t.host.hdm = false ∧ (s.rel = [] → t.allocs = s.allocs) ∧
      ∀ r : RingId, (t.ring r).steps = [] ∧ (t.ring r).held = [])) ∧
  (∀ (s : State) (ring : RingId) (val : W32) (fn : FnId), s.host.held = [] → s.hostWriting fn = false → s.blk = none →
    (s.isFailsafe = false → fn.val = 0 ∨ s.partOfFn fn = some (partOfRing ring) → completes (.doorbell (.host fn) ring val) s fun t => t = s.doorbell ring val) ∧
    (s.isFailsafe = false → fn.val ≠ 0 → s.partOfFn fn ≠ some (partOfRing ring) → completes (.doorbell (.host fn) ring val) s fun t => t = s)) ∧
  (∀ (s : State) (ring : RingId) (val : W32) (fn : FnId), s.host.held = [] → s.hostWriting fn = true → completes (.doorbell (.host fn) ring val) s fun t =>
    (∃ h, t.host.held = [h] ∧ h.req.fn = fn.val ∧ h.req.op = .doorbell ring val) ∧ t = { s with host := t.host }) ∧
  (∀ (s : State) (fn : FnId) (addr len : Nat) (ecc : List Ecc), s.host.held = [] → s.isFailsafe = false → s.sleep = 2 →
    s.flag F.sleepStat_ENTERING 0 = false → completes (.hostMemRead fn addr len ecc) s fun t =>
      t.flag F.sleepStat_EXITING 0 = true ∧ (∃ h, t.host.held = [h] ∧ h.req.fn = fn.val ∧ h.req.addr = addr ∧ h.req.op = .read len) ∧
      t.out = s.out ∧ t.mem = s.mem) ∧
  (∀ (s : State),
    (completes .standbyStageStart s fun t => t.rst.standby = true ∧ t = { s with rst := { s.rst with standby := true } }) ∧
    (s.rst.standby = false → completes .standbyStageStop s fun t => t = s) ∧
    (s.rst.standby = true → completes .standbyStageStop s fun t =>
      t.rst.standby = false ∧ t.rst.pwrOk = false ∧ t.mem = [] ∧ t.chaff = [] ∧ t.valid = [] ∧ t.cores = [] ∧ t.rings = [] ∧ t.parts = [] ∧
      t.alm.segs = s.alm.segs ∧ t.seed.journal = s.seed.journal ∧ t.seed.slots = s.seed.slots ∧
      ∀ p, p ≠ .slotPresent → t.pin p = .highZ) ∧
    (s.rst.standby = true → s.rst.alert = none → (s.pin .alert = .low ↔ s.alert = true) ∧ (s.pin .thermtrip = .low ↔ s.power.tripped = true)) ∧
    (s.rst.standby = false ∨ s.rst.pwrOk = false ∨ s.rst.emergency = true → completes .inputSag s fun t => t = s) ∧
    (s.rst.standby = true → s.rst.pwrOk = true → s.rst.emergency = false → completes .inputSag s fun t =>
      t.rst.emergency = true ∧ t.rst.job = none ∧ t.rst.pwrOk = true ∧ t.power.shed = true ∧ t.host.link = false ∧ t.alm.queue = [] ∧
      ∀ (q : Fin 12) (l : Fin 9) (k : Fin 16), t.pin (.oncTx q l) = .highZ ∧ t.pin (.oncRx q l) = .highZ ∧ t.pin (.hostTx k) = .highZ))

/-- A step runs the command at the front of the queue. A step takes the command at the front of the queue and is exec of it on the state with the queue's rest. On an empty queue one nanosecond of module time passes (assumption 3): the commands under way that only take time are done, and with no core at work, no record on its way and no request of the host waiting nothing else changes. -/
def Obligations.StepRunsTheFrontCommand : Prop :=
  ∀ (s : State) (c : Instr) (rest : List Instr),
    (s.pending = c :: rest → step s = exec c { s with pending := rest }) ∧
    (s.pending = [] → s.host.held = [] → ∃ t, step s = .next t ∧ t.descJobs = [] ∧ t.pending = [] ∧ t.mgmt = s.mgmt ∧
      (s.time.slew = 0 → t.time.elapsed = s.time.elapsed + 1 ∧ t.time.counter = s.time.counter + 1)) ∧
    (s.pending = [] → s.host.held = [] → s.time.slew = 0 → s.cores = [] → s.descJobs = [] → (∀ r, (s.ring r).late = none) →
      step s = .next { s with ready := s.readyNow, time := { s.time with
        elapsed := s.time.elapsed + 1, counter := s.time.counter + 1, tick := 0 } })

/-- The module right after a cold reset. After a power-on reset every field of every register has its reset value (RST_CAUSE names power-on, sixteen bins cache and five are the system's), the time counter stands at 0 and undisciplined, no partition, allocation, move or chaff exists, the ports are OFF, the queue is empty, and memory has its form. That memory reads zero and that the vectors are masked are the model's choices (assumptions 4 and 60). -/
def Obligations.ResetState : Prop :=
  let s := State.reset
  memWf s.mem = true ∧ (∀ a, memGet s.mem a = 0) ∧ s.pending = [] ∧ s.chaff = [] ∧ s.parts = [] ∧ s.allocs = [] ∧ s.descs = [] ∧ s.moves = [] ∧
  s.time.counter = 0 ∧ s.time.undisc = true ∧ s.time.state = 0 ∧ s.bringState = 0 ∧ s.fget F.rstCause_CAUSE 0 = 1 ∧
  (∀ p, p < 12 → s.portState p = 0) ∧
  (∀ r ∈ regTable, ∀ f ∈ r.fields, f.id ≠ F.rstCause_CAUSE.id → f.id ≠ F.grnBinCfg_MODE.id → ∀ i, s.fget f i = f.reset) ∧
  (∀ k, k < 64 → s.fget F.grnBinCfg_MODE k = if k < 16 then 1 else if 59 ≤ k then 3 else 0) ∧
  (∀ r, s.flag F.ringCfg_ENABLE r = false ∧ s.flag F.ringState_HALTED r = false) ∧ s.host.link = false ∧ s.host.unmasked = []

/-- Every step keeps the canonical form of memory. Whatever command is at the front of the queue, and on an empty queue, a step from a state whose memory lists rising addresses and no zero byte gives a state whose memory does so too: equal memories stay equal data. -/
def Obligations.MemoryKeepsItsForm : Prop :=
  ∀ (s t : State), memWf s.mem = true → step s = .next t → memWf t.mem = true

/-- Moves keep their numbers apart. The number of a move, by which the model tells one move in progress from another (R166), is the model's own: a move gets the next one, and no move in progress has one that is still to be given: it holds after reset, and every step keeps it. -/
def Obligations.MoveNumbersAreFresh : Prop :=
  movesFresh State.reset ∧ ∀ (s t : State), movesFresh s → step s = .next t → movesFresh t

/-- No command ends a run. In every state every command of the table answers a next state: none faults, none is refused. Where the spec turns a command away, that is a next state too. -/
def Obligations.EveryCommandCompletes : Prop :=
  (∀ (c : Instr) (s : State), ∃ t, exec c s = .next t) ∧ ∀ (s : State), ∃ t, step s = .next t

/-- The module-local address map. Every module-local address lies in the region Table 0-7 gives it, the seedstore as far as the part is populated; the vault of core n begins at n × 0x80_0000 and spans 8 MiB. -/
def Obligations.AddressMap : Prop :=
  ∀ (s : State) (a : Nat), a < 0x10000000000 →
    (a ≤ 0x35FFFFFFFF → s.region a = .vault (a / 0x800000) (a % 0x800000)) ∧
    (0x3600000000 ≤ a → a ≤ 0x3FFFFFFFFF → s.region a = .unmapped) ∧
    (0x4000000000 ≤ a → a ≤ 0x403FFFFFFF → ∃ k o, s.region a = .bin k o ∧ k < 64 ∧ o < 0x1000000 ∧ a = 0x4000000000 + k * 0x1000000 + o) ∧
    (0x4040000000 ≤ a → a ≤ 0x7FFFFFFFFF → s.region a = .unmapped) ∧
    (0x8000000000 ≤ a → a ≤ 0x9FFFFFFFFF → s.region a =
      if a - 0x8000000000 < (match s.partNo with | .a64 => 0x1000000000 | .a128 => 0x2000000000) then .seedstore (a - 0x8000000000) else .unmapped) ∧
    (0xA000000000 ≤ a → a ≤ 0xEFFFFFFFFF → s.region a = .unmapped) ∧
    (0xF000000000 ≤ a → a ≤ 0xF00FFFFFFF → s.region a = .registers (a - 0xF000000000)) ∧
    (0xF010000000 ≤ a → s.region a = .unmapped) ∧
    ∀ n i, n < 27648 → i < 0x800000 → vaultBase n = n * 0x800000 ∧ s.region (n * 0x800000 + i) = .vault n i

/-- Packed integers and BT2 weights. INT8, INT4 and INT32 elements are two's complement; element 2i of INT4 is in the low and element 2i + 1 in the high half of byte i. The five weights of a BT2 byte are its digits in base 3, the first the least significant, 0 for 0, 1 for +1 and 2 for −1; valid bytes run from 0 to 242. -/
def Obligations.PackedIntegersAndWeights : Prop :=
  (∀ x ∈ ([(0x10, 8), (0x11, 4), (0x12, 32)] : List (Nat × Nat)),
    (∀ v : Int, -(2 ^ (x.2 - 1) : Int) ≤ v → v < 2 ^ (x.2 - 1) → elemValue x.1 (v % 2 ^ x.2).toNat = Num.ofInt v 0) ∧
    ∀ raw, raw < 2 ^ x.2 → ∃ v : Int, -(2 ^ (x.2 - 1) : Int) ≤ v ∧ v < 2 ^ (x.2 - 1) ∧ elemValue x.1 raw = Num.ofInt v 0) ∧
  (∀ (rd : Nat → Byte) (i : Nat), elemRaw 0x11 rd (2 * i) = (rd i).toNat % 16 ∧ elemRaw 0x11 rd (2 * i + 1) = (rd i).toNat / 16) ∧
  (∀ t0 ∈ ([0, 1, -1] : List Int), ∀ t1 ∈ ([0, 1, -1] : List Int), ∀ t2 ∈ ([0, 1, -1] : List Int), ∀ t3 ∈ ([0, 1, -1] : List Int),
   ∀ t4 ∈ ([0, 1, -1] : List Int),
    let d := fun t : Int => if t = 0 then 0 else if t = 1 then 1 else 2
    let b := d t0 + 3 * d t1 + 9 * d t2 + 27 * d t3 + 81 * d t4
    b ≤ 0xF2 ∧ (List.range 5).map (bt2Trit (BitVec.ofNat 8 b) false) = [t0, t1, t2, t3, t4]) ∧
  ∀ b : Byte, bt2Valid b false = decide (b.toNat ≤ 0xF2)
end

