-- ==== Sys2Proof/Laws/State.lean ====
section
/-!
SUPPORT. Laws/State.lean: what each plain update of the state changes and leaves, one lemma for each field: no later proof unfolds a record
update.
-/
namespace Sys2Proof.Machine

@[simp] theorem State.fset_pending (s : State) (f : Fld) (i v : Nat) : (s.fset f i v).pending = s.pending := rfl
@[simp] theorem State.fset_partNo (s : State) (f : Fld) (i v : Nat) : (s.fset f i v).partNo = s.partNo := rfl
@[simp] theorem State.fset_time (s : State) (f : Fld) (i v : Nat) : (s.fset f i v).time = s.time := rfl
@[simp] theorem State.fset_regs (s : State) (f : Fld) (i v : Nat) : (s.fset f i v).regs = alPut s.regs (f.key i) (v % 2 ^ f.width) := rfl
@[simp] theorem State.fset_cfg (s : State) (f : Fld) (i v : Nat) : (s.fset f i v).cfg = s.cfg := rfl
@[simp] theorem State.fset_latches (s : State) (f : Fld) (i v : Nat) : (s.fset f i v).latches = s.latches := rfl
@[simp] theorem State.fset_mem (s : State) (f : Fld) (i v : Nat) : (s.fset f i v).mem = s.mem := rfl
@[simp] theorem State.fset_valid (s : State) (f : Fld) (i v : Nat) : (s.fset f i v).valid = s.valid := rfl
@[simp] theorem State.fset_ecc (s : State) (f : Fld) (i v : Nat) : (s.fset f i v).ecc = s.ecc := rfl
@[simp] theorem State.fset_ret (s : State) (f : Fld) (i v : Nat) : (s.fset f i v).ret = s.ret := rfl
@[simp] theorem State.fset_chaff (s : State) (f : Fld) (i v : Nat) : (s.fset f i v).chaff = s.chaff := rfl
@[simp] theorem State.fset_cores (s : State) (f : Fld) (i v : Nat) : (s.fset f i v).cores = s.cores := rfl
@[simp] theorem State.fset_fields (s : State) (f : Fld) (i v : Nat) : (s.fset f i v).fields = s.fields := rfl
@[simp] theorem State.fset_rings (s : State) (f : Fld) (i v : Nat) : (s.fset f i v).rings = s.rings := rfl
@[simp] theorem State.fset_parts (s : State) (f : Fld) (i v : Nat) : (s.fset f i v).parts = s.parts := rfl
@[simp] theorem State.fset_allocs (s : State) (f : Fld) (i v : Nat) : (s.fset f i v).allocs = s.allocs := rfl
@[simp] theorem State.fset_allocGen (s : State) (f : Fld) (i v : Nat) : (s.fset f i v).allocGen = s.allocGen := rfl
@[simp] theorem State.fset_descs (s : State) (f : Fld) (i v : Nat) : (s.fset f i v).descs = s.descs := rfl
@[simp] theorem State.fset_stage (s : State) (f : Fld) (i v : Nat) : (s.fset f i v).stage = s.stage := rfl
@[simp] theorem State.fset_strmRead (s : State) (f : Fld) (i v : Nat) : (s.fset f i v).strmRead = s.strmRead := rfl
@[simp] theorem State.fset_lastFault (s : State) (f : Fld) (i v : Nat) : (s.fset f i v).lastFault = s.lastFault := rfl
@[simp] theorem State.fset_served (s : State) (f : Fld) (i v : Nat) : (s.fset f i v).served = s.served := rfl
@[simp] theorem State.fset_ready (s : State) (f : Fld) (i v : Nat) : (s.fset f i v).ready = s.ready := rfl
@[simp] theorem State.fset_stalls (s : State) (f : Fld) (i v : Nat) : (s.fset f i v).stalls = s.stalls := rfl
@[simp] theorem State.fset_errQ (s : State) (f : Fld) (i v : Nat) : (s.fset f i v).errQ = s.errQ := rfl
@[simp] theorem State.fset_faultQ (s : State) (f : Fld) (i v : Nat) : (s.fset f i v).faultQ = s.faultQ := rfl
@[simp] theorem State.fset_moves (s : State) (f : Fld) (i v : Nat) : (s.fset f i v).moves = s.moves := rfl
@[simp] theorem State.fset_nextMove (s : State) (f : Fld) (i v : Nat) : (s.fset f i v).nextMove = s.nextMove := rfl
@[simp] theorem State.fset_contribs (s : State) (f : Fld) (i v : Nat) : (s.fset f i v).contribs = s.contribs := rfl
@[simp] theorem State.fset_scatterSat (s : State) (f : Fld) (i v : Nat) : (s.fset f i v).scatterSat = s.scatterSat := rfl
@[simp] theorem State.fset_det (s : State) (f : Fld) (i v : Nat) : (s.fset f i v).det = s.det := rfl
@[simp] theorem State.fset_waits (s : State) (f : Fld) (i v : Nat) : (s.fset f i v).waits = s.waits := rfl
@[simp] theorem State.fset_mdq (s : State) (f : Fld) (i v : Nat) : (s.fset f i v).mdq = s.mdq := rfl
@[simp] theorem State.fset_lines (s : State) (f : Fld) (i v : Nat) : (s.fset f i v).lines = s.lines := rfl
@[simp] theorem State.fset_binMoves (s : State) (f : Fld) (i v : Nat) : (s.fset f i v).binMoves = s.binMoves := rfl
@[simp] theorem State.fset_nextAsk (s : State) (f : Fld) (i v : Nat) : (s.fset f i v).nextAsk = s.nextAsk := rfl
@[simp] theorem State.fset_roles (s : State) (f : Fld) (i v : Nat) : (s.fset f i v).roles = s.roles := rfl
@[simp] theorem State.fset_bootEnd (s : State) (f : Fld) (i v : Nat) : (s.fset f i v).bootEnd = s.bootEnd := rfl
@[simp] theorem State.fset_history (s : State) (f : Fld) (i v : Nat) : (s.fset f i v).history = s.history := rfl
@[simp] theorem State.fset_mgmt (s : State) (f : Fld) (i v : Nat) : (s.fset f i v).mgmt = s.mgmt := rfl
@[simp] theorem State.fset_alm (s : State) (f : Fld) (i v : Nat) : (s.fset f i v).alm = s.alm := rfl
@[simp] theorem State.fset_link (s : State) (f : Fld) (i v : Nat) : (s.fset f i v).link = s.link := rfl
@[simp] theorem State.fset_host (s : State) (f : Fld) (i v : Nat) : (s.fset f i v).host = s.host := rfl
@[simp] theorem State.fset_strmOn (s : State) (f : Fld) (i v : Nat) : (s.fset f i v).strmOn = s.strmOn := rfl
@[simp] theorem State.fset_rsh (s : State) (f : Fld) (i v : Nat) : (s.fset f i v).rsh = s.rsh := rfl
@[simp] theorem State.fset_blk (s : State) (f : Fld) (i v : Nat) : (s.fset f i v).blk = s.blk := rfl
@[simp] theorem State.fset_subst (s : State) (f : Fld) (i v : Nat) : (s.fset f i v).subst = s.subst := rfl
@[simp] theorem State.fset_spare (s : State) (f : Fld) (i v : Nat) : (s.fset f i v).spare = s.spare := rfl
@[simp] theorem State.fset_power (s : State) (f : Fld) (i v : Nat) : (s.fset f i v).power = s.power := rfl
@[simp] theorem State.fset_seed (s : State) (f : Fld) (i v : Nat) : (s.fset f i v).seed = s.seed := rfl
@[simp] theorem State.fset_rst (s : State) (f : Fld) (i v : Nat) : (s.fset f i v).rst = s.rst := rfl
@[simp] theorem State.fset_obs (s : State) (f : Fld) (i v : Nat) : (s.fset f i v).obs = s.obs := rfl
@[simp] theorem State.fset_rel (s : State) (f : Fld) (i v : Nat) : (s.fset f i v).rel = s.rel := rfl
@[simp] theorem State.fset_scr (s : State) (f : Fld) (i v : Nat) : (s.fset f i v).scr = s.scr := rfl
@[simp] theorem State.fset_wrote (s : State) (f : Fld) (i v : Nat) : (s.fset f i v).wrote = s.wrote := rfl
@[simp] theorem State.fset_undefs (s : State) (f : Fld) (i v : Nat) : (s.fset f i v).undefs = s.undefs := rfl
@[simp] theorem State.fset_fieldsUp (s : State) (f : Fld) (i v : Nat) : (s.fset f i v).fieldsUp = s.fieldsUp := rfl
@[simp] theorem State.fset_bounds (s : State) (f : Fld) (i v : Nat) : (s.fset f i v).bounds = s.bounds := rfl
@[simp] theorem State.fset_pauses (s : State) (f : Fld) (i v : Nat) : (s.fset f i v).pauses = s.pauses := rfl
@[simp] theorem State.fset_hits (s : State) (f : Fld) (i v : Nat) : (s.fset f i v).hits = s.hits := rfl
@[simp] theorem State.fset_descJobs (s : State) (f : Fld) (i v : Nat) : (s.fset f i v).descJobs = s.descJobs := rfl
@[simp] theorem State.fset_descLost (s : State) (f : Fld) (i v : Nat) : (s.fset f i v).descLost = s.descLost := rfl
@[simp] theorem State.fset_out (s : State) (f : Fld) (i v : Nat) : (s.fset f i v).out = s.out := rfl

@[simp] theorem State.fclear_pending (s : State) (f : Fld) (i : Nat) : (s.fclear f i).pending = s.pending := rfl
@[simp] theorem State.fclear_partNo (s : State) (f : Fld) (i : Nat) : (s.fclear f i).partNo = s.partNo := rfl
@[simp] theorem State.fclear_time (s : State) (f : Fld) (i : Nat) : (s.fclear f i).time = s.time := rfl
@[simp] theorem State.fclear_regs (s : State) (f : Fld) (i : Nat) : (s.fclear f i).regs = alDel s.regs (f.key i) := rfl
@[simp] theorem State.fclear_cfg (s : State) (f : Fld) (i : Nat) : (s.fclear f i).cfg = s.cfg := rfl
@[simp] theorem State.fclear_latches (s : State) (f : Fld) (i : Nat) : (s.fclear f i).latches = s.latches := rfl
@[simp] theorem State.fclear_mem (s : State) (f : Fld) (i : Nat) : (s.fclear f i).mem = s.mem := rfl
@[simp] theorem State.fclear_valid (s : State) (f : Fld) (i : Nat) : (s.fclear f i).valid = s.valid := rfl
@[simp] theorem State.fclear_ecc (s : State) (f : Fld) (i : Nat) : (s.fclear f i).ecc = s.ecc := rfl
@[simp] theorem State.fclear_ret (s : State) (f : Fld) (i : Nat) : (s.fclear f i).ret = s.ret := rfl
@[simp] theorem State.fclear_chaff (s : State) (f : Fld) (i : Nat) : (s.fclear f i).chaff = s.chaff := rfl
@[simp] theorem State.fclear_cores (s : State) (f : Fld) (i : Nat) : (s.fclear f i).cores = s.cores := rfl
@[simp] theorem State.fclear_fields (s : State) (f : Fld) (i : Nat) : (s.fclear f i).fields = s.fields := rfl
@[simp] theorem State.fclear_rings (s : State) (f : Fld) (i : Nat) : (s.fclear f i).rings = s.rings := rfl
@[simp] theorem State.fclear_parts (s : State) (f : Fld) (i : Nat) : (s.fclear f i).parts = s.parts := rfl
@[simp] theorem State.fclear_allocs (s : State) (f : Fld) (i : Nat) : (s.fclear f i).allocs = s.allocs := rfl
@[simp] theorem State.fclear_allocGen (s : State) (f : Fld) (i : Nat) : (s.fclear f i).allocGen = s.allocGen := rfl
@[simp] theorem State.fclear_descs (s : State) (f : Fld) (i : Nat) : (s.fclear f i).descs = s.descs := rfl
@[simp] theorem State.fclear_stage (s : State) (f : Fld) (i : Nat) : (s.fclear f i).stage = s.stage := rfl
@[simp] theorem State.fclear_strmRead (s : State) (f : Fld) (i : Nat) : (s.fclear f i).strmRead = s.strmRead := rfl
@[simp] theorem State.fclear_lastFault (s : State) (f : Fld) (i : Nat) : (s.fclear f i).lastFault = s.lastFault := rfl
@[simp] theorem State.fclear_served (s : State) (f : Fld) (i : Nat) : (s.fclear f i).served = s.served := rfl
@[simp] theorem State.fclear_ready (s : State) (f : Fld) (i : Nat) : (s.fclear f i).ready = s.ready := rfl
@[simp] theorem State.fclear_stalls (s : State) (f : Fld) (i : Nat) : (s.fclear f i).stalls = s.stalls := rfl
@[simp] theorem State.fclear_errQ (s : State) (f : Fld) (i : Nat) : (s.fclear f i).errQ = s.errQ := rfl
@[simp] theorem State.fclear_faultQ (s : State) (f : Fld) (i : Nat) : (s.fclear f i).faultQ = s.faultQ := rfl
@[simp] theorem State.fclear_moves (s : State) (f : Fld) (i : Nat) : (s.fclear f i).moves = s.moves := rfl
@[simp] theorem State.fclear_nextMove (s : State) (f : Fld) (i : Nat) : (s.fclear f i).nextMove = s.nextMove := rfl
@[simp] theorem State.fclear_contribs (s : State) (f : Fld) (i : Nat) : (s.fclear f i).contribs = s.contribs := rfl
@[simp] theorem State.fclear_scatterSat (s : State) (f : Fld) (i : Nat) : (s.fclear f i).scatterSat = s.scatterSat := rfl
@[simp] theorem State.fclear_det (s : State) (f : Fld) (i : Nat) : (s.fclear f i).det = s.det := rfl
@[simp] theorem State.fclear_waits (s : State) (f : Fld) (i : Nat) : (s.fclear f i).waits = s.waits := rfl
@[simp] theorem State.fclear_mdq (s : State) (f : Fld) (i : Nat) : (s.fclear f i).mdq = s.mdq := rfl
@[simp] theorem State.fclear_lines (s : State) (f : Fld) (i : Nat) : (s.fclear f i).lines = s.lines := rfl
@[simp] theorem State.fclear_binMoves (s : State) (f : Fld) (i : Nat) : (s.fclear f i).binMoves = s.binMoves := rfl
@[simp] theorem State.fclear_nextAsk (s : State) (f : Fld) (i : Nat) : (s.fclear f i).nextAsk = s.nextAsk := rfl
@[simp] theorem State.fclear_roles (s : State) (f : Fld) (i : Nat) : (s.fclear f i).roles = s.roles := rfl
@[simp] theorem State.fclear_bootEnd (s : State) (f : Fld) (i : Nat) : (s.fclear f i).bootEnd = s.bootEnd := rfl
@[simp] theorem State.fclear_history (s : State) (f : Fld) (i : Nat) : (s.fclear f i).history = s.history := rfl
@[simp] theorem State.fclear_mgmt (s : State) (f : Fld) (i : Nat) : (s.fclear f i).mgmt = s.mgmt := rfl
@[simp] theorem State.fclear_alm (s : State) (f : Fld) (i : Nat) : (s.fclear f i).alm = s.alm := rfl
@[simp] theorem State.fclear_link (s : State) (f : Fld) (i : Nat) : (s.fclear f i).link = s.link := rfl
@[simp] theorem State.fclear_host (s : State) (f : Fld) (i : Nat) : (s.fclear f i).host = s.host := rfl
@[simp] theorem State.fclear_strmOn (s : State) (f : Fld) (i : Nat) : (s.fclear f i).strmOn = s.strmOn := rfl
@[simp] theorem State.fclear_rsh (s : State) (f : Fld) (i : Nat) : (s.fclear f i).rsh = s.rsh := rfl
@[simp] theorem State.fclear_blk (s : State) (f : Fld) (i : Nat) : (s.fclear f i).blk = s.blk := rfl
@[simp] theorem State.fclear_subst (s : State) (f : Fld) (i : Nat) : (s.fclear f i).subst = s.subst := rfl
@[simp] theorem State.fclear_spare (s : State) (f : Fld) (i : Nat) : (s.fclear f i).spare = s.spare := rfl
@[simp] theorem State.fclear_power (s : State) (f : Fld) (i : Nat) : (s.fclear f i).power = s.power := rfl
@[simp] theorem State.fclear_seed (s : State) (f : Fld) (i : Nat) : (s.fclear f i).seed = s.seed := rfl
@[simp] theorem State.fclear_rst (s : State) (f : Fld) (i : Nat) : (s.fclear f i).rst = s.rst := rfl
@[simp] theorem State.fclear_obs (s : State) (f : Fld) (i : Nat) : (s.fclear f i).obs = s.obs := rfl
@[simp] theorem State.fclear_rel (s : State) (f : Fld) (i : Nat) : (s.fclear f i).rel = s.rel := rfl
@[simp] theorem State.fclear_scr (s : State) (f : Fld) (i : Nat) : (s.fclear f i).scr = s.scr := rfl
@[simp] theorem State.fclear_wrote (s : State) (f : Fld) (i : Nat) : (s.fclear f i).wrote = s.wrote := rfl
@[simp] theorem State.fclear_undefs (s : State) (f : Fld) (i : Nat) : (s.fclear f i).undefs = s.undefs := rfl
@[simp] theorem State.fclear_fieldsUp (s : State) (f : Fld) (i : Nat) : (s.fclear f i).fieldsUp = s.fieldsUp := rfl
@[simp] theorem State.fclear_bounds (s : State) (f : Fld) (i : Nat) : (s.fclear f i).bounds = s.bounds := rfl
@[simp] theorem State.fclear_pauses (s : State) (f : Fld) (i : Nat) : (s.fclear f i).pauses = s.pauses := rfl
@[simp] theorem State.fclear_hits (s : State) (f : Fld) (i : Nat) : (s.fclear f i).hits = s.hits := rfl
@[simp] theorem State.fclear_descJobs (s : State) (f : Fld) (i : Nat) : (s.fclear f i).descJobs = s.descJobs := rfl
@[simp] theorem State.fclear_descLost (s : State) (f : Fld) (i : Nat) : (s.fclear f i).descLost = s.descLost := rfl
@[simp] theorem State.fclear_out (s : State) (f : Fld) (i : Nat) : (s.fclear f i).out = s.out := rfl

@[simp] theorem State.fadd_pending (s : State) (f : Fld) (i n : Nat) : (s.fadd f i n).pending = s.pending := rfl
@[simp] theorem State.fadd_partNo (s : State) (f : Fld) (i n : Nat) : (s.fadd f i n).partNo = s.partNo := rfl
@[simp] theorem State.fadd_time (s : State) (f : Fld) (i n : Nat) : (s.fadd f i n).time = s.time := rfl
@[simp] theorem State.fadd_cfg (s : State) (f : Fld) (i n : Nat) : (s.fadd f i n).cfg = s.cfg := rfl
@[simp] theorem State.fadd_latches (s : State) (f : Fld) (i n : Nat) : (s.fadd f i n).latches = s.latches := rfl
@[simp] theorem State.fadd_mem (s : State) (f : Fld) (i n : Nat) : (s.fadd f i n).mem = s.mem := rfl
@[simp] theorem State.fadd_valid (s : State) (f : Fld) (i n : Nat) : (s.fadd f i n).valid = s.valid := rfl
@[simp] theorem State.fadd_ecc (s : State) (f : Fld) (i n : Nat) : (s.fadd f i n).ecc = s.ecc := rfl
@[simp] theorem State.fadd_ret (s : State) (f : Fld) (i n : Nat) : (s.fadd f i n).ret = s.ret := rfl
@[simp] theorem State.fadd_chaff (s : State) (f : Fld) (i n : Nat) : (s.fadd f i n).chaff = s.chaff := rfl
@[simp] theorem State.fadd_cores (s : State) (f : Fld) (i n : Nat) : (s.fadd f i n).cores = s.cores := rfl
@[simp] theorem State.fadd_fields (s : State) (f : Fld) (i n : Nat) : (s.fadd f i n).fields = s.fields := rfl
@[simp] theorem State.fadd_rings (s : State) (f : Fld) (i n : Nat) : (s.fadd f i n).rings = s.rings := rfl
@[simp] theorem State.fadd_parts (s : State) (f : Fld) (i n : Nat) : (s.fadd f i n).parts = s.parts := rfl
@[simp] theorem State.fadd_allocs (s : State) (f : Fld) (i n : Nat) : (s.fadd f i n).allocs = s.allocs := rfl
@[simp] theorem State.fadd_allocGen (s : State) (f : Fld) (i n : Nat) : (s.fadd f i n).allocGen = s.allocGen := rfl
@[simp] theorem State.fadd_descs (s : State) (f : Fld) (i n : Nat) : (s.fadd f i n).descs = s.descs := rfl
@[simp] theorem State.fadd_stage (s : State) (f : Fld) (i n : Nat) : (s.fadd f i n).stage = s.stage := rfl
@[simp] theorem State.fadd_strmRead (s : State) (f : Fld) (i n : Nat) : (s.fadd f i n).strmRead = s.strmRead := rfl
@[simp] theorem State.fadd_lastFault (s : State) (f : Fld) (i n : Nat) : (s.fadd f i n).lastFault = s.lastFault := rfl
@[simp] theorem State.fadd_served (s : State) (f : Fld) (i n : Nat) : (s.fadd f i n).served = s.served := rfl
@[simp] theorem State.fadd_ready (s : State) (f : Fld) (i n : Nat) : (s.fadd f i n).ready = s.ready := rfl
@[simp] theorem State.fadd_stalls (s : State) (f : Fld) (i n : Nat) : (s.fadd f i n).stalls = s.stalls := rfl
@[simp] theorem State.fadd_errQ (s : State) (f : Fld) (i n : Nat) : (s.fadd f i n).errQ = s.errQ := rfl
@[simp] theorem State.fadd_faultQ (s : State) (f : Fld) (i n : Nat) : (s.fadd f i n).faultQ = s.faultQ := rfl
@[simp] theorem State.fadd_moves (s : State) (f : Fld) (i n : Nat) : (s.fadd f i n).moves = s.moves := rfl
@[simp] theorem State.fadd_nextMove (s : State) (f : Fld) (i n : Nat) : (s.fadd f i n).nextMove = s.nextMove := rfl
@[simp] theorem State.fadd_contribs (s : State) (f : Fld) (i n : Nat) : (s.fadd f i n).contribs = s.contribs := rfl
@[simp] theorem State.fadd_scatterSat (s : State) (f : Fld) (i n : Nat) : (s.fadd f i n).scatterSat = s.scatterSat := rfl
@[simp] theorem State.fadd_det (s : State) (f : Fld) (i n : Nat) : (s.fadd f i n).det = s.det := rfl
@[simp] theorem State.fadd_waits (s : State) (f : Fld) (i n : Nat) : (s.fadd f i n).waits = s.waits := rfl
@[simp] theorem State.fadd_mdq (s : State) (f : Fld) (i n : Nat) : (s.fadd f i n).mdq = s.mdq := rfl
@[simp] theorem State.fadd_lines (s : State) (f : Fld) (i n : Nat) : (s.fadd f i n).lines = s.lines := rfl
@[simp] theorem State.fadd_binMoves (s : State) (f : Fld) (i n : Nat) : (s.fadd f i n).binMoves = s.binMoves := rfl
@[simp] theorem State.fadd_nextAsk (s : State) (f : Fld) (i n : Nat) : (s.fadd f i n).nextAsk = s.nextAsk := rfl
@[simp] theorem State.fadd_roles (s : State) (f : Fld) (i n : Nat) : (s.fadd f i n).roles = s.roles := rfl
@[simp] theorem State.fadd_bootEnd (s : State) (f : Fld) (i n : Nat) : (s.fadd f i n).bootEnd = s.bootEnd := rfl
@[simp] theorem State.fadd_history (s : State) (f : Fld) (i n : Nat) : (s.fadd f i n).history = s.history := rfl
@[simp] theorem State.fadd_mgmt (s : State) (f : Fld) (i n : Nat) : (s.fadd f i n).mgmt = s.mgmt := rfl
@[simp] theorem State.fadd_alm (s : State) (f : Fld) (i n : Nat) : (s.fadd f i n).alm = s.alm := rfl
@[simp] theorem State.fadd_link (s : State) (f : Fld) (i n : Nat) : (s.fadd f i n).link = s.link := rfl
@[simp] theorem State.fadd_host (s : State) (f : Fld) (i n : Nat) : (s.fadd f i n).host = s.host := rfl
@[simp] theorem State.fadd_strmOn (s : State) (f : Fld) (i n : Nat) : (s.fadd f i n).strmOn = s.strmOn := rfl
@[simp] theorem State.fadd_rsh (s : State) (f : Fld) (i n : Nat) : (s.fadd f i n).rsh = s.rsh := rfl
@[simp] theorem State.fadd_blk (s : State) (f : Fld) (i n : Nat) : (s.fadd f i n).blk = s.blk := rfl
@[simp] theorem State.fadd_subst (s : State) (f : Fld) (i n : Nat) : (s.fadd f i n).subst = s.subst := rfl
@[simp] theorem State.fadd_spare (s : State) (f : Fld) (i n : Nat) : (s.fadd f i n).spare = s.spare := rfl
@[simp] theorem State.fadd_power (s : State) (f : Fld) (i n : Nat) : (s.fadd f i n).power = s.power := rfl
@[simp] theorem State.fadd_seed (s : State) (f : Fld) (i n : Nat) : (s.fadd f i n).seed = s.seed := rfl
@[simp] theorem State.fadd_rst (s : State) (f : Fld) (i n : Nat) : (s.fadd f i n).rst = s.rst := rfl
@[simp] theorem State.fadd_obs (s : State) (f : Fld) (i n : Nat) : (s.fadd f i n).obs = s.obs := rfl
@[simp] theorem State.fadd_rel (s : State) (f : Fld) (i n : Nat) : (s.fadd f i n).rel = s.rel := rfl
@[simp] theorem State.fadd_scr (s : State) (f : Fld) (i n : Nat) : (s.fadd f i n).scr = s.scr := rfl
@[simp] theorem State.fadd_wrote (s : State) (f : Fld) (i n : Nat) : (s.fadd f i n).wrote = s.wrote := rfl
@[simp] theorem State.fadd_undefs (s : State) (f : Fld) (i n : Nat) : (s.fadd f i n).undefs = s.undefs := rfl
@[simp] theorem State.fadd_fieldsUp (s : State) (f : Fld) (i n : Nat) : (s.fadd f i n).fieldsUp = s.fieldsUp := rfl
@[simp] theorem State.fadd_bounds (s : State) (f : Fld) (i n : Nat) : (s.fadd f i n).bounds = s.bounds := rfl
@[simp] theorem State.fadd_pauses (s : State) (f : Fld) (i n : Nat) : (s.fadd f i n).pauses = s.pauses := rfl
@[simp] theorem State.fadd_hits (s : State) (f : Fld) (i n : Nat) : (s.fadd f i n).hits = s.hits := rfl
@[simp] theorem State.fadd_descJobs (s : State) (f : Fld) (i n : Nat) : (s.fadd f i n).descJobs = s.descJobs := rfl
@[simp] theorem State.fadd_descLost (s : State) (f : Fld) (i n : Nat) : (s.fadd f i n).descLost = s.descLost := rfl
@[simp] theorem State.fadd_out (s : State) (f : Fld) (i n : Nat) : (s.fadd f i n).out = s.out := rfl

@[simp] theorem State.setCore_pending (s : State) (n : Nat) (c : Core) : (s.setCore n c).pending = s.pending := rfl
@[simp] theorem State.setCore_partNo (s : State) (n : Nat) (c : Core) : (s.setCore n c).partNo = s.partNo := rfl
@[simp] theorem State.setCore_time (s : State) (n : Nat) (c : Core) : (s.setCore n c).time = s.time := rfl
@[simp] theorem State.setCore_regs (s : State) (n : Nat) (c : Core) : (s.setCore n c).regs = s.regs := rfl
@[simp] theorem State.setCore_cfg (s : State) (n : Nat) (c : Core) : (s.setCore n c).cfg = s.cfg := rfl
@[simp] theorem State.setCore_latches (s : State) (n : Nat) (c : Core) : (s.setCore n c).latches = s.latches := rfl
@[simp] theorem State.setCore_mem (s : State) (n : Nat) (c : Core) : (s.setCore n c).mem = s.mem := rfl
@[simp] theorem State.setCore_valid (s : State) (n : Nat) (c : Core) : (s.setCore n c).valid = s.valid := rfl
@[simp] theorem State.setCore_ecc (s : State) (n : Nat) (c : Core) : (s.setCore n c).ecc = s.ecc := rfl
@[simp] theorem State.setCore_ret (s : State) (n : Nat) (c : Core) : (s.setCore n c).ret = s.ret := rfl
@[simp] theorem State.setCore_chaff (s : State) (n : Nat) (c : Core) : (s.setCore n c).chaff = s.chaff := rfl
@[simp] theorem State.setCore_cores (s : State) (n : Nat) (c : Core) : (s.setCore n c).cores = alPut s.cores n c := rfl
@[simp] theorem State.setCore_fields (s : State) (n : Nat) (c : Core) : (s.setCore n c).fields = s.fields := rfl
@[simp] theorem State.setCore_rings (s : State) (n : Nat) (c : Core) : (s.setCore n c).rings = s.rings := rfl
@[simp] theorem State.setCore_parts (s : State) (n : Nat) (c : Core) : (s.setCore n c).parts = s.parts := rfl
@[simp] theorem State.setCore_allocs (s : State) (n : Nat) (c : Core) : (s.setCore n c).allocs = s.allocs := rfl
@[simp] theorem State.setCore_allocGen (s : State) (n : Nat) (c : Core) : (s.setCore n c).allocGen = s.allocGen := rfl
@[simp] theorem State.setCore_descs (s : State) (n : Nat) (c : Core) : (s.setCore n c).descs = s.descs := rfl
@[simp] theorem State.setCore_stage (s : State) (n : Nat) (c : Core) : (s.setCore n c).stage = s.stage := rfl
@[simp] theorem State.setCore_strmRead (s : State) (n : Nat) (c : Core) : (s.setCore n c).strmRead = s.strmRead := rfl
@[simp] theorem State.setCore_lastFault (s : State) (n : Nat) (c : Core) : (s.setCore n c).lastFault = s.lastFault := rfl
@[simp] theorem State.setCore_served (s : State) (n : Nat) (c : Core) : (s.setCore n c).served = s.served := rfl
@[simp] theorem State.setCore_ready (s : State) (n : Nat) (c : Core) : (s.setCore n c).ready = s.ready := rfl
@[simp] theorem State.setCore_stalls (s : State) (n : Nat) (c : Core) : (s.setCore n c).stalls = s.stalls := rfl
@[simp] theorem State.setCore_errQ (s : State) (n : Nat) (c : Core) : (s.setCore n c).errQ = s.errQ := rfl
@[simp] theorem State.setCore_faultQ (s : State) (n : Nat) (c : Core) : (s.setCore n c).faultQ = s.faultQ := rfl
@[simp] theorem State.setCore_moves (s : State) (n : Nat) (c : Core) : (s.setCore n c).moves = s.moves := rfl
@[simp] theorem State.setCore_nextMove (s : State) (n : Nat) (c : Core) : (s.setCore n c).nextMove = s.nextMove := rfl
@[simp] theorem State.setCore_contribs (s : State) (n : Nat) (c : Core) : (s.setCore n c).contribs = s.contribs := rfl
@[simp] theorem State.setCore_scatterSat (s : State) (n : Nat) (c : Core) : (s.setCore n c).scatterSat = s.scatterSat := rfl
@[simp] theorem State.setCore_det (s : State) (n : Nat) (c : Core) : (s.setCore n c).det = s.det := rfl
@[simp] theorem State.setCore_waits (s : State) (n : Nat) (c : Core) : (s.setCore n c).waits = s.waits := rfl
@[simp] theorem State.setCore_mdq (s : State) (n : Nat) (c : Core) : (s.setCore n c).mdq = s.mdq := rfl
@[simp] theorem State.setCore_lines (s : State) (n : Nat) (c : Core) : (s.setCore n c).lines = s.lines := rfl
@[simp] theorem State.setCore_binMoves (s : State) (n : Nat) (c : Core) : (s.setCore n c).binMoves = s.binMoves := rfl
@[simp] theorem State.setCore_nextAsk (s : State) (n : Nat) (c : Core) : (s.setCore n c).nextAsk = s.nextAsk := rfl
@[simp] theorem State.setCore_roles (s : State) (n : Nat) (c : Core) : (s.setCore n c).roles = s.roles := rfl
@[simp] theorem State.setCore_bootEnd (s : State) (n : Nat) (c : Core) : (s.setCore n c).bootEnd = s.bootEnd := rfl
@[simp] theorem State.setCore_history (s : State) (n : Nat) (c : Core) : (s.setCore n c).history = s.history := rfl
@[simp] theorem State.setCore_mgmt (s : State) (n : Nat) (c : Core) : (s.setCore n c).mgmt = s.mgmt := rfl
@[simp] theorem State.setCore_alm (s : State) (n : Nat) (c : Core) : (s.setCore n c).alm = s.alm := rfl
@[simp] theorem State.setCore_link (s : State) (n : Nat) (c : Core) : (s.setCore n c).link = s.link := rfl
@[simp] theorem State.setCore_host (s : State) (n : Nat) (c : Core) : (s.setCore n c).host = s.host := rfl
@[simp] theorem State.setCore_strmOn (s : State) (n : Nat) (c : Core) : (s.setCore n c).strmOn = s.strmOn := rfl
@[simp] theorem State.setCore_rsh (s : State) (n : Nat) (c : Core) : (s.setCore n c).rsh = s.rsh := rfl
@[simp] theorem State.setCore_blk (s : State) (n : Nat) (c : Core) : (s.setCore n c).blk = s.blk := rfl
@[simp] theorem State.setCore_subst (s : State) (n : Nat) (c : Core) : (s.setCore n c).subst = s.subst := rfl
@[simp] theorem State.setCore_spare (s : State) (n : Nat) (c : Core) : (s.setCore n c).spare = s.spare := rfl
@[simp] theorem State.setCore_power (s : State) (n : Nat) (c : Core) : (s.setCore n c).power = s.power := rfl
@[simp] theorem State.setCore_seed (s : State) (n : Nat) (c : Core) : (s.setCore n c).seed = s.seed := rfl
@[simp] theorem State.setCore_rst (s : State) (n : Nat) (c : Core) : (s.setCore n c).rst = s.rst := rfl
@[simp] theorem State.setCore_obs (s : State) (n : Nat) (c : Core) : (s.setCore n c).obs = s.obs := rfl
@[simp] theorem State.setCore_rel (s : State) (n : Nat) (c : Core) : (s.setCore n c).rel = s.rel := rfl
@[simp] theorem State.setCore_scr (s : State) (n : Nat) (c : Core) : (s.setCore n c).scr = s.scr := rfl
@[simp] theorem State.setCore_wrote (s : State) (n : Nat) (c : Core) : (s.setCore n c).wrote = s.wrote := rfl
@[simp] theorem State.setCore_undefs (s : State) (n : Nat) (c : Core) : (s.setCore n c).undefs = s.undefs := rfl
@[simp] theorem State.setCore_fieldsUp (s : State) (n : Nat) (c : Core) : (s.setCore n c).fieldsUp = s.fieldsUp := rfl
@[simp] theorem State.setCore_bounds (s : State) (n : Nat) (c : Core) : (s.setCore n c).bounds = s.bounds := rfl
@[simp] theorem State.setCore_pauses (s : State) (n : Nat) (c : Core) : (s.setCore n c).pauses = s.pauses := rfl
@[simp] theorem State.setCore_hits (s : State) (n : Nat) (c : Core) : (s.setCore n c).hits = s.hits := rfl
@[simp] theorem State.setCore_descJobs (s : State) (n : Nat) (c : Core) : (s.setCore n c).descJobs = s.descJobs := rfl
@[simp] theorem State.setCore_descLost (s : State) (n : Nat) (c : Core) : (s.setCore n c).descLost = s.descLost := rfl
@[simp] theorem State.setCore_out (s : State) (n : Nat) (c : Core) : (s.setCore n c).out = s.out := rfl

@[simp] theorem State.onCore_pending (s : State) (n : Nat) (f : Core → Core) : (s.onCore n f).pending = s.pending := rfl
@[simp] theorem State.onCore_partNo (s : State) (n : Nat) (f : Core → Core) : (s.onCore n f).partNo = s.partNo := rfl
@[simp] theorem State.onCore_time (s : State) (n : Nat) (f : Core → Core) : (s.onCore n f).time = s.time := rfl
@[simp] theorem State.onCore_regs (s : State) (n : Nat) (f : Core → Core) : (s.onCore n f).regs = s.regs := rfl
@[simp] theorem State.onCore_cfg (s : State) (n : Nat) (f : Core → Core) : (s.onCore n f).cfg = s.cfg := rfl
@[simp] theorem State.onCore_latches (s : State) (n : Nat) (f : Core → Core) : (s.onCore n f).latches = s.latches := rfl
@[simp] theorem State.onCore_mem (s : State) (n : Nat) (f : Core → Core) : (s.onCore n f).mem = s.mem := rfl
@[simp] theorem State.onCore_valid (s : State) (n : Nat) (f : Core → Core) : (s.onCore n f).valid = s.valid := rfl
@[simp] theorem State.onCore_ecc (s : State) (n : Nat) (f : Core → Core) : (s.onCore n f).ecc = s.ecc := rfl
@[simp] theorem State.onCore_ret (s : State) (n : Nat) (f : Core → Core) : (s.onCore n f).ret = s.ret := rfl
@[simp] theorem State.onCore_chaff (s : State) (n : Nat) (f : Core → Core) : (s.onCore n f).chaff = s.chaff := rfl
@[simp] theorem State.onCore_fields (s : State) (n : Nat) (f : Core → Core) : (s.onCore n f).fields = s.fields := rfl
@[simp] theorem State.onCore_rings (s : State) (n : Nat) (f : Core → Core) : (s.onCore n f).rings = s.rings := rfl
@[simp] theorem State.onCore_parts (s : State) (n : Nat) (f : Core → Core) : (s.onCore n f).parts = s.parts := rfl
@[simp] theorem State.onCore_allocs (s : State) (n : Nat) (f : Core → Core) : (s.onCore n f).allocs = s.allocs := rfl
@[simp] theorem State.onCore_allocGen (s : State) (n : Nat) (f : Core → Core) : (s.onCore n f).allocGen = s.allocGen := rfl
@[simp] theorem State.onCore_descs (s : State) (n : Nat) (f : Core → Core) : (s.onCore n f).descs = s.descs := rfl
@[simp] theorem State.onCore_stage (s : State) (n : Nat) (f : Core → Core) : (s.onCore n f).stage = s.stage := rfl
@[simp] theorem State.onCore_strmRead (s : State) (n : Nat) (f : Core → Core) : (s.onCore n f).strmRead = s.strmRead := rfl
@[simp] theorem State.onCore_lastFault (s : State) (n : Nat) (f : Core → Core) : (s.onCore n f).lastFault = s.lastFault := rfl
@[simp] theorem State.onCore_served (s : State) (n : Nat) (f : Core → Core) : (s.onCore n f).served = s.served := rfl
@[simp] theorem State.onCore_ready (s : State) (n : Nat) (f : Core → Core) : (s.onCore n f).ready = s.ready := rfl
@[simp] theorem State.onCore_stalls (s : State) (n : Nat) (f : Core → Core) : (s.onCore n f).stalls = s.stalls := rfl
@[simp] theorem State.onCore_errQ (s : State) (n : Nat) (f : Core → Core) : (s.onCore n f).errQ = s.errQ := rfl
@[simp] theorem State.onCore_faultQ (s : State) (n : Nat) (f : Core → Core) : (s.onCore n f).faultQ = s.faultQ := rfl
@[simp] theorem State.onCore_moves (s : State) (n : Nat) (f : Core → Core) : (s.onCore n f).moves = s.moves := rfl
@[simp] theorem State.onCore_nextMove (s : State) (n : Nat) (f : Core → Core) : (s.onCore n f).nextMove = s.nextMove := rfl
@[simp] theorem State.onCore_contribs (s : State) (n : Nat) (f : Core → Core) : (s.onCore n f).contribs = s.contribs := rfl
@[simp] theorem State.onCore_scatterSat (s : State) (n : Nat) (f : Core → Core) : (s.onCore n f).scatterSat = s.scatterSat := rfl
@[simp] theorem State.onCore_det (s : State) (n : Nat) (f : Core → Core) : (s.onCore n f).det = s.det := rfl
@[simp] theorem State.onCore_waits (s : State) (n : Nat) (f : Core → Core) : (s.onCore n f).waits = s.waits := rfl
@[simp] theorem State.onCore_mdq (s : State) (n : Nat) (f : Core → Core) : (s.onCore n f).mdq = s.mdq := rfl
@[simp] theorem State.onCore_lines (s : State) (n : Nat) (f : Core → Core) : (s.onCore n f).lines = s.lines := rfl
@[simp] theorem State.onCore_binMoves (s : State) (n : Nat) (f : Core → Core) : (s.onCore n f).binMoves = s.binMoves := rfl
@[simp] theorem State.onCore_nextAsk (s : State) (n : Nat) (f : Core → Core) : (s.onCore n f).nextAsk = s.nextAsk := rfl
@[simp] theorem State.onCore_roles (s : State) (n : Nat) (f : Core → Core) : (s.onCore n f).roles = s.roles := rfl
@[simp] theorem State.onCore_bootEnd (s : State) (n : Nat) (f : Core → Core) : (s.onCore n f).bootEnd = s.bootEnd := rfl
@[simp] theorem State.onCore_history (s : State) (n : Nat) (f : Core → Core) : (s.onCore n f).history = s.history := rfl
@[simp] theorem State.onCore_mgmt (s : State) (n : Nat) (f : Core → Core) : (s.onCore n f).mgmt = s.mgmt := rfl
@[simp] theorem State.onCore_alm (s : State) (n : Nat) (f : Core → Core) : (s.onCore n f).alm = s.alm := rfl
@[simp] theorem State.onCore_link (s : State) (n : Nat) (f : Core → Core) : (s.onCore n f).link = s.link := rfl
@[simp] theorem State.onCore_host (s : State) (n : Nat) (f : Core → Core) : (s.onCore n f).host = s.host := rfl
@[simp] theorem State.onCore_strmOn (s : State) (n : Nat) (f : Core → Core) : (s.onCore n f).strmOn = s.strmOn := rfl
@[simp] theorem State.onCore_rsh (s : State) (n : Nat) (f : Core → Core) : (s.onCore n f).rsh = s.rsh := rfl
@[simp] theorem State.onCore_blk (s : State) (n : Nat) (f : Core → Core) : (s.onCore n f).blk = s.blk := rfl
@[simp] theorem State.onCore_subst (s : State) (n : Nat) (f : Core → Core) : (s.onCore n f).subst = s.subst := rfl
@[simp] theorem State.onCore_spare (s : State) (n : Nat) (f : Core → Core) : (s.onCore n f).spare = s.spare := rfl
@[simp] theorem State.onCore_power (s : State) (n : Nat) (f : Core → Core) : (s.onCore n f).power = s.power := rfl
@[simp] theorem State.onCore_seed (s : State) (n : Nat) (f : Core → Core) : (s.onCore n f).seed = s.seed := rfl
@[simp] theorem State.onCore_rst (s : State) (n : Nat) (f : Core → Core) : (s.onCore n f).rst = s.rst := rfl
@[simp] theorem State.onCore_obs (s : State) (n : Nat) (f : Core → Core) : (s.onCore n f).obs = s.obs := rfl
@[simp] theorem State.onCore_rel (s : State) (n : Nat) (f : Core → Core) : (s.onCore n f).rel = s.rel := rfl
@[simp] theorem State.onCore_scr (s : State) (n : Nat) (f : Core → Core) : (s.onCore n f).scr = s.scr := rfl
@[simp] theorem State.onCore_wrote (s : State) (n : Nat) (f : Core → Core) : (s.onCore n f).wrote = s.wrote := rfl
@[simp] theorem State.onCore_undefs (s : State) (n : Nat) (f : Core → Core) : (s.onCore n f).undefs = s.undefs := rfl
@[simp] theorem State.onCore_fieldsUp (s : State) (n : Nat) (f : Core → Core) : (s.onCore n f).fieldsUp = s.fieldsUp := rfl
@[simp] theorem State.onCore_bounds (s : State) (n : Nat) (f : Core → Core) : (s.onCore n f).bounds = s.bounds := rfl
@[simp] theorem State.onCore_pauses (s : State) (n : Nat) (f : Core → Core) : (s.onCore n f).pauses = s.pauses := rfl
@[simp] theorem State.onCore_hits (s : State) (n : Nat) (f : Core → Core) : (s.onCore n f).hits = s.hits := rfl
@[simp] theorem State.onCore_descJobs (s : State) (n : Nat) (f : Core → Core) : (s.onCore n f).descJobs = s.descJobs := rfl
@[simp] theorem State.onCore_descLost (s : State) (n : Nat) (f : Core → Core) : (s.onCore n f).descLost = s.descLost := rfl
@[simp] theorem State.onCore_out (s : State) (n : Nat) (f : Core → Core) : (s.onCore n f).out = s.out := rfl

@[simp] theorem State.setField_pending (s : State) (n : Nat) (c : Field) : (s.setField n c).pending = s.pending := rfl
@[simp] theorem State.setField_partNo (s : State) (n : Nat) (c : Field) : (s.setField n c).partNo = s.partNo := rfl
@[simp] theorem State.setField_time (s : State) (n : Nat) (c : Field) : (s.setField n c).time = s.time := rfl
@[simp] theorem State.setField_regs (s : State) (n : Nat) (c : Field) : (s.setField n c).regs = s.regs := rfl
@[simp] theorem State.setField_cfg (s : State) (n : Nat) (c : Field) : (s.setField n c).cfg = s.cfg := rfl
@[simp] theorem State.setField_latches (s : State) (n : Nat) (c : Field) : (s.setField n c).latches = s.latches := rfl
@[simp] theorem State.setField_mem (s : State) (n : Nat) (c : Field) : (s.setField n c).mem = s.mem := rfl
@[simp] theorem State.setField_valid (s : State) (n : Nat) (c : Field) : (s.setField n c).valid = s.valid := rfl
@[simp] theorem State.setField_ecc (s : State) (n : Nat) (c : Field) : (s.setField n c).ecc = s.ecc := rfl
@[simp] theorem State.setField_ret (s : State) (n : Nat) (c : Field) : (s.setField n c).ret = s.ret := rfl
@[simp] theorem State.setField_chaff (s : State) (n : Nat) (c : Field) : (s.setField n c).chaff = s.chaff := rfl
@[simp] theorem State.setField_cores (s : State) (n : Nat) (c : Field) : (s.setField n c).cores = s.cores := rfl
@[simp] theorem State.setField_fields (s : State) (n : Nat) (c : Field) : (s.setField n c).fields = alPut s.fields n c := rfl
@[simp] theorem State.setField_rings (s : State) (n : Nat) (c : Field) : (s.setField n c).rings = s.rings := rfl
@[simp] theorem State.setField_parts (s : State) (n : Nat) (c : Field) : (s.setField n c).parts = s.parts := rfl
@[simp] theorem State.setField_allocs (s : State) (n : Nat) (c : Field) : (s.setField n c).allocs = s.allocs := rfl
@[simp] theorem State.setField_allocGen (s : State) (n : Nat) (c : Field) : (s.setField n c).allocGen = s.allocGen := rfl
@[simp] theorem State.setField_descs (s : State) (n : Nat) (c : Field) : (s.setField n c).descs = s.descs := rfl
@[simp] theorem State.setField_stage (s : State) (n : Nat) (c : Field) : (s.setField n c).stage = s.stage := rfl
@[simp] theorem State.setField_strmRead (s : State) (n : Nat) (c : Field) : (s.setField n c).strmRead = s.strmRead := rfl
@[simp] theorem State.setField_lastFault (s : State) (n : Nat) (c : Field) : (s.setField n c).lastFault = s.lastFault := rfl
@[simp] theorem State.setField_served (s : State) (n : Nat) (c : Field) : (s.setField n c).served = s.served := rfl
@[simp] theorem State.setField_ready (s : State) (n : Nat) (c : Field) : (s.setField n c).ready = s.ready := rfl
@[simp] theorem State.setField_stalls (s : State) (n : Nat) (c : Field) : (s.setField n c).stalls = s.stalls := rfl
@[simp] theorem State.setField_errQ (s : State) (n : Nat) (c : Field) : (s.setField n c).errQ = s.errQ := rfl
@[simp] theorem State.setField_faultQ (s : State) (n : Nat) (c : Field) : (s.setField n c).faultQ = s.faultQ := rfl
@[simp] theorem State.setField_moves (s : State) (n : Nat) (c : Field) : (s.setField n c).moves = s.moves := rfl
@[simp] theorem State.setField_nextMove (s : State) (n : Nat) (c : Field) : (s.setField n c).nextMove = s.nextMove := rfl
@[simp] theorem State.setField_contribs (s : State) (n : Nat) (c : Field) : (s.setField n c).contribs = s.contribs := rfl
@[simp] theorem State.setField_scatterSat (s : State) (n : Nat) (c : Field) : (s.setField n c).scatterSat = s.scatterSat := rfl
@[simp] theorem State.setField_det (s : State) (n : Nat) (c : Field) : (s.setField n c).det = s.det := rfl
@[simp] theorem State.setField_waits (s : State) (n : Nat) (c : Field) : (s.setField n c).waits = s.waits := rfl
@[simp] theorem State.setField_mdq (s : State) (n : Nat) (c : Field) : (s.setField n c).mdq = s.mdq := rfl
@[simp] theorem State.setField_lines (s : State) (n : Nat) (c : Field) : (s.setField n c).lines = s.lines := rfl
@[simp] theorem State.setField_binMoves (s : State) (n : Nat) (c : Field) : (s.setField n c).binMoves = s.binMoves := rfl
@[simp] theorem State.setField_nextAsk (s : State) (n : Nat) (c : Field) : (s.setField n c).nextAsk = s.nextAsk := rfl
@[simp] theorem State.setField_roles (s : State) (n : Nat) (c : Field) : (s.setField n c).roles = s.roles := rfl
@[simp] theorem State.setField_bootEnd (s : State) (n : Nat) (c : Field) : (s.setField n c).bootEnd = s.bootEnd := rfl
@[simp] theorem State.setField_history (s : State) (n : Nat) (c : Field) : (s.setField n c).history = s.history := rfl
@[simp] theorem State.setField_mgmt (s : State) (n : Nat) (c : Field) : (s.setField n c).mgmt = s.mgmt := rfl
@[simp] theorem State.setField_alm (s : State) (n : Nat) (c : Field) : (s.setField n c).alm = s.alm := rfl
@[simp] theorem State.setField_link (s : State) (n : Nat) (c : Field) : (s.setField n c).link = s.link := rfl
@[simp] theorem State.setField_host (s : State) (n : Nat) (c : Field) : (s.setField n c).host = s.host := rfl
@[simp] theorem State.setField_strmOn (s : State) (n : Nat) (c : Field) : (s.setField n c).strmOn = s.strmOn := rfl
@[simp] theorem State.setField_rsh (s : State) (n : Nat) (c : Field) : (s.setField n c).rsh = s.rsh := rfl
@[simp] theorem State.setField_blk (s : State) (n : Nat) (c : Field) : (s.setField n c).blk = s.blk := rfl
@[simp] theorem State.setField_subst (s : State) (n : Nat) (c : Field) : (s.setField n c).subst = s.subst := rfl
@[simp] theorem State.setField_spare (s : State) (n : Nat) (c : Field) : (s.setField n c).spare = s.spare := rfl
@[simp] theorem State.setField_power (s : State) (n : Nat) (c : Field) : (s.setField n c).power = s.power := rfl
@[simp] theorem State.setField_seed (s : State) (n : Nat) (c : Field) : (s.setField n c).seed = s.seed := rfl
@[simp] theorem State.setField_rst (s : State) (n : Nat) (c : Field) : (s.setField n c).rst = s.rst := rfl
@[simp] theorem State.setField_obs (s : State) (n : Nat) (c : Field) : (s.setField n c).obs = s.obs := rfl
@[simp] theorem State.setField_rel (s : State) (n : Nat) (c : Field) : (s.setField n c).rel = s.rel := rfl
@[simp] theorem State.setField_scr (s : State) (n : Nat) (c : Field) : (s.setField n c).scr = s.scr := rfl
@[simp] theorem State.setField_wrote (s : State) (n : Nat) (c : Field) : (s.setField n c).wrote = s.wrote := rfl
@[simp] theorem State.setField_undefs (s : State) (n : Nat) (c : Field) : (s.setField n c).undefs = s.undefs := rfl
@[simp] theorem State.setField_fieldsUp (s : State) (n : Nat) (c : Field) : (s.setField n c).fieldsUp = s.fieldsUp := rfl
@[simp] theorem State.setField_bounds (s : State) (n : Nat) (c : Field) : (s.setField n c).bounds = s.bounds := rfl
@[simp] theorem State.setField_pauses (s : State) (n : Nat) (c : Field) : (s.setField n c).pauses = s.pauses := rfl
@[simp] theorem State.setField_hits (s : State) (n : Nat) (c : Field) : (s.setField n c).hits = s.hits := rfl
@[simp] theorem State.setField_descJobs (s : State) (n : Nat) (c : Field) : (s.setField n c).descJobs = s.descJobs := rfl
@[simp] theorem State.setField_descLost (s : State) (n : Nat) (c : Field) : (s.setField n c).descLost = s.descLost := rfl
@[simp] theorem State.setField_out (s : State) (n : Nat) (c : Field) : (s.setField n c).out = s.out := rfl

@[simp] theorem State.setRing_pending (s : State) (n : Nat) (c : Ring) : (s.setRing n c).pending = s.pending := rfl
@[simp] theorem State.setRing_partNo (s : State) (n : Nat) (c : Ring) : (s.setRing n c).partNo = s.partNo := rfl
@[simp] theorem State.setRing_time (s : State) (n : Nat) (c : Ring) : (s.setRing n c).time = s.time := rfl
@[simp] theorem State.setRing_regs (s : State) (n : Nat) (c : Ring) : (s.setRing n c).regs = s.regs := rfl
@[simp] theorem State.setRing_cfg (s : State) (n : Nat) (c : Ring) : (s.setRing n c).cfg = s.cfg := rfl
@[simp] theorem State.setRing_latches (s : State) (n : Nat) (c : Ring) : (s.setRing n c).latches = s.latches := rfl
@[simp] theorem State.setRing_mem (s : State) (n : Nat) (c : Ring) : (s.setRing n c).mem = s.mem := rfl
@[simp] theorem State.setRing_valid (s : State) (n : Nat) (c : Ring) : (s.setRing n c).valid = s.valid := rfl
@[simp] theorem State.setRing_ecc (s : State) (n : Nat) (c : Ring) : (s.setRing n c).ecc = s.ecc := rfl
@[simp] theorem State.setRing_ret (s : State) (n : Nat) (c : Ring) : (s.setRing n c).ret = s.ret := rfl
@[simp] theorem State.setRing_chaff (s : State) (n : Nat) (c : Ring) : (s.setRing n c).chaff = s.chaff := rfl
@[simp] theorem State.setRing_cores (s : State) (n : Nat) (c : Ring) : (s.setRing n c).cores = s.cores := rfl
@[simp] theorem State.setRing_fields (s : State) (n : Nat) (c : Ring) : (s.setRing n c).fields = s.fields := rfl
@[simp] theorem State.setRing_rings (s : State) (n : Nat) (c : Ring) : (s.setRing n c).rings = alPut s.rings n c := rfl
@[simp] theorem State.setRing_parts (s : State) (n : Nat) (c : Ring) : (s.setRing n c).parts = s.parts := rfl
@[simp] theorem State.setRing_allocs (s : State) (n : Nat) (c : Ring) : (s.setRing n c).allocs = s.allocs := rfl
@[simp] theorem State.setRing_allocGen (s : State) (n : Nat) (c : Ring) : (s.setRing n c).allocGen = s.allocGen := rfl
@[simp] theorem State.setRing_descs (s : State) (n : Nat) (c : Ring) : (s.setRing n c).descs = s.descs := rfl
@[simp] theorem State.setRing_stage (s : State) (n : Nat) (c : Ring) : (s.setRing n c).stage = s.stage := rfl
@[simp] theorem State.setRing_strmRead (s : State) (n : Nat) (c : Ring) : (s.setRing n c).strmRead = s.strmRead := rfl
@[simp] theorem State.setRing_lastFault (s : State) (n : Nat) (c : Ring) : (s.setRing n c).lastFault = s.lastFault := rfl
@[simp] theorem State.setRing_served (s : State) (n : Nat) (c : Ring) : (s.setRing n c).served = s.served := rfl
@[simp] theorem State.setRing_ready (s : State) (n : Nat) (c : Ring) : (s.setRing n c).ready = s.ready := rfl
@[simp] theorem State.setRing_stalls (s : State) (n : Nat) (c : Ring) : (s.setRing n c).stalls = s.stalls := rfl
@[simp] theorem State.setRing_errQ (s : State) (n : Nat) (c : Ring) : (s.setRing n c).errQ = s.errQ := rfl
@[simp] theorem State.setRing_faultQ (s : State) (n : Nat) (c : Ring) : (s.setRing n c).faultQ = s.faultQ := rfl
@[simp] theorem State.setRing_moves (s : State) (n : Nat) (c : Ring) : (s.setRing n c).moves = s.moves := rfl
@[simp] theorem State.setRing_nextMove (s : State) (n : Nat) (c : Ring) : (s.setRing n c).nextMove = s.nextMove := rfl
@[simp] theorem State.setRing_contribs (s : State) (n : Nat) (c : Ring) : (s.setRing n c).contribs = s.contribs := rfl
@[simp] theorem State.setRing_scatterSat (s : State) (n : Nat) (c : Ring) : (s.setRing n c).scatterSat = s.scatterSat := rfl
@[simp] theorem State.setRing_det (s : State) (n : Nat) (c : Ring) : (s.setRing n c).det = s.det := rfl
@[simp] theorem State.setRing_waits (s : State) (n : Nat) (c : Ring) : (s.setRing n c).waits = s.waits := rfl
@[simp] theorem State.setRing_mdq (s : State) (n : Nat) (c : Ring) : (s.setRing n c).mdq = s.mdq := rfl
@[simp] theorem State.setRing_lines (s : State) (n : Nat) (c : Ring) : (s.setRing n c).lines = s.lines := rfl
@[simp] theorem State.setRing_binMoves (s : State) (n : Nat) (c : Ring) : (s.setRing n c).binMoves = s.binMoves := rfl
@[simp] theorem State.setRing_nextAsk (s : State) (n : Nat) (c : Ring) : (s.setRing n c).nextAsk = s.nextAsk := rfl
@[simp] theorem State.setRing_roles (s : State) (n : Nat) (c : Ring) : (s.setRing n c).roles = s.roles := rfl
@[simp] theorem State.setRing_bootEnd (s : State) (n : Nat) (c : Ring) : (s.setRing n c).bootEnd = s.bootEnd := rfl
@[simp] theorem State.setRing_history (s : State) (n : Nat) (c : Ring) : (s.setRing n c).history = s.history := rfl
@[simp] theorem State.setRing_mgmt (s : State) (n : Nat) (c : Ring) : (s.setRing n c).mgmt = s.mgmt := rfl
@[simp] theorem State.setRing_alm (s : State) (n : Nat) (c : Ring) : (s.setRing n c).alm = s.alm := rfl
@[simp] theorem State.setRing_link (s : State) (n : Nat) (c : Ring) : (s.setRing n c).link = s.link := rfl
@[simp] theorem State.setRing_host (s : State) (n : Nat) (c : Ring) : (s.setRing n c).host = s.host := rfl
@[simp] theorem State.setRing_strmOn (s : State) (n : Nat) (c : Ring) : (s.setRing n c).strmOn = s.strmOn := rfl
@[simp] theorem State.setRing_rsh (s : State) (n : Nat) (c : Ring) : (s.setRing n c).rsh = s.rsh := rfl
@[simp] theorem State.setRing_blk (s : State) (n : Nat) (c : Ring) : (s.setRing n c).blk = s.blk := rfl
@[simp] theorem State.setRing_subst (s : State) (n : Nat) (c : Ring) : (s.setRing n c).subst = s.subst := rfl
@[simp] theorem State.setRing_spare (s : State) (n : Nat) (c : Ring) : (s.setRing n c).spare = s.spare := rfl
@[simp] theorem State.setRing_power (s : State) (n : Nat) (c : Ring) : (s.setRing n c).power = s.power := rfl
@[simp] theorem State.setRing_seed (s : State) (n : Nat) (c : Ring) : (s.setRing n c).seed = s.seed := rfl
@[simp] theorem State.setRing_rst (s : State) (n : Nat) (c : Ring) : (s.setRing n c).rst = s.rst := rfl
@[simp] theorem State.setRing_obs (s : State) (n : Nat) (c : Ring) : (s.setRing n c).obs = s.obs := rfl
@[simp] theorem State.setRing_rel (s : State) (n : Nat) (c : Ring) : (s.setRing n c).rel = s.rel := rfl
@[simp] theorem State.setRing_scr (s : State) (n : Nat) (c : Ring) : (s.setRing n c).scr = s.scr := rfl
@[simp] theorem State.setRing_wrote (s : State) (n : Nat) (c : Ring) : (s.setRing n c).wrote = s.wrote := rfl
@[simp] theorem State.setRing_undefs (s : State) (n : Nat) (c : Ring) : (s.setRing n c).undefs = s.undefs := rfl
@[simp] theorem State.setRing_fieldsUp (s : State) (n : Nat) (c : Ring) : (s.setRing n c).fieldsUp = s.fieldsUp := rfl
@[simp] theorem State.setRing_bounds (s : State) (n : Nat) (c : Ring) : (s.setRing n c).bounds = s.bounds := rfl
@[simp] theorem State.setRing_pauses (s : State) (n : Nat) (c : Ring) : (s.setRing n c).pauses = s.pauses := rfl
@[simp] theorem State.setRing_hits (s : State) (n : Nat) (c : Ring) : (s.setRing n c).hits = s.hits := rfl
@[simp] theorem State.setRing_descJobs (s : State) (n : Nat) (c : Ring) : (s.setRing n c).descJobs = s.descJobs := rfl
@[simp] theorem State.setRing_descLost (s : State) (n : Nat) (c : Ring) : (s.setRing n c).descLost = s.descLost := rfl
@[simp] theorem State.setRing_out (s : State) (n : Nat) (c : Ring) : (s.setRing n c).out = s.out := rfl

@[simp] theorem State.onRing_pending (s : State) (n : Nat) (f : Ring → Ring) : (s.onRing n f).pending = s.pending := rfl
@[simp] theorem State.onRing_partNo (s : State) (n : Nat) (f : Ring → Ring) : (s.onRing n f).partNo = s.partNo := rfl
@[simp] theorem State.onRing_time (s : State) (n : Nat) (f : Ring → Ring) : (s.onRing n f).time = s.time := rfl
@[simp] theorem State.onRing_regs (s : State) (n : Nat) (f : Ring → Ring) : (s.onRing n f).regs = s.regs := rfl
@[simp] theorem State.onRing_cfg (s : State) (n : Nat) (f : Ring → Ring) : (s.onRing n f).cfg = s.cfg := rfl
@[simp] theorem State.onRing_latches (s : State) (n : Nat) (f : Ring → Ring) : (s.onRing n f).latches = s.latches := rfl
@[simp] theorem State.onRing_mem (s : State) (n : Nat) (f : Ring → Ring) : (s.onRing n f).mem = s.mem := rfl
@[simp] theorem State.onRing_valid (s : State) (n : Nat) (f : Ring → Ring) : (s.onRing n f).valid = s.valid := rfl
@[simp] theorem State.onRing_ecc (s : State) (n : Nat) (f : Ring → Ring) : (s.onRing n f).ecc = s.ecc := rfl
@[simp] theorem State.onRing_ret (s : State) (n : Nat) (f : Ring → Ring) : (s.onRing n f).ret = s.ret := rfl
@[simp] theorem State.onRing_chaff (s : State) (n : Nat) (f : Ring → Ring) : (s.onRing n f).chaff = s.chaff := rfl
@[simp] theorem State.onRing_cores (s : State) (n : Nat) (f : Ring → Ring) : (s.onRing n f).cores = s.cores := rfl
@[simp] theorem State.onRing_fields (s : State) (n : Nat) (f : Ring → Ring) : (s.onRing n f).fields = s.fields := rfl
@[simp] theorem State.onRing_parts (s : State) (n : Nat) (f : Ring → Ring) : (s.onRing n f).parts = s.parts := rfl
@[simp] theorem State.onRing_allocs (s : State) (n : Nat) (f : Ring → Ring) : (s.onRing n f).allocs = s.allocs := rfl
@[simp] theorem State.onRing_allocGen (s : State) (n : Nat) (f : Ring → Ring) : (s.onRing n f).allocGen = s.allocGen := rfl
@[simp] theorem State.onRing_descs (s : State) (n : Nat) (f : Ring → Ring) : (s.onRing n f).descs = s.descs := rfl
@[simp] theorem State.onRing_stage (s : State) (n : Nat) (f : Ring → Ring) : (s.onRing n f).stage = s.stage := rfl
@[simp] theorem State.onRing_strmRead (s : State) (n : Nat) (f : Ring → Ring) : (s.onRing n f).strmRead = s.strmRead := rfl
@[simp] theorem State.onRing_lastFault (s : State) (n : Nat) (f : Ring → Ring) : (s.onRing n f).lastFault = s.lastFault := rfl
@[simp] theorem State.onRing_served (s : State) (n : Nat) (f : Ring → Ring) : (s.onRing n f).served = s.served := rfl
@[simp] theorem State.onRing_ready (s : State) (n : Nat) (f : Ring → Ring) : (s.onRing n f).ready = s.ready := rfl
@[simp] theorem State.onRing_stalls (s : State) (n : Nat) (f : Ring → Ring) : (s.onRing n f).stalls = s.stalls := rfl
@[simp] theorem State.onRing_errQ (s : State) (n : Nat) (f : Ring → Ring) : (s.onRing n f).errQ = s.errQ := rfl
@[simp] theorem State.onRing_faultQ (s : State) (n : Nat) (f : Ring → Ring) : (s.onRing n f).faultQ = s.faultQ := rfl
@[simp] theorem State.onRing_moves (s : State) (n : Nat) (f : Ring → Ring) : (s.onRing n f).moves = s.moves := rfl
@[simp] theorem State.onRing_nextMove (s : State) (n : Nat) (f : Ring → Ring) : (s.onRing n f).nextMove = s.nextMove := rfl
@[simp] theorem State.onRing_contribs (s : State) (n : Nat) (f : Ring → Ring) : (s.onRing n f).contribs = s.contribs := rfl
@[simp] theorem State.onRing_scatterSat (s : State) (n : Nat) (f : Ring → Ring) : (s.onRing n f).scatterSat = s.scatterSat := rfl
@[simp] theorem State.onRing_det (s : State) (n : Nat) (f : Ring → Ring) : (s.onRing n f).det = s.det := rfl
@[simp] theorem State.onRing_waits (s : State) (n : Nat) (f : Ring → Ring) : (s.onRing n f).waits = s.waits := rfl
@[simp] theorem State.onRing_mdq (s : State) (n : Nat) (f : Ring → Ring) : (s.onRing n f).mdq = s.mdq := rfl
@[simp] theorem State.onRing_lines (s : State) (n : Nat) (f : Ring → Ring) : (s.onRing n f).lines = s.lines := rfl
@[simp] theorem State.onRing_binMoves (s : State) (n : Nat) (f : Ring → Ring) : (s.onRing n f).binMoves = s.binMoves := rfl
@[simp] theorem State.onRing_nextAsk (s : State) (n : Nat) (f : Ring → Ring) : (s.onRing n f).nextAsk = s.nextAsk := rfl
@[simp] theorem State.onRing_roles (s : State) (n : Nat) (f : Ring → Ring) : (s.onRing n f).roles = s.roles := rfl
@[simp] theorem State.onRing_bootEnd (s : State) (n : Nat) (f : Ring → Ring) : (s.onRing n f).bootEnd = s.bootEnd := rfl
@[simp] theorem State.onRing_history (s : State) (n : Nat) (f : Ring → Ring) : (s.onRing n f).history = s.history := rfl
@[simp] theorem State.onRing_mgmt (s : State) (n : Nat) (f : Ring → Ring) : (s.onRing n f).mgmt = s.mgmt := rfl
@[simp] theorem State.onRing_alm (s : State) (n : Nat) (f : Ring → Ring) : (s.onRing n f).alm = s.alm := rfl
@[simp] theorem State.onRing_link (s : State) (n : Nat) (f : Ring → Ring) : (s.onRing n f).link = s.link := rfl
@[simp] theorem State.onRing_host (s : State) (n : Nat) (f : Ring → Ring) : (s.onRing n f).host = s.host := rfl
@[simp] theorem State.onRing_strmOn (s : State) (n : Nat) (f : Ring → Ring) : (s.onRing n f).strmOn = s.strmOn := rfl
@[simp] theorem State.onRing_rsh (s : State) (n : Nat) (f : Ring → Ring) : (s.onRing n f).rsh = s.rsh := rfl
@[simp] theorem State.onRing_blk (s : State) (n : Nat) (f : Ring → Ring) : (s.onRing n f).blk = s.blk := rfl
@[simp] theorem State.onRing_subst (s : State) (n : Nat) (f : Ring → Ring) : (s.onRing n f).subst = s.subst := rfl
@[simp] theorem State.onRing_spare (s : State) (n : Nat) (f : Ring → Ring) : (s.onRing n f).spare = s.spare := rfl
@[simp] theorem State.onRing_power (s : State) (n : Nat) (f : Ring → Ring) : (s.onRing n f).power = s.power := rfl
@[simp] theorem State.onRing_seed (s : State) (n : Nat) (f : Ring → Ring) : (s.onRing n f).seed = s.seed := rfl
@[simp] theorem State.onRing_rst (s : State) (n : Nat) (f : Ring → Ring) : (s.onRing n f).rst = s.rst := rfl
@[simp] theorem State.onRing_obs (s : State) (n : Nat) (f : Ring → Ring) : (s.onRing n f).obs = s.obs := rfl
@[simp] theorem State.onRing_rel (s : State) (n : Nat) (f : Ring → Ring) : (s.onRing n f).rel = s.rel := rfl
@[simp] theorem State.onRing_scr (s : State) (n : Nat) (f : Ring → Ring) : (s.onRing n f).scr = s.scr := rfl
@[simp] theorem State.onRing_wrote (s : State) (n : Nat) (f : Ring → Ring) : (s.onRing n f).wrote = s.wrote := rfl
@[simp] theorem State.onRing_undefs (s : State) (n : Nat) (f : Ring → Ring) : (s.onRing n f).undefs = s.undefs := rfl
@[simp] theorem State.onRing_fieldsUp (s : State) (n : Nat) (f : Ring → Ring) : (s.onRing n f).fieldsUp = s.fieldsUp := rfl
@[simp] theorem State.onRing_bounds (s : State) (n : Nat) (f : Ring → Ring) : (s.onRing n f).bounds = s.bounds := rfl
@[simp] theorem State.onRing_pauses (s : State) (n : Nat) (f : Ring → Ring) : (s.onRing n f).pauses = s.pauses := rfl
@[simp] theorem State.onRing_hits (s : State) (n : Nat) (f : Ring → Ring) : (s.onRing n f).hits = s.hits := rfl
@[simp] theorem State.onRing_descJobs (s : State) (n : Nat) (f : Ring → Ring) : (s.onRing n f).descJobs = s.descJobs := rfl
@[simp] theorem State.onRing_descLost (s : State) (n : Nat) (f : Ring → Ring) : (s.onRing n f).descLost = s.descLost := rfl
@[simp] theorem State.onRing_out (s : State) (n : Nat) (f : Ring → Ring) : (s.onRing n f).out = s.out := rfl

@[simp] theorem State.emit_pending (s : State) (o : Out) : (s.emit o).pending = s.pending := rfl
@[simp] theorem State.emit_partNo (s : State) (o : Out) : (s.emit o).partNo = s.partNo := rfl
@[simp] theorem State.emit_time (s : State) (o : Out) : (s.emit o).time = s.time := rfl
@[simp] theorem State.emit_regs (s : State) (o : Out) : (s.emit o).regs = s.regs := rfl
@[simp] theorem State.emit_cfg (s : State) (o : Out) : (s.emit o).cfg = s.cfg := rfl
@[simp] theorem State.emit_latches (s : State) (o : Out) : (s.emit o).latches = s.latches := rfl
@[simp] theorem State.emit_mem (s : State) (o : Out) : (s.emit o).mem = s.mem := rfl
@[simp] theorem State.emit_valid (s : State) (o : Out) : (s.emit o).valid = s.valid := rfl
@[simp] theorem State.emit_ecc (s : State) (o : Out) : (s.emit o).ecc = s.ecc := rfl
@[simp] theorem State.emit_ret (s : State) (o : Out) : (s.emit o).ret = s.ret := rfl
@[simp] theorem State.emit_chaff (s : State) (o : Out) : (s.emit o).chaff = s.chaff := rfl
@[simp] theorem State.emit_cores (s : State) (o : Out) : (s.emit o).cores = s.cores := rfl
@[simp] theorem State.emit_fields (s : State) (o : Out) : (s.emit o).fields = s.fields := rfl
@[simp] theorem State.emit_rings (s : State) (o : Out) : (s.emit o).rings = s.rings := rfl
@[simp] theorem State.emit_parts (s : State) (o : Out) : (s.emit o).parts = s.parts := rfl
@[simp] theorem State.emit_allocs (s : State) (o : Out) : (s.emit o).allocs = s.allocs := rfl
@[simp] theorem State.emit_allocGen (s : State) (o : Out) : (s.emit o).allocGen = s.allocGen := rfl
@[simp] theorem State.emit_descs (s : State) (o : Out) : (s.emit o).descs = s.descs := rfl
@[simp] theorem State.emit_stage (s : State) (o : Out) : (s.emit o).stage = s.stage := rfl
@[simp] theorem State.emit_strmRead (s : State) (o : Out) : (s.emit o).strmRead = s.strmRead := rfl
@[simp] theorem State.emit_lastFault (s : State) (o : Out) : (s.emit o).lastFault = s.lastFault := rfl
@[simp] theorem State.emit_served (s : State) (o : Out) : (s.emit o).served = s.served := rfl
@[simp] theorem State.emit_ready (s : State) (o : Out) : (s.emit o).ready = s.ready := rfl
@[simp] theorem State.emit_stalls (s : State) (o : Out) : (s.emit o).stalls = s.stalls := rfl
@[simp] theorem State.emit_errQ (s : State) (o : Out) : (s.emit o).errQ = s.errQ := rfl
@[simp] theorem State.emit_faultQ (s : State) (o : Out) : (s.emit o).faultQ = s.faultQ := rfl
@[simp] theorem State.emit_moves (s : State) (o : Out) : (s.emit o).moves = s.moves := rfl
@[simp] theorem State.emit_nextMove (s : State) (o : Out) : (s.emit o).nextMove = s.nextMove := rfl
@[simp] theorem State.emit_contribs (s : State) (o : Out) : (s.emit o).contribs = s.contribs := rfl
@[simp] theorem State.emit_scatterSat (s : State) (o : Out) : (s.emit o).scatterSat = s.scatterSat := rfl
@[simp] theorem State.emit_det (s : State) (o : Out) : (s.emit o).det = s.det := rfl
@[simp] theorem State.emit_waits (s : State) (o : Out) : (s.emit o).waits = s.waits := rfl
@[simp] theorem State.emit_mdq (s : State) (o : Out) : (s.emit o).mdq = s.mdq := rfl
@[simp] theorem State.emit_lines (s : State) (o : Out) : (s.emit o).lines = s.lines := rfl
@[simp] theorem State.emit_binMoves (s : State) (o : Out) : (s.emit o).binMoves = s.binMoves := rfl
@[simp] theorem State.emit_nextAsk (s : State) (o : Out) : (s.emit o).nextAsk = s.nextAsk := rfl
@[simp] theorem State.emit_roles (s : State) (o : Out) : (s.emit o).roles = s.roles := rfl
@[simp] theorem State.emit_bootEnd (s : State) (o : Out) : (s.emit o).bootEnd = s.bootEnd := rfl
@[simp] theorem State.emit_history (s : State) (o : Out) : (s.emit o).history = s.history := rfl
@[simp] theorem State.emit_mgmt (s : State) (o : Out) : (s.emit o).mgmt = s.mgmt := rfl
@[simp] theorem State.emit_alm (s : State) (o : Out) : (s.emit o).alm = s.alm := rfl
@[simp] theorem State.emit_link (s : State) (o : Out) : (s.emit o).link = s.link := rfl
@[simp] theorem State.emit_host (s : State) (o : Out) : (s.emit o).host = s.host := rfl
@[simp] theorem State.emit_strmOn (s : State) (o : Out) : (s.emit o).strmOn = s.strmOn := rfl
@[simp] theorem State.emit_rsh (s : State) (o : Out) : (s.emit o).rsh = s.rsh := rfl
@[simp] theorem State.emit_blk (s : State) (o : Out) : (s.emit o).blk = s.blk := rfl
@[simp] theorem State.emit_subst (s : State) (o : Out) : (s.emit o).subst = s.subst := rfl
@[simp] theorem State.emit_spare (s : State) (o : Out) : (s.emit o).spare = s.spare := rfl
@[simp] theorem State.emit_power (s : State) (o : Out) : (s.emit o).power = s.power := rfl
@[simp] theorem State.emit_seed (s : State) (o : Out) : (s.emit o).seed = s.seed := rfl
@[simp] theorem State.emit_rst (s : State) (o : Out) : (s.emit o).rst = s.rst := rfl
@[simp] theorem State.emit_obs (s : State) (o : Out) : (s.emit o).obs = s.obs := rfl
@[simp] theorem State.emit_rel (s : State) (o : Out) : (s.emit o).rel = s.rel := rfl
@[simp] theorem State.emit_scr (s : State) (o : Out) : (s.emit o).scr = s.scr := rfl
@[simp] theorem State.emit_wrote (s : State) (o : Out) : (s.emit o).wrote = s.wrote := rfl
@[simp] theorem State.emit_undefs (s : State) (o : Out) : (s.emit o).undefs = s.undefs := rfl
@[simp] theorem State.emit_fieldsUp (s : State) (o : Out) : (s.emit o).fieldsUp = s.fieldsUp := rfl
@[simp] theorem State.emit_bounds (s : State) (o : Out) : (s.emit o).bounds = s.bounds := rfl
@[simp] theorem State.emit_pauses (s : State) (o : Out) : (s.emit o).pauses = s.pauses := rfl
@[simp] theorem State.emit_hits (s : State) (o : Out) : (s.emit o).hits = s.hits := rfl
@[simp] theorem State.emit_descJobs (s : State) (o : Out) : (s.emit o).descJobs = s.descJobs := rfl
@[simp] theorem State.emit_descLost (s : State) (o : Out) : (s.emit o).descLost = s.descLost := rfl
@[simp] theorem State.emit_out (s : State) (o : Out) : (s.emit o).out = s.out ++ [o] := rfl

@[simp] theorem State.confirm_pending (s : State) (f : FaultRec) : (s.confirm f).pending = s.pending := rfl
@[simp] theorem State.confirm_partNo (s : State) (f : FaultRec) : (s.confirm f).partNo = s.partNo := rfl
@[simp] theorem State.confirm_time (s : State) (f : FaultRec) : (s.confirm f).time = s.time := rfl
@[simp] theorem State.confirm_regs (s : State) (f : FaultRec) : (s.confirm f).regs = s.regs := rfl
@[simp] theorem State.confirm_cfg (s : State) (f : FaultRec) : (s.confirm f).cfg = s.cfg := rfl
@[simp] theorem State.confirm_latches (s : State) (f : FaultRec) : (s.confirm f).latches = s.latches := rfl
@[simp] theorem State.confirm_mem (s : State) (f : FaultRec) : (s.confirm f).mem = s.mem := rfl
@[simp] theorem State.confirm_valid (s : State) (f : FaultRec) : (s.confirm f).valid = s.valid := rfl
@[simp] theorem State.confirm_ecc (s : State) (f : FaultRec) : (s.confirm f).ecc = s.ecc := rfl
@[simp] theorem State.confirm_ret (s : State) (f : FaultRec) : (s.confirm f).ret = s.ret := rfl
@[simp] theorem State.confirm_chaff (s : State) (f : FaultRec) : (s.confirm f).chaff = s.chaff := rfl
@[simp] theorem State.confirm_cores (s : State) (f : FaultRec) : (s.confirm f).cores = s.cores := rfl
@[simp] theorem State.confirm_fields (s : State) (f : FaultRec) : (s.confirm f).fields = s.fields := rfl
@[simp] theorem State.confirm_rings (s : State) (f : FaultRec) : (s.confirm f).rings = s.rings := rfl
@[simp] theorem State.confirm_parts (s : State) (f : FaultRec) : (s.confirm f).parts = s.parts := rfl
@[simp] theorem State.confirm_allocs (s : State) (f : FaultRec) : (s.confirm f).allocs = s.allocs := rfl
@[simp] theorem State.confirm_allocGen (s : State) (f : FaultRec) : (s.confirm f).allocGen = s.allocGen := rfl
@[simp] theorem State.confirm_descs (s : State) (f : FaultRec) : (s.confirm f).descs = s.descs := rfl
@[simp] theorem State.confirm_stage (s : State) (f : FaultRec) : (s.confirm f).stage = s.stage := rfl
@[simp] theorem State.confirm_strmRead (s : State) (f : FaultRec) : (s.confirm f).strmRead = s.strmRead := rfl
@[simp] theorem State.confirm_lastFault (s : State) (f : FaultRec) : (s.confirm f).lastFault = s.lastFault := rfl
@[simp] theorem State.confirm_served (s : State) (f : FaultRec) : (s.confirm f).served = s.served := rfl
@[simp] theorem State.confirm_ready (s : State) (f : FaultRec) : (s.confirm f).ready = s.ready := rfl
@[simp] theorem State.confirm_stalls (s : State) (f : FaultRec) : (s.confirm f).stalls = s.stalls := rfl
@[simp] theorem State.confirm_errQ (s : State) (f : FaultRec) : (s.confirm f).errQ = s.errQ := rfl
@[simp] theorem State.confirm_faultQ (s : State) (f : FaultRec) : (s.confirm f).faultQ = s.faultQ ++ [f] := rfl
@[simp] theorem State.confirm_moves (s : State) (f : FaultRec) : (s.confirm f).moves = s.moves := rfl
@[simp] theorem State.confirm_nextMove (s : State) (f : FaultRec) : (s.confirm f).nextMove = s.nextMove := rfl
@[simp] theorem State.confirm_contribs (s : State) (f : FaultRec) : (s.confirm f).contribs = s.contribs := rfl
@[simp] theorem State.confirm_scatterSat (s : State) (f : FaultRec) : (s.confirm f).scatterSat = s.scatterSat := rfl
@[simp] theorem State.confirm_det (s : State) (f : FaultRec) : (s.confirm f).det = s.det := rfl
@[simp] theorem State.confirm_waits (s : State) (f : FaultRec) : (s.confirm f).waits = s.waits := rfl
@[simp] theorem State.confirm_mdq (s : State) (f : FaultRec) : (s.confirm f).mdq = s.mdq := rfl
@[simp] theorem State.confirm_lines (s : State) (f : FaultRec) : (s.confirm f).lines = s.lines := rfl
@[simp] theorem State.confirm_binMoves (s : State) (f : FaultRec) : (s.confirm f).binMoves = s.binMoves := rfl
@[simp] theorem State.confirm_nextAsk (s : State) (f : FaultRec) : (s.confirm f).nextAsk = s.nextAsk := rfl
@[simp] theorem State.confirm_roles (s : State) (f : FaultRec) : (s.confirm f).roles = s.roles := rfl
@[simp] theorem State.confirm_bootEnd (s : State) (f : FaultRec) : (s.confirm f).bootEnd = s.bootEnd := rfl
@[simp] theorem State.confirm_history (s : State) (f : FaultRec) : (s.confirm f).history = s.history := rfl
@[simp] theorem State.confirm_mgmt (s : State) (f : FaultRec) : (s.confirm f).mgmt = s.mgmt := rfl
@[simp] theorem State.confirm_alm (s : State) (f : FaultRec) : (s.confirm f).alm = s.alm := rfl
@[simp] theorem State.confirm_link (s : State) (f : FaultRec) : (s.confirm f).link = s.link := rfl
@[simp] theorem State.confirm_host (s : State) (f : FaultRec) : (s.confirm f).host = s.host := rfl
@[simp] theorem State.confirm_strmOn (s : State) (f : FaultRec) : (s.confirm f).strmOn = s.strmOn := rfl
@[simp] theorem State.confirm_rsh (s : State) (f : FaultRec) : (s.confirm f).rsh = s.rsh := rfl
@[simp] theorem State.confirm_blk (s : State) (f : FaultRec) : (s.confirm f).blk = s.blk := rfl
@[simp] theorem State.confirm_subst (s : State) (f : FaultRec) : (s.confirm f).subst = s.subst := rfl
@[simp] theorem State.confirm_spare (s : State) (f : FaultRec) : (s.confirm f).spare = s.spare := rfl
@[simp] theorem State.confirm_power (s : State) (f : FaultRec) : (s.confirm f).power = s.power := rfl
@[simp] theorem State.confirm_seed (s : State) (f : FaultRec) : (s.confirm f).seed = s.seed := rfl
@[simp] theorem State.confirm_rst (s : State) (f : FaultRec) : (s.confirm f).rst = s.rst := rfl
@[simp] theorem State.confirm_obs (s : State) (f : FaultRec) : (s.confirm f).obs = s.obs := rfl
@[simp] theorem State.confirm_rel (s : State) (f : FaultRec) : (s.confirm f).rel = s.rel := rfl
@[simp] theorem State.confirm_scr (s : State) (f : FaultRec) : (s.confirm f).scr = s.scr := rfl
@[simp] theorem State.confirm_wrote (s : State) (f : FaultRec) : (s.confirm f).wrote = s.wrote := rfl
@[simp] theorem State.confirm_undefs (s : State) (f : FaultRec) : (s.confirm f).undefs = s.undefs := rfl
@[simp] theorem State.confirm_fieldsUp (s : State) (f : FaultRec) : (s.confirm f).fieldsUp = s.fieldsUp := rfl
@[simp] theorem State.confirm_bounds (s : State) (f : FaultRec) : (s.confirm f).bounds = s.bounds := rfl
@[simp] theorem State.confirm_pauses (s : State) (f : FaultRec) : (s.confirm f).pauses = s.pauses := rfl
@[simp] theorem State.confirm_hits (s : State) (f : FaultRec) : (s.confirm f).hits = s.hits := rfl
@[simp] theorem State.confirm_descJobs (s : State) (f : FaultRec) : (s.confirm f).descJobs = s.descJobs := rfl
@[simp] theorem State.confirm_descLost (s : State) (f : FaultRec) : (s.confirm f).descLost = s.descLost := rfl
@[simp] theorem State.confirm_out (s : State) (f : FaultRec) : (s.confirm f).out = s.out := rfl

@[simp] theorem State.stepError_pending (s : State) (e : StepErr) : (s.stepError e).pending = s.pending := rfl
@[simp] theorem State.stepError_partNo (s : State) (e : StepErr) : (s.stepError e).partNo = s.partNo := rfl
@[simp] theorem State.stepError_time (s : State) (e : StepErr) : (s.stepError e).time = s.time := rfl
@[simp] theorem State.stepError_regs (s : State) (e : StepErr) : (s.stepError e).regs = s.regs := rfl
@[simp] theorem State.stepError_cfg (s : State) (e : StepErr) : (s.stepError e).cfg = s.cfg := rfl
@[simp] theorem State.stepError_latches (s : State) (e : StepErr) : (s.stepError e).latches = s.latches := rfl
@[simp] theorem State.stepError_mem (s : State) (e : StepErr) : (s.stepError e).mem = s.mem := rfl
@[simp] theorem State.stepError_valid (s : State) (e : StepErr) : (s.stepError e).valid = s.valid := rfl
@[simp] theorem State.stepError_ecc (s : State) (e : StepErr) : (s.stepError e).ecc = s.ecc := rfl
@[simp] theorem State.stepError_ret (s : State) (e : StepErr) : (s.stepError e).ret = s.ret := rfl
@[simp] theorem State.stepError_chaff (s : State) (e : StepErr) : (s.stepError e).chaff = s.chaff := rfl
@[simp] theorem State.stepError_cores (s : State) (e : StepErr) : (s.stepError e).cores = s.cores := rfl
@[simp] theorem State.stepError_fields (s : State) (e : StepErr) : (s.stepError e).fields = s.fields := rfl
@[simp] theorem State.stepError_rings (s : State) (e : StepErr) : (s.stepError e).rings = s.rings := rfl
@[simp] theorem State.stepError_parts (s : State) (e : StepErr) : (s.stepError e).parts = s.parts := rfl
@[simp] theorem State.stepError_allocs (s : State) (e : StepErr) : (s.stepError e).allocs = s.allocs := rfl
@[simp] theorem State.stepError_allocGen (s : State) (e : StepErr) : (s.stepError e).allocGen = s.allocGen := rfl
@[simp] theorem State.stepError_descs (s : State) (e : StepErr) : (s.stepError e).descs = s.descs := rfl
@[simp] theorem State.stepError_stage (s : State) (e : StepErr) : (s.stepError e).stage = s.stage := rfl
@[simp] theorem State.stepError_strmRead (s : State) (e : StepErr) : (s.stepError e).strmRead = s.strmRead := rfl
@[simp] theorem State.stepError_lastFault (s : State) (e : StepErr) : (s.stepError e).lastFault = s.lastFault := rfl
@[simp] theorem State.stepError_served (s : State) (e : StepErr) : (s.stepError e).served = s.served := rfl
@[simp] theorem State.stepError_ready (s : State) (e : StepErr) : (s.stepError e).ready = s.ready := rfl
@[simp] theorem State.stepError_stalls (s : State) (e : StepErr) : (s.stepError e).stalls = s.stalls := rfl
@[simp] theorem State.stepError_errQ (s : State) (e : StepErr) : (s.stepError e).errQ = s.errQ ++ [e] := rfl
@[simp] theorem State.stepError_faultQ (s : State) (e : StepErr) : (s.stepError e).faultQ = s.faultQ := rfl
@[simp] theorem State.stepError_moves (s : State) (e : StepErr) : (s.stepError e).moves = s.moves := rfl
@[simp] theorem State.stepError_nextMove (s : State) (e : StepErr) : (s.stepError e).nextMove = s.nextMove := rfl
@[simp] theorem State.stepError_contribs (s : State) (e : StepErr) : (s.stepError e).contribs = s.contribs := rfl
@[simp] theorem State.stepError_scatterSat (s : State) (e : StepErr) : (s.stepError e).scatterSat = s.scatterSat := rfl
@[simp] theorem State.stepError_det (s : State) (e : StepErr) : (s.stepError e).det = s.det := rfl
@[simp] theorem State.stepError_waits (s : State) (e : StepErr) : (s.stepError e).waits = s.waits := rfl
@[simp] theorem State.stepError_mdq (s : State) (e : StepErr) : (s.stepError e).mdq = s.mdq := rfl
@[simp] theorem State.stepError_lines (s : State) (e : StepErr) : (s.stepError e).lines = s.lines := rfl
@[simp] theorem State.stepError_binMoves (s : State) (e : StepErr) : (s.stepError e).binMoves = s.binMoves := rfl
@[simp] theorem State.stepError_nextAsk (s : State) (e : StepErr) : (s.stepError e).nextAsk = s.nextAsk := rfl
@[simp] theorem State.stepError_roles (s : State) (e : StepErr) : (s.stepError e).roles = s.roles := rfl
@[simp] theorem State.stepError_bootEnd (s : State) (e : StepErr) : (s.stepError e).bootEnd = s.bootEnd := rfl
@[simp] theorem State.stepError_history (s : State) (e : StepErr) : (s.stepError e).history = s.history := rfl
@[simp] theorem State.stepError_mgmt (s : State) (e : StepErr) : (s.stepError e).mgmt = s.mgmt := rfl
@[simp] theorem State.stepError_alm (s : State) (e : StepErr) : (s.stepError e).alm = s.alm := rfl
@[simp] theorem State.stepError_link (s : State) (e : StepErr) : (s.stepError e).link = s.link := rfl
@[simp] theorem State.stepError_host (s : State) (e : StepErr) : (s.stepError e).host = s.host := rfl
@[simp] theorem State.stepError_strmOn (s : State) (e : StepErr) : (s.stepError e).strmOn = s.strmOn := rfl
@[simp] theorem State.stepError_rsh (s : State) (e : StepErr) : (s.stepError e).rsh = s.rsh := rfl
@[simp] theorem State.stepError_blk (s : State) (e : StepErr) : (s.stepError e).blk = s.blk := rfl
@[simp] theorem State.stepError_subst (s : State) (e : StepErr) : (s.stepError e).subst = s.subst := rfl
@[simp] theorem State.stepError_spare (s : State) (e : StepErr) : (s.stepError e).spare = s.spare := rfl
@[simp] theorem State.stepError_power (s : State) (e : StepErr) : (s.stepError e).power = s.power := rfl
@[simp] theorem State.stepError_seed (s : State) (e : StepErr) : (s.stepError e).seed = s.seed := rfl
@[simp] theorem State.stepError_rst (s : State) (e : StepErr) : (s.stepError e).rst = s.rst := rfl
@[simp] theorem State.stepError_obs (s : State) (e : StepErr) : (s.stepError e).obs = s.obs := rfl
@[simp] theorem State.stepError_rel (s : State) (e : StepErr) : (s.stepError e).rel = s.rel := rfl
@[simp] theorem State.stepError_scr (s : State) (e : StepErr) : (s.stepError e).scr = s.scr := rfl
@[simp] theorem State.stepError_wrote (s : State) (e : StepErr) : (s.stepError e).wrote = s.wrote := rfl
@[simp] theorem State.stepError_undefs (s : State) (e : StepErr) : (s.stepError e).undefs = s.undefs := rfl
@[simp] theorem State.stepError_fieldsUp (s : State) (e : StepErr) : (s.stepError e).fieldsUp = s.fieldsUp := rfl
@[simp] theorem State.stepError_bounds (s : State) (e : StepErr) : (s.stepError e).bounds = s.bounds := rfl
@[simp] theorem State.stepError_pauses (s : State) (e : StepErr) : (s.stepError e).pauses = s.pauses := rfl
@[simp] theorem State.stepError_hits (s : State) (e : StepErr) : (s.stepError e).hits = s.hits := rfl
@[simp] theorem State.stepError_descJobs (s : State) (e : StepErr) : (s.stepError e).descJobs = s.descJobs := rfl
@[simp] theorem State.stepError_descLost (s : State) (e : StepErr) : (s.stepError e).descLost = s.descLost := rfl
@[simp] theorem State.stepError_out (s : State) (e : StepErr) : (s.stepError e).out = s.out := rfl

end Sys2Proof.Machine
end

