-- ==== Sys2Proof/Laws/Table.lean ====
section
/-!
SUPPORT. Laws/Table.lean: reading a sparse table after it is written, and a register field, a core, a ring or a field of cores after it is put.
-/
namespace Sys2Proof.Machine

/-- The entry just put is found. -/
@[simp] theorem alFind_alPut_same {α : Type} (l : List (Nat × α)) (x : Nat) (v : α) : alFind (alPut l x v) x = some v := by
  induction l with
  | nil => simp [alPut, alFind]
  | cons h t ih =>
    obtain ⟨k, w⟩ := h
    unfold alPut
    by_cases h1 : x < k
    · simp [h1, alFind]
    · by_cases h2 : x = k
      · simp [h2, alFind]
      · have h3 : ¬ k = x := fun h => h2 h.symm
        simp [h1, h2, h3, alFind, ih]

/-- Another entry is as before. -/
theorem alFind_alPut_other {α : Type} (l : List (Nat × α)) (x y : Nat) (v : α) (h : y ≠ x) : alFind (alPut l x v) y = alFind l y := by
  induction l with
  | nil => simp [alPut, alFind, Ne.symm h]
  | cons e t ih =>
    obtain ⟨k, w⟩ := e
    unfold alPut
    by_cases h1 : x < k
    · simp [h1, alFind, Ne.symm h]
    · by_cases h2 : x = k
      · subst h2
        simp [alFind, Ne.symm h]
      · simp only [h1, h2, if_false, alFind, ih]

/-- Reading by key after a put. -/
theorem alFind_alPut {α : Type} (l : List (Nat × α)) (x y : Nat) (v : α) :
    alFind (alPut l x v) y = if y = x then some v else alFind l y := by
  by_cases h : y = x
  · simp [h]
  · simp [h, alFind_alPut_other]

/-- The entry just put, with a default. -/
@[simp] theorem alGet_alPut_same {α : Type} (d : α) (l : List (Nat × α)) (x : Nat) (v : α) : alGet d (alPut l x v) x = v := by
  simp [alGet]

/-- Another entry with a default is as before. -/
theorem alGet_alPut_other {α : Type} (d : α) (l : List (Nat × α)) (x y : Nat) (v : α) (h : y ≠ x) :
    alGet d (alPut l x v) y = alGet d l y := by
  simp [alGet, alFind_alPut_other l x y v h]

/-- A field reads as it was put, cut to its width. -/
@[simp] theorem State.fget_fset_same (s : State) (f : Fld) (i v : Nat) : (s.fset f i v).fget f i = v % 2 ^ f.width := by
  simp [State.fget]

/-- A field of another key is as before. -/
theorem State.fget_fset_other (s : State) (f g : Fld) (i j v : Nat) (h : g.key j ≠ f.key i) : (s.fset f i v).fget g j = s.fget g j := by
  simp [State.fget, alFind_alPut_other _ _ _ _ h]

/-- A core reads as it was put. -/
@[simp] theorem State.core_setCore_same (s : State) (n : Nat) (c : Core) : (s.setCore n c).core n = c := by
  simp [State.core]

/-- Another core is as before. -/
theorem State.core_setCore_other (s : State) (n m : Nat) (c : Core) (h : m ≠ n) : (s.setCore n c).core m = s.core m := by
  simp [State.core, alGet_alPut_other _ _ _ _ _ h]

/-- A core after a change of it. -/
@[simp] theorem State.core_onCore_same (s : State) (n : Nat) (f : Core → Core) : (s.onCore n f).core n = f (s.core n) := by
  simp [State.onCore]

/-- A ring reads as it was put. -/
@[simp] theorem State.ring_setRing_same (s : State) (n : Nat) (c : Ring) : (s.setRing n c).ring n = c := by
  simp [State.ring]

/-- Another ring is as before. -/
theorem State.ring_setRing_other (s : State) (n m : Nat) (c : Ring) (h : m ≠ n) : (s.setRing n c).ring m = s.ring m := by
  simp [State.ring, alGet_alPut_other _ _ _ _ _ h]

/-- A ring after a change of it. -/
@[simp] theorem State.ring_onRing_same (s : State) (n : Nat) (f : Ring → Ring) : (s.onRing n f).ring n = f (s.ring n) := by
  simp [State.onRing]

/-- A field of cores reads as it was put. -/
@[simp] theorem State.field_setField_same (s : State) (n : Nat) (c : Field) : (s.setField n c).field n = c := by
  simp [State.field]

/-- Cores, rings and fields do not depend on registers or outputs. -/
@[simp] theorem State.core_fset (s : State) (f : Fld) (i v n : Nat) : (s.fset f i v).core n = s.core n := rfl
@[simp] theorem State.core_fadd (s : State) (f : Fld) (i v n : Nat) : (s.fadd f i v).core n = s.core n := rfl
@[simp] theorem State.core_emit (s : State) (o : Out) (n : Nat) : (s.emit o).core n = s.core n := rfl
@[simp] theorem State.ring_fset (s : State) (f : Fld) (i v n : Nat) : (s.fset f i v).ring n = s.ring n := rfl
@[simp] theorem State.ring_fadd (s : State) (f : Fld) (i v n : Nat) : (s.fadd f i v).ring n = s.ring n := rfl
@[simp] theorem State.field_fset (s : State) (f : Fld) (i v n : Nat) : (s.fset f i v).field n = s.field n := rfl

/-- Register fields do not depend on cores, rings, fields or outputs. -/
@[simp] theorem State.fget_setCore (s : State) (n : Nat) (c : Core) (f : Fld) (i : Nat) : (s.setCore n c).fget f i = s.fget f i := rfl
@[simp] theorem State.fget_onCore (s : State) (n : Nat) (g : Core → Core) (f : Fld) (i : Nat) : (s.onCore n g).fget f i = s.fget f i := rfl
@[simp] theorem State.fget_setRing (s : State) (n : Nat) (c : Ring) (f : Fld) (i : Nat) : (s.setRing n c).fget f i = s.fget f i := rfl
@[simp] theorem State.fget_onRing (s : State) (n : Nat) (g : Ring → Ring) (f : Fld) (i : Nat) : (s.onRing n g).fget f i = s.fget f i := rfl
@[simp] theorem State.fget_setField (s : State) (n : Nat) (c : Field) (f : Fld) (i : Nat) : (s.setField n c).fget f i = s.fget f i := rfl
@[simp] theorem State.fget_emit (s : State) (o : Out) (f : Fld) (i : Nat) : (s.emit o).fget f i = s.fget f i := rfl

end Sys2Proof.Machine
end

