-- ==== Sys2Proof/Laws/Core.lean ====
section
/-!
SUPPORT. Laws/Core.lean: what the operations of a control processor do, once each: a scalar register written, the program
counter moved, a work item ended.
-/
namespace Sys2Proof.Machine

/-- A scalar register after a write; s0 stays zero (R66). -/
theorem Core.reg_setReg (c : Core) (r rd : Reg) (v : W64) (ch : Bool) :
    (c.setReg rd v ch).reg r = if r = rd ∧ r ≠ 0 then v else c.reg r := by
  unfold Core.setReg Core.reg
  by_cases h0 : rd = 0
  · rw [if_pos h0]
    by_cases hr : r = 0
    · rw [if_pos hr, if_neg fun h => h.2 hr]
    · rw [if_neg hr, if_neg fun h => hr (h.1.trans h0)]
  · rw [if_neg h0]
    by_cases hr : r = 0
    · rw [if_pos hr, if_neg (fun h : r = rd ∧ r ≠ 0 => h.2 hr), if_pos hr]
    · rw [if_neg hr]
      by_cases he : r = rd
      · rw [if_pos (⟨he, hr⟩ : r = rd ∧ r ≠ 0), he]; exact alGet_alPut_same _ _ _ _
      · rw [if_neg (fun h : r = rd ∧ r ≠ 0 => he h.1), if_neg hr]
        exact alGet_alPut_other _ _ _ _ _ fun h => he (BitVec.eq_of_toNat_eq h)

@[simp] theorem Core.setReg_pc (c : Core) (rd : Reg) (v : W64) (ch : Bool) : (c.setReg rd v ch).pc = c.pc := by
  unfold Core.setReg; split <;> rfl
@[simp] theorem Core.setReg_instrCount (c : Core) (rd : Reg) (v : W64) (ch : Bool) : (c.setReg rd v ch).instrCount = c.instrCount := by
  unfold Core.setReg; split <;> rfl
@[simp] theorem Core.setReg_scratch (c : Core) (rd : Reg) (v : W64) (ch : Bool) : (c.setReg rd v ch).scratch = c.scratch := by
  unfold Core.setReg; split <;> rfl
@[simp] theorem Core.setReg_layer (c : Core) (rd : Reg) (v : W64) (ch : Bool) : (c.setReg rd v ch).layer = c.layer := by
  unfold Core.setReg; split <;> rfl
@[simp] theorem Core.setReg_oper (c : Core) (rd : Reg) (v : W64) (ch : Bool) : (c.setReg rd v ch).oper = c.oper := by
  unfold Core.setReg; split <;> rfl
@[simp] theorem Core.setReg_qm (c : Core) (rd : Reg) (v : W64) (ch : Bool) : (c.setReg rd v ch).qm = c.qm := by
  unfold Core.setReg; split <;> rfl
@[simp] theorem Core.setReg_qmv (c : Core) (rd : Reg) (v : W64) (ch : Bool) : (c.setReg rd v ch).qmv = c.qmv := by
  unfold Core.setReg; split <;> rfl
@[simp] theorem Core.setReg_wait (c : Core) (rd : Reg) (v : W64) (ch : Bool) : (c.setReg rd v ch).wait = c.wait := by
  unfold Core.setReg; split <;> rfl

/-- Only the core changes. -/
theorem onlyCore_onCore (s : State) (n : Nat) (f : Core → Core) : onlyCore s (s.onCore n f) n :=
  ⟨fun m h => by simp [State.onCore, State.core_setCore_other _ _ _ _ h], rfl, rfl, rfl, rfl, rfl⟩

/-- Moving past an instruction that is not the last of the image (R154). -/
theorem State.advance_eq (s : State) (n : Nat) (h : (s.core n).pc + 1 < (s.core n).instrCount) :
    s.advance n = s.onCore n fun c => { c with pc := c.pc + 1 } := by
  simp [State.advance, h, State.onCore]

/-- A jump within the image (R154). -/
theorem State.jump_eq (s : State) (n : Nat) (x : Int) (h0 : 0 ≤ x) (h : x < (s.core n).instrCount) :
    s.jump n x = s.onCore n fun c => { c with pc := x.toNat } := by
  simp [State.jump, h0, h]

/-- A jump out of the image (R154). -/
theorem State.jump_out (s : State) (n : Nat) (x : Int) (h : x < 0 ∨ ((s.core n).instrCount : Int) ≤ x) :
    s.jump n x = s.endItem n 0x0304 0 := by
  unfold State.jump; rw [if_neg]; omega

/-- Two changes of one core are one. -/
theorem State.onCore_onCore (s : State) (n : Nat) (f g : Core → Core) :
    ((s.onCore n f).onCore n g).core n = g (f (s.core n)) ∧ onlyCore s ((s.onCore n f).onCore n g) n := by
  refine ⟨by simp, fun m h => ?_, rfl, rfl, rfl, rfl, rfl⟩
  simp [State.onCore, State.core_setCore_other _ _ _ _ h]

/-- A result written and the program counter past the instruction. -/
theorem State.result_wrote (s : State) (n : Nat) (rd : Reg) (v : W64) (ch : Bool)
    (h : (s.core n).pc + 1 < (s.core n).instrCount) : wroteReg s (s.result n rd v ch) n rd v ((s.core n).pc + 1) := by
  unfold State.result
  rw [State.advance_eq _ _ (by simpa using h)]
  obtain ⟨hc, ho⟩ := State.onCore_onCore s n (fun c => c.setReg rd v ch) (fun c => { c with pc := c.pc + 1 })
  refine ⟨fun r => ?_, ?_, ?_, ?_, ?_, ?_, ?_, ?_, ho⟩ <;> rw [hc]
  · exact Core.reg_setReg (s.core n) r rd v ch
  all_goals simp

/-- An instruction of a control processor that executes, its checks agreeing (R396). -/
theorem State.dci_eq (s : State) (n : Nat) (f : State → State) (h : s.cpRuns n = true) : s.dci n false f = .next (f s) := by
  simp [State.dci, h]

/-- An instruction of a control processor that executes, its checks not agreeing (R396). -/
theorem State.dci_fault (s : State) (n : Nat) (f : State → State) (h : s.cpRuns n = true) : s.dci n true f = .next (s.cpFault n) := by
  simp [State.dci, h]

/-- What ending a work item does (R153, R154, R171). -/
theorem State.endItem_ends (s : State) (n status soft : Nat) :
    let t := s.endItem n status soft
    (t.core n).wait = some .ending ∧ (t.core n).qm = [] ∧ (t.core n).qv = [] ∧ (t.core n).qh = [] ∧ (t.core n).qmv = [] ∧
    (t.core n).qs = [] := by
  simp [State.endItem]

end Sys2Proof.Machine
end

