-- ==== Sys2Proof/Laws/Memory.lean ====
section
/-!
SUPPORT. Laws/Memory.lean: the canonical form of memory is kept by every memory operation, and a byte reads as it was last written.
-/
namespace Sys2Proof.Machine

/-- The canonical form, said with bounds: every address is at least `lo`, addresses rise, no byte is zero. -/
def memFrom : Nat → List Host.Cell → Prop
  | _, [] => True
  | lo, (a, b) :: t => lo ≤ a ∧ b ≠ 0 ∧ memFrom (a + 1) t

theorem memFrom_mono {lo lo' : Nat} (h : lo' ≤ lo) : ∀ {m : List Host.Cell}, memFrom lo m → memFrom lo' m
  | [], _ => trivial
  | (_, _) :: _, ⟨h1, h2, h3⟩ => ⟨le_trans h h1, h2, h3⟩

/-- `memWf` is `memFrom 0`. -/
theorem memWf_cons (a : Nat) (b : Byte) (t : List Host.Cell) : memWf ((a, b) :: t) = true ↔ b ≠ 0 ∧ memFrom (a + 1) t := by
  induction t generalizing a b with
  | nil => simp [memWf, memFrom]
  | cons h t ih =>
    obtain ⟨c, d⟩ := h
    simp only [memWf, Bool.and_eq_true, decide_eq_true_eq, memFrom]
    rw [ih c d]
    constructor
    · rintro ⟨⟨h1, h2⟩, h3, h4⟩
      exact ⟨by simpa using h1, h2, h3, h4⟩
    · rintro ⟨h1, h2, h3, h4⟩
      exact ⟨⟨by simpa using h1, h2⟩, h3, h4⟩

theorem memWf_iff (m : List Host.Cell) : memWf m = true ↔ memFrom 0 m := by
  cases m with
  | nil => simp [memWf, memFrom]
  | cons h t =>
    obtain ⟨a, b⟩ := h
    rw [memWf_cons]
    simp [memFrom]

theorem memFrom_alPut {lo x : Nat} {b : Byte} (hx : lo ≤ x) (hb : b ≠ 0) : ∀ {m : List Host.Cell}, memFrom lo m → memFrom lo (alPut m x b)
  | [], _ => ⟨hx, hb, trivial⟩
  | (k, w) :: t, ⟨h1, h2, h3⟩ => by
    unfold alPut
    by_cases c1 : x < k
    · simp only [c1, if_true, memFrom]
      exact ⟨hx, hb, by omega, h2, h3⟩
    · by_cases c2 : x = k
      · subst c2
        simp only [lt_irrefl, if_false, if_true, memFrom]
        exact ⟨hx, hb, h3⟩
      · simp only [c1, c2, if_false, memFrom]
        exact ⟨h1, h2, memFrom_alPut (by omega) hb h3⟩

theorem memFrom_filter {lo : Nat} (p : Host.Cell → Bool) : ∀ {m : List Host.Cell}, memFrom lo m → memFrom lo (m.filter p)
  | [], _ => trivial
  | (k, w) :: t, ⟨h1, h2, h3⟩ => by
    by_cases c : p (k, w) = true
    · simp only [List.filter_cons, c, if_true, memFrom]
      exact ⟨h1, h2, memFrom_filter p h3⟩
    · simp only [List.filter_cons, c]
      exact memFrom_mono (by omega) (memFrom_filter p h3)

theorem memFrom_alDel {lo x : Nat} {m : List Host.Cell} (h : memFrom lo m) : memFrom lo (alDel m x) := memFrom_filter _ h

/-- Nothing listed is canonical. -/
@[simp] theorem memWf_nil : memWf [] = true := rfl

/-- Writing a byte keeps the form. -/
theorem memWf_memSet {m : List Host.Cell} (a : Nat) (b : Byte) (h : memWf m = true) : memWf (memSet m a b) = true := by
  rw [memWf_iff] at *
  unfold memSet
  split
  · exact memFrom_alDel h
  · exact memFrom_alPut (Nat.zero_le _) ‹_› h

/-- Writing bytes keeps the form. -/
theorem memWf_memSetN {bs : List Byte} : ∀ {m : List Host.Cell} {a : Nat}, memWf m = true → memWf (memSetN m a bs) = true := by
  induction bs with
  | nil => intro m a h; exact h
  | cons b t ih => intro m a h; exact ih (memWf_memSet a b h)

/-- Taking bytes out keeps the form. -/
theorem memWf_filter {m : List Host.Cell} (p : Host.Cell → Bool) (h : memWf m = true) : memWf (m.filter p) = true := by
  rw [memWf_iff] at *
  exact memFrom_filter p h

/-- What a write does to memory: nothing, or the bytes. -/
theorem State.wrMarked_mem (s : State) (a : Nat) (bs : List (Byte × Bool)) :
    (s.wrMarked a bs).mem = s.mem ∨ (s.wrMarked a bs).mem = memSetN s.mem a (bs.map Prod.fst) := by
  unfold State.wrMarked
  dsimp only
  split
  · exact .inl rfl
  · split
    · exact .inl rfl
    · exact .inr rfl

/-- A write of memory keeps the form. -/
theorem State.wrMarked_memWf (s : State) (a : Nat) (bs : List (Byte × Bool)) (h : memWf s.mem = true) : memWf (s.wrMarked a bs).mem = true := by
  rcases s.wrMarked_mem a bs with e | e <;> rw [e]
  · exact h
  · exact memWf_memSetN h

/-- A write of clean bytes keeps the form. -/
theorem State.wr_memWf (s : State) (a : Nat) (bs : List Byte) (h : memWf s.mem = true) : memWf (s.wr a bs).mem = true :=
  s.wrMarked_memWf a _ h

/-- Zeroing keeps the form. -/
theorem State.zeroRange_memWf (s : State) (a n : Nat) (h : memWf s.mem = true) : memWf (s.zeroRange a n).mem = true :=
  memWf_filter _ h

/-- A write through a partition's scratchpad keeps the form. -/
theorem State.spWrite_memWf (s : State) (p off : Nat) (bs : List Byte) (h : memWf s.mem = true) : memWf (s.spWrite p off bs).mem = true := by
  unfold State.spWrite
  split
  · exact s.wr_memWf _ _ h
  · exact h

/-- An entry taken out is not found. -/
@[simp] theorem alFind_alDel_same {α : Type} (x : Nat) : ∀ (m : List (Nat × α)), alFind (alDel m x) x = none
  | [] => rfl
  | (k, w) :: t => by
    have ih := alFind_alDel_same x t
    simp only [alDel, ne_eq, decide_not] at *
    by_cases c : k = x
    · simp [c, ih]
    · simp [c, alFind, ih]

/-- Another entry is as before. -/
theorem alFind_alDel_other {α : Type} {x y : Nat} (h : y ≠ x) : ∀ (m : List (Nat × α)), alFind (alDel m x) y = alFind m y
  | [] => rfl
  | (k, w) :: t => by
    have ih := alFind_alDel_other h t
    simp only [alDel, ne_eq, decide_not] at *
    by_cases c : k = x
    · subst c
      simp [ih, alFind, Ne.symm h]
    · simp [c, alFind, ih]

/-- A byte reads as it was written. -/
@[simp] theorem memGet_memSet_same (m : List Host.Cell) (a : Nat) (b : Byte) : memGet (memSet m a b) a = b := by
  unfold memSet memGet
  split
  · rename_i hb
    simp [alGet, hb]
  · simp

/-- Another byte is as before. -/
theorem memGet_memSet_other (m : List Host.Cell) (a c : Nat) (b : Byte) (h : c ≠ a) : memGet (memSet m a b) c = memGet m c := by
  unfold memSet memGet
  split
  · simp [alGet, alFind_alDel_other h]
  · exact alGet_alPut_other _ _ _ _ _ h

/-- Bytes outside a run written are as before. -/
theorem memGet_memSetN_outside {bs : List Byte} : ∀ (m : List Host.Cell) (a c : Nat), c < a ∨ a + bs.length ≤ c →
    memGet (memSetN m a bs) c = memGet m c := by
  induction bs with
  | nil => intro m a c _; rfl
  | cons b t ih =>
    intro m a c h
    simp only [List.length_cons] at h
    rw [memSetN, ih _ _ _ (by omega), memGet_memSet_other _ _ _ _ (by omega)]

/-- A write of memory leaves every byte outside it as it was. -/
theorem State.wrMarked_outside (s : State) (a c : Nat) (bs : List (Byte × Bool)) (h : c < a ∨ a + bs.length ≤ c) :
    memGet (s.wrMarked a bs).mem c = memGet s.mem c := by
  rcases s.wrMarked_mem a bs with e | e <;> rw [e]
  exact memGet_memSetN_outside _ _ _ (by simpa using h)

end Sys2Proof.Machine
end

