-- ==== Sys2Proof/Laws/Scratch.lean ====
section
/-!
SUPPORT. Laws/Scratch.lean: bytes and numbers, the module check of bytes that carry it, and core scratch read after it is written.
-/
namespace Sys2Proof.Machine

/-- Little-endian bytes are as many as asked for. -/
@[simp] theorem toLE_length (n v : Nat) : (toLE n v).length = n := by
  induction n generalizing v with
  | zero => rfl
  | succ n ih => simp [toLE, ih]

/-- The number that little-endian bytes of a number spell is the number, cut to their width. -/
theorem leNat_toLE (n v : Nat) : leNat (toLE n v) = v % 256 ^ n := by
  induction n generalizing v with
  | zero => simp [toLE, leNat, Nat.mod_one]
  | succ n ih =>
    have e : 256 ^ (n + 1) = 256 * 256 ^ n := by rw [pow_succ, Nat.mul_comm]
    simp only [toLE, leNat, ih, BitVec.toNat_ofNat]
    rw [e, Nat.mod_mul]

/-- As many bytes are read as asked for. -/
@[simp] theorem Core.sread_length (c : Core) (n a k : Nat) : (c.sread n a k).length = k := by simp [Core.sread]

/-- A slice that lies within a list. -/
theorem sliceB_append_left (l r : List Byte) : sliceB (l ++ r) 0 l.length = l := by simp [sliceB]

/-- A list of bytes with its module check after it passes the check. -/
theorem checkOk_withCheck (f : List Byte) : checkOk (withCheck f) (f.length + 2) = true := by
  have h : ∀ v : BitVec 16, leNat (toLE 2 v.toNat) = v.toNat := fun v => by
    rw [leNat_toLE]; exact Nat.mod_eq_of_lt v.isLt
  have e : List.take 2 (toLE 2 (moduleCheck f).toNat) = toLE 2 (moduleCheck f).toNat := List.take_of_length_le (by simp)
  simp [checkOk, fieldB, withCheck, sliceB, e, h]

/-- A byte of scratch after one is put. -/
theorem Core.sget_sput1 (c : Core) (n a x : Nat) (b : Byte) :
    Core.sget { c with scratch := c.sput1 a b } n x = if x = a then b else c.sget n x := by
  unfold Core.sput1 Core.sget
  by_cases hz : c.undef = 0 ∧ b = 0
  · obtain ⟨hu, rfl⟩ := hz
    by_cases h : x = a
    · subst h; simp [hu]
    · simp [hu, alFind_alDel_other h, h]
  · have e : (decide (c.undef = 0) && decide (b = 0)) = false := by
      simpa only [Bool.and_eq_false_iff, decide_eq_false_iff_not, ← not_and_or] using hz
    by_cases h : x = a
    · subst h; simp only [e, Bool.false_eq_true, if_false, alFind_alPut_same, if_true]
    · simp only [e, Bool.false_eq_true, if_false, alFind_alPut_other _ _ _ _ h, h]

/-- What putting bytes leaves as it was. -/
theorem Core.sputN_undef (bs : List Byte) : ∀ (c : Core) (a : Nat), (c.sputN a bs).undef = c.undef := by
  induction bs with
  | nil => intros; rfl
  | cons b t ih => intro c a; simp [Core.sputN, ih]

/-- A byte of scratch after a run of bytes is put. -/
theorem Core.sget_sputN (bs : List Byte) : ∀ (c : Core) (n a x : Nat),
    (c.sputN a bs).sget n x = if a ≤ x ∧ x < a + bs.length then bs.getD (x - a) 0 else c.sget n x := by
  induction bs with
  | nil => intro c n a x; rw [if_neg (by simp)]; rfl
  | cons b t ih =>
    intro c n a x
    rw [Core.sputN, ih, Core.sget_sput1]
    by_cases h : x = a
    · subst h
      simp
    · by_cases h2 : a ≤ x ∧ x < a + (b :: t).length
      · have h3 : a + 1 ≤ x ∧ x < a + 1 + t.length := by simp at h2; omega
        obtain ⟨m, rfl⟩ : ∃ m, x = a + 1 + m := ⟨x - (a + 1), by omega⟩
        rw [if_pos h2, if_pos h3]
        have : a + 1 + m - a = m + 1 := by omega
        simp [this]
      · have h3 : ¬ (a + 1 ≤ x ∧ x < a + 1 + t.length) := by simp at h2; omega
        rw [if_neg h2, if_neg h3, if_neg h]

/-- Bytes put are read back. -/
theorem Core.sread_sputN (bs : List Byte) (c : Core) (n a : Nat) : (c.sputN a bs).sread n a bs.length = bs := by
  apply List.ext_getElem
  · simp
  · intro i h1 h2
    simp [Core.sread, Core.sget_sputN, h2]

/-- A byte of scratch after a write of a run of bytes with one chaff mark. -/
theorem Core.sget_swrite (c : Core) (n a x : Nat) (bs : List Byte) (chaff : Bool) :
    (c.swrite a bs chaff).sget n x = if a ≤ x ∧ x < a + bs.length then bs.getD (x - a) 0 else c.sget n x :=
  Core.sget_sputN bs c n a x

end Sys2Proof.Machine
end

