-- ==== Sys2Proof/Tests/Slice0.lean ====
section
/-!
SUPPORT. Tests/Slice0.lean: small states for tests and witnesses, one ill-formed command for each check of well-formedness, and tests of single
steps against the spec's worked examples and tables.
-/
namespace Sys2Proof.Tests

open Sys2Proof.Machine
set_option Elab.async false

/-! ## States -/

/-- A work item of ring 0, step 5. -/
def item0 : WorkItem :=
  { ring := some 0, part := 0, step := 5, layer := 17, oper := 66, role := 0, entry := 0, firstCore := 0, arg0 := 7, arg1 := 0, arg2 := 0, arg3 := 0,
    batch := 0xFFFF, model := 0xFFFF, dead := false, place := { type := 3, entry := 0, irq := false } }

/-- Core 0 at work. -/
def core0 : Core := { Core.fresh with wi := some item0, pc := 2, instrCount := 10, image := some 0, lines := [0] }

/-- A module at reset with core 0 at work. -/
def stCore : State := State.reset.setCore 0 core0

/-! ## Ill-formed commands: each check of well-formedness refuses one -/

theorem test_wf_source : wf (.registerWrite (.host 33) 0 4 0) = false := by decide
theorem test_wf_register_offset : wf (.registerWrite .reeve 0x10000000 4 0) = false := by decide
theorem test_wf_entry : wf (.dispatch 0 [1, 2, 3]) = false := by decide
theorem test_wf_flit : wf (.headlandFlitReceive 0 true 0 { src := 0, dst := 1, cls := 0, last := true, bytes := [], chk := 0 } []) = false := by decide
theorem test_wf_headland_lane : let b : List Byte := List.replicate 32 0
    wf (.headlandFlitReceive 0 true 68 { src := 0, dst := 1, cls := 0, last := true, bytes := b, chk := 0 } b) = false := by decide
theorem test_wf_packet : wf (.wr 0 (List.replicate 33 0)) = false := by decide
theorem test_wf_posted_write : wf (.hostMemWrite 0 0 [] false) = false := by decide
theorem test_wf_cxl_line : wf (.cxlMemWrite 0 [1] 0 false) = false := by decide
theorem test_wf_nonce : wf (.challenge 0 []) = false := by decide
theorem test_wf_certificate_slot : wf (.challenge 16 (List.replicate 32 0)) = false := by decide
theorem test_wf_read_length : wf (.hostMemRead 0 0 0 []) = false := by decide
theorem test_wf_local_address : wf (.hostMemRead 0 0x10000000000 4 []) = false := by decide
theorem test_wf_certificate_offset : wf (.getCertificate 0 65536 4) = false := by decide
theorem test_wf_cache_line : wf (.icacheFill 0 4294967296) = false := by decide
theorem test_wf_ptp_master : wf (.ptpSync 0 18446744073709551616 0 0 false) = false := by decide
theorem test_wf_ptp_domain : wf (.ptpSync 256 0 0 0 false) = false := by decide
theorem test_wf_field_index : wf (.debugHalt 0xDB60 0 512) = false := by decide
theorem test_wf_link_width : wf (.hostLinkTrain 17 1 true true) = false := by decide
theorem test_wf_handshake : wf (.stall { port := .array 27648, faces := none, ring := none, step := 0, raised := 0 }) = false := by decide
theorem test_wf_trace_record : wf (.traceRecordStore ⟨0, 0, 0, 0, 0, 0, 0, 0, 0, 0, 0⟩ false 0) = false := by decide
theorem test_wf_plots : wf (.budgetPeriod 0 []) = false := by decide

/-! ## The spec's worked examples and tables -/

/-- Chapter 02: logical core 15,731 lies in field (7, 3) of plot 2, as its slot 11. -/
theorem test_core_in_field : fieldOfCore 15731 = 2 * 288 + 3 * 24 + 7 ∧ 15731 % 24 = 11 := by decide
/-- Chapter 04: FP32 to bf16, round to nearest even. -/
theorem test_cvt_bf16 : (convElem 0x02 .rne false (f32 0x40490FDB)).bits = 0x4049 := by decide +kernel
/-- Chapter 04: FP32 to E4M3, 300, 460, 500 and minus infinity, without and with saturation. -/
theorem test_cvt_e4m3 : [0x43960000, 0x43E60000, 0x43FA0000, 0xFF800000].map (fun x => (convElem 0x04 .rne false (f32 x)).bits) = [0x79, 0x7E, 0x7F, 0x7F] := by
  decide +kernel
theorem test_cvt_e4m3_sat : [0x43960000, 0x43E60000, 0x43FA0000, 0xFF800000].map (fun x => (convElem 0x04 .rne true (f32 x)).bits) = [0x79, 0x7E, 0x7E, 0xFE] := by
  decide +kernel
/-- Chapter 04: 5.2, −0.7, 2.5 and 0.2 of an MXFP4 block whose scale is 1. -/
theorem test_cvt_mxfp4 : [0x40A66666, 0xBF333333, 0x40200000, 0x3E4CCCCD].map (fun x => (convElem 0x0C .rne false (f32 x)).bits) = [7, 9, 4, 0] := by
  decide +kernel
/-- Chapter 04: five BT2 weights in the byte 0x9A, and the last byte of a run in 0x0F. -/
theorem test_bt2_byte : (List.range 5).map (bt2Trit 0x9A false) = [1, 0, -1, -1, 1] ∧ (List.range 3).map (bt2Trit 0x0F true) = [0, -1, 1] := by decide
theorem test_bt2_invalid : bt2Valid 0xF3 false = false ∧ bt2Trit 0xF3 false 0 = 0 := by decide

/-- The core of chapter 05's example of one MMA command: its CSRs and s9. -/
def coreMma : Core := { core0 with wi := some { item0 with step := 8000 }, layer := 17, oper := 66, regs := [(9, 0x4000)] }
def queuedCmd (o : Host.Outcome State Fault Refusal) : Option Cmd :=
  match o with
  | .next t => (t.core 0).qm.head?
  | _ => none
/-- Chapter 05: the EOR of the instruction's body and s9 is the body of the command in the matrix queue. -/
theorem test_mma_command : (queuedCmd (exec (.cmd 0 1 0 9 0xA802000000 false) (State.reset.setCore 0 coreMma))).map
    (fun c => (c.body, c.layer, c.oper, c.step, c.kind, c.op)) = some (0xA802004000, 0x11, 0x42, 0x1F40, 1, 0) := by decide +kernel
/-- FIPS 180-4: SHA-384 of "abc" begins CB00753F. -/
theorem test_sha384 : (sha384 [0x61, 0x62, 0x63]).take 4 = [0xCB, 0x00, 0x75, 0x3F] := by decide +kernel

/-! ## Whose turn it is at the front end (R134) -/

/-- Rings 0, 1 and 4, of partitions 0 and 1, each with a NOP entry at its head in its bin, `p` being the partition served last. -/
def stRings (p : Nat) : State :=
  let e := withCheck (toLE 1 6 ++ List.replicate 7 0 ++ toLE 4 5 ++ List.replicate 50 0)
  let put (s : State) (r off : Nat) : State :=
    (((s.fset F.ringCfg_ENABLE r 1).fset F.ringBase_LOC r 1).fset F.ringBase_ADDR r (off / 4096)).onRing r fun x => { x with tail := 1 }
  let s := (((State.reset.fset F.grnBinCfg_MODE 20 2).fset F.grnBinCfg_OWNER 20 0).fset F.grnBinCfg_MODE 21 2).fset F.grnBinCfg_OWNER 21 1
  let s := put (put (put (s.fset F.bringStatus_STATE 0 3) 0 0) 1 4096) 4 0
  let part : Part := { owner := 0, first := 0, count := 24, layout := 0, quota := 0, pasidEn := false, pasid := 0, model := none, feSeq := 0 }
  let s : State := { s with parts := [(0, part), (1, { part with first := 24 })], served := p }
  ((s.wr (binBase 20) e).wr (binBase 20 + 4096) e).wr (binBase 21) e
set_option maxRecDepth 100000 in
/-- The highest class of the partition whose turn it is. -/
theorem test_turn : [0, 1, 4].map (stRings 31).entryTurn = [true, false, false] ∧ [0, 1, 4].map (stRings 0).entryTurn = [false, false, true] := by
  decide +kernel
set_option maxRecDepth 100000 in
/-- An entry that has been ready for 50 µs comes first in its partition. -/
theorem test_turn_of_an_old_entry : let s := stRings 31
    [0, 1, 4].map { s with time := { s.time with elapsed := 60000 }, ready := [(0, 20000), (1, 5000)] }.entryTurn = [false, true, false] := by
  decide +kernel

end Sys2Proof.Tests
end

