-- ==== Sys2Proof/Tests/WUnits.lean ====
section
/-!
SUPPORT. Tests/WUnits.lean: concrete states and operands that meet the hypotheses of the statements.
-/
namespace Sys2Proof.Tests

open Sys2Proof.Machine
set_option Elab.async false

/-- A command of a core with its CHECK; its frame lies at address 0. -/
def cmdOf (kind op body : Nat) : Cmd :=
  { seq := 3, layer := 17, oper := 66, step := 5, kind := kind, op := op, body := BitVec.ofNat 40 body,
    chk := moduleCheck (cmdBytes 17 66 5 kind op (BitVec.ofNat 40 body)), chaff := false }
/-- Core 0 with a command at the head of a queue, and its frame at address 0 of a scratch whose other bytes are undefined. -/
def stUnit (kind op body : Nat) (frame : List Byte) : State :=
  State.reset.setCore 0 (({ core0 with undef := 1 }.setQueue (kind - 1) [cmdOf kind op body]).sputN 0 (withCheck frame))
/-- A frame read back. -/
def frameOf (s : State) (len : Nat) : List Byte := (s.core 0).sread 0 0 len
/-- The frame put there is read back, with its check. -/
theorem frame_check (kind op body : Nat) (frame : List Byte) (len : Nat) (h : frame.length + 2 = len) :
    checkOk (frameOf (stUnit kind op body frame) len) len = true := by
  have e : frameOf (stUnit kind op body frame) len = withCheck frame := by
    unfold frameOf stUnit
    rw [State.core_setCore_same, ← h]
    have l : (withCheck frame).length = frame.length + 2 := by simp [withCheck]
    rw [← l]
    exact Core.sread_sputN _ _ _ _
  rw [e, ← h]
  exact checkOk_withCheck frame
/-- The conditions of a command at the head of its queue but for FRAME_CHK. -/
abbrev headOk (s : State) (n q op len : Nat) (d : Cmd) (rest : List Cmd) : Prop :=
  (s.core n).queueOf q = d :: rest ∧ s.startHeld n = false ∧ d.op = op ∧ d.checkOk = true ∧ d.frame = 0 ∧
  s.scratchFree n d.seq [(false, d.frame, d.frame + len)] = true
/-- With the check of the frame put there, all of them hold. -/
theorem head_of {kind o body q op len : Nat} {frame : List Byte} {d : Cmd} {rest : List Cmd} (l : frame.length + 2 = len) (l2 : len ≤ 64)
    (h : headOk (stUnit kind o body frame) 0 q op len d rest) :
    atHead (stUnit kind o body frame) 0 q op len d rest (frameOf (stUnit kind o body frame) len) :=
  ⟨h.1, h.2.1, h.2.2.1, h.2.2.2.1, by rw [h.2.2.2.2.1]; exact Nat.zero_mod _, by rw [h.2.2.2.2.1]; omega, h.2.2.2.2.2,
    by rw [h.2.2.2.2.1]; rfl, frame_check _ _ _ _ _ l⟩
/-- A BF16 matrix instruction of one row, one vector; with an `n` of 0 it fails. -/
def mmaFrame : List Byte := toLE 4 0x01010202 ++ toLE 4 1 ++ toLE 4 0x200 ++ toLE 4 0x400 ++ toLE 4 0 ++ toLE 4 0 ++ toLE 4 0x600 ++ toLE 2 0
def stMma (n : Nat) : State := stUnit 1 0 (n * 2 ^ 17) mmaFrame
theorem wit_mma : atHead (stMma 1) 0 0 0 32 (cmdOf 1 0 (2 ^ 17)) [] (frameOf (stMma 1) 32) ∧ ((stMma 1).core 0).shadow = none ∧
    mtxRsvd (cmdOf 1 0 (2 ^ 17)) (frameOf (stMma 1) 32) = false ∧ mtxCheck (mtxParse (cmdOf 1 0 (2 ^ 17)) (frameOf (stMma 1) 32)) = 0 :=
  ⟨head_of (by simp [mmaFrame]) (by decide) (by decide +kernel), by decide +kernel⟩
theorem wit_mma_fails : atHead (stMma 0) 0 0 0 32 (cmdOf 1 0 0) [] (frameOf (stMma 0) 32) ∧
    mtxRsvd (cmdOf 1 0 0) (frameOf (stMma 0) 32) = false ∧ mtxCheck (mtxParse (cmdOf 1 0 0) (frameOf (stMma 0) 32)) = 0x0402 :=
  ⟨head_of (by simp [mmaFrame]) (by decide) (by decide +kernel), by decide +kernel⟩
/-- The instruction itself, and the same in OS with two chunks. -/
def mtxI (mode n : Nat) : MtxInst :=
  { mtxParse (cmdOf 1 0 (n * 2 ^ 17)) mmaFrame with mode := mode, n := n, uA := 0x800, cAct := 1 }
def stShadow (mode : Nat) : State := State.reset.setCore 0 { core0 with shadow := some (mtxI mode 2) }
def stActive (mode : Nat) : State := State.reset.setCore 0 { core0 with active := some { mtxI mode 2 with loaded := true } }
theorem wit_tile : ((stShadow 0).core 0).shadow = some (mtxI 0 2) ∧ (mtxI 0 2).loaded = false ∧
    (stShadow 0).scratchFree 0 3 (mtxI 0 2).loadNeed = true ∧ (stShadow 2).scratchFree 0 3 (mtxI 2 2).loadNeed = true := by decide +kernel
/-- A step that is not the last, and the last one (of one vector, or of one chunk), in WS and in OS. -/
def stLast (mode : Nat) : State := State.reset.setCore 0 { core0 with active := some { mtxI mode 1 with loaded := true } }
theorem wit_step : ∀ mode ∈ [0, 2],
    ((stActive mode).core 0).active = some { mtxI mode 2 with loaded := true } ∧ (stActive mode).stepHeld 0 = false ∧ (stActive mode).workDead 0 = false ∧
    (stActive mode).scratchFree 0 3 (mtxI mode 2).stepNeed = true ∧ (mtxI mode 2).done + 1 < (mtxI mode 2).n ∧
    ((stLast mode).core 0).active = some { mtxI mode 1 with loaded := true } ∧ (stLast mode).stepHeld 0 = false ∧ (stLast mode).workDead 0 = false ∧
    (stLast mode).scratchFree 0 3 (mtxI mode 1).stepNeed = true ∧ (mtxI mode 1).n ≤ (mtxI mode 1).done + 1 := by decide +kernel
/-- A vector command of one element: its frame, without CHECK. -/
structure VecCase where
  op : Nat
  sub : Nat
  fA : Nat
  fB : Nat
  fD : Nat
  sh : Nat
  k : Nat
  b : Nat
  as_ : Nat
  ds : Nat
def VecCase.frame (x : VecCase) : List Byte :=
  toLE 1 x.fA ++ toLE 1 x.fB ++ toLE 1 x.fD ++ toLE 1 0 ++ toLE 4 x.sh ++ toLE 4 1 ++ toLE 4 x.k ++ toLE 8 0x1000 ++ toLE 4 x.b ++
    toLE 4 0x2000 ++ toLE 8 x.as_ ++ toLE 4 0 ++ toLE 4 x.ds ++ toLE 14 0
def VecCase.cmd (x : VecCase) : Cmd := cmdOf 2 x.op (x.sub * 2 ^ 24)
def VecCase.st (x : VecCase) : State := stUnit 2 x.op (x.sub * 2 ^ 24) x.frame
/-- One case for each of the 21 operations. -/
def vecCases : List VecCase :=
  [⟨0, 0, 2, 2, 1, 1, 1, 0x400, 0, 0⟩] ++ ([0, 1, 2, 3, 4, 5, 6, 7].map fun k => ⟨1, k, 1, 1, 1, 0, 0, 0x400, 0, 0⟩) ++
  ([0, 1, 2, 3, 4, 5, 6].map fun k => ⟨2, k, 1, 0, 1, 0, 0, 0, 0, 0⟩) ++ [⟨3, 0, 1, 0, 1, 0, 0, 0, 0, 0⟩] ++
  ([0, 1, 2].map fun k => ⟨4, k, 1, 0, 1, 0, 1, 0, 0, 0⟩) ++ [⟨5, 0, 0x10, 0, 0x18, 0, 0, 0, 0x400, 0x600⟩]
theorem wit_vector_rest : ∀ x ∈ vecCases, headOk x.st 0 1 x.op 64 x.cmd [] ∧ x.cmd.sub = x.sub ∧
    vecRsvd x.cmd (frameOf x.st 64) = false ∧ vecCheck 0 (vecParse x.cmd (frameOf x.st 64)) = 0 ∧
    x.st.scratchFree 0 x.cmd.seq (vecParse x.cmd (frameOf x.st 64)).spans = true ∧
    ((vecParse x.cmd (frameOf x.st 64)).aVault = true → x.st.orderHeld 0 x.cmd.seq false false = false ∧
      x.st.memFree 0 x.cmd.seq (x.st.cmdMem 0 x.cmd) = true) := by decide +kernel
/-- Every vector operation has a state in which it is ready. -/
theorem wit_vector : ∀ x ∈ vecCases, vecReady x.st 0 x.op x.sub x.cmd [] (frameOf x.st 64) := fun x hx =>
  ⟨head_of (by simp [VecCase.frame]) (by decide) (wit_vector_rest x hx).1, (wit_vector_rest x hx).2⟩
/-- The formats and counts that the element statements ask for. -/
theorem wit_elements : ∀ x ∈ vecCases, x.op < 5 → (x.op ≠ 0 → x.op ≠ 4 → (vecParse x.cmd (frameOf x.st 64)).fA = 1) ∧
    (vecParse x.cmd (frameOf x.st 64)).fD = 1 ∧ 0 < (vecParse x.cmd (frameOf x.st 64)).count ∧
    (x.op = 0 → 0 < (vecParse x.cmd (frameOf x.st 64)).bCount ∧ (vecParse x.cmd (frameOf x.st 64)).fA ≠ 0x18) := by decide +kernel
/-- A huller command on bank 0; with format 9 it fails. -/
structure HulCase where
  op : Nat
  sub : Nat
  fB : Nat
  fQ : Nat
  hd : Nat
  qA : Nat
  pA : Nat
  pos : Nat
def HulCase.frame (x : HulCase) : List Byte :=
  toLE 4 1 ++ toLE 4 0 ++ toLE 4 8192 ++ toLE 1 x.fB ++ toLE 1 x.fQ ++ toLE 2 x.hd ++ toLE 4 x.qA ++ toLE 4 x.pA ++ toLE 4 0 ++
    toLE 4 x.pos ++ toLE 30 0
def HulCase.cmd (x : HulCase) : Cmd := cmdOf 3 x.op (x.sub * 2 ^ 24)
def HulCase.st (x : HulCase) : State := stUnit 3 x.op (x.sub * 2 ^ 24) x.frame
def hulCases : List HulCase :=
  [⟨0, 0, 2, 2, 1, 0x400, 0x800, 9⟩, ⟨1, 0, 2, 2, 1, 0x400, 0x800, 9⟩, ⟨2, 0, 1, 0, 1, 0, 0x800, 9⟩, ⟨2, 1, 1, 0, 1, 0, 0x800, 9⟩,
   ⟨2, 2, 1, 0, 1, 0, 0x800, 9⟩, ⟨3, 0, 1, 0, 0, 0, 0, 0⟩]
def hulBad : List HulCase := [⟨0, 0, 9, 2, 0, 0, 0, 0⟩, ⟨1, 0, 9, 2, 0, 0, 0, 0⟩, ⟨3, 0, 9, 0, 0, 0, 0, 0⟩]
theorem wit_huller_rest : ∀ x ∈ hulCases, headOk x.st 0 2 x.op 64 x.cmd [] ∧ x.cmd.sub = x.sub ∧
    hulRsvd x.cmd (frameOf x.st 64) = false ∧ x.st.hulCheck 0 (hulParse x.cmd (frameOf x.st 64)) = 0 ∧
    x.st.orderHeld 0 x.cmd.seq false (x.op = 3) = false := by decide +kernel
theorem wit_huller : ∀ x ∈ hulCases, hulReady x.st 0 x.op x.cmd [] (frameOf x.st 64) := fun x hx =>
  ⟨head_of (by simp [HulCase.frame]) (by decide) (wit_huller_rest x hx).1, (wit_huller_rest x hx).2.2⟩
theorem wit_huller_bad_rest : ∀ x ∈ hulBad, headOk x.st 0 2 x.op 64 x.cmd [] ∧
    hulRsvd x.cmd (frameOf x.st 64) = false ∧ x.st.hulCheck 0 (hulParse x.cmd (frameOf x.st 64)) ≠ 0 := by decide +kernel
theorem wit_huller_fails : ∀ x ∈ hulBad, atHead x.st 0 2 x.op 64 x.cmd [] (frameOf x.st 64) ∧
    hulRsvd x.cmd (frameOf x.st 64) = false ∧ x.st.hulCheck 0 (hulParse x.cmd (frameOf x.st 64)) ≠ 0 := fun x hx =>
  ⟨head_of (by simp [HulCase.frame]) (by decide) (wit_huller_bad_rest x hx).1, (wit_huller_bad_rest x hx).2⟩
/-- Core 0 with a huller command whose one task stands at `st`. -/
def hulC (op : Nat) (st : TaskSt) : HulCmd :=
  { hulParse (cmdOf 3 op 0) (HulCase.frame ⟨1, 0, 2, 2, 1, 0x400, 0x800, 9⟩) with tasks := [⟨0, st, 0, 0, false⟩] }
def stTask (op : Nat) (st : TaskSt) : State := State.reset.setCore 0 { core0 with hul := [hulC op st] }
theorem wit_task_slot : let s := stTask 1 .waiting
    s.vaultCap 0 = 8 ∧ (s.core 0).inSlots = [] ∧ (s.core 0).waitingTasks.find? (fun t => t.2 / 4 = 0) = some (3, 0) ∧ s.retHeld 0 0 = false ∧
    (s.field 0).resetting = false ∧ (s.core 0).waitingTasks.head? = some (3, 0) := by decide +kernel
theorem wit_task_admit : ((stTask 1 .slot).core 0).hul.find? (fun h => h.tasks.any fun t => t.bank = 0 && t.st = .slot) = some (hulC 1 .slot) ∧
    ((stTask 1 .slot).core 0).computing = 0 ∧ (∀ a ∈ (stTask 1 .slot).plotAsks 0, a.2 = true → 0 ≤ a.1) ∧
    (stTask 1 .slot).taskFree 0 (hulC 1 .slot) 0 = true := by decide +kernel
/-- A second task of the core, in a slot while the first computes, below the cap. -/
def stSecond : State :=
  let h := { hulC 1 .computing with tasks := [⟨1, .computing, 0, 0, false⟩, ⟨0, .slot, 1, 0, false⟩] }
  { (State.reset.fset F.hulPlotStat_CAP 0 2).setCore 0 { core0 with hul := [h] } with nextAsk := 2 }
theorem wit_task_second : ∃ h, (stSecond.core 0).hul.find? (fun h => h.tasks.any fun t => t.bank = 0 && t.st = .slot) = some h ∧
    (stSecond.core 0).computing ≠ 0 ∧ stSecond.plotComputing 0 < stSecond.fget F.hulPlotStat_CAP 0 ∧
    (∀ a ∈ stSecond.plotAsks 0, a.2 = false ∧ 1 ≤ a.1) ∧ stSecond.taskFree 0 h 0 = true := ⟨_, rfl, by decide +kernel⟩
theorem wit_task_end : ((stTask 1 .computing).core 0).hul.find? (fun h => h.tasks.any fun t => t.bank = 0 && t.st = .computing) = some (hulC 1 .computing) ∧
    (stTask 1 .computing).scratchFree 0 3 [(true, 0x800, 0x800 + (hulC 1 .computing).recLen)] = true ∧
    ((stTask 3 .computing).core 0).hul.find? (fun h => h.tasks.any fun t => t.bank = 0 && t.st = .computing) = some (hulC 3 .computing) ∧
    (stTask 3 .computing).workDead 0 = false ∧ (stTask 3 .computing).goneAt ((hulC 3 .computing).base 0 0) = false ∧ (hulC 3 .computing).off + (hulC 3 .computing).len ≤ 0x40000 ∧
    0 < (hulC 3 .computing).len := by decide +kernel
/-- The record of a task none of whose reads meets chaff or a later write. -/
theorem wit_task_record : let s := stTask 1 .computing; let h := hulC 1 .computing
    h.op < 3 ∧ h.tasks.find? (fun t => t.bank = 0 && t.st = .computing) = some ⟨0, .computing, 0, 0, false⟩ ∧ s.workDead 0 = false ∧
    (∀ w ∈ h.words (h.base 0 0), s.isChaff w = false) ∧ h.torn (h.base 0 0) (h.ordinal 0) (s.hits.drop 0) = false := by decide +kernel
/-- Verifications of the four kinds: a record and a recomputed D that are found, and ones that are not. -/
def stVerify (v : Verify) : State := State.reset.setCore 0 { core0 with verify := [v] }
def recomp (b : Byte) : Verify := .recompute (cmdOf 2 1 0) (VecCase.frame ⟨1, 0, 1, 1, 1, 0, 0, 0x400, 0, 0⟩) [b] []
def rec1 (b : Byte) : Verify := .bank (cmdOf 3 1 0) 0 0x400 [b] 0 0
theorem wit_verify : (∀ v ∈ [recomp 0, rec1 0, .mtx (mtxI 0 1)], ((stVerify v).core 0).verify = [v] ∧ (stVerify v).itemPart 0 < 32) ∧
    verifyHolds (stVerify (recomp 0)) 0 (recomp 0) ∧ ¬ verifyHolds (stVerify (recomp 1)) 0 (recomp 1) ∧
    verifyHolds (stVerify (rec1 0)) 0 (rec1 0) ∧ ¬ verifyHolds (stVerify (rec1 1)) 0 (rec1 1) := by
  simp only [verifyHolds, recomp, rec1]; decide +kernel
/-- The sums of Table 12-4 hold for a matrix instruction whose operands and outputs are zero; with an output of 1.0 they do not. -/
theorem wit_verify_matrix : verifyHolds (stVerify (.mtx (mtxI 0 1))) 0 (.mtx (mtxI 0 1)) ∧
    ¬ verifyHolds ((stVerify (.mtx (mtxI 0 1))).onCore 0 fun c => c.sputN 0x600 (toLE 4 0x3F800000)) 0 (.mtx (mtxI 0 1)) := by
  simp only [verifyHolds]; decide +kernel

end Sys2Proof.Tests
end

