-- ==== Sys2Proof/Tests/WMoves.lean ====
section
/-!
SUPPORT. Tests/WMoves.lean: concrete states and operands that meet the hypotheses of the statements.
-/
namespace Sys2Proof.Tests

open Sys2Proof.Machine
set_option Elab.async false

/-- A rank-1 descriptor of one element, of a type and kind at a base, and one with a wrong CHECK. -/
def desc1 (et kind base : Nat) : List Byte :=
  withCheck (toLE 2 (et + 256) ++ toLE 6 (2 * kind) ++ toLE 8 base ++ toLE 24 1 ++ toLE 5 1 ++ toLE 81 0)
/-- Bin 20 is partition 0's scratchpad, with a table of four descriptors: FP32 at scratch 0x400, FP32 at scratch 0x800, INT32 at scratch 0x600, FP32 at
0x4000 of the bin; the move queue of core 0 holds one command with these descriptors in its frame at 0. -/
def moveTable : List Byte := desc1 1 2 0x400 ++ desc1 1 2 0x800 ++ desc1 0x12 2 0x600 ++ desc1 1 0 0x4014004000
def moveFrame (a b : Nat) : List Byte := toLE 2 a ++ toLE 2 b ++ toLE 2 2 ++ toLE 24 0
def part0 : Part := { owner := 0, first := 0, count := 24, layout := 0, quota := 1, pasidEn := false, pasid := 0, model := none, feSeq := 0 }
def stMove (op sub a b : Nat) : State :=
  let c : Core := ({ core0 with undef := 1, qmv := [cmdOf 4 op (sub * 2 ^ 24)] } : Core).sputN 0 (withCheck (moveFrame a b))
  let s := (((State.reset.fset F.grnBinCfg_MODE 20 2).fset F.grnBinCfg_OWNER 20 0).fset F.descTable_COUNT 0 4).setCore 0 c
  ({ s with descs := [0, 1, 2, 3], parts := [(0, part0)] } : State).wr (binBase 20) moveTable
/-- COPY, TCOPY, GATHER, SCATTER REPLACE into scratch, the combining SCATTERs into the bin, DRILL; with an index outside the table a move fails. -/
def moveCases : List (Nat × Nat × Nat × Nat) := [(0, 0, 0, 1), (1, 0, 0, 1), (2, 0, 0, 1), (3, 0, 0, 1), (3, 1, 0, 3), (3, 2, 0, 3), (3, 3, 0, 3), (4, 0, 3, 1)]
/-- What `moveReady` asks, the descriptors being what the checks answer. -/
def moveOk (x : Nat × Nat × Nat × Nat) : Bool :=
  let s := stMove x.1 x.2.1 x.2.2.1 x.2.2.2
  let f := frameOf s 32
  let d := cmdOf 4 x.1 (x.2.1 * 2 ^ 24)
  match s.moveCheck (some 0) (s.itemPart 0) x.1 d.sub f with
  | .ok a b i perm ov need ch => decide (moveReady s 0 x.1 x.2.1 d [] f a b i perm ov need ch)
  | _ => false
set_option maxRecDepth 100000 in
theorem wit_moves : ∀ x ∈ moveCases, moveOk x = true := by decide +kernel
set_option maxRecDepth 100000 in
theorem wit_moves_fail : ∀ x ∈ moveCases, let s := stMove x.1 x.2.1 9 x.2.2.2
    atHead s 0 3 x.1 32 (cmdOf 4 x.1 (x.2.1 * 2 ^ 24)) [] (frameOf s 32) ∧
    s.moveCheck (some 0) (s.itemPart 0) x.1 x.2.1 (frameOf s 32) = .status 0x0702 := by decide +kernel
/-- A byte of the table struck: the CHECK of descriptor 0 fails. -/
def stStruck (x : Nat × Nat × Nat × Nat) : State := (stMove x.1 x.2.1 x.2.2.1 x.2.2.2).wr (binBase 20 + x.2.2.1 * 128 + 9) [0x77]
set_option maxRecDepth 100000 in
theorem wit_moves_fault : ∀ x ∈ moveCases, atHead (stStruck x) 0 3 x.1 32 (cmdOf 4 x.1 (x.2.1 * 2 ^ 24)) [] (frameOf (stStruck x) 32) ∧
    (match (stStruck x).moveCheck (some 0) ((stStruck x).itemPart 0) x.1 x.2.1 (frameOf (stStruck x) 32) with | .fault _ => true | _ => false) = true := by
  decide +kernel
/-- No move is in progress in these states, so that their numbers are fresh. -/
theorem wit_moves_fresh : movesFresh State.reset ∧ movesFresh { stCore with moves := [], nextMove := 0 } := by unfold movesFresh; decide
theorem wit_moves_grant :
    let con : Contrib := { src := .core 0, move := none, part := 0, ring := some 0, step := 5, op := 1, etype := 1, stype := 1, addr := 0, bits := 0, chaff := false, pads := [], txn := none }
    let m : Move := { con.asMove 7 with st := .staging }
    let s : State := { State.reset with moves := [m] }
    let d : State := { State.reset with moves := [{ m with st := .drill }] }
    let w : State := { State.reset with moves := [{ m with st := .writing }] }
    s.moves.find? (fun m => m.st = .staging && !m.staged) = some m ∧ s.stagingUsed + m.overlap ≤ 0x4000000 ∧
    (d.moves.find? (fun m => m.st = .drill && !m.drill)).isSome = true ∧ (d.moves.filter fun x => x.drill).length < 128 ∧
    w.moves.find? (fun x => x.id = 7) = some { m with st := .writing } ∧ m.op ≠ 5 ∧ m.msgs = 0 ∧ m.waits = 0 ∧ w.contribs = [] := by decide +kernel
/-- An open step whose COMMIT is taken and whose work has ended. -/
def openStep0 : OpenStep :=
  { step := 5, st := .run, head := { type := 1, entry := 0, irq := false }, commitTaken := true, commitIdx := 1, commitIrq := false, items := 0, entries := 0, replays := 0, chaff := false,
    warn := 0, exported := false, ledger := [], models := [], retaken := 0, batches := [], live := [], badFrames := [],
    detDone := false, charged := [], broken := false, placed := [] }
def stOpen : State := stCore.setRing 0 { Ring.fresh with steps := [openStep0] }
/-- The same with no core at work. -/
def stClosed : State := State.reset.setRing 0 { Ring.fresh with steps := [openStep0] }
theorem wit_det : (stClosed.ring 0).steps = [openStep0] ∧ openStep0.commitTaken = true ∧ openStep0.items = 0 ∧ openStep0.entries = 0 ∧
    openStep0.st = .run ∧ openStep0.detDone = false ∧ stClosed.stepBusy 0 5 = false ∧ stClosed.faultQ = [] ∧ stClosed.errQ = [] := by decide +kernel
/-- A contribution of 1.0 to an element of bin 20, which partition 0 owns as SCRATCH. -/
def con0 : Contrib :=
  { src := .core 0, move := some 3, part := 0, ring := some 0, step := 5, op := 1, etype := 1, stype := 1, addr := binBase 20 + 0x4000, bits := 0x3F800000,
    chaff := false, pads := [], txn := none }
def stBin : State := { (stCore.fset F.grnBinCfg_MODE 20 2).fset F.grnBinCfg_OWNER 20 0 with contribs := [con0] }
theorem wit_combine : stBin.contribs = [con0] ∧ localOf con0.addr = 0x4014004000 ∧ stBin.access 0 0x4014004000 true = 0 ∧
    stBin.goneAt 0x4014004000 = false ∧ (0x4014004000 : Nat) % 4 = 0 := by decide +kernel
/-- A staged contribution of the step, which a second disagreement of the units meets. -/
theorem wit_det_mismatch :
    let s : State := { stClosed with det := [{ part := 0, ring := 0, step := 5, bytes := 4096, items := [{ issuer := 0, seq := 0, j := 0, ord := 0, op := 1, con := con0, bytes := [] }] }] }
    (s.ring 0).steps = [openStep0] ∧ s.stepBusy 0 5 = false ∧ ∃ x ∈ s.det, x.ring = 0 ∧ x.step = openStep0.step ∧ x.items ≠ [] := by
  refine ⟨by decide +kernel, by decide +kernel, _, List.mem_singleton.mpr rfl, rfl, rfl, List.cons_ne_nil _ _⟩
/-- Two contributions to one burst of the vault of core 0, and the access that lets them in. -/
def stVaultCon : State :=
  { stCore with parts := [(0, part0)], contribs := [{ con0 with addr := 0x100 }, { con0 with addr := 0x104 }] }
theorem wit_combine_vault : stVaultCon.burstHeld 1 = false ∧ ∀ x ∈ stVaultCon.contribs, x.pads = [] ∧ stVaultCon.contribStatus x = 0 := by decide +kernel

end Sys2Proof.Tests
end

