-- ==== Sys2Proof/Tests/WSync.lean ====
section
/-!
SUPPORT. Tests/WSync.lean: concrete states and operands that meet the hypotheses of the statements.
-/
namespace Sys2Proof.Tests

open Sys2Proof.Machine
set_option Elab.async false

/-- A fence of type `k` for the request class. -/
def fenceD (k : Nat) : Cmd := cmdOf 5 0 (16 + k)
def stFence (k : Nat) : State := State.reset.setCore 0 { core0 with qs := [fenceD k] }
theorem wit_fence : ∀ k ∈ [0, 1, 2, 3], fenceReady (stFence k) 0 k (fenceD k) [] := by decide +kernel
def stInFence : State := State.reset.setCore 0 { core0 with sync := some (fenceD 3) }
theorem wit_fence_end : (stInFence.core 0).sync = some (fenceD 3) ∧ (fenceD 3).op = 0 ∧
    stInFence.coreOpen 0 (fenceD 3).seq (bitAt (fenceD 3).body.toNat 4) (bitAt (fenceD 3).body.toNat 6) false = false := by decide +kernel
/-- A SIGNAL or WAIT on the semaphore at an address of bin 20, with value 7 and a bound. -/
def semFrame (addr bound : Nat) : List Byte := toLE 8 addr ++ toLE 8 7 ++ toLE 14 bound
def stSem (op sub addr bound : Nat) : State :=
  ((State.reset.fset F.grnBinCfg_MODE 20 2).fset F.grnBinCfg_OWNER 20 0).setCore 0
    (({ core0 with qs := [cmdOf 5 op (sub * 2 ^ 24)], undef := 1 } : Core).sputN 0 (withCheck (semFrame addr bound)))
set_option maxRecDepth 100000 in
theorem wit_sem : ∀ x ∈ [((1 : Nat), (0 : Nat)), (1, 1), (2, 0), (2, 1)], ∀ addr ∈ [0x4014004000, 0x4014004001],
    let s := stSem x.1 x.2 addr (if x.1 = 2 then 50 else 0)
    semReady s 0 x.1 x.2 (cmdOf 5 x.1 (x.2 * 2 ^ 24)) [] (frameOf s 32) ∧
    s.semCheck (s.itemPart 0) (fieldB (frameOf s 32) 0 7) x.2 (x.1 = 2) = (if addr = 0x4014004000 then 0 else 0x0901) ∧
    s.coreOpen 0 3 true true false = false ∧ (s.core 0).verify = [] ∧ s.goneAt 0x4014004000 = false ∧ 0x4014004000 / 0x10000000000 = s.selfId := by
  decide +kernel
/-- Module 1 has a valid route entry: a signal to it goes out. -/
def stFar (set : Nat) : State :=
  let s := stSem 1 set 0x14014004000 0
  { s with link := { s.link with routes := [(1, 0x80000000)] } }
set_option maxRecDepth 100000 in
theorem wit_sem_far : ∀ k ∈ [0, 1], semReady (stFar k) 0 1 k (cmdOf 5 1 (k * 2 ^ 24)) [] (frameOf (stFar k) 32) ∧
    (stFar k).semCheck ((stFar k).itemPart 0) 0x14014004000 k false = 0 ∧ 0x14014004000 / 0x10000000000 ≠ (stFar k).selfId := by decide +kernel
/-- A wait of core 0 and one of ring 2, met (value 0) or past its bound. -/
def wait0 (core ring : Option Nat) (value : Nat) : SemWait :=
  { since := 0, core := core, ring := ring, step := 5, sem := 0x4014004000, value := value, eq := true, deadline := some 0, met := none, entry := none }
def stWait (core ring : Option Nat) (value : Nat) : State := { stCore with waits := [wait0 core ring value] }
theorem wit_waits :
    (stWait (some 0) none 0).waitOf (.core 0) = some (wait0 (some 0) none 0) ∧ (stWait (some 0) none 0).waitMet (wait0 (some 0) none 0) = true ∧
    (stWait (some 0) none 1).waitOf (.core 0) = some (wait0 (some 0) none 1) ∧ (stWait (some 0) none 1).waitMet (wait0 (some 0) none 1) = false ∧
    (stWait none (some 2) 0).waitOf (.ring 2) = some (wait0 none (some 2) 0) ∧ (stWait none (some 2) 0).waitMet (wait0 none (some 2) 0) = true ∧
    (stWait none (some 2) 1).waitOf (.ring 2) = some (wait0 none (some 2) 1) ∧ (stWait none (some 2) 1).waitMet (wait0 none (some 2) 1) = false := by
  decide +kernel
def stRingFence : State := State.reset.setRing 1 { Ring.fresh with hold := some (.fence 3 1 5 2) }
theorem wit_ring_fence : ((List.range 4).find? fun k => match (stRingFence.ring (0 * 4 + k)).hold with
    | some (.fence type mask _ at_) => !stRingFence.feOpen 0 at_ (bitAt mask 0) (bitAt mask 2) (bitAt mask 3) (type = 2)
    | _ => false) = some 1 ∧ (stRingFence.ring 1).hold = some (.fence 3 1 5 2) := by decide +kernel
/-- A message of one byte for core 0 with an epoch, at either queue. -/
def msg0 (epoch : Nat) : Msg :=
  { src := .core 1, moves := [], comb := [], lo := 0, ring := some 0, step := 5, core := 0, stamp := { part := 0, role := 9, rank := 0, epoch := epoch },
    data := [(8, 0x5A, false)], reply := none }
def stMsg (epoch : Nat) : State := State.reset.setCore 0 { core0 with vqMesh := [msg0 epoch], vqGran := [msg0 epoch], rot := 2 }
/-- Whose turn it is: with all banks free requester 3, with bank 0 busy a read of the Granary that goes to bank 1, with a read of the drill and rot 5 the drill. -/
theorem wit_turn :
    (match ((stMsg 0).core 0).turn 0 [] with | some (3, .write m) => m = msg0 0 | _ => False) ∧
    (match ({ (stMsg 0).core 0 with vqGran := [], rot := 3 } : Core).turn 1 [⟨4, 0x40000, .clean⟩] with | some (4, .read x) => x = ⟨4, 0x40000, .clean⟩ | _ => False) ∧
    (match ({ (stMsg 0).core 0 with rot := 5 } : Core).turn 0 [⟨0, 8, .clean⟩] with | some (0, .read x) => x = ⟨0, 8, .clean⟩ | _ => False) := by
  refine ⟨?_, ?_, ?_⟩ <;> rfl
/-- A message that combines one element with its burst. -/
def conV : Contrib :=
  { src := .core 1, move := some 3, part := 0, ring := some 0, step := 5, op := 1, etype := 1, stype := 1, addr := 0x100, bits := 0x3F800000,
    chaff := false, pads := [], txn := none }
def msgC : Msg := { msg0 0 with comb := [conV.item], lo := 0x100, data := [] }
theorem wit_message_combines : msgC.reply = none ∧ msgC.comb = [conV.item] ∧ conV.pads = [] ∧ conV.etype ∈ [1, 2, 3, 0x12] ∧ 1 ≤ conV.op ∧
    localOf conV.addr % 4 = 0 ∧ localOf conV.addr / 256 = msgC.lo / 256 ∧ msgC.stamp.epoch = ((stMsg 0).core 0).epoch ∧
    (stMsg 0).goneAt (vaultBase 0 + 0x100) = false ∧
    (match ({ (stMsg 0).core 0 with vqGran := [msgC], rot := 3 } : Core).turn 0 [] with | some (4, .write m) => m = msgC | _ => False) := by
  refine ⟨by decide +kernel, by decide +kernel, by decide +kernel, by decide +kernel, by decide +kernel, by decide +kernel, by decide +kernel, by decide +kernel,
    by decide +kernel, rfl⟩
theorem wit_message : ((stMsg 0).core 0).vqMesh = [msg0 0] ∧ ((stMsg 0).core 0).rot = 2 ∧ (0#32).getLsbD (msg0 0).bank = false ∧
    (msg0 0).stamp.epoch = ((stMsg 0).core 0).epoch ∧ (msg0 1).stamp.epoch ≠ ((stMsg 1).core 0).epoch ∧ ((msg0 0).data.map Prod.fst).Nodup ∧
    (∀ x ∈ (msg0 0).data, x.1 < 0x800000 ∧ (stMsg 0).goneAt (vaultBase 0 + x.1) = false) ∧ (stMsg 1).mdq.length < 7168 := by decide +kernel
/-- A bounced message whose role nobody holds, and one whose role core 0 of partition 0 holds. -/
def stBounced (role late : Nat) : State :=
  { stCore with mdq := [{ msg := { msg0 1 with stamp := { part := 0, role := role, rank := 0, epoch := 1 } }, since := 0, seen := none }],
                parts := [(0, part0)], time := { stCore.time with elapsed := late } }
theorem wit_bounced : (stBounced 9 999999).roleHolder { part := 0, role := 9, rank := 0, epoch := 1 } = none ∧
    (stBounced 9 999999).time.elapsed < 0 + (stBounced 9 999999).holdNs ∧ 0 + (stBounced 9 1000000).holdNs ≤ (stBounced 9 1000000).time.elapsed ∧
    (stBounced 0 999999).roleHolder { part := 0, role := 0, rank := 0, epoch := 1 } = some 0 ∧ (msg0 1).ring.isSome = true ∧ (msg0 1).comb = [] ∧
    (none : Option (List (Nat × Nat))) ≠ some ((stBounced 9 0).epochsOf 0) := by decide +kernel
/-- A wait whose value has not been reached, and a write that touches its semaphore. -/
theorem wit_wait_sees : ((stWait (some 0) none 1).waits.map SemWait.met) = [none] ∧ (0x4014004000 : Nat) < 0x8000000000 ∧
    (stWait (some 0) none 1).goneAt 0x4014004000 = false ∧ (0x4014004000 : Nat) < 0x4014004000 + 8 := by decide +kernel

end Sys2Proof.Tests
end

