-- ==== Sys2Proof/Tests/WReset.lean ====
section
/-!
SUPPORT. Tests/WReset.lean: concrete states and operands that meet the hypotheses of the statements.
-/
namespace Sys2Proof.Tests

open Sys2Proof.Machine
set_option Elab.async false

theorem wit_resets : State.reset.rst.pwrOk = true ∧ State.reset.rst.emergency = false ∧ State.reset.rst.perst = false ∧ State.reset.rst.warm = false ∧
    State.reset.seed.image = none ∧
    (let s : State := { (State.reset.fset F.bringStatus_STATE 0 3) with rst := { State.reset.rst with cold := false } }
     (s.bringing && s.rst.cold) = false ∧ s.bringing = false) := by decide
theorem wit_resets_power : (let s : State := { State.reset with rst := { State.reset.rst with pwrOk := false } }
    s.rst.pwrOk = false ∧ s.rst.standby = true ∧ s.rst.emergency = false) ∧
    ({ State.reset with rst := { State.reset.rst with emergency := true } } : State).rst.emergency = true ∧ (0 : BitVec 16) ≠ 0x5EED := by decide
/-- A module that runs an image with PERST_SCOPE HOST. -/
def image0 : Image := { (default : Image) with perstHost := true }
theorem wit_resets_host : let s : State := { (State.reset.fset F.bringStatus_STATE 0 3) with seed := { State.reset.seed with image := some image0 } }
    (∃ i, s.seed.image = some i ∧ i.perstHost = true) ∧ s.bringing = false := ⟨⟨image0, rfl, rfl⟩, by decide⟩
def stReady : State := State.reset.fset F.bringStatus_STATE 0 3
theorem wit_block : stReady.isReady = true ∧ State.reset.isReady = false ∧ stReady.flag F.blkStatus_BUSY 0 = false ∧
    (stReady.fset F.blkStatus_BUSY 0 1).flag F.blkStatus_BUSY 0 = true ∧ (287 / 2048 = 0 ∧ 287 % 512 < 288) ∧ ¬ (288 / 2048 = 0 ∧ 288 % 512 < 288) := by decide
theorem wit_block_done : ∀ k ∈ [1, 2, 3, 4, 5], let b : BlkJob := { kind := k, target := 7, since := 0 }
    let s : State := { stReady with blk := some b, time := { stReady.time with elapsed := 10000000 } }
    s.blk = some b ∧ s.blkIdle b = true ∧ b.since + 10000000 ≤ s.time.elapsed ∧ s.rsh = [] ∧ s.ssChaff + s.lines.length ≤ 65536 := by decide +kernel
/-- Blocks that are not idle: a core of field 7 at work, a job of the re-shard engine. -/
theorem wit_block_busy : (stReady.setCore 168 core0).blkIdle { kind := 1, target := 7, since := 0 } = false ∧
    ({ stReady with host := { stReady.host with held := [{ req := { fn := 0, addr := 0, op := .read 4, ecc := [], mismatch := 0 }, since := 0 }] } } : State).blkIdle
      { kind := 3, target := 0, since := 0 } = false ∧ stReady.rings = [] := by decide +kernel

end Sys2Proof.Tests
end

