-- ==== Sys2Proof/Tests/WBring.lean ====
section
/-!
SUPPORT. Tests/WBring.lean: concrete states and operands that meet the hypotheses of the statements.
-/
namespace Sys2Proof.Tests

open Sys2Proof.Machine
set_option Elab.async false

/-- The module has ended step `code` − 1 and accepts step `code`. -/
def stStep (code : Nat) : State := (State.reset.fset F.bringStatus_STATE 0 1).fset F.bringStatus_STEP 0 (code - 1)
theorem wit_steps : ∀ c ∈ [2, 3, 4, 5, 6, 7, 8, 9, 10], (stStep c).stepAccepted c = true ∧ State.reset.stepAccepted c = false := by decide
theorem wit_strap : State.reset.stepsOpen = true ∧ State.reset.rst.job = none ∧ State.reset.bringState = 0 ∧ State.reset.fget F.bringStatus_STEP 0 = 1 ∧
    (List.replicate 8 21).length = 8 ∧ (∀ x ∈ List.replicate 8 21, min 63 x / 4 = 5) ∧
    (strapSets 4 (List.replicate 16 [0, 60]).flatten).1 = none := by decide
/-- An image for either part, of version 7. -/
def imageOk : Image := { (default : Image) with len := 8192, target := 3, version := 7, secVersion := 1, factoryOk := true, routes := [(1, 0x802F0000)] }
def slotOk : SlotRead := { image := imageOk, reason := 0 }
def stSlots : State := { stStep 2 with seed := { State.reset.seed with journal := { State.reset.seed.journal with stateA := 3 } } }
theorem wit_seed : (∃ j d, stSlots.seedChoose slotOk slotOk slotOk = (some (imageOk, 0), j, d)) ∧
    (∃ j d, stSlots.seedChoose { slotOk with reason := 2 } slotOk slotOk = (none, j, d)) ∧ (3 : BitVec 2) ≠ 0 ∧ stSlots.stepAccepted 2 = true :=
  ⟨⟨_, _, rfl⟩, ⟨_, _, rfl⟩, by decide, by decide⟩
theorem wit_repair : (∀ x ∈ (stStep 3).alm.log, x.kind ≠ 4 ∧ x.kind ≠ 3) ∧ (stStep 3).seed.image = none := by decide
theorem wit_field : alFind (stStep 6).spare (fieldOfCore 5) = none ∧ alFind ({ stStep 6 with spare := [(0, 3)] } : State).spare (fieldOfCore 5) = some 3 := by decide
theorem wit_fetch : (stStep 7).roles = [] ∧ (let s : State := { stStep 7 with roles := [(0, 16)] }
    (List.range s.roles.length).find? (fun i => !s.roleOk i) = some 0) := by decide +kernel
theorem wit_topo : (∀ x ∈ imageOk.routes, bitsOf x.2 24 6 = 0 ∧ bitsOf x.2 0 15 = 0) ∧
    ({ imageOk with routes := [(9, 1)] } : Image).routes.find? (fun r => bitsOf r.2 24 6 ≠ 0 || bitsOf r.2 0 15 ≠ 0) = some (9, 1) ∧
    ({ stStep 9 with seed := { State.reset.seed with image := some imageOk } } : State).stepAccepted 9 = true := by decide
/-- A step runs, to end with a code, its bound passed or not. -/
def bringJob0 (code : Nat) : BringJob := { code := code, detail := 0, since := 0, bound := 1000, again := [] }
def stRunning (step code elapsed : Nat) : State :=
  let s := State.reset.fset F.bringStatus_STEP 0 step
  { s with rst := { s.rst with job := some (bringJob0 code) }, time := { s.time with elapsed := elapsed } }
theorem wit_ends : (∀ k ∈ [1, 2, 3, 8, 10], (stRunning k 0 5).rst.job = some (bringJob0 0) ∧ (stRunning k 0 5).stepWorkDone = true ∧
    (stRunning k 0 5).fget F.bringStatus_STEP 0 = k) ∧
    (bringJob0 0x80).code ∉ [0, 2, 3, 0x10, 0x11, 0x50, 0x70] ∧ (stRunning 8 0 5).time.elapsed < 0 + 1000 ∧ 0 + 1000 ≤ (stRunning 8 0 1000).time.elapsed ∧
    0 + 1000 ≤ (stRunning 4 0 1000).time.elapsed ∧ (stRunning 4 0 1000).fget F.bringStatus_STEP 0 ≠ 8 ∧
    ({ stRunning 2 0 5 with seed := { State.reset.seed with booted := 2 } } : State).seed.booted = 2 := by decide +kernel
theorem wit_boot : (let s : State := { stRunning 7 0 5 with bootEnd := [(5, 0x100)] }
    s.bootEnd.find? (fun x => x.1 = 5) = some (5, 0x100) ∧ s.bringState = 0 ∧ alFind s.spare (fieldOfCore 5) = none) ∧
    (stRunning 7 0 1000000).bootEnd.find? (fun x => x.1 = 5) = none ∧ (0 : Nat).max (alGet 0 (bringJob0 0).again 5) + 1000000 ≤ (stRunning 7 0 1000000).time.elapsed := by
  decide +kernel
/-- The record of a core found permanent (Table 12-16), alone in the log: STEP_REPAIR substitutes the core. -/
def recClass : AlmRec := { kind := 5, seq := 0, time := 0, undisc := false, copied := false, emergency := false, boot := 0, body := [1, 30] }
theorem wit_repair_class : let s : State := { stStep 3 with alm := { State.reset.alm with segs := [[recClass]] } }
    s.alm.log = [recClass] ∧ recClass.kind = 5 ∧ recClass.body.headD 9 = 1 ∧ recClass.body.getD 1 0 = 30 ∧ s.seed.image = none ∧ s.stepAccepted 3 = true := by decide
theorem wit_repair_plain : (∀ x ∈ (stStep 3).alm.log, x.kind ≠ 4 ∧ x.kind ≠ 5) ∧ (stStep 4).stepAccepted 4 = true ∧ (stRunning 5 0 5).stepWorkDone = true ∧
    (stStep 8).fget F.portCtl_ENABLE 0 = 0 ∧ (stStep 8).isFailsafe = false := by decide +kernel

end Sys2Proof.Tests
end

