-- ==== Sys2Proof/Tests/WUpdate.lean ====
section
/-!
SUPPORT. Tests/WUpdate.lean: concrete states and operands that meet the hypotheses of the statements.
-/
namespace Sys2Proof.Tests

open Sys2Proof.Machine
set_option Elab.async false

/-- A journal with slot A active and B in a state, a slot on trial or none. -/
def journal0 (trial stateB : Nat) : Journal := { State.reset.seed.journal with active := 0, trial := trial, stateB := stateB }
def stJournal (trial stateB stage : Nat) : State :=
  { stReady with seed := { State.reset.seed with journal := journal0 trial stateB, stage := stage, booted := 1, image := some imageOk } }
theorem wit_update : (1 < (stJournal 0xFF 0 0).seed.journal.trial ∧ (stJournal 0xFF 0 0).seed.stage = 0 ∧ (stJournal 0xFF 0 0).bringState ≠ 4) ∧
    (stJournal 1 3 0).seed.journal.trial ≤ 1 ∧ (journal0 0xFF 3).slot (journal0 0xFF 3).target = 3 ∧
    (journal0 0xFF 3).floor ≤ alGet 0 (stJournal 0xFF 3 3).seed.sec (journal0 0xFF 3).target ∧ (journal0 0xFF 0).slot (journal0 0xFF 0).target ≠ 3 ∧
    (stJournal 0xFF 0 2).imageReason slotOk false = 0 ∧ (stJournal 0xFF 0 2).imageReason { slotOk with reason := 2 } false ≠ 0 ∧
    (bitAt (0x5EEC0001#32).toNat 0 = true ∧ bitsOf (0x5EEC0001#32).toNat 16 16 = 0x5EEC ∧ (stJournal 1 3 4).isReady = true ∧
      (stJournal 1 3 4).seed.booted = (stJournal 1 3 4).seed.journal.trial ∧ (stJournal 1 3 4).rst.emergency = false) ∧
    bitAt (1#32).toNat 0 = true ∧ bitsOf (1#32).toNat 16 16 ≠ 0x5EEC := by decide +kernel
/-- A record waits for the flash. -/
def rec0 : AlmRec := { kind := 7, seq := 0, time := 0, undisc := true, copied := false, emergency := false, boot := 0, body := [] }
def stRec (weak : List Nat) : State :=
  { State.reset with alm := { State.reset.alm with queue := [rec0] }, seed := { State.reset.seed with weak := weak } }
theorem wit_almanac : (∀ w ∈ [[], [0]], (stRec w).alm.queue = [rec0] ∧ (stRec w).rst.job = none ∧ (stRec w).rst.emergency = false ∧
    (stRec w).alm.fullFor rec0 = false ∧ (stRec w).seed.fallow = [] ∧ (stRec w).seed.weak = w) := by decide +kernel
theorem wit_compact : let s : State := { State.reset with alm := { State.reset.alm with segs := List.replicate 497 [] } }
    s.alm.segs = [] :: [] :: List.replicate 495 [] ∧ 497 ≤ s.alm.segs.length ∧
    ((s.alm.log.filter fun r => almMapKind r.kind).map fun r => almSize r.kind).sum < 496 * segRoom := by decide +kernel
theorem wit_spdm : (stJournal 1 3 4).measure 6 = some Config.factoryDigest ∧ State.reset.measure 6 = none ∧ (6 ≠ 0 ∧ 6 ≠ 0xFF) ∧
    4 ≤ ({ imageOk with digests := [[], [], [], []] } : Image).digests.length := ⟨rfl, rfl, by decide, by decide⟩
theorem wit_certificate (h : Config.certChain ≠ []) : 0 < Config.certChain.length := List.length_pos_iff.mpr h
def evt0 : Event := { seq := 0, kind := 15, time := 0, undisc := true, noId := true, moduleId := 0xFFFF, body := [] }
theorem wit_poll : State.reset.mgmt.poll = [] ∧ ({ State.reset.mgmt with poll := [evt0] } : MgmtSt).poll = [evt0] ∧
    (stReady).coreOff = false ∧ State.reset.coreOff = true := by decide +kernel

end Sys2Proof.Tests
end

