-- ==== Sys2Proof/Tests/WAccess.lean ====
section
/-!
SUPPORT. Tests/WAccess.lean: concrete states and operands that meet the hypotheses of the statements.
-/
namespace Sys2Proof.Tests

open Sys2Proof.Machine
set_option Elab.async false

theorem wit_register_access : plainAt R.partStage0.base R.partStage0 0 ∧ plainAt R.alertMask.base R.alertMask 0 := by
  unfold plainAt; constructor <;> exact ⟨by decide +kernel, by decide, by decide, by decide, by decide, by decide, by decide, by decide, by decide, by decide⟩
theorem wit_registers_plain : (State.reset.writeWork R.partStage0 0 5).isNone = true ∧ (State.reset.writeModule .reeve R.partStage0 0 5).isNone = true ∧
    (State.reset.writeWork R.alertMask 0 5).isNone = true ∧ (State.reset.writeModule .reeve R.alertMask 0 5).isNone = true ∧
    (State.reset.setLatch 0 .reeve (some (R.partStage0.base, 7))).latch 0 .reeve = some (R.partStage0.base, 7) ∧
    State.reset.latch 0 .reeve = none ∧ (blockOf R.partStage0.base).getD 0 = 0 := by decide +kernel
theorem wit_registers_bad : blockOf 0x1000000 = none ∧ (blockOf 2).isSome = true ∧ 2 % 4 ≠ 0 ∧ State.reset.notReachable 0x3000000 = true ∧
    State.reset.notReachable 0x2000000 = false ∧ (blockOf 0x3000000).isSome = true ∧ State.reset.isFailsafe = false ∧ State.reset.host.held = [] ∧
    State.reset.hostWriting 0 = false ∧ State.reset.blk = none := by decide +kernel
/-- READY, with `n` cores from core 0 staged, owned by VF `fn`, and QUOTA `q`. -/
def stStage (n fn q : Nat) : State :=
  ((stReady.fset F.partStage0_CORE_COUNT 0 n).fset F.partStage0_OWNER_FN 0 fn).fset F.partStage1_QUOTA 0 q
theorem wit_part : (stStage 27648 1 0).isReady = true ∧ (stStage 27648 1 0).partOf 0 = none ∧
    (stStage 27648 1 0).fget F.partStage0_CORE_COUNT 0 = 27648 ∧ (stStage 0 1 0).fget F.partStage0_CORE_COUNT 0 = 0 ∧
    (stStage 5 33 0).fget F.partStage0_OWNER_FN 0 = 33 ∧ (stStage 5 0 2097152).fget F.partStage1_QUOTA 0 = 2097152 ∧
    (stStage 5 0 2097153).fget F.partStage1_QUOTA 0 = 2097153 ∧ (stStage 5 0 0).parts = [] ∧
    (let s : State := { stReady with parts := [(0, part0)] }
     (s.partOf 0).isSome = true ∧ s.partInUse 0 = false ∧ (s.fset F.ringCfg_ENABLE 2 1).partInUse 0 = true ∧
     (s.fset F.grnBinCfg_MODE 20 2).fget F.grnBinCfg_MODE 20 = 2 ∧ s.fget F.grnBinCfg_OWNER 20 = 0) := by decide +kernel
/-- A partition with a range of LENGTH `len` from `base` staged, and an allocation of it in slot 1. -/
def stAlloc (base len : Nat) : State :=
  let s := ((State.reset.fset F.allocBase_BASE 0 base).fset F.allocLen_LENGTH 0 len).fset F.allocHandle_SLOT 0 1
  { s with parts := [(0, part0)], allocs := [{ slot := 1, gen := 0, part := 0, vault := true, write := true, base := 0, len := 256 }] }
theorem wit_alloc : (stAlloc 0 256).partOf 0 = some part0 ∧ (stAlloc 0 256).fget F.allocBase_BASE 0 = 0 ∧ (stAlloc 0 256).fget F.allocLen_LENGTH 0 = 256 ∧
    (stAlloc 0 256).rangeOwned part0 0 0 256 = true ∧ (stAlloc 0 256).selfId = 0 ∧ (stAlloc 0 100).fget F.allocLen_LENGTH 0 % 256 ≠ 0 ∧
    (stAlloc 0 256).fget F.allocLen_KIND 0 = 0 ∧ ((stAlloc 0 256).fset F.allocLen_KIND 0 2).fget F.allocLen_KIND 0 = 2 ∧
    ((stAlloc 0 256).fset F.allocStatus_BUSY 0 1).flag F.allocStatus_BUSY 0 = true ∧ (stAlloc 0 256).flag F.allocStatus_BUSY 0 = false ∧
    (stAlloc 0 256).allocs.length < 16384 := by decide +kernel
theorem wit_allocations_full : ∃ s : State, s.partOf 0 = some part0 ∧ s.fget F.allocLen_KIND 0 = 0 ∧ s.rangeOwned part0 0 0 256 = true ∧ 16384 ≤ s.allocs.length :=
  ⟨{ stAlloc 0 256 with allocs := List.replicate 16384 { slot := 1, gen := 0, part := 0, vault := true, write := true, base := 0, len := 256 } },
    by decide +kernel, by decide +kernel, by decide +kernel, Nat.le_of_eq (List.length_replicate ..).symm⟩
/-- A move whose source names handle 1. -/
def moveOf1 : Move :=
  let con : Contrib := { src := .core 0, move := none, part := 0, ring := some 0, step := 5, op := 1, etype := 1, stype := 1, addr := 0, bits := 0, chaff := false, pads := [], txn := none }
  let m := con.asMove 7
  { m with part := 0, src := { m.src with alloc := 1 } }
theorem wit_release : (∃ a, (stAlloc 0 256).findAlloc 0 1 = some a ∧ a.handle = 1 ∧ ∀ b ∈ (stAlloc 0 256).allocs, b.part = 0 → b.slot = a.slot → b = a) ∧
    (stAlloc 0 256).fget F.allocHandle_GEN 0 * 0x10000 + (stAlloc 0 256).fget F.allocHandle_SLOT 0 = 1 ∧ (stAlloc 0 256).rel = [] ∧
    ((stAlloc 0 256).moves.any fun m => m.uses 0 1) = false ∧ moveOf1.uses 0 1 = true ∧ State.reset.findAlloc 0 1 = none := by
  refine ⟨⟨_, rfl, rfl, by decide⟩, by decide +kernel, rfl, by decide, by decide, by decide⟩
/-- Either half of a register of 64 bits, and the whole of which that write is a part. -/
theorem wit_register_half : R.partStage0.width = 64 ∧ (∀ f ∈ R.partStage0.fields, f.acc ≠ .w1c) ∧
    ∀ half ∈ [0, 1], let w4 := halfPut (State.reset.otherHalf R.partStage0 0) half 5
      (State.reset.writeWork R.partStage0 0 w4).isNone = true ∧ (State.reset.writeModule .reeve R.partStage0 0 w4).isNone = true := by decide +kernel
/-- Memory that lists nothing reads zero. -/
theorem rdN_empty (s : State) (h : s.mem = []) : ∀ (n a : Nat), s.rdN a n = List.replicate n 0
  | 0, _ => rfl
  | n + 1, a => by
    have h8 : s.rd8 a = 0 := by simp [State.rd8, h, memGet, alGet, alFind]
    simp [State.rdN, h8, rdN_empty s h n, List.replicate_succ]
set_option maxRecDepth 100000 in
/-- A partition not in use, every context and descriptor intact, no system bin or context bin its scratchpad. -/
theorem wit_part_intact : let s : State := { stReady with parts := [(0, part0)] }
    s.isFailsafe = false ∧ s.ctxUsed = [] ∧ (∀ i, s.mdlIntact i = true) ∧ (∀ k, k < 64 → s.fget F.grnBinCfg_MODE k ≠ 2) := by
  refine ⟨by decide, by decide, fun i => ?_, by decide +kernel⟩
  rw [State.mdlIntact, State.mdlBytes, rdN_empty _ rfl]
  decide +kernel

end Sys2Proof.Tests
end

