-- ==== Sys2Proof/Tests/WControl.lean ====
section
/-!
SUPPORT. Tests/WControl.lean: concrete states and operands that meet the hypotheses of the statements.
-/
namespace Sys2Proof.Tests

open Sys2Proof.Machine
set_option Elab.async false

/-- Core 1, idle, with a work item queued, whose role image holds one entry. -/
def stQueued : State :=
  { (State.reset.setCore 1 { Core.fresh with queue := [item0] }).wr (binBase 63) [1, 0, 0, 0, 1, 0] with roles := [(0, 32)] }
/-- A work item can start. -/
theorem wit_start : (stQueued.core 1).wi = none ∧ (stQueued.core 1).queue = [item0] ∧ stQueued.blk = none ∧
    item0.role < stQueued.roles.length ∧ item0.entry < stQueued.roleEntries item0.role := by decide +kernel
/-- Core 0 waits for the end of its work item with nothing outstanding. -/
def stEnding : State := State.reset.setCore 0 { core0 with wait := some .ending }
/-- A work item can end. -/
theorem wit_end : (stEnding.core 0).wi = some item0 ∧ (stEnding.core 0).wait = some .ending ∧ stEnding.outstandingAll 0 = 0 := by decide +kernel
/-- CMD can issue, with room in every queue. -/
theorem wit_issue : stCore.issueHeld 0 = false ∧ stCore.hasRoom 0 4 = true := by decide +kernel
/-- A command in a queue that is full. -/
def cmd0 : Cmd := { seq := 0, layer := 0, oper := 0, step := 5, kind := 5, op := 1, body := 0, chk := 0, chaff := false }
/-- The sync queue holds four commands. -/
def stFull : State := State.reset.setCore 0 { core0 with qs := List.replicate 4 cmd0 }
theorem wit_full : stFull.cpRuns 0 = true ∧ stFull.hasRoom 0 4 = false ∧ stFull.issueHeld 0 = false := by decide +kernel
/-- A command that waits, with room. -/
def stWaits : State := State.reset.setCore 0 { core0 with wait := some (.full cmd0) }
theorem wit_space : (stWaits.core 0).wait = some (.full cmd0) ∧ stWaits.hasRoom 0 (cmd0.kind - 1) = true ∧ stWaits.issueHeld 0 = false ∧
    (stWaits.core 0).pc + 1 < (stWaits.core 0).instrCount := by decide +kernel
/-- WAITQ at its limit and one beyond it. -/
theorem wit_waitq : stFull.waitCount 0 4 = some 4 ∧ 4 ≤ (4#40).toNat ∧ (3#40).toNat < 4 := by decide +kernel
/-- A wait that is satisfied. -/
def stWaitq : State := State.reset.setCore 0 { core0 with wait := some (.waitq 7 0) }
theorem wit_satisfied : (stWaitq.core 0).wait = some (.waitq (7#3).toNat (0#40).toNat) ∧ stWaitq.waitCount 0 7 = some 0 := by decide +kernel
/-- Frames at the end of scratch. -/
theorem wit_frame : scratchOk stCore 0 0x17FE0 32 true ∧ scratchOk stCore 0 0x17FC0 64 true := by unfold scratchOk; decide +kernel
/-- An idle array; a line of the image that the cache lacks. -/
theorem wit_gate : let s := State.reset.setCore 0 { core0 with instrCount := 40 }
    s.outstanding 0 0 = 0 ∧ (s.core 0).image.isSome = true ∧ 1 * 32 < (s.core 0).instrCount ∧ 1 ∉ (s.core 0).lines := by decide +kernel
/-- An illegal word: all zero. -/
theorem wit_illegal : dciLegal 0 = false ∧ dciLegal 0x0100000000000000 = true := by decide +kernel

end Sys2Proof.Tests
end

