-- ==== Sys2Proof/Tests/WDci.lean ====
section
/-!
SUPPORT. Tests/WDci.lean: concrete states and operands that meet the hypotheses of the statements.
-/
namespace Sys2Proof.Tests

open Sys2Proof.Machine
set_option Elab.async false

/-- The control processor executes an instruction that is not the last. -/
theorem wit_dci : stCore.cpRuns 0 = true ∧ (stCore.core 0).pc + 1 < (stCore.core 0).instrCount := by decide +kernel
/-- The same with a work item of a ring, not cancelled. -/
theorem wit_dci_item : (stCore.core 0).wi = some item0 ∧ item0.ring = some 0 ∧ item0.dead = false := by decide +kernel
/-- An aligned load and store of 8 bytes within scratch, and the last one. -/
theorem wit_scratch : scratchOk stCore 0 8 8 false ∧ scratchOk stCore 0 0x17FF8 8 true := by
  unfold scratchOk; decide +kernel
/-- Immediates at the bounds of the shift amount and of LIH. -/
theorem wit_imm : (63#40).toNat < 64 ∧ 64 ≤ (64#40).toNat ∧ (0xFFFFFF#40).toNat < 2 ^ 24 ∧ 2 ^ 24 ≤ (0x1000000#40).toNat := by decide
/-- Addresses that are misaligned, and aligned but out of range. -/
theorem wit_address : 3 % 8 ≠ 0 ∧ 0x18000 % 8 = 0 ∧ 0x18000 < 0x18000 + 8 := by decide
/-- A branch taken within the image, and one out of it on either side: the program counter is 2 and the image holds 10 instructions. -/
theorem wit_branch : (stCore.core 0).reg 1 = (stCore.core 0).reg 1 ∧ ((stCore.core 0).pc : Int) + 7 < (stCore.core 0).instrCount ∧
    ((stCore.core 0).instrCount : Int) ≤ (stCore.core 0).pc + 8 ∧ ((stCore.core 0).pc : Int) + (-3) < 0 := by decide +kernel

/-- Operands at the bounds of the immediates, of Q and of the CSR numbers. -/
theorem wit_dciWords : (63#40).toNat < 64 ∧ (0xFFFFFF#40).toNat < 2 ^ 24 ∧ (7#3) ≠ 5 ∧ (7#3) ≠ 6 ∧ (1#40).toNat < 2 ∧
    (0x21#40).toNat ∈ ([0, 1, 2, 3, 4, 5, 6, 7, 0x10, 0x11, 0x12, 0x13, 0x14, 0x18, 0x20, 0x21] : List Nat) := by decide
/-- Words written out by Table 5-9: SUB s3, s1, s2; LDW s4, s5, -8; BEQ s1, s2, +3; WAITQ 7, 1; CMD of kind 3, OP 1 with s2; a reserved bit. -/
theorem wit_dciWord : decodeDci 0 0b0000001000011000010001000000000000000000000000000000000000000000 = .sub 0 3 1 2 false ∧
    decodeDci 0 0b0010001000100001010000001111111111111111111111111111111111111000 = .ldw 0 4 5 (-8) false ∧
    decodeDci 0 0b0011000000001000100000000000000000000000000000000000000000000011 = .beq 0 1 2 3 false ∧
    decodeDci 0 0b0100100000000000001110000000000000000000000000000000000000000001 = .waitq 0 7 1 ∧
    decodeDci 0 0b0100000000110001000100000000000000000000000000000000000000000000 = .cmd 0 3 1 2 0 false ∧
    decodeDci 0 0b0000000100011000010001010000000000000000000000000000000000000000 =
      .dciIllegalInstruction 0 0b0000000100011000010001010000000000000000000000000000000000000000 := by decide +kernel
/-- A core whose code image holds the no-operation at the program counter. -/
theorem wit_fetchDci :
    let s := (stCore.onCore 0 fun c => { c with image := some 0, pc := 1 })
    let t := s.wr (s.roleCode 0 + 8) [0, 0, 0, 0, 0, 0, 0, 1]
    (t.core 0).image = some 0 ∧ leNat (t.rdN (t.roleCode 0 + 8 * (t.core 0).pc) 8) = (0x0100000000000000 : W64).toNat ∧
    t.fetchDci 0 = some (.add 0 0 0 0 false) := by decide +kernel

end Sys2Proof.Tests
end

