-- ==== Sys2Proof/Tests/WFaults.lean ====
section
/-!
SUPPORT. Tests/WFaults.lean: concrete states and operands that meet the hypotheses of the statements.
-/
namespace Sys2Proof.Tests

open Sys2Proof.Machine
set_option Elab.async false

/-- Ring 0 with an open step and a queue with a fault of it. -/
def fault0 (cause step : Nat) : FaultRec := { FaultRec.blank cause with core := 3, part := 0, ring := 0, step := step }
def stFault (cause step : Nat) (o : OpenStep) : State := { State.reset.setRing 0 { Ring.fresh with steps := [o] } with faultQ := [fault0 cause step] }
def semEnt : LedgerEnt := { addr := 0x4014004000, set := false, value := 1, before := 6 }
theorem wit_faults : ∀ o ∈ [openStep0, { openStep0 with replays := 4 }, { openStep0 with exported := true, ledger := [semEnt] }],
    (stFault 2 5 o).faultQ = [fault0 2 5] ∧ ((stFault 2 5 o).ring 0).openStep 5 = some o ∧ o.st = .run ∧ (stFault 2 5 o).replayMax = 4 ∧
    (stFault 2 6 o).faultQ = [fault0 2 6] ∧ ((stFault 2 6 o).ring 0).openStep 6 = none ∧ (stFault 2 5 o).goneAt 0x4014004000 = false ∧
    (stFault 2 5 o).selfId = 0 := by decide +kernel
theorem wit_faults_slight (o : OpenStep) (h : o.charged = []) : slight (stFault 2 5 o) (fault0 2 5) o.charged := by
  intro u hu
  rw [h]
  exact ⟨rfl, show 0 < 2 by decide⟩
/-- Ring 0 with one stopped step. -/
def stStopped (quiet : Bool) : State :=
  State.reset.setRing 0 { Ring.fresh with steps := [{ openStep0 with st := .stopped quiet, ledger := [semEnt] }] }
theorem wit_replay : ∀ q ∈ [false, true], ((stStopped q).ring 0).steps.filter OpenStep.isStopped = [{ openStep0 with st := .stopped q, ledger := [semEnt] }] ∧
    (stStopped q).stepBusy 0 5 = false ∧ (stStopped q).subst = [] ∧ (∀ o ∈ ((stStopped q).ring 0).steps, o.st ≠ .closing ∧ o.broken = false) ∧
    (((stStopped q).ring 0).steps.map OpenStep.step).Nodup ∧ semEnt.addr / 0x10000000000 = (stStopped q).selfId ∧ localOf semEnt.addr = 0x4014004000 ∧ (stStopped q).goneAt 0x4014004000 = false := by decide +kernel
theorem wit_subst : let s : State := { State.reset with subst := [(5, 2)] }
    alFind s.subst 5 = some 2 ∧ 1 ≤ s.fget F.intStatus_SPARES_FREE 0 ∧ s.fget F.intStatus_SPARES_FREE 0 < 2048 := by decide
/-- An event of the third word of core 1's vault, and its scrub-rewrite. -/
def event0 : EccEvent := { addr := 0x800040, uncorr := false, place := 3, time := 7000000000, src := srcHarrow, scrubbed := true }
def stEvent : State :=
  { State.reset with ecc := { State.reset.ecc with events := [event0], rewrite := [0x800040] }, time := { State.reset.time with undisc := false } }
theorem wit_event : stEvent.logPick 0x800040 = some 0 ∧ stEvent.time.undisc = false := by decide +kernel
/-- All entries that serve the word are permanent ones of other words. -/
def stLogFull : State := (List.range 32).foldl (fun s i => ((s.fset F.vlogLo_VALID i 1).fset F.vlogLo_PERM i 1).fset F.vlogLo_CORE i 9) stEvent
theorem wit_event_full : stLogFull.logPick 0x800040 = none ∧ stLogFull.ecc.events = [event0] ∧ stLogFull.time.undisc = false ∧
    stLogFull.flag (logEnt 4).valid (logEnt 4).copy = true ∧ stLogFull.flag (logEnt 4).perm (logEnt 4).copy = true := by decide +kernel
theorem wit_harrows : let s : State := { State.reset with valid := [32770] }
    s.flag F.harrowCtl_PAUSE 0 = false ∧
    s.valid.find? (fun b => decide (1 * 32768 + (alGet (⟨0, 0, 0⟩ : HarrowPos) s.ecc.vaultHarrow 1).next ≤ b ∧ b < (1 + 1) * 32768)) = some 32770 ∧
    s.isChaff (32770 * 256 + 7 * 32) = false ∧ s.isChaff (0x4000000000 + s.ecc.grnHarrow.next * 8) = false ∧ s.ecc.grnHarrow.next + 1 < 0x8000000 ∧
    s.isChaff (0x8000000000 + s.ecc.ssHarrow.next * 256) = false ∧ s.lines = [] ∧ s.ssChaff < 65536 ∧
    (s.ecc.ssHarrow.next + 1) * 256 < s.partNo.capacity := by decide +kernel
theorem wit_log_free : let s : State := { (State.reset.fset F.glogLo_VALID 2 1) with time := { State.reset.time with elapsed := 2592001000000000 } }
    s.flag (logEnt 130).valid (logEnt 130).copy = true ∧ s.flag (logEnt 130).perm (logEnt 130).copy = false ∧
    alGet 0 s.ecc.lastAt 130 + 2592000000000000 ≤ s.time.elapsed ∧
    (if bitAt (0x80000002#32).toNat 31 then 128 + bitsOf (0x80000002#32).toNat 0 5 else 0) = 130 := by decide +kernel
/-- A RET_CMD value: scope, row, bank, target. -/
def retVal (scope bank target : Nat) : W32 := BitVec.ofNat 32 (scope * 0x40000000 + bank * 0x10000 + target)
theorem wit_retire : (∀ k ∈ [1, 2, 3], bitsOf (retVal k 3 9).toNat 30 2 = k ∧ bitsOf (retVal k 3 9).toNat 0 16 = 9 ∧
    27648 ≤ bitsOf (retVal k 3 60000).toNat 0 16) ∧ State.reset.flag F.retStatus_BUSY 0 = false ∧
    (State.reset.fset F.retStatus_BUSY 0 1).flag F.retStatus_BUSY 0 = true ∧
    (∀ k ∈ [1, 2, 3], ∀ full ∈ [false, true],
      let j : RetJob := { value := 0, scope := k, row := 0, bank := 3, target := 9 }
      let s : State := { State.reset with ret := { State.reset.ret with job := some j, slices := if full then [9] else [], bins := if full then 2 else 0 } }
      s.ret.job = some j ∧ s.retRunning j = false ∧ s.ret.slices.contains 9 = full ∧ (if full then 2 ≤ s.ret.bins else s.ret.bins < 2)) := by decide +kernel
/-- A huller task computes in bank 0 of core 1: the word of the event waits for its rewrite, and the Harrow for its read. -/
def stBankTaken : State := { stEvent.setCore 1 { core0 with hul := [hulC 1 .computing] } with valid := [32770] }
theorem wit_scrub : stEvent.ecc.rewrite.find? (fun a => !stEvent.bankTaken a) = some 0x800040 ∧ (∀ a ∈ stBankTaken.ecc.rewrite, stBankTaken.bankTaken a = true) ∧
    stBankTaken.bankTaken (32770 * 256) = true ∧ stEvent.bankTaken (32770 * 256) = false := by decide +kernel
/-- A substitution that a task which runs in its bank delays. -/
def retJob0 : RetJob := { value := 0, scope := 1, row := 0, bank := 0, target := 0 }
theorem wit_retire_runs : let s : State := { stTask 1 .computing with ret := { State.reset.ret with job := some retJob0 } }
    s.ret.job = some retJob0 ∧ s.retRunning retJob0 = true ∧ retJob0.units = [0] := by decide +kernel
/-- A step stopped for a broken link: its replay waits for software while PENDING is 1. -/
theorem wit_replay_broken : let o : OpenStep := { openStep0 with st := .stopped false, broken := true }
    let s := State.reset.setRing 0 { Ring.fresh with steps := [o] }
    s.flag F.routeCtl_PENDING 0 = false ∧ (s.ring 0).steps.filter OpenStep.isStopped = [o] ∧ s.stepBusy 0 5 = false := by decide +kernel

end Sys2Proof.Tests
end

