-- ==== Sys2Proof/Tests/WGlobal.lean ====
section
/-!
SUPPORT. Tests/WGlobal.lean: concrete states and operands that meet the hypotheses of the statements.
-/
namespace Sys2Proof.Tests

open Sys2Proof.Machine
set_option Elab.async false

theorem wit_step_front : ({ State.reset with pending := [.hostLinkDown] } : State).pending = .hostLinkDown :: [] ∧ State.reset.pending = [] ∧
    State.reset.host.held = [] ∧ State.reset.time.slew = 0 := by decide
theorem wit_form : memWf State.reset.mem = true ∧ step State.reset = .next State.reset.idle := ⟨rfl, rfl⟩
theorem wit_form_command : memWf (State.reset.wr 5 [1, 0, 2]).mem = true ∧
    ∃ t, step { State.reset.wr 5 [1, 0, 2] with pending := [.standbyStageStart] } = .next t := ⟨by decide, _, rfl⟩
theorem wit_map : (0 : Nat) ≤ 0x35FFFFFFFF ∧ State.reset.region 0x35FFFFFFFF = .vault 27647 0x7FFFFF ∧ State.reset.region 0x3600000000 = .unmapped ∧
    State.reset.region 0x403FFFFFFF = .bin 63 0xFFFFFF ∧ State.reset.region 0x9FFFFFFFFF = .seedstore 0x1FFFFFFFFF ∧
    ({ State.reset with partNo := .a64 } : State).region 0x9000000000 = .unmapped ∧ State.reset.region 0xF00FFFFFFF = .registers 0xFFFFFFF ∧
    State.reset.region 0xFFFFFFFFFF = .unmapped := by decide
theorem wit_packed : elemValue 0x11 0xF = Num.ofInt (-1) 0 ∧ elemValue 0x10 0x80 = Num.ofInt (-128) 0 ∧ bt2Trit 0xF2 false 4 = -1 ∧ bt2Trit 0xF3 false 0 = 0 := by decide
theorem wit_step_idle : State.reset.cores = [] ∧ State.reset.descJobs = [] ∧ (∀ r, (State.reset.ring r).late = none) := ⟨rfl, rfl, fun _ => rfl⟩

end Sys2Proof.Tests
end

