-- ==== Sys2Proof/Tests/WHost.lean ====
section
/-!
SUPPORT. Tests/WHost.lean: concrete states and operands that meet the hypotheses of the statements.
-/
namespace Sys2Proof.Tests

open Sys2Proof.Machine
set_option Elab.async false

/-- READY, with bin 20 scratch of partition 0, which the PF owns. -/
def stHost : State := { ((stReady.fset F.grnBinCfg_MODE 20 2).fset F.grnBinCfg_OWNER 20 0) with parts := [(0, part0)] }
theorem wit_host : atOnce stHost 0 ∧ stHost.hostResolve 0 0x4014000000 8 false false false = none ∧ stHost.hostResolve 0 0x4014000000 8 true false false = none ∧
    stHost.memKind 0x4014000000 = some 1 ∧ stHost.goneAt 0x4014000000 = false ∧ 0x4014000000 % 8 = 0 ∧ ¬ (0x4014000004 % 8 = 0) ∧
    stHost.hostResolve 0 0x4014000004 8 true false false = none ∧ (stHost.memRegion 0x4014000000 16).isSome = true ∧
    (∀ i, i < 8 → stHost.isChaff (0x4014000000 + i) = false) ∧ stHost.hostResolve 0 0 8 true false false = none ∧ stHost.memKind 0 = some 0 := by
  unfold atOnce; decide +kernel
theorem wit_host_chaff : ({ stHost with chaff := [0x4014000000] } : State).isChaff 0x4014000003 = true ∧
    ({ stHost with chaff := [0x4014000000] } : State).hostResolve 0 0x4014000000 8 false false false = none := by decide +kernel
theorem wit_host_refused : (State.reset.fset F.intStatus_FAILSAFE 0 1).isFailsafe = true ∧ State.reset.isReady = false ∧ State.reset.isFailsafe = false ∧
    atOnce State.reset 0 ∧ stHost.memRegion 0x3600000000 4 = none ∧ stHost.memRegion 0x35FFFFFFFE 4 = none ∧
    stHost.partOfFn 1 = none ∧ stHost.binMay 0 0x4015000000 true = false ∧ (stHost.memRegion 0x4015000000 4).isSome = true := by
  unfold atOnce; decide +kernel
def stCxl : State := { stHost with host := { stHost.host with hdm := true, link := true } }
theorem wit_cxl : atOnce stCxl 63 ∧ stCxl.host.hdm = true ∧ stCxl.hostResolve 0 0x8000000040 64 false true false = none ∧
    stCxl.hostResolve 0 0x8000000040 64 true true false = none ∧ stCxl.hostResolve 0 0x4014000000 64 true true false = none ∧ stCxl.goneAt 0x8000000040 = false ∧
    stCxl.ssChaff ≤ 65536 ∧ (stCxl.hostResolve 0 0x4015000000 64 true true false).isSome = true ∧ stHost.host.hdm = false ∧ (1 : BitVec 64) ≠ 0 := by
  unfold atOnce; decide +kernel
theorem wit_link : State.reset.hostDomain = true ∧ (State.reset.fset F.sleepStat_STATE 0 3).hostDomain = false ∧ stCxl.host.link = true ∧ stCxl.rings = [] ∧
    State.reset.host.link = false ∧ (∀ r, (State.reset.ring r).held = []) := ⟨by decide, by decide, by decide, by decide, by decide, fun _ => rfl⟩
theorem wit_msix : vectorsOf 1 ≤ (16#8).toNat ∧ (15#8).toNat < vectorsOf 1 ∧ (let s : State := { stCxl with host := { stCxl.host with pend := [271] } }
    s.host.pend.contains (1 * 256 + 15) = true ∧ (s.host.d3.contains 1 || s.host.off.contains 1) = false) ∧
    ({ stCxl with host := { stCxl.host with d3 := [1] } } : State).host.d3.contains 1 = true := by decide
def stWriting : State := { stHost with mdq := [{ msg := { msg0 0 with src := .host 0 }, since := 0, seen := none }] }
theorem wit_doorbell : stHost.hostWriting 0 = false ∧ stHost.partOfFn 0 = some (partOfRing 0) ∧ stHost.partOfFn 1 ≠ some (partOfRing 0) ∧
    stWriting.hostWriting 0 = true ∧ stWriting.host.held = [] := by decide
theorem wit_asleep : (State.reset.fset F.sleepStat_STATE 0 2).sleep = 2 ∧ (State.reset.fset F.sleepStat_STATE 0 2).flag F.sleepStat_ENTERING 0 = false := by decide
theorem wit_pins : State.reset.rst.standby = true ∧ State.reset.rst.alert = none ∧ State.reset.rst.pwrOk = true ∧ State.reset.rst.emergency = false ∧
    ({ State.reset with rst := { State.reset.rst with standby := false } } : State).rst.standby = false := by decide

end Sys2Proof.Tests
end

