-- ==== Sys2Proof/Tests/WLinks.lean ====
section
/-!
SUPPORT. Tests/WLinks.lean: concrete states and operands that meet the hypotheses of the statements.
-/
namespace Sys2Proof.Tests

open Sys2Proof.Machine
set_option Elab.async false

/-- Port 2 in a state. -/
def stPort (st : Nat) : State := State.reset.fset F.portStat_STATE 2 st
/-- Port 2 with changes beyond its registers. -/
def stPortX (st : Nat) (x : PortSt) : State := (stPort st).setPort 2 x
/-- Causes that hold a port in FAULT_IDLE: none, its own, a forced one, and a module in its fail-safe state. -/
theorem wit_port_states : (stPort 0).portState 2 = 0 ∧ (stPort 0).fiCause 2 = 0 ∧ (stPortX 0 { PortSt.fresh with cause := 5 }).fiCause 2 = 5 ∧
    ((stPort 3).fset F.portCtl_FORCE_FI 2 1).fiCause 2 = 4 ∧ ((stPort 3).fset F.intStatus_FAILSAFE 0 1).fiCause 2 = 1 ∧ (stPort 3).portUp 2 = true ∧
    ((stPortX 5 { PortSt.fresh with cause := 7 }).portState 2 = 5 ∧ ((stPortX 5 { PortSt.fresh with cause := 7 }).port 2).cause = 7) ∧
    badLane 0 0xF ∧ badLane 4 2 := by
  refine ⟨by decide, by decide, by decide, by decide, by decide, by decide, by decide, Or.inl ⟨rfl, by decide⟩, Or.inr ⟨by decide, by decide, by decide⟩⟩
theorem wit_training : ∀ b ∈ [false, true], ∀ m ∈ [false, true], let s := stPortX 1 { PortSt.fresh with signal := true, measured := m, twoBad := b }
    s.portState 2 = 1 ∧ (s.port 2).signal = true ∧ (s.port 2).measured = m ∧ (s.port 2).twoBad = b := by decide
/-- Table 11-9: with its causes gone a port that is told to train trains, with FORCE_FI it sends FAULT_IDLE with reason 4. -/
theorem test_forced_port : let f := fun (s : State) => match exec (.portRetrain 2) s with | .next t => (t.portState 2, t.fget F.portStat_FI_REASON 2) | _ => (9, 9)
    f (stPort 3) = (1, 0) ∧ f ((stPort 3).fset F.portCtl_FORCE_FI 2 1) = (5, 4) := by decide +kernel
/-- A control flit of a type with reason and ACK. -/
def ctlFlit (ct reason ack : Nat) : List Byte :=
  let b := toLE 1 ct ++ toLE 1 reason ++ toLE 2 ack ++ toLE 16 0 ++ toLE 2 0 ++ toLE 6 0x12
  b ++ toLE 4 (crc32c b).toNat
set_option maxRecDepth 100000 in
theorem wit_flits : ctlOk (ctlFlit 2 0 0) 2 = true ∧ (stPort 2).portState 2 = 2 ∧ ctlOk (ctlFlit 5 7 0) 5 = true ∧
    fieldB (ctlFlit 5 7 0) 1 1 = 7 ∧ (stPort 3).portUp 2 = true := by decide +kernel
/-- A port with two packets in its retry buffer, resent so often, last sent at time 0. -/
def pkt0 : Packet :=
  { type := 1, cls := 0, level := 0, hops := 63, op := 0, dst := 1, src := 0, addr := 0x100, etype := 0, srcId := 0, txn := 9, bytes := 8, poison := 0, payload := [] }
def tx0 (seq n : Nat) : TxPkt := { pkt := pkt0, seq := seq, shared := false, resends := n, last := 0 }
def stRetry (n : Nat) : State :=
  { stPortX 3 { PortSt.fresh with retry := [tx0 4 n, tx0 5 n], txSeq := 6 } with time := { State.reset.time with elapsed := 5000 } }
set_option maxRecDepth 100000 in
theorem wit_ack : ctlOk (ctlFlit 1 0 4) 1 = true ∧ bitAt (fieldB (ctlFlit 1 0 4) 2 2) 15 = false ∧ ((stRetry 0).port 2).out = [] ∧
    ((stRetry 0).port 2).retry.findIdx? (fun t => t.seq = bitsOf (fieldB (ctlFlit 1 0 4) 2 2) 0 12) = some 0 ∧
    ((stRetry 0).port 2).retry[0]? = some (tx0 4 0) ∧ (stRetry 0).portUp 2 = true := by decide +kernel
set_option maxRecDepth 100000 in
theorem wit_nak : ctlOk (ctlFlit 1 0 0x8003) 1 = true ∧ bitAt (fieldB (ctlFlit 1 0 0x8003) 2 2) 15 = true ∧ ((stRetry 0).port 2).retry ≠ [] ∧
    (∀ t ∈ ((stRetry 0).port 2).retry, t.seq ≠ bitsOf (fieldB (ctlFlit 1 0 0x8003) 2 2) 0 12 ∧ t.resends < 8) ∧
    ((stRetry 0).port 2).naked = none ∧ bitsOf (fieldB (ctlFlit 1 0 0x8003) 2 2) 0 12 = 3 ∧
    (({ (stRetry 0).port 2 with naked := some 3 } : PortSt).retry ≠ [] ∧ ((stRetry 0).port 2).out = []) := by decide +kernel
theorem wit_retry_time : ∀ n ∈ [0, 8], ((stRetry n).port 2).retry.findIdx? (fun t => decide (t.last + 4000 ≤ (stRetry n).time.elapsed)) = some 0 := by decide
theorem wit_retry_few : ∀ k ∈ ((stRetry 0).port 2).retry.drop 0, k.resends < 8 := by decide
theorem wit_retry_many : ∃ k ∈ ((stRetry 8).port 2).retry.drop 0, 8 ≤ k.resends := by decide
theorem wit_marginal : let s := stPortX 3 { PortSt.fresh with fec := List.replicate 16 0 }
    16 ≤ ((s.port 2).fec.filter fun x => decide (s.time.elapsed < x + 10000000000)).length ∧ s.portUp 2 = true := by decide
/-- A flit, and the lane that Config gives it. -/
def hlFlit : HlFlit := { src := 5, dst := 0, cls := 0, last := true, bytes := List.replicate 32 0, chk := moduleCheck (List.replicate 32 0) }
def lane0 : Nat := (Config.hlLane 5 0 0).val
/-- That lane of plot 3, inward, with these flits held and the oldest resent so often; spare 64 is free. -/
def stLane (held : List HlFlit) (n : Nat) : State :=
  { State.reset with
    link := { State.reset.link with headland := [(3, { lanes := [(hlKey true lane0, { resends := n, replay := held, recv := [] })], failed := [], subst := [] })] } }
/-- Whatever is held there and however often it was resent, the flit's lane stands; the next lane is not its lane. -/
theorem wit_headland (held : List HlFlit) (n : Nat) :
    lane0 < 64 ∧ laneFailed (stLane held n) 3 true lane0 = false ∧ ((stLane held n).headland 3).carrier true hlFlit = hlKey true lane0 ∧
    laneOf (stLane held n) 3 true lane0 = { resends := n, replay := held, recv := [] } ∧ (stLane held n).fget F.hlStat_SPARE_IN 3 = 2 ^ 0 - 1 ∧
    laneFailed (stLane held n) 3 true (64 + 0) = false ∧ ((stLane held n).headland 3).carrier true hlFlit ≠ hlKey true (lane0 + 1) := by
  refine ⟨(Config.hlLane 5 0 0).isLt, rfl, rfl, ?_, rfl, rfl, ?_⟩
  · simp [laneOf, stLane, State.headland, HlSt.lane, alGet, alFind]
  · show hlKey true lane0 ≠ hlKey true (lane0 + 1)
    simp [hlKey]
/-- What came is intact or not; the flit itself or another is the oldest held, with one or with sixteen held. -/
theorem wit_headland_flits : let g : HlFlit := { hlFlit with last := false }
    moduleCheck (sliceB (List.replicate 32 0) 0 32) = hlFlit.chk ∧ moduleCheck (sliceB (List.replicate 32 1) 0 32) ≠ hlFlit.chk ∧ g ≠ hlFlit ∧ hlFlit ∉ [g] ∧
    (List.replicate 16 g).length = 16 ∧ [hlFlit].head? = some hlFlit := by decide +kernel
/-- A mesh flit for the granules at 0x100 of core 0's vault, or for the unit that asked for it; its link after 0 or 8 resends. -/
def mesh0 (chk : BitVec 16) (dest : Option Nat) : MeshFlit := { from_ := 300, cls := 0, bytes := [], chk := chk, dest := dest, ring := some 0, step := 5 }
def stMesh (n : Nat) : State := { State.reset with link := { State.reset.link with mesh := [(7 * 65536 + 300, n)] } }
theorem wit_mesh : moduleCheck (sliceB (mesh0 0x1234 none).bytes 0 32) ≠ (mesh0 0x1234 none).chk ∧
    (∀ n ∈ [0, 8], alGet 0 (stMesh n).link.mesh (7 * 65536 + (mesh0 0 none).from_) = n) ∧ (mesh0 0 (some 0x100)).dest = some 0x100 ∧
    (stMesh 8).goneAt 0x100 = false ∧
    moduleCheck (sliceB (mesh0 (moduleCheck (List.replicate 32 0)) none).bytes 0 32) = (mesh0 (moduleCheck (List.replicate 32 0)) none).chk := by decide +kernel

end Sys2Proof.Tests
end

