-- ==== Sys2Proof/Tests/WObserve.lean ====
section
/-!
SUPPORT. Tests/WObserve.lean: concrete states and operands that meet the hypotheses of the statements.
-/
namespace Sys2Proof.Tests

open Sys2Proof.Machine
set_option Elab.async false

theorem wit_events : let s : State := { State.reset with mgmt := { State.reset.mgmt with evQueue := [evt0] } }
    s.mgmt.evQueue = [evt0] ∧ 1 ≤ refill s.mgmt.evTokens s.mgmt.evRefill s.time.elapsed 2000 4096 ∧ refill 0 0 0 2000 4096 = 0 ∧
    State.reset.portIp ≠ some 5 ∧ (stJournal 1 3 0).seed.image = some imageOk ∧ imageOk.ip = 0 ∧ ({ imageOk with ip := 5 } : Image).ip ≠ 0 ∧
    ({ State.reset with mgmt := { State.reset.mgmt with ip := some 5 } } : State).portIp = some 5 := by decide
/-- PTP on, master 7 in use, locked, a Sync waits for its Follow_Up. -/
def stPtp : State :=
  let s := State.reset.fset F.ptpCfg_ENABLE 0 1
  { s with time := { s.time with state := 2, elapsed := 5000000000, ptp := { s.time.ptp with master := some 7, waiting := some 3 } } }
theorem wit_ptp : stPtp.ptpOn = true ∧ stPtp.ptpDomain = 0 ∧ (bestMaster (alPut stPtp.time.ptp.foreign 7 [1])).isSome = true ∧
    stPtp.time.ptp.master = some 7 ∧ stPtp.time.ptp.waiting = some 3 ∧ (State.reset.fset F.ptpCfg_ENABLE 0 0).ptpOn = false ∧ stPtp.time.state = 2 ∧
    stPtp.time.ptp.lastSync + 4 * stPtp.time.ptp.interval ≤ stPtp.time.elapsed := by decide
theorem wit_time_set : bitAt (0x80000005#32).toNat 31 = true ∧ bitsOf (0x80000005#32).toNat 0 30 = 5 ∧ State.reset.time.counter ≤ 5 ∧
    (let s : State := { State.reset with time := { State.reset.time with counter := 9 } }; s.fget F.timeSetS_S 0 * 1000000000 + 5 < s.time.counter) := by decide
theorem wit_tlm : State.reset.fget F.tlmCfg_CHAN 3 ≠ 7 ∧ tlmChannel ((State.reset.fset F.tlmCfg_CHAN 3 7).fget F.tlmCfg_CHAN 3) = true := by decide
def stGlean : State := { State.reset with obs := { State.reset.obs with glean := some 0, wfg := some (0, true), edges := some [] } }
theorem wit_glean : stGlean.obs.glean = some 0 ∧ 0 ≤ stGlean.time.counter ∧ State.reset.obs.glean = none ∧
    (State.reset.time.counter + 10000 ≤ bitsOf (0x80004E20#32).toNat 0 30 ∧ bitsOf (0x80004E20#32).toNat 0 30 ≤ State.reset.time.counter + 1000000000) ∧
    bitAt (0x80004E20#32).toNat 31 = true ∧ bitsOf (0x80000001#32).toNat 0 30 < State.reset.time.counter + 10000 ∧
    stGlean.obs.edges = some [] := by decide
/-- A trace session of partition 0 in bin 20, and a record it traces. -/
def stTrace (full : Nat) : State :=
  { ((((((State.reset.fset F.grnBinCfg_MODE 20 2).fset F.grnBinCfg_OWNER 20 0).fset F.traceBuf_SIZE 0 1).fset F.traceCtl_ENABLE 0 1).fset
      F.traceFilt_KINDS 0 1).fset F.traceStat_FULL 0 full) with parts := [(0, part0)] }
def trace0 (ring : Nat) : TraceRec :=
  { kind := 1, core := 3, layer := 0, oper := 0, step := 5, ring := ring, unit := 0, status := 0, ref := 0, detail := 0, time := 0 }
theorem wit_trace : ((stTrace 0).fset F.traceFilt_OPER_ALL 0 1).traced (trace0 0) = true ∧ ((stTrace 1).fset F.traceFilt_OPER_ALL 0 1).traced (trace0 0) = true ∧
    (stTrace 0).traced (trace0 4) = false ∧ (stTrace 1).flag F.traceStat_FULL 0 = true ∧ (stTrace 0).flag F.traceStat_FULL 0 = false ∧
    (((stTrace 0).partOf 0).isSome && (stTrace 0).spHas 0 (stTrace 0).traceArea.1 (stTrace 0).traceArea.2) = true ∧
    ((State.reset.partOf 0).isSome && State.reset.spHas 0 0 0) = false ∧ State.reset.flag F.traceCtl_ENABLE 0 = false := by decide +kernel
/-- A record in its place in time, one older than the last of its field, and one of a time to come. -/
theorem wit_trace_order : alGet 0 (stTrace 0).obs.traceAt (fieldOfCore (trace0 0).core) ≤ (trace0 0).time ∧ (trace0 0).time ≤ (stTrace 0).time.counter ∧
    (trace0 0).time < alGet 0 ({ State.reset.obs with traceAt := [(0, 5)] } : ObsSt).traceAt (fieldOfCore (trace0 0).core) ∧
    State.reset.time.counter < ({ trace0 0 with time := 9 } : TraceRec).time := by decide +kernel
/-- A field that is halted is paused, one that has resumed is not: Table 2-4 suspends its stall timers between the two. -/
theorem test_debug_pauses :
    let s : State := { State.reset with seed := { State.reset.seed with image := some { imageOk with debug := true } } }
    let f := fun (o : Host.Outcome State Fault Refusal) => match o with
      | .next t => some ((t.field 3).halted, t.pauses.map fun p => p.until_.isNone)
      | _ => none
    f (exec (.debugHalt 0xDB60 0 3) s) = some (true, [true]) ∧
    f (match exec (.debugHalt 0xDB60 0 3) s with | .next t => exec (.debugResume 0xDB60 0 3) t | o => o) = some (false, [false]) := by decide +kernel
theorem wit_debug : let i : Image := { imageOk with debug := true }
    ({ State.reset with seed := { State.reset.seed with image := some i } } : State).debugOk = true ∧ State.reset.debugOk = false ∧
    (State.reset.setField 0 { State.reset.field 0 with halted := true }).dbgTarget = some 0 ∧ State.reset.dbgTarget = none := by decide
theorem wit_wfg : let s := { ((stWait (some 0) none 1).fset F.wfgCtl_AUTO_MS 0 1) with time := { State.reset.time with elapsed := 2000000 } }
    s.fget F.wfgCtl_AUTO_MS 0 ≠ 0 ∧ s.flag F.wfgCtl_BUSY 0 = false ∧
    ∃ e ∈ s.waitEdges, s.fget F.wfgCtl_AUTO_MS 0 * 1000000 < e.age ∧ s.obs.seen.contains (s.waitName e) = false := by decide +kernel
/-- An event of the history whose stored words read uncorrectably. -/
theorem wit_resend_bad : let s : State := { State.reset with mgmt := { State.reset.mgmt with evHist := [evt0] } }
    evt0 ∈ s.mgmt.evHist ∧ 0 ≤ evt0.seq ∧ evt0.seq < 0 + 1 ∧ [evt0.seq] = [0] := by decide

end Sys2Proof.Tests
end

