-- ==== Sys2Proof/Tests/WPackets.lean ====
section
/-!
SUPPORT. Tests/WPackets.lean: concrete states and operands that meet the hypotheses of the statements.
-/
namespace Sys2Proof.Tests

open Sys2Proof.Machine
set_option Elab.async false

/-- A packet to this module (0) or another, its flits in sequence at port 2 of a module. -/
def pktTo (type cls op dst addr bytes etype : Nat) (payload : List Byte) : Packet :=
  { type := type, cls := cls, level := 0, hops := 63, op := op, dst := dst, src := 5, addr := addr, etype := etype, srcId := 0x20000, txn := 9, bytes := bytes,
    poison := 0, payload := payload }
/-- Such a packet for each row: TYPE, class, OP, bytes or status, element type, payload flits. -/
def pktShapes : List (Nat × Nat × Nat × Nat × Nat × Nat) :=
  [(1, 0, 0, 8, 0, 0), (2, 0, 0, 8, 0, 1), (3, 0, 0, 8, 0, 1), (4, 1, 1, 8, 1, 1), (5, 2, 0, 0, 0, 1), (6, 2, 0, 0, 0, 0), (7, 2, 0, 0, 0, 0), (8, 3, 1, 0, 0, 0),
   (8, 3, 2, 0, 0, 3), (8, 3, 3, 0, 0, 1)]
def pktOf (x : Nat × Nat × Nat × Nat × Nat × Nat) (dst addr : Nat) : List Byte :=
  (pktTo x.1 x.2.1 x.2.2.1 dst addr x.2.2.2.1 x.2.2.2.2.1 (List.replicate (32 * x.2.2.2.2.2) 0)).wire 0 false
def stUp : State :=
  let s := (State.reset.fset F.portStat_STATE 2 3).fset F.portStat_STATE 4 3
  { s with link := { s.link with routes := [(0, 0xC0000000)] } }
set_option maxRecDepth 100000 in
theorem wit_packets : ∀ x ∈ pktShapes, ∀ dst ∈ [0, 7], arrives stUp 2 (pktOf x dst 0x4014004000) x.1 x.2.2.1 ∧
    (Packet.parse (pktOf x dst 0x4014004000)).dst = dst ∧ (stUp.isHere (Packet.parse (pktOf x dst 0x4014004000)) = true ↔ dst = 0) ∧
    stUp.link.queue = [] := by decide +kernel
set_option maxRecDepth 100000 in
theorem wit_packets_bad : wireCrcOk (List.replicate 32 0) = false ∧
    (let b := (pktTo 9 0 0 0 0 0 0 []).wire 0 false; wireCrcOk b = true ∧ fieldB b 14 2 % 4096 = (stUp.port 2).rxSeq ∧ wireOk b = false) ∧
    (let b := (pktTo 7 2 0 0 0 0 0 []).wire 3 false; wireCrcOk b = true ∧ fieldB b 14 2 % 4096 ≠ (stUp.port 2).rxSeq) := by decide +kernel
set_option maxRecDepth 100000 in
theorem wit_remote :
    (∀ x ∈ pktShapes.take 4, (stUp.remoteCheck (Packet.parse (pktOf x 0 0x4014004000)) 8 true).1 = 0) ∧
    (stUp.remoteCheck (Packet.parse (pktOf (1, 0, 0, 8, 0, 0) 0 0x4014004000)) 8 false).1 = 0 ∧
    (stUp.remoteCheck (Packet.parse (pktOf (1, 0, 0, 8, 0, 0) 0 0x3800000000)) 8 false).1 ≠ 0 ∧
    (stUp.remoteCheck (Packet.parse (pktOf (2, 0, 0, 8, 0, 1) 0 0x3800000000)) 8 true).1 ≠ 0 ∧
    (stUp.remoteCheck (Packet.parse (pktOf (2, 0, 0, 8, 0, 1) 0 0x1000)) 8 true).1 = 0 ∧
    (stUp.remoteCheck (Packet.parse (pktOf (3, 0, 0, 8, 0, 1) 0 0x4014004004)) 8 true).1 = 0 ∧ stUp.goneAt 0x4014004000 = false := by decide +kernel
/-- A transaction 9 of a move that waits for two answers, or of a core's SIGNAL of ring 0 step 5. -/
def txn0 (move core : Option Nat) : Txn := { txn := 9, pkt := pktTo 1 0 0 7 0x100 8 0 [], move := move, core := core, ring := some 0, step := 5, sent := 0, at_ := 0, entry := none }
def stTxn (move core : Option Nat) : State :=
  let s := (stUp.setCore 0 { core0 with sync := some (cmdOf 5 1 0) }).setRing 0 { Ring.fresh with steps := [openStep0] }
  let con : Contrib := { src := .core 0, move := none, part := 0, ring := some 0, step := 5, op := 1, etype := 1, stype := 1, addr := 0, bits := 0, chaff := false, pads := [], txn := none }
  let m : Move := { con.asMove 7 with st := .remote, waits := 2 }
  { s with link := { s.link with txns := [txn0 move core] }, moves := [m], time := { s.time with elapsed := 1000000 } }
set_option maxRecDepth 100000 in
theorem wit_responses : (∀ x ∈ stUp.link.txns, x.txn ≠ 9) ∧ (∀ x ∈ [(some 7, none), (none, some 0)],
    (stTxn x.1 x.2).link.txns.find? (fun y => y.txn = 9) = some (txn0 x.1 x.2) ∧ (∀ m ∈ (stTxn x.1 x.2).moves, m.id = 7 ∧ 2 ≤ m.waits) ∧
    ((stTxn x.1 x.2).core 0).sync = some (cmdOf 5 1 0) ∧ (((stTxn x.1 x.2).ring 0).openStep 5).isSome = true ∧
    0 + (stTxn x.1 x.2).rspNs ≤ (stTxn x.1 x.2).time.elapsed) ∧
    arrives (stTxn none (some 0)) 2 (pktOf (7, 2, 0, 0, 0, 0) 0 0) 7 0 := by decide +kernel
theorem wit_timeout_early : let s : State := { stTxn none (some 0) with time := State.reset.time }
    s.time.elapsed < 0 + s.rspNs ∧ s.link.txns.find? (fun y => y.txn = 9) = some (txn0 none (some 0)) := by decide +kernel
/-- A sweep that waits for module 5 alone. -/
def sweep0 : Sweep := { todo := [], asked := [5], differ := none }
def stSweep : State := { stUp with link := { stUp.link with sweep := some sweep0 } }
set_option maxRecDepth 100000 in
theorem wit_sweep : stSweep.link.sweep = some sweep0 ∧ arrives stSweep 2 (pktOf (8, 3, 2, 0, 0, 3) 0 0) 8 2 ∧
    (Packet.parse (pktOf (8, 3, 2, 0, 0, 3) 0 0)).src = 5 ∧
    stUp.link.breaks.contains (0, 0, 0) = false ∧ ({ stUp with link := { stUp.link with breaks := [(0, 0, 0)] } } : State).link.breaks.contains (0, 0, 0) = true := by
  decide +kernel
/-- A packet in the router for module 7 or this one, with or without an entry whose PORT_A is 2 or 3 and PORT_B none. -/
def hop0 (k : Packet) : Hop := { inp := ownInput, pkt := k, up := false }
def stRoute (e : Nat) (k : Packet) : State :=
  { stUp with link := { stUp.link with queue := [hop0 k], routes := if e = 0 then [] else [(0, 0xC0000000), (7, e)] } }
def k7 : Packet := pktTo 1 0 0 7 0x100 8 0 []
def k0 : Packet := pktTo 1 0 0 0 0x4014004000 8 0 []
theorem wit_route : (stRoute 0x802F0000 k7).nextHop = some (hop0 k7, 2) ∧ (stRoute 0x802F0000 k7).portUp 2 = true ∧
    ((stRoute 0x802F0000 k7).port 2).out = [] ∧ ((stRoute 0x802F0000 k7).port 2).credit { k7 with hops := 62 } = some false ∧
    bitAt 0x802F0000 31 = true ∧ bitAt 0x802F0000 30 = false ∧ bitAt 0x802F0000 15 = false ∧ k7.hops ≠ 0 ∧ bitAt 0xC0000000 30 = true ∧
    (stRoute 0x802F0000 k0).nextHop = some (hop0 k0, 12) ∧ ((stRoute 0x802F0000 k0).remoteCheck k0 8 false).1 = 0 ∧
    (stRoute 0 k7).nextHop = some (hop0 k7, 13) ∧ (stRoute 0 { k7 with cls := 2 }).nextHop = some (hop0 { k7 with cls := 2 }, 13) ∧
    (stRoute 0x802F0000 { k7 with hops := 0 }).way { k7 with hops := 0 } = some 13 ∧
    (stRoute 0x803F0000 k7).nextHop = none ∧ (stRoute 0 k7).fget F.routeCtl_ACTIVE 0 ≤ 1 ∧ (stRoute 0 k7).link.sweep = none ∧ stSweep.link.sweep ≠ none := by
  decide +kernel
/-- Without credit the packet waits. -/
def stNoCredit : State := (stRoute 0x802F0000 k7).setPort 2 { PortSt.fresh with dedUsed := [(0, 16)], shUsed := 12032 }
theorem wit_no_credit : (stNoCredit.port 2).credit { k7 with hops := 62 } = none ∧ (stNoCredit.port 2).out = [] := by decide
/-- A packet that came in by port 2 behind another of its class to its module, and one alone. -/
theorem wit_behind : let s : State := { stUp with link := { stUp.link with queue := [{ hop0 k0 with inp := 2 }] } }
    ¬ comesHere s 2 k0 ∧ comesHere stUp 2 k0 ∧ k0.dst = 0 := by decide +kernel
/-- The signal of step 5 of a re-shard job of partition 0 is aborted. -/
theorem wit_abort_reshard :
    let j : RshJob := { part := 0, st := .waiting, src := 0, dst := 1, entries := [], peers := [0, 7], sem := 0x4014004000, semBase := 0, timeout := 0, plan := [], fills := [], tag := 0, places := [], openFills := [], held := 0, moves := [], abort := 0, since := 0 }
    let x : Txn := { txn0 none none with pkt := { pktTo 3 0 0 7 0x4014004000 8 0 [] with srcId := srcIdOf .reshard }, ring := none }
    let s : State := { stUp with link := { stUp.link with txns := [x] }, rsh := [j] }
    s.link.txns.find? (fun y => y.txn = 9) = some x ∧ x.ring = none ∧ x.move = none ∧ x.pkt.srcId = srcIdOf .reshard ∧ j.sem = x.pkt.addr ∧
    arrives s 2 (pktOf (7, 2, 0, 0, 0, 0) 0 0) 7 0 := by decide +kernel
/-- A scratchpad bin that a SIGNAL of another module reaches, and one of the cache. -/
theorem wit_signal_bin : let s := (stUp.fset F.grnBinCfg_MODE 20 2)
    s.inScratchBin 0x4014004000 = true ∧ s.inScratchBin 0x4000000000 = false ∧ (0x4014004000 : Nat) % 8 = 0 ∧ s.goneAt 0x4014004000 = false := by decide +kernel

end Sys2Proof.Tests
end

