-- ==== Sys2Proof/Tests/WPower.lean ====
section
/-!
SUPPORT. Tests/WPower.lean: concrete states and operands that meet the hypotheses of the statements.
-/
namespace Sys2Proof.Tests

open Sys2Proof.Machine
set_option Elab.async false

theorem wit_levels : State.reset.fget F.plCtl_CEIL 0 < 7 ∧ 7 ≤ (State.reset.fset F.plCtl_CEIL 0 7).fget F.plCtl_CEIL 0 ∧ State.reset.sleep = 0 ∧
    State.reset.flag F.sleepStat_ENTERING 0 = false ∧ (State.reset.fset F.plCtl_AUTO 0 0).flag F.plCtl_AUTO 0 = false ∧ State.reset.fget F.plStat_LEVEL 0 < 8 ∧
    (let s : State := { ((State.reset.fset F.plCtl_CEIL 0 4).fset F.plStat_MOVING 0 1).fset F.plCtl_AUTO 0 1 with power := { State.reset.power with floor := 3 } }
     1 ≤ s.fget F.plCtl_CEIL 0 ∧ s.fget F.plCtl_CEIL 0 < 8 ∧ 1 ≤ s.power.floor ∧ s.flag F.plStat_MOVING 0 = true ∧
     ({ s with power := { s.power with volt := 700 } } : State).voltNow = (levelOf (s.fget F.plStat_LEVEL 0)).1 ∧
     ({ s with power := { s.power with volt := 850 } } : State).voltNow ≠ (levelOf (s.fget F.plStat_LEVEL 0)).1 ∧ s.flag F.plCtl_AUTO 0 = true ∧
     80 * 65536 ≤ s.power.dutyAvg * 100 ∧ ({ s.power with dutyAvg := 45000 } : PowerSt).dutyAvg * 100 < 80 * 65536 ∧
     s.power.floor < s.fget F.plCtl_CEIL 0 ∧ (s.fset F.plCtl_REQ 0 2).fget F.plCtl_REQ 0 < s.fget F.plCtl_CEIL 0) := by decide
theorem wit_phases : let s := State.reset.fset F.plotPhase_SPARES_FREE 1 8
    s.power.fallow.contains (1 * 96 + 5) = false ∧ 1 ≤ s.fget F.plotPhase_SPARES_FREE 1 ∧ s.fget F.plotPhase_SPARES_FREE 1 < 9 ∧
    (s.fset F.plotPhase_SPARES_FREE 1 0).fget F.plotPhase_SPARES_FREE 1 = 0 ∧
    (let u : State := { s with power := { s.power with fallow := [101], starting := [(1, 2)] } }
     u.power.fallow.contains (1 * 96 + 5) = true ∧ alFind u.power.starting 1 = some 2) ∧ s.flag F.plStat_MOVING 0 = false ∧
    s.flag F.sleepStat_EXITING 0 = false ∧ alFind s.power.starting 1 = none ∧
    s.sleep < 2 ∧ 2 ≤ (s.fset F.sleepStat_STATE 0 2).sleep ∧ s.crackQuiet 1 3 (s.time.elapsed - 100000) = true := by decide
/-- Core 5 throttled, at a temperature. -/
def stThrottle (t : Nat) : State :=
  { State.reset.fset F.coreTemp_TEMP 5 t with power := { State.reset.power with throttle := [(5, 32768)] } }
theorem wit_thermal : State.reset.flag F.coreTemp_SUBST 5 = false ∧ State.reset.power.broken.contains 5 = false ∧ alFind State.reset.power.throttle 5 = none ∧
    State.reset.power.tripped = false ∧ State.reset.isFailsafe = false ∧
    (∀ t ∈ [500, 576, 600], alFind (stThrottle t).power.throttle 5 = some 32768 ∧ (stThrottle t).fget F.coreTemp_TEMP 5 = t) ∧
    500 < tempOf 103 ∧ tempOf 103 ≤ 576 ∧ 576 ≤ tempOf 105 ∧ tempOf 105 < 600 := by decide
theorem wit_diode_subst : let s : State := { State.reset with power := { State.reset.power with broken := [6] } }
    s.power.broken.contains 6 = true ∧
    (s.neighbours 6).filter (fun k => s.flag F.coreTemp_VALID k && !s.flag F.coreTemp_SUBST k && !s.power.broken.contains k) = [] ∧
    alFind s.spare (fieldOfCore 6) = none ∧
    (let u := s.fset F.coreTemp_VALID 7 1
     (u.neighbours 6).filter (fun k => u.flag F.coreTemp_VALID k && !u.flag F.coreTemp_SUBST k && !u.power.broken.contains k) ≠ []) ∧
    ({ State.reset.power with coolAt := some 0 } : PowerSt).coolAt = some 0 := by decide +kernel
/-- An entry into a state, with blocks that have accepted. -/
def sleepEntry0 (target : Nat) (committed : Bool) : SleepEntry := { target := target, accepted := [], committed := committed, since := 0 }
def stEntry (target : Nat) (committed : Bool) : State :=
  { stReady.fset F.sleepStat_ENTERING 0 1 with power := { State.reset.power with sleep := some (sleepEntry0 target committed) },
                                               time := { State.reset.time with elapsed := 10000000 } }
theorem wit_sleep : stReady.flag F.sleepStat_ENTERING 0 = false ∧ stReady.flag F.sleepStat_EXITING 0 = false ∧ stReady.sleep < 1 ∧ stReady.isReady = true ∧
    State.reset.isReady = false ∧ (stEntry 1 false).flag F.sleepStat_ENTERING 0 = true ∧ (stReady.fset F.sleepStat_STATE 0 2).sleep = 2 ∧
    (stReady.fset F.sleepStat_STATE 0 3).sleep = 3 ∧ (stReady.fset F.sleepStat_EXITING 0 1).flag F.sleepStat_EXITING 0 = true ∧
    (∀ b ∈ [false, true], (stEntry 2 b).power.sleep = some (sleepEntry0 2 b)) ∧
    0 + (if (stEntry 2 false).fget F.sleepCtl_WAIT_MS 0 = 0 then 10 else (stEntry 2 false).fget F.sleepCtl_WAIT_MS 0) * 1000000 ≤
      (stEntry 2 false).time.elapsed := by decide +kernel
theorem wit_sleep_answers : (stEntry 2 false).sleepAnswer 1 2 = .accept ∧
    ({ stEntry 2 false with ret := { State.reset.ret with job := some { value := 0, scope := 1, row := 0, bank := 0, target := 0 } } } : State).sleepAnswer 3 2 = .delay ∧
    ((stEntry 2 false).fset F.portStat_STATE 3 3).sleepAnswer 6 2 = .refuse := by decide +kernel
theorem wit_budget_awake : State.reset.sleep < 2 ∧ (State.reset.fset F.sleepStat_STATE 0 1).sleep < 2 := by decide
/-- A core with a broken diode whose neighbour still reads, not yet substituted, and the same with its substitution under way. -/
theorem wit_diode_wait : let s : State := { State.reset with power := { State.reset.power with broken := [6] } }
    alFind s.subst 6 = none ∧ (∀ x ∈ s.subst, fieldOfCore x.1 ≠ fieldOfCore 6) ∧ (alFind ({ s with subst := [(6, 0)] } : State).subst 6).isSome = true := by decide
/-- The end of an exit from S2, with a retirement that waited. -/
theorem wit_sleep_exit : let j : RetJob := { value := 0, scope := 1, row := 0, bank := 0, target := 0 }
    let s : State := { (State.reset.fset F.sleepStat_STATE 0 2).fset F.sleepStat_EXITING 0 1 with ret := { State.reset.ret with waiting := some j } }
    s.flag F.sleepStat_EXITING 0 = true ∧ s.sleep = 2 ∧ s.ret.waiting = some j := by decide

end Sys2Proof.Tests
end

