-- ==== Sys2Proof/Tests/WRings.lean ====
section
/-!
SUPPORT. Tests/WRings.lean: concrete states and operands that meet the hypotheses of the statements.
-/
namespace Sys2Proof.Tests

open Sys2Proof.Machine
set_option Elab.async false

/-- Ring 0 of partition 0, enabled, of a module that is ready with its host link up; its ring in the scratchpad, bin 20, holds one entry at its head;
`open_`: step 5 is open. -/
def stRing (e : List Byte) (open_ : List OpenStep) : State :=
  let s := ((((((State.reset.fset F.grnBinCfg_MODE 20 2).fset F.grnBinCfg_OWNER 20 0).fset F.ringCfg_ENABLE 0 1).fset F.ringBase_LOC 0 1).fset
    F.bringStatus_STATE 0 3).fset F.descTable_COUNT 0 4).fset F.descTable_OFFSET 0 2
  ({ s with parts := [(0, part0)], host := { s.host with link := true }, rings := [(0, { Ring.fresh with tail := 1, steps := open_ })],
            descs := [0, 1, 2, 3] } : State).wr (binBase 20) e
/-- An entry of a type with its body from byte 12; its step is 5. -/
def entry0 (type : Nat) (body : List Byte) : List Byte :=
  withCheck (toLE 1 type ++ toLE 7 0x22001100 ++ toLE 4 5 ++ (body ++ toLE (50 - body.length) 0))
def semBody (op sub : Nat) : List Byte := toLE 4 (op + 256 * sub) ++ toLE 8 0x4014004000 ++ toLE 8 7
set_option maxRecDepth 100000 in
theorem wit_entries : ∀ x ∈ [(6, []), (2, []), (4, toLE 2 0x101), (7, toLE 4 99)], ∀ o ∈ [[], [OpenStep.fresh 5 ⟨6, 0, false⟩]],
    entryHead (stRing (entry0 x.1 x.2) o) 0 [] (entry0 x.1 x.2) x.1 ∧
    ((stRing (entry0 x.1 x.2) o).ring 0).orderOk (entry0 x.1 x.2) = true ∧ entRsvd (entry0 x.1 x.2) 16 = false ∧
    ((stRing (entry0 x.1 x.2) o).ring 0).replay = none ∧ ((stRing (entry0 x.1 x.2) o).ring 0).held = [] := by decide +kernel
set_option maxRecDepth 100000 in
theorem wit_entry_bodies : entRsvd (entry0 6 []) 12 = false ∧ entRsvd (entry0 4 (toLE 2 0x101)) 14 = false ∧ fieldB (entry0 4 (toLE 2 0x101)) 12 1 = 1 ∧
    fieldB (entry0 4 (toLE 2 0x101)) 13 1 ≤ 15 := by decide +kernel
set_option maxRecDepth 100000 in
theorem wit_sem_entries : ∀ x ∈ [((1 : Nat), (0 : Nat)), (1, 1), (2, 0), (2, 1)],
    let e := entry0 5 (semBody x.1 x.2)
    entryHead (stRing e []) 0 [] e 5 ∧ (stRing e []).semEntryCheck 0 e (x.1 = 2) = 0 ∧ (stRing e []).feOpen 0 ((stRing e []).feSeq 0) true true true false = false ∧
    fieldB e 16 7 / 0x10000000000 = (stRing e []).selfId ∧ (stRing e []).goneAt (localOf (fieldB e 16 7)) = false := by decide +kernel
/-- A COPY of one element of the scratchpad: its source and destination lie in bin 20, their descriptors at 8 KiB of it. -/
def copyEntry : List Byte := entry0 3 (toLE 4 0 ++ toLE 2 3 ++ toLE 2 3)
def stCopyEntry : State := (stRing copyEntry []).wr (binBase 20 + 8192) moveTable
set_option maxRecDepth 100000 in
theorem wit_move_entry : entryHead stCopyEntry 0 [] copyEntry 3 ∧ (stCopyEntry.ring 0).orderOk copyEntry = true ∧ entRsvd copyEntry 46 = false ∧
    zeroB copyEntry 14 2 = true ∧ moveRsvd 0 0 (sliceB copyEntry 16 30) = false ∧
    (match stCopyEntry.moveCheck none 0 0 0 (sliceB copyEntry 16 30) with | .ok _ _ _ _ _ _ _ => true | _ => false) = true ∧ stCopyEntry.moves = [] := by
  decide +kernel
/-- A DISPATCH of `count` cores from core 2. -/
def dispatch0 (count : Nat) : List Byte := entry0 1 (toLE 4 0 ++ toLE 2 2 ++ toLE 2 count ++ toLE 4 0xFFFF)
set_option maxRecDepth 100000 in
theorem wit_dispatch : ∀ c ∈ [0, 1, 22, 23], let e := dispatch0 c
    entryHead (stRing e []) 0 [] e 1 ∧ ((stRing e []).ring 0).orderOk e = true ∧ entRsvd e 60 = false ∧ zeroB e 22 2 = true ∧ fieldB e 20 2 = 0xFFFF ∧
    fieldB e 56 4 = 0 ∧ fieldB e 16 2 = 2 ∧ fieldB e 18 2 = c ∧ (stRing e []).partOf 0 = some part0 ∧ part0.first ≤ 2 ∧
    (2 + c ≤ part0.first + part0.count ↔ c ≤ 22) ∧ ((stRing e []).core 3).queue.length < 32 ∧ (stRing e []).isFailsafe = false := by decide +kernel
set_option maxRecDepth 100000 in
theorem wit_unlisted : ∀ k ∈ [0, 8], (stRing (entry0 k []) []).ringOpen 0 = true ∧ (stRing (entry0 k []) []).entryTurn 0 = true ∧
    (stRing (entry0 k []) []).entryAt 0 [] = some (entry0 k []) ∧ checkOk (entry0 k []) 64 = true ∧ entType (entry0 k []) = k := by decide +kernel
theorem wit_registers : let s := stRing [] []
    s.flag F.ringCfg_ENABLE 0 = true ∧ s.flag F.ringCfg_ENABLE 1 = false ∧ s.flag F.ringState_IDLE 1 = true ∧ s.isReady = true ∧
    bitAt (0x1001#64).toNat 0 = true ∧ bitsOf (0x1001#64).toNat 30 34 = 0 ∧ bitsOf (0x40000001#64).toNat 30 34 ≠ 0 ∧ (s.ring 1).held = [] ∧
    (s.fset F.ringState_HALTED 1 1).flag F.ringState_HALTED 1 = true ∧ s.isUnready = false ∧ (s.partOf 0).isSome = true ∧ s.ringSize 0 = 64 ∧
    (64 + 128 - s.fget F.ringHead_HEAD 0) % 128 = 64 ∧ (65 + 128 - s.fget F.ringHead_HEAD 0) % 128 = 65 := by decide +kernel
theorem wit_commit : let s := stRing [] [openStep0]
    (s.ring 0).steps = [openStep0] ∧ s.canCommit 0 openStep0 = true ∧ s.isFailsafe = false ∧ openStep0.chaff = false ∧ openStep0.live = [] ∧ s.rsh = [] ∧
    (stRing [] [{ openStep0 with chaff := true }]).canCommit 0 { openStep0 with chaff := true } = true := by decide +kernel
/-- The ring in host memory with the link down, the same with a record held, and an error of a work item of its step. -/
def stDown (held : List (Nat × CplRec)) (lost : Option Nat) : State :=
  let s := (stRing [] [openStep0]).fset F.ringBase_LOC 0 0
  { s with host := { s.host with link := false }, rings := [(0, { Ring.fresh with tail := 1, steps := [openStep0], held := held, lost := lost })],
           errQ := [{ ring := 0, step := 5, status := 0x0305, core := 3, soft := 9, entry := none, item := true }] }
def cpl0 : CplRec := { step := 4, status := 0, type := 2, warn := false, irq := false, entry := 0, core := 0xFFFF, detail := 0 }
theorem wit_failures : (stDown [] none).ringOpen 0 = true ∧ (stDown [] none).ringOff 0 = none ∧ ((stDown [] none).ring 0).fetched = none ∧
    ((stDown [(0, cpl0)] (some 0x0B08)).ring 0).held = [(0, cpl0)] ∧ ((stDown [(0, cpl0)] (some 0x0B08)).ring 0).lost = some 0x0B08 ∧
    ((stDown [] none).ring 0).openStep 5 = some openStep0 ∧ openStep0.st = .run := by decide +kernel
/-- An error that reaches a step which is stopped for a replay. -/
theorem wit_error_stopped : let o := { openStep0 with st := .stopped false }
    let s := { stDown [] none with rings := [(0, { Ring.fresh with steps := [o] })] }
    s.errQ.length = 1 ∧ (s.ring 0).openStep 5 = some o ∧ o.st ≠ .run := by decide +kernel
set_option maxRecDepth 100000 in
/-- A MARK whose record cannot be written, the completion ring lying in host memory with the link down. -/
theorem wit_mark_lost : let e := entry0 7 (toLE 4 99)
    let s := { stRing e [] with host := { (stRing e []).host with link := false } }
    entryHead s 0 [] e 7 ∧ entRsvd e 16 = false ∧ (s.ring 0).replay = none ∧ (s.ring 0).held = [] ∧ s.cplUsed 0 < s.cplSize 0 ∧ s.cplBlocked 0 = 0x0B08 := by
  decide +kernel
/-- A record held for want of room is written when the runtime has consumed 64 of them. -/
theorem wit_held : let s := { (stRing [] []).fset F.cplTail_TAIL 0 64 with rings := [(0, { Ring.fresh with held := [(0, cpl0)] })] }
    (s.ring 0).held = [(0, cpl0)] ∧ (s.ring 0).lost = none ∧ s.cplWaits 0 = true ∧ (s.fset F.cplHead_HEAD 0 64).cplWaits 0 = false ∧
    (s.fset F.cplHead_HEAD 0 64).cplBlocked 0 = 0 := by decide +kernel
/-- A descriptor command of partition 0 that a doorbell waits for. -/
theorem wit_descJob : let s := { stRing [] [] with descJobs := [{ part := 0, code := 0x080D }] }
    (s.partOf 0).isSome = true ∧ s.descJobs.filter (fun x => x.part = 0) = [{ part := 0, code := 0x080D }] := by decide +kernel
set_option maxRecDepth 100000 in
/-- A MOVE entry that names a descriptor outside the table: its status. -/
theorem wit_move_entry_status : let e := entry0 3 (toLE 4 0 ++ toLE 2 9 ++ toLE 2 3)
    let s := (stRing e []).wr (binBase 20 + 8192) moveTable
    entryHead s 0 [] e 3 ∧ fieldB e 12 1 ≤ 4 ∧ entRsvd e 46 = false ∧ zeroB e 14 2 = true ∧ moveRsvd 0 0 (sliceB e 16 30) = false ∧
    s.moveCheck none 0 0 0 (sliceB e 16 30) = .status 0x0702 := by decide +kernel
set_option maxRecDepth 100000 in
/-- Nothing of the front end keeps the COPY of `wit_move_entry`. -/
theorem wit_move_entry_free : match stCopyEntry.moveCheck none 0 0 0 (sliceB copyEntry 16 30) with
    | .ok a b x _ _ _ _ => stCopyEntry.moveHeld 0 (stCopyEntry.memSpans none 0 0 (some a) (some b) x) = false
    | _ => False := by rfl
set_option maxRecDepth 100000 in
/-- A SIGNAL entry to module 1, which has a route. -/
theorem wit_sem_entry_far : let e := entry0 5 (toLE 4 1 ++ toLE 8 0x14014004000 ++ toLE 8 7)
    let s := { stRing e [] with link := { (stRing e []).link with routes := [(1, 0x80000000)] } }
    entryHead s 0 [] e 5 ∧ s.semEntryCheck 0 e false = 0 ∧ s.feOpen 0 (s.feSeq 0) true true true false = false ∧
    fieldB e 16 7 / 0x10000000000 ≠ s.selfId := by decide +kernel

end Sys2Proof.Tests
end

