-- ==== Sys2Proof/Tests/WTables.lean ====
section
/-!
SUPPORT. Tests/WTables.lean: concrete states and operands that meet the hypotheses of the statements.
-/
namespace Sys2Proof.Tests

open Sys2Proof.Machine
set_option Elab.async false

/-- Partition 0 with bin 20 as scratchpad, a table of four descriptors, its rings off. -/
def stPart : State :=
  let s := ((State.reset.fset F.grnBinCfg_MODE 20 2).fset F.grnBinCfg_OWNER 20 0).fset F.descTable_COUNT 0 4
  { s with parts := [(0, part0)], strmOn := true }
/-- The same with a descriptor of core scratch staged. -/
def stStaged : State := { stPart with stage := (((desc1 1 2 0x400).zip (List.range 128)).filter fun x => x.1 ≠ 0).map fun x => (0x80 + x.2, x.1) }
set_option maxRecDepth 100000 in
theorem wit_desc : stPart.ringsBusy 0 = false ∧ (stPart.fset F.ringCfg_ENABLE 3 1).ringsBusy 0 = true ∧ stPart.spHas 0 0 (4 * 128) = true ∧
    stPart.spHas 0 (0x1000 * 4096) (4 * 128) = false ∧ stStaged.descIndexCheck 0 3 = 0 ∧ stStaged.descIndexCheck 0 4 = 0x080C ∧
    stStaged.descCheck 0 (stStaged.stageBytes 0 0x80 128) = 0 ∧ stPart.descCheck 0 (stPart.stageBytes 0 0x80 128) ≠ 0 ∧
    stStaged.spAddr 0 (0 * 4096 + 3 * 128) = some 0x4014000180 ∧ stStaged.goneAt 0x4014000180 = false := by decide +kernel
theorem wit_band : let s := (State.reset.fset F.coreTemp_VALID 7 1).fset F.coreTemp_TEMP 7 520
    s.flag F.coreTemp_VALID 7 = true ∧ alFind s.regs (F.coreTemp_VALID.key 7) ≠ none ∧ s.power.broken.contains 7 = false ∧ bandOf (s.layer0 7) = 3 := by
  decide +kernel
theorem wit_bins : let s := stPart
    s.fget F.grnBinCfg_MODE 21 = 0 ∧ s.flag F.grnBinCfg_BUSY 21 = false ∧ (s.partOf 0).isSome = true ∧ s.ret.gone = [] ∧
    s.fget F.grnBinCfg_MODE 20 = 2 ∧ s.fget F.grnBinCfg_SLOT 20 + 1 = s.binsOf (s.fget F.grnBinCfg_OWNER 20) ∧ s.ringsOff 0 = true ∧
    s.flag F.grnCacheStat_FLUSH 0 = false ∧ s.fget F.grnBinCfg_MODE 0 = 1 ∧ s.flag F.grnBinCfg_BUSY 0 = false := by decide +kernel
theorem wit_bins_busy : let s := (stPart.fset F.grnBinCfg_BUSY 21 1).fset F.grnCacheStat_FLUSH 1 0
    s.flag F.grnBinCfg_BUSY 21 = true ∧ s.flag F.grnCacheStat_FLUSH 0 = false ∧ (s.fset F.grnCacheStat_FLUSH 0 1).flag F.grnCacheStat_FLUSH 0 = true := by
  decide +kernel
theorem wit_seedstore : 0x8000000000 + 4 ≤ 0x8000000000 + State.reset.partNo.capacity ∧ State.reset.ssChaff ≤ 65536 ∧
    State.reset.goneAt 0x8000000000 = false ∧ State.reset.partNo.capacity + 0x8000000000 < 0xF000000000 := by decide +kernel
/-- Context 3 LIVE in partition 0 under model 5 (held by `h`), model 5 RESIDENT there; the stage asks for a stream of model 5. -/
def ctx0 (h : Bool) : Ctx := { Ctx.free with state := 1, part := 0, model := 5, limit := 9, holdBy := h }
def mdlBytes0 (state streams : Nat) : List Byte :=
  withCheck (toLE 1 state ++ toLE 3 0 ++ toLE 2 0 ++ toLE 2 1 ++ toLE 8 0x100000000000 ++ toLE 4 1 ++ toLE 4 0 ++ toLE 8 streams ++ toLE 222 0)
def stStreams (h : Bool) (streams : Nat) : State :=
  let s := (stPart.fset F.strmUse_QUOTA 0 4).fset F.strmUse_OWNED 0 1
  { (s.setCtx 3 (ctx0 h)).wr (mdlAddr 5) (mdlBytes0 1 streams) with stage := [(0x182, 5), (0x18C, 9)], roles := [(0, 32)] }
set_option maxRecDepth 100000 in
theorem wit_streams : let s := stStreams false 0
    s.isFailsafe = false ∧ s.strmOn = true ∧ s.ctxIntact 3 = true ∧ s.ctxIntact 4 = true ∧ s.goneAt (ctxAddr 3) = false ∧ (s.ctx 4).state = 0 ∧
    (s.ctx 3).state = 1 ∧ (s.ctx 3).ownedBy 0 = true ∧ (s.ctx 3).ownedBy 1 = false ∧ (s.ctx 3).holdBy = false ∧ (s.ctx 3).holdJob = false ∧
    ((stStreams true 0).ctx 3).holdBy = true := by decide +kernel
set_option maxRecDepth 100000 in
theorem wit_models : let s := stStreams false 0
    stageOk (s.stageBytes 0 0x180 64) = true ∧ fieldB (s.stageBytes 0 0x180 64) 2 2 = 5 ∧ s.mdlIntact 5 = true ∧ s.mdlResident 0 5 = true ∧
    s.fget F.strmUse_OWNED 0 < s.fget F.strmUse_QUOTA 0 ∧ s.mdlInUse 0 5 = false ∧ (stStreams false 1).mdlInUse 0 5 = true ∧ (s.mdl 6).state = 0 ∧
    s.mdlIntact 6 = true ∧ s.goneAt (mdlAddr 6) = false := by decide +kernel
/-- A descriptor staged for INSTALL: a role image, the module list at offset 0 of the scratchpad, this module (ID 0) its rank 0. -/
def mdlStage0 : List Byte := withCheck (toLE 4 0 ++ toLE 2 0 ++ toLE 2 1 ++ toLE 8 0 ++ toLE 4 1 ++ toLE 234 0)
def stInstall : State := { stStreams false 0 with stage := ((mdlStage0.zip (List.range 256)).filter fun x => x.1 ≠ 0).map fun x => (0x200 + x.2, x.1) }
set_option maxRecDepth 100000 in
theorem wit_install : stInstall.mdlStageOk 0 (stInstall.stageBytes 0 0x200 256) = true := by decide +kernel
/-- A job of partition 0 in a state; a semaphore that reads 7. -/
def job0 (st : RshSt) (base : Nat) : RshJob :=
  { part := 0, st := st, src := 5, dst := 5, entries := [], peers := [0], sem := 0x4014004000, semBase := base, timeout := 10, plan := [], fills := [],
    tag := 0, places := [], openFills := [], held := 0, moves := [], abort := 0, since := 0 }
def stRsh (l : List RshJob) : State :=
  { (stPart.wr 0x4014004000 [7]) with rsh := l, time := { stPart.time with elapsed := 10000 } }
theorem wit_reshard : let s := stRsh [job0 .waiting 6]
    s.rshOf 0 = some (job0 .waiting 6) ∧ s.semValue 0x4014004000 = 7 ∧ 6 + 1 ≤ s.semValue 0x4014004000 ∧ s.semValue 0x4014004000 ≠ poison ∧
    s.semValue 0x4014004000 < 7 + 1 ∧ 0 + 10 * 1000 ≤ s.time.elapsed ∧ s.rshOpen (job0 .moving 6) = false ∧ s.rshBlocked = false ∧ s.isFailsafe = false ∧
    (stRsh [job0 .queued 6]).rsh.find? (fun j => j.st = .queued) = some (job0 .queued 6) ∧ (stRsh [job0 .queued 6]).rshPlaced < 4 ∧
    s.flag F.rshStatus_RUNNING 0 = false ∧ (s.fset F.rshStatus_RUNNING 0 1).flag F.rshStatus_RUNNING 0 = true := by decide +kernel
/-- A copy of the job that is not performed. -/
theorem wit_reshard_open : let s := { stRsh [] with moves := [{ rshMove 4 0 with waits := 1 }] }
    s.rshOpen { job0 .moving 6 with moves := [4] } = true := by decide +kernel
theorem wit_reshard_code : (stPart.fset F.rshStatus_DONE 0 0).rshCheck 0 = .code 0x20 := by decide +kernel
/-- A job record at 0x1000 of the scratchpad that passes every check: one stream, context 3, from model 5 to itself, a CONTIG map at 0x2000 with its
placement entry at 0x3000; four other jobs have their places. -/
def stJob : State :=
  let s := (stPart.setCtx 3 (ctx0 false)).wr (mdlAddr 5)
    (withCheck (toLE 1 1 ++ toLE 1 0 ++ toLE 2 1 ++ toLE 2 0 ++ toLE 2 1 ++ toLE 4 0x2000 ++ toLE 4 0 ++ toLE 4 1 ++ toLE 4 0 ++ toLE 4 1 ++ toLE 226 0))
  let s := s.wr (binBase 20 + 0x1000) (withCheck (toLE 2 1 ++ toLE 2 5 ++ toLE 2 5 ++ toLE 2 1 ++ toLE 4 1 ++ toLE 4 10 ++ toLE 4 0x4000 ++ toLE 42 0) ++ toLE 8 3)
  let s := s.wr (binBase 20 + 0x2000) (withCheck (toLE 1 2 ++ toLE 1 2 ++ toLE 2 1 ++ toLE 2 1 ++ toLE 2 1 ++ toLE 4 4 ++ toLE 4 1 ++ toLE 4 1 ++ toLE 4 1 ++
    toLE 4 0x3000 ++ toLE 34 0))
  let s := (s.wr (binBase 20 + 0x3007) [1]).fset F.rshJob_OFFSET 0 0x40
  { s with rsh := List.replicate 4 { job0 .waiting 0 with part := 1 } }
set_option maxRecDepth 100000 in
theorem wit_reshard_ok : (match (stJob.fset F.rshStatus_DONE 0 0).rshCheck 0 with | .ok _ => true | .code _ => false) = true ∧ 4 ≤ stJob.rshPlaced ∧
    stJob.rshBlocked = false ∧ stJob.flag F.rshStatus_RUNNING 0 = false := by decide +kernel
set_option maxRecDepth 100000 in
theorem wit_desc_busy : stStaged.flag F.descStatus_BUSY 0 = false ∧ (stStaged.fset F.descStatus_BUSY 0 1).flag F.descStatus_BUSY 0 = true := by decide +kernel
theorem wit_bin_done : let s := (stPart.fset F.grnBinCfg_BUSY 21 1).fset F.grnCacheStat_FLUSH 0 1
    s.binFlushes 21 = false ∧ s.fget F.grnBinCfg_MODE 21 = 0 ∧ ({ s with binMoves := [(21, 1)] } : State).binFlushes 21 = true := by decide +kernel
set_option maxRecDepth 100000 in
theorem wit_stream_stage : ({ stPart with strmOn := false } : State).strmOn = false ∧ stageOk (stPart.stageBytes 0 0x180 64) = false := by decide +kernel
set_option maxRecDepth 100000 in
/-- A job at START with every CHECK intact, and a place free; one all of whose copies are performed, one of whose copies failed. -/
theorem wit_reshard_intact : rshIntact stJob 0 ∧ (∀ x ∈ stJob.rsh, x.st ≠ .queued) ∧
    ({ stJob with rsh := [] } : State).rshPlaced < 4 ∧ rshIntact { stJob with rsh := [] } 0 := by unfold rshIntact; decide +kernel
theorem wit_reshard_done : (stRsh [job0 .moving 6]).rshOf 0 = some (job0 .moving 6) ∧ (job0 .moving 6).abort = 0 ∧
    (stRsh [job0 .moving 6]).selfId ∈ (job0 .moving 6).peers ∧
    (let s := { stRsh [{ job0 .moving 6 with moves := [4] }] with moves := [{ rshMove 4 0 with err := 0x0813 }] }
     ∃ m ∈ s.moves, m.id = 4 ∧ m.err ≠ 0 ∧ m.msgs = 0 ∧ m.waits = 0) := by decide +kernel

end Sys2Proof.Tests
end

