-- ==== Sys2Proof/Tests/WTiming.lean ====
section
/-!
SUPPORT. Tests/WTiming.lean: concrete states and operands that meet the hypotheses of the statements.
-/
namespace Sys2Proof.Tests

open Sys2Proof.Machine
set_option Elab.async false

/-- The module 2 ms after bring-up, with field 7 up since 1 µs. -/
def stBrought : State :=
  { State.reset with
    fieldsUp := some 1000, time := { State.reset.time with elapsed := 2000000 },
    power := { State.reset.power with recal := some 1500000, falls := [(5, 2)] } }
/-- A recalibration that is due, one that is not yet, and one band that has fallen. -/
theorem wit_recal : stBrought.power.recal = some 1500000 ∧ 1500000 ≤ stBrought.time.elapsed ∧ stBrought.power.falls = [(5, 2)] ∧
    stBrought.time.elapsed < 2000001 ∧ State.reset.power.recal = none := by decide +kernel
/-- A window of field 7 has ended; in a field that is being reset there is none. -/
theorem wit_window : stBrought.windowFrom 7 = some 1000 ∧ 1000 + 10000 ≤ stBrought.time.elapsed ∧
    (stBrought.setField 7 { stBrought.field 7 with resetting := true }).windowFrom 7 = none ∧
    (stBrought.setField 7 { stBrought.field 7 with window := 1995000 }).windowFrom 7 = some 1995000 ∧ stBrought.time.elapsed < 1995000 + 10000 := by decide +kernel
/-- One valid reading of the field gives an expected rate. -/
theorem wit_rate : ((stBrought.fset F.coreTemp_VALID 170 1).setField 7 { stBrought.field 7 with hot := some 0 }).expectedRate 7 ≠ none := by decide +kernel
theorem wit_slow : let s := State.reset.setField 7 { State.reset.field 7 with slow := 100, resetting := true }
    100 ≤ (s.field 7).slow ∧ (s.field 7).resetting = true := by decide
/-- A handshake of the array of core 3, of step 5 of ring 0, raised 51 µs ago, and one raised 50 µs ago. -/
def hs0 (faces : Option Watch) (raised : Nat) : Handshake := { port := .array 3, faces := faces, ring := some 0, step := 5, raised := raised }
theorem wit_stall : stBrought.timed (hs0 none 1949000) = true ∧ stBrought.boundAt 1949000 * 1000 < stBrought.openNs (hs0 none 1949000) ∧
    stBrought.openNs (hs0 none 1950000) ≤ stBrought.boundAt 1950000 * 1000 ∧ stBrought.timed (hs0 none 999) = false := by decide +kernel
/-- A time in which the field was halted does not count: the same handshake is not open past its bound. -/
theorem test_stall_paused : let s : State := { stBrought with pauses := [{ of := .field 0, from_ := 1960000, until_ := some 1970000 }] }
    s.openNs (hs0 none 1949000) = 41000 ∧ (s.pauses.map fun p => p.concerns (.array 24)) = [false] := by decide +kernel
/-- A bound written later leaves a request that was raised before it. -/
theorem test_bound_at : let s : State := { stBrought with bounds := [(1960000, 100)] }
    s.boundAt 1959999 = 50 ∧ s.boundAt 1960000 = 100 := by decide +kernel
/-- A report 2 µs old, primary or secondary, of field 0, step 5 of ring 0 being open. -/
def stStall (sec : Bool) : State :=
  { stOpen with stalls := [{ hs := hs0 none 0, secondary := sec, at_ := 100 }], time := { stOpen.time with elapsed := 2100 } }
theorem wit_stalls : ∀ b ∈ [false, true], (stStall b).stalls = [{ hs := hs0 none 0, secondary := b, at_ := 100 }] ∧ 100 + 2000 ≤ (stStall b).time.elapsed ∧
    watchOf (hs0 none 0).port = .field 0 ∧ (stStall b).stallStep (hs0 none 0) = some (0, 5) ∧ ((stStall b).ring 0).openStep 5 = some openStep0 := by decide +kernel

end Sys2Proof.Tests
end

namespace Sys2Proof.Machine

/-- The region of every address of the module-local map, one equation for each row of Table 0-7. -/
theorem State.region_vault (s : State) {a : Nat} (h : a ≤ 0x35FFFFFFFF) : s.region a = .vault (a / 0x800000) (a % 0x800000) :=
  if_pos (by omega)

theorem State.region_bin (s : State) {a : Nat} (hl : 0x4000000000 ≤ a) (hu : a ≤ 0x403FFFFFFF) :
    s.region a = .bin ((a - 0x4000000000) / 0x1000000) (a % 0x1000000) := by
  rw [State.region, if_neg (by omega), if_pos (by omega)]

theorem State.region_seedstore_window (s : State) {a : Nat} (hl : 0x8000000000 ≤ a) (hu : a ≤ 0x9FFFFFFFFF) :
    s.region a = if a - 0x8000000000 < s.partNo.capacity then .seedstore (a - 0x8000000000) else .unmapped := by
  rw [State.region, if_neg (by omega), if_neg (by omega)]
  by_cases hc : a - 0x8000000000 < s.partNo.capacity
  · rw [if_pos hc, if_pos (by omega)]
  · rw [if_neg hc, if_neg (by omega), if_neg (by omega)]

theorem State.region_registers (s : State) {a : Nat} (hl : 0xF000000000 ≤ a) (hu : a ≤ 0xF00FFFFFFF) :
    s.region a = .registers (a - 0xF000000000) := by
  have hcap : s.partNo.capacity ≤ 0x2000000000 := by cases s.partNo <;> decide
  rw [State.region, if_neg (by omega), if_neg (by omega), if_neg (by omega), if_pos (by omega)]

/-- The addresses between the regions of Table 0-7. -/
def inGap (a : Nat) : Prop :=
  (0x3600000000 ≤ a ∧ a ≤ 0x3FFFFFFFFF) ∨ (0x4040000000 ≤ a ∧ a ≤ 0x7FFFFFFFFF) ∨
    (0xA000000000 ≤ a ∧ a ≤ 0xEFFFFFFFFF) ∨ 0xF010000000 ≤ a

theorem State.region_gap (s : State) {a : Nat} (h : inGap a) : s.region a = .unmapped := by
  have hcap : s.partNo.capacity ≤ 0x2000000000 := by cases s.partNo <;> decide
  unfold inGap at h
  rw [State.region, if_neg (by omega), if_neg (by omega), if_neg (by omega), if_neg (by omega)]

/-- Settles O59: each row of Table 0-7 by its equation of `State.region`. -/
theorem addressMap : Obligations.AddressMap := by
  intro s a _
  refine ⟨s.region_vault, fun hl hu => s.region_gap (.inl ⟨hl, hu⟩), fun hl hu => ?_,
    fun hl hu => s.region_gap (.inr (.inl ⟨hl, hu⟩)), fun hl hu => ?_, fun hl hu => s.region_gap (.inr (.inr (.inl ⟨hl, hu⟩))),
    s.region_registers, fun hl => s.region_gap (.inr (.inr (.inr hl))), fun n i hn hi => ⟨rfl, ?_⟩⟩
  · exact ⟨_, _, s.region_bin hl hu, by omega, by omega, by omega⟩
  · rw [s.region_seedstore_window hl hu]
    cases s.partNo <;> rfl
  · have hdiv : (n * 0x800000 + i) / 0x800000 = n := by omega
    have hmod : (n * 0x800000 + i) % 0x800000 = i := by omega
    rw [s.region_vault (by omega), hdiv, hmod]

end Sys2Proof.Machine

namespace Sys2Proof.Machine
open Host (Outcome)

/-! ## What leaves memory as it was

The state functions and the commands that write no byte of memory, file by file of the model: a state function `f` by `f_mem`, a command `execX` by
`execX_leavesMem`. Each follows from the lemmas about the functions it calls. -/

/-- A choice between two states has the memory of the one chosen. -/
@[simp] theorem State.ite_mem (c : Prop) [Decidable c] (a b : State) : (if c then a else b).mem = if c then a.mem else b.mem :=
  apply_ite State.mem c a b

/-- A loop whose every turn leaves memory leaves memory. -/
@[simp] theorem State.foldl_mem {α : Type} {f : State → α → State} (hf : ∀ s x, (f s x).mem = s.mem) (l : List α) (s : State) :
    (l.foldl f s).mem = s.mem := by
  induction l generalizing s with
  | nil => rfl
  | cons x l ih => rw [List.foldl_cons, ih, hf]

/-- The outcome, where it is a next state, has the memory of `s`. -/
def leavesMem (s : State) (o : Outcome State Fault Refusal) : Prop := ∀ t, o = .next t → t.mem = s.mem

@[simp] theorem leavesMem_next (s t : State) : leavesMem s (.next t) ↔ t.mem = s.mem := by
  simp [leavesMem]

@[simp] theorem leavesMem_ite (s : State) (c : Prop) [Decidable c] (a b : Outcome State Fault Refusal) :
    leavesMem s (if c then a else b) ↔ if c then leavesMem s a else leavesMem s b := by split <;> rfl

@[simp] theorem State.after_mem {s : State} {o : Outcome State Fault Refusal} (h : leavesMem s o) : (s.after o).mem = s.mem := by
  cases o with
  | next t => exact h t rfl
  | fault | refused => rfl

/-! ### Machine/Ops.lean -/

@[simp] theorem State.writeField_mem (s : State) (f : Fld) (i w : Nat) : (s.writeField f i w).mem = s.mem := by
  unfold State.writeField
  split <;> rfl

@[simp] theorem State.writeReg_mem (s : State) (r : RegDef) (i w : Nat) : (s.writeReg r i w).mem = s.mem := by simp [State.writeReg]
@[simp] theorem State.event_mem (s : State) (kind : Nat) (body : List Nat) : (s.event kind body).mem = s.mem := by simp [State.event]
@[simp] theorem State.almanac_mem (s : State) (kind : Nat) (body : List Nat) : (s.almanac kind body).mem = s.mem := by simp [State.almanac]
@[simp] theorem State.faultRecord_mem (s : State) (f : FaultRec) : (s.faultRecord f).mem = s.mem := by simp [State.faultRecord]

@[simp] theorem State.onStep_mem (s : State) (ring : Option Nat) (step : Nat) (f : OpenStep → OpenStep) : (s.onStep ring step f).mem = s.mem := by
  unfold State.onStep
  split <;> rfl

@[simp] theorem State.consumeChaff_mem (s : State) (ring : Option Nat) (step : Nat) : (s.consumeChaff ring step).mem = s.mem := by
  simp [State.consumeChaff]

@[simp] theorem State.warning_mem (s : State) (core : Nat) (status : Nat) : (s.warning core status).mem = s.mem := by
  unfold State.warning
  dsimp only
  repeat' split
  all_goals simp

@[simp] theorem State.ringState_mem (s : State) (r : Nat) : (s.ringState r).mem = s.mem := by simp [State.ringState]

/-! ### Machine/EccOps.lean -/

@[simp] theorem State.chaffMade_mem (s : State) (addr : Nat) (part : Nat) : (s.chaffMade addr part).mem = s.mem := by simp [State.chaffMade]
@[simp] theorem State.countEcc_mem (s : State) (addr : Nat) (uncorr : Bool) : (s.countEcc addr uncorr).mem = s.mem := by simp [State.countEcc]

@[simp] theorem State.eccWorse_mem (s : State) (w place : Nat) : (s.eccWorse w place).mem = s.mem := by
  unfold State.eccWorse
  repeat' split
  all_goals simp

@[simp] theorem State.eccEvent_mem (s : State) (w : Nat) (uncorr : Bool) (place src : Nat) : (s.eccEvent w uncorr place src).mem = s.mem := by
  simp [State.eccEvent]

/-! ### Machine/DescOps.lean -/

@[simp] theorem State.endReleases_mem (s : State) : (s.endReleases).mem = s.mem := by
  refine State.foldl_mem (fun s x => ?_) _ _
  split
  · rfl
  · split <;> rfl

@[simp] theorem State.descLose_mem (s : State) (p : Nat) : (s.descLose p).mem = s.mem := by rfl

/-! ### Machine/CoreOps.lean -/

@[simp] theorem State.noteStep_mem (s : State) (ring : Option Nat) (step : Nat) (core : Option Nat) (addr len : Nat) :
    (s.noteStep ring step core addr len).mem = s.mem := by
  unfold State.noteStep
  split <;> simp

@[simp] theorem State.noteItem_mem (s : State) (n : Nat) (scratch : Bool) (addr len : Nat) : (s.noteItem n scratch addr len).mem = s.mem := by
  unfold State.noteItem
  split <;> simp

@[simp] theorem State.lateError_mem (s : State) (r step : Nat) : (s.lateError r step).mem = s.mem := by rfl

@[simp] theorem State.itemError_mem (s : State) (n status soft : Nat) : (s.itemError n status soft).mem = s.mem := by
  unfold State.itemError
  dsimp only
  repeat' split
  all_goals simp

@[simp] theorem State.endItem_mem (s : State) (n status soft : Nat) : (s.endItem n status soft).mem = s.mem := by simp [State.endItem]
@[simp] theorem State.failCmd_mem (s : State) (n status : Nat) : (s.failCmd n status).mem = s.mem := by simp [State.failCmd]

@[simp] theorem State.itemChaff_mem (s : State) (n : Nat) : (s.itemChaff n).mem = s.mem := by
  unfold State.itemChaff
  split <;> simp

@[simp] theorem State.frameFault_mem (s : State) (n : Nat) (c : Cmd) : (s.frameFault n c).mem = s.mem := by
  unfold State.frameFault
  split <;> simp

@[simp] theorem State.coreCount_mem (s : State) (n i k : Nat) : (s.coreCount n i k).mem = s.mem := by rfl

/-! ### Machine/Units.lean -/

@[simp] theorem State.takeEnv_mem (s : State) (n : Nat) (c : Cmd) : (s.takeEnv n c).2.mem = s.mem := by simp [State.takeEnv]

/-- Taking a command off its queue leaves memory (R628). -/
theorem State.take_done_mem {s t : State} {n q opMax op : Nat} {mine : Cmd → Bool} {len : Nat}
    (h : s.take n q opMax op mine len = .done t) : t.mem = s.mem := by
  unfold State.take at h
  dsimp only at h
  repeat' split at h
  all_goals cases h
  all_goals simp
theorem State.take_ok_mem {s t : State} {n q opMax op : Nat} {mine : Cmd → Bool} {len : Nat} {d : Cmd} {f : List Byte}
    (h : s.take n q opMax op mine len = .ok t d f) : t.mem = s.mem := by
  unfold State.take at h
  dsimp only at h
  repeat' split at h
  all_goals cases h
  all_goals rfl

@[simp] theorem State.verified_mem (s : State) (n : Nat) (c : Cmd) (ok : Bool) (row col bank : Nat) :
    (s.verified n c ok row col bank).mem = s.mem := by
  simp [State.verified]

@[simp] theorem State.suspect_mem (s : State) (n : Nat) (v : Verify) : (s.suspect n v).mem = s.mem := by simp [State.suspect]

/-! ### Machine/Onc.lean -/

@[simp] theorem State.enter_mem (s : State) (inp : Nat) (p : Packet) : (s.enter inp p).mem = s.mem := by rfl
@[simp] theorem State.route_mem (s : State) (p : Packet) : (s.route p).mem = s.mem := by rfl

@[simp] theorem State.request_mem (s : State) (src : Src) (p : Packet) (move core ring : Option Nat) (step : Nat) (entry : Option ErrPlace) :
    (s.request src p move core ring step entry).mem = s.mem := by
  simp [State.request]

@[simp] theorem State.sendMsg_mem (s : State) (m : Msg) (mesh : Bool) : (s.sendMsg m mesh).mem = s.mem := by rfl

@[simp] theorem State.ssTouch_mem (s : State) (line : Nat) (write whole : Bool) (run : Nat) : (s.ssTouch line write whole run).mem = s.mem := by
  unfold State.ssTouch
  split <;> simp

@[simp] theorem State.ssTouchN_mem (s : State) (a n : Nat) (write : Bool) (run : Nat) : (s.ssTouchN a n write run).mem = s.mem := by
  simp [State.ssTouchN]

@[simp] theorem State.recall_mem (s : State) (a n : Nat) : (s.recall a n).mem = s.mem := by simp [State.recall]
@[simp] theorem State.reach_mem (s : State) (a n : Nat) (write : Bool) (run : Nat) : (s.reach a n write run).mem = s.mem := by simp [State.reach]

/-! ### Machine/MoveOps.lean -/

@[simp] theorem State.onMove_mem (s : State) (id : Nat) (f : Move → Move) : (s.onMove id f).mem = s.mem := by rfl
@[simp] theorem State.requestReads_mem (s : State) (m : Move) (as_ : List Nat) : (s.requestReads m as_).mem = s.mem := by simp [State.requestReads]

@[simp] theorem State.noteCells_mem (s : State) (ring : Option Nat) (step : Nat) (cells : List (Nat × Byte × Bool)) :
    (s.noteCells ring step cells).mem = s.mem := by
  simp [State.noteCells]

@[simp] theorem State.reachReads_mem (s : State) (run : Nat) (as_ : List Nat) : (s.reachReads run as_).mem = s.mem := by simp [State.reachReads]
@[simp] theorem State.countReads_mem (s : State) (as_ : List Nat) : (s.countReads as_).mem = s.mem := by simp [State.countReads]

@[simp] theorem State.moveChaff_mem (s : State) (m : Move) : (s.moveChaff m).mem = s.mem := by
  unfold State.moveChaff
  split <;> simp

/-! ### Machine/SyncOps.lean -/

@[simp] theorem State.ledger_mem (s : State) (ring : Option Nat) (step : Nat) (e : LedgerEnt) : (s.ledger ring step e).mem = s.mem := by
  simp [State.ledger]

@[simp] theorem State.signalRemote_mem (s : State) (src : Src) (core ring : Option Nat) (step addr : Nat) (set : Bool) (v : Nat)
    (chaff : Bool) (entry : Option ErrPlace) :
    (s.signalRemote src core ring step addr set v chaff entry).mem = s.mem := by
  simp [State.signalRemote]

/-! ### Machine/HostOps.lean -/

@[simp] theorem State.msix_mem (s : State) (fn v : Nat) : (s.msix fn v).mem = s.mem := by simp [State.msix]
@[simp] theorem State.raiseVector_mem (s : State) (fn v : Nat) : (s.raiseVector fn v).mem = s.mem := by simp [State.raiseVector]
@[simp] theorem State.linkDown_mem (s : State) : (s.linkDown).mem = s.mem := by rfl

@[simp] theorem State.refreshFn_mem (s : State) (fn : Nat) : (s.refreshFn fn).mem = s.mem := by
  simp only [State.refreshFn]
  split
  · rfl
  · rw [State.raiseVector_mem]
    exact State.foldl_mem (f := fun s f => s.fset f _ _) (fun _ _ => rfl) _ _

@[simp] theorem State.refreshHif_mem (s : State) : (s.refreshHif).mem = s.mem := by simp [State.refreshHif]
@[simp] theorem State.hostRefuse_mem (s : State) (kind fn addr : Nat) : (s.hostRefuse kind fn addr).mem = s.mem := by simp [State.hostRefuse]

/-! ### Machine/ReshardOps.lean -/

@[simp] theorem State.onRsh_mem (s : State) (p : Nat) (f : RshJob → RshJob) : (s.onRsh p f).mem = s.mem := by rfl
@[simp] theorem State.rshEnd_mem (s : State) (p code : Nat) : (s.rshEnd p code).mem = s.mem := by rfl

/-! ### Machine/LinkOps.lean -/

@[simp] theorem State.setPort_mem (s : State) (p : Nat) (x : PortSt) : (s.setPort p x).mem = s.mem := by rfl
@[simp] theorem State.onPort_mem (s : State) (p : Nat) (f : PortSt → PortSt) : (s.onPort p f).mem = s.mem := by rfl
@[simp] theorem State.sendControl_mem (s : State) (p : Nat) : (s.sendControl p).mem = s.mem := by rfl
@[simp] theorem State.sendPacket_mem (s : State) (port : Nat) (t : TxPkt) : (s.sendPacket port t).mem = s.mem := by simp [State.sendPacket]

@[simp] theorem State.sendOn_mem (s : State) (port : Nat) (p : Packet) (shared : Bool) : (s.sendOn port p shared).mem = s.mem := by
  simp [State.sendOn]

@[simp] theorem State.portTurn_mem (s : State) (port : Nat) : (s.portTurn port).mem = s.mem := by
  unfold State.portTurn
  dsimp only
  repeat' split
  all_goals simp

@[simp] theorem State.setPortState_mem (s : State) (p st : Nat) : (s.setPortState p st).mem = s.mem := by simp [State.setPortState]
@[simp] theorem State.faultIdleTx_mem (s : State) (p reason : Nat) : (s.faultIdleTx p reason).mem = s.mem := by simp [State.faultIdleTx]
@[simp] theorem State.train_mem (s : State) (p : Nat) : (s.train p).mem = s.mem := by simp [State.train]

@[simp] theorem State.startPort_mem (s : State) (p : Nat) : (s.startPort p).mem = s.mem := by
  unfold State.startPort
  split <;> simp

@[simp] theorem State.allFaultIdle_mem (s : State) (reason : Nat) : (s.allFaultIdle reason).mem = s.mem := by simp [State.allFaultIdle]

@[simp] theorem State.sweepFill_mem (s : State) : (s.sweepFill).mem = s.mem := by
  unfold State.sweepFill
  repeat' split
  all_goals simp

@[simp] theorem State.sweepBegin_mem (s : State) : (s.sweepBegin).mem = s.mem := by simp [State.sweepBegin]
@[simp] theorem State.sweepBreak_mem (s : State) : (s.sweepBreak).mem = s.mem := by simp [State.sweepBreak]
@[simp] theorem State.linkFault_mem (s : State) (ring step port : Nat) : (s.linkFault ring step port).mem = s.mem := by rfl
@[simp] theorem State.rshLost_mem (s : State) (t : Txn) : (s.rshLost t).mem = s.mem := by simp [State.rshLost]
@[simp] theorem State.rshBreak_mem (s : State) : (s.rshBreak).mem = s.mem := by rfl
@[simp] theorem State.breakHere_mem (s : State) (noRoute : Bool) (port : Nat) : (s.breakHere noRoute port).mem = s.mem := by simp [State.breakHere]

@[simp] theorem State.flood_mem (s : State) (module port epoch : Nat) (noRoute : Bool) (except : Option Nat) :
    (s.flood module port epoch noRoute except).mem = s.mem := by
  simp [State.flood]

@[simp] theorem State.breakPort_mem (s : State) (p st reason : Nat) : (s.breakPort p st reason).mem = s.mem := by simp [State.breakPort]

/-! ### Machine/SafeOps.lean -/

@[simp] theorem State.stopItems_mem (s : State) (ring : Nat) (steps : List Nat) (dead : Bool) : (s.stopItems ring steps dead).mem = s.mem := by
  simp [State.stopItems]

@[simp] theorem State.abandon_mem (s : State) : (s.abandon).mem = s.mem := by simp [State.abandon]
@[simp] theorem State.failSafe_mem (s : State) (cause what : Nat) : (s.failSafe cause what).mem = s.mem := by simp [State.failSafe]
@[simp] theorem State.ctrlFail_mem (s : State) (addr tag : Nat) : (s.ctrlFail addr tag).mem = s.mem := by simp [State.ctrlFail]
@[simp] theorem State.storeFail_mem (s : State) : (s.storeFail).mem = s.mem := by simp [State.storeFail]
@[simp] theorem State.ctxVerify_mem (s : State) (k : Nat) : (s.ctxVerify k).mem = s.mem := by simp [State.ctxVerify]

@[simp] theorem State.mdlVerify_mem (s : State) (i : Nat) : (s.mdlVerify i).mem = s.mem := by
  simp [State.mdlVerify]

/-! ### Machine/RingOps.lean -/

@[simp] theorem State.halt_mem (s : State) (r code step : Nat) : (s.halt r code step).mem = s.mem := by rfl

/-! ### Machine/ThermalOps.lean -/

@[simp] theorem State.onPower_mem (s : State) (f : PowerSt → PowerSt) : (s.onPower f).mem = s.mem := by rfl
@[simp] theorem State.applyLevel_mem (s : State) : (s.applyLevel).mem = s.mem := by simp [State.applyLevel]
@[simp] theorem State.powerEvent_mem (s : State) (kind plot detail : Nat) : (s.powerEvent kind plot detail).mem = s.mem := by simp [State.powerEvent]
@[simp] theorem State.hulBudget_mem (s : State) (p : Nat) : (s.hulBudget p).mem = s.mem := by rfl
@[simp] theorem State.windowHot_mem (s : State) (n t : Nat) : (s.windowHot n t).mem = s.mem := by rfl

@[simp] theorem State.recalibrate_mem (s : State) (t : Nat) : (s.recalibrate t).mem = s.mem := by
  refine State.foldl_mem (fun _ _ => ?_) _ _
  rfl

@[simp] theorem State.setBound_mem (s : State) (v : Nat) : (s.setBound v).mem = s.mem := by rfl
@[simp] theorem State.pause_mem (s : State) (p : PauseOf) : (s.pause p).mem = s.mem := by simp [State.pause]
@[simp] theorem State.unpause_mem (s : State) (p : PauseOf) : (s.unpause p).mem = s.mem := by rfl

@[simp] theorem State.resetField_mem (s : State) (fid : Nat) : (s.resetField fid).mem = s.mem := by
  simp only [State.resetField, State.setField_mem, State.unpause_mem, State.fset_mem, State.endReleases_mem]
  refine State.foldl_mem (fun s n => ?_) _ _
  rw [State.setCore_mem]
  split <;> simp

@[simp] theorem State.wakeUp_mem (s : State) : (s.wakeUp).mem = s.mem := by simp [State.wakeUp]
@[simp] theorem State.endEntry_mem (s : State) : (s.endEntry).mem = s.mem := by simp [State.endEntry]
@[simp] theorem State.shedLoad_mem (s : State) : (s.shedLoad).mem = s.mem := by simp [State.shedLoad]
@[simp] theorem State.almRegs_mem (s : State) : (s.almRegs).mem = s.mem := by rfl
@[simp] theorem State.almWrite_mem (s : State) (r : AlmRec) : (s.almWrite r).mem = s.mem := by rfl
@[simp] theorem State.emergencyFlash_mem (s : State) : (s.emergencyFlash).mem = s.mem := by simp [State.emergencyFlash]

/-! ### Machine/Links.lean -/

@[simp] theorem State.setHeadland_mem (s : State) (plot : Nat) (x : HlSt) : (s.setHeadland plot x).mem = s.mem := by rfl

@[simp] theorem State.laneSwap_mem (s : State) (plot : Nat) (inward : Bool) (lane : Nat) : (s.laneSwap plot inward lane).1.mem = s.mem := by
  unfold State.laneSwap
  dsimp only
  repeat' split
  all_goals simp

@[simp] theorem execPortEnable_leavesMem (port : PortId) (s : State) : leavesMem s (execPortEnable port s) := by simp [execPortEnable]
@[simp] theorem execPortRetrain_leavesMem (port : PortId) (s : State) : leavesMem s (execPortRetrain port s) := by simp [execPortRetrain]

@[simp] theorem execPortForceFi_leavesMem (port : PortId) (on : Bool) (s : State) : leavesMem s (execPortForceFi port on s) := by
  simp [execPortForceFi]

@[simp] theorem execPartnerSignalDetect_leavesMem (port : PortId) (rxBad txBad : BitVec 9) (s : State) :
    leavesMem s (execPartnerSignalDetect port rxBad txBad s) := by
  simp [execPartnerSignalDetect]

@[simp] theorem execTrainingDone_leavesMem (port : PortId) (s : State) : leavesMem s (execTrainingDone port s) := by simp [execTrainingDone]
@[simp] theorem State.replayFrom_mem (s : State) (p i : Nat) : (s.replayFrom p i).mem = s.mem := by simp [State.replayFrom]
@[simp] theorem State.takeControl_mem (s : State) (p : Nat) (flit : List Byte) : (s.takeControl p flit).mem = s.mem := by simp [State.takeControl]
@[simp] theorem execHello_leavesMem (port : PortId) (flit : List Byte) (s : State) : leavesMem s (execHello port flit s) := by simp [execHello]
@[simp] theorem State.portTurns_mem (s : State) (p n : Nat) : (s.portTurns p n).mem = s.mem := by
  induction n generalizing s with
  | zero => rfl
  | succ n ih => rw [State.portTurns, ih, State.portTurn_mem]

@[simp] theorem execIdle_leavesMem (port : PortId) (flit : List Byte) (fixed : Nat) (s : State) : leavesMem s (execIdle port flit fixed s) := by
  simp [execIdle]

@[simp] theorem execFaultIdle_leavesMem (port : PortId) (flit : List Byte) (s : State) : leavesMem s (execFaultIdle port flit s) := by
  simp [execFaultIdle]

@[simp] theorem execLossOfLock_leavesMem (port : PortId) (s : State) : leavesMem s (execLossOfLock port s) := by simp [execLossOfLock]

@[simp] theorem execRetryTimeout_leavesMem (port : PortId) (s : State) : leavesMem s (execRetryTimeout port s) := by
  unfold execRetryTimeout
  dsimp only
  repeat' split
  all_goals simp

@[simp] theorem State.sendNak_mem (s : State) (p : Nat) : (s.sendNak p).mem = s.mem := by simp [State.sendNak]

@[simp] theorem execFecUncorrectable_leavesMem (port : PortId) (s : State) : leavesMem s (execFecUncorrectable port s) := by
  simp [execFecUncorrectable]

/-! ### Machine/Replay.lean -/

@[simp] theorem State.noteFault_mem (s : State) (u : Nat) : (s.noteFault u).mem = s.mem := by rfl

@[simp] theorem State.makePermanent_mem (s : State) (n cause : Nat) : (s.makePermanent n cause).1.mem = s.mem := by
  unfold State.makePermanent
  dsimp only
  repeat' split
  all_goals simp

@[simp] theorem State.charge_mem (s : State) (f : FaultRec) (again : Nat → Bool) : (s.charge f again).1.mem = s.mem := by
  unfold State.charge
  dsimp only
  repeat' split
  all_goals simp

@[simp] theorem State.stopFrom_mem (s : State) (r step : Nat) : (s.stopFrom r step).mem = s.mem := by simp [State.stopFrom]
@[simp] theorem execReplayQuiesced_leavesMem (ring : RingId) (s : State) : leavesMem s (execReplayQuiesced ring s) := by simp [execReplayQuiesced]
@[simp] theorem State.ownDiode_mem (s : State) (n : Nat) : (s.ownDiode n).mem = s.mem := by rfl

@[simp] theorem execCoreSubstitutionDone_leavesMem (core : CoreId) (s : State) : leavesMem s (execCoreSubstitutionDone core s) := by
  unfold execCoreSubstitutionDone
  dsimp only
  repeat' split
  all_goals simp

/-! ### Machine/Reshard.lean -/

@[simp] theorem State.rshVerify_mem (s : State) (p : Nat) : (s.rshVerify p).mem = s.mem := by
  -- The equation is taken of the function, not of its value: the kernel would evaluate the command list at START.
  suffices hfun : ∀ f, f = State.rshVerify → (f s p).mem = s.mem from hfun _ rfl
  intro f hf
  delta State.rshVerify at hf
  have h := congrFun (congrFun hf s) p
  beta_reduce at h
  split at h
  · rw [h]
  · split at h
    rw [h, State.foldl_mem State.ctxVerify_mem, State.foldl_mem State.mdlVerify_mem]

/-! ### Machine/Rings.lean -/

@[simp] theorem execRingBaseWrite_leavesMem (ring : RingId) (cpl : Bool) (val : W64) (s : State) :
    leavesMem s (execRingBaseWrite ring cpl val s) := by
  simp [execRingBaseWrite]

@[simp] theorem State.zeroIndices_mem (s : State) (r : Nat) : (s.zeroIndices r).mem = s.mem := by rfl

@[simp] theorem execRingCfgWrite_leavesMem (ring : RingId) (val : W32) (s : State) : leavesMem s (execRingCfgWrite ring val s) := by
  simp [execRingCfgWrite]

@[simp] theorem State.descDone_mem (s : State) (mine : Nat → Bool) : (s.descDone mine).mem = s.mem := by
  refine State.foldl_mem (fun _ _ => ?_) _ _
  rfl

@[simp] theorem State.doorbell_mem (s : State) (ring : RingId) (val : W32) : (s.doorbell ring val).mem = s.mem := by simp [State.doorbell]

/-! ### Machine/ResetOps.lean -/

@[simp] theorem State.seedRegs_mem (s : State) : (s.seedRegs).mem = s.mem := by simp [State.seedRegs]

@[simp] theorem State.journalWrite_mem (s : State) (j : Journal) : (s.journalWrite j).mem = s.mem := by
  simp [State.journalWrite]

@[simp] theorem State.keepFlash_mem (s : State) (base : State) : (s.keepFlash base).mem = base.mem := rfl
@[simp] theorem State.warmPort_mem (s : State) (old : State) (p : Nat) : (s.warmPort old p).mem = s.mem := by simp [State.warmPort]

/-! ### Machine/BlockReset.lean -/

@[simp] theorem State.blkResult_mem (s : State) (r : Nat) : (s.blkResult r).mem = s.mem := by rfl

@[simp] theorem State.blkStart_mem (s : State) (kind : Nat) (good : Bool) (unit : Nat) : (s.blkStart kind good unit).mem = s.mem := by
  simp [State.blkStart]

@[simp] theorem execBlkRstField_leavesMem (target : BitVec 24) (s : State) : leavesMem s (execBlkRstField target s) := by simp [execBlkRstField]
@[simp] theorem execBlkRstOncon_leavesMem (target : BitVec 24) (s : State) : leavesMem s (execBlkRstOncon target s) := by simp [execBlkRstOncon]
@[simp] theorem execBlkRstHost_leavesMem (target : BitVec 24) (s : State) : leavesMem s (execBlkRstHost target s) := by simp [execBlkRstHost]

@[simp] theorem execBlkRstSeedstore_leavesMem (target : BitVec 24) (s : State) : leavesMem s (execBlkRstSeedstore target s) := by
  simp [execBlkRstSeedstore]

@[simp] theorem execBlkRstReshard_leavesMem (target : BitVec 24) (s : State) : leavesMem s (execBlkRstReshard target s) :=
  by simp [execBlkRstReshard]
@[simp] theorem State.blkOncon_mem (s : State) : (s.blkOncon).mem = s.mem := by simp [State.blkOncon]
@[simp] theorem State.blkSeedstore_mem (s : State) (forced : Bool) : (s.blkSeedstore forced).mem = s.mem := by simp [State.blkSeedstore]

/-! ### Machine/Dci.lean -/

@[simp] theorem State.advance_mem (s : State) (n : Nat) : (s.advance n).mem = s.mem := by simp [State.advance]
@[simp] theorem State.jump_mem (s : State) (n : Nat) (target : Int) : (s.jump n target).mem = s.mem := by simp [State.jump]

@[simp] theorem State.cpFault_mem (s : State) (n : Nat) : (s.cpFault n).mem = s.mem := by
  unfold State.cpFault
  dsimp only
  repeat' split
  all_goals simp

@[simp] theorem State.result_mem (s : State) (n : Nat) (rd : Reg) (v : W64) (chaff : Bool) : (s.result n rd v chaff).mem = s.mem := by
  simp [State.result]

@[simp] theorem State.alu_mem (s : State) (n : Nat) (rd ra rb : Reg) (f : W64 → W64 → W64) : (s.alu n rd ra rb f).mem = s.mem := by simp [State.alu]

@[simp] theorem State.alui_mem (s : State) (n : Nat) (rd ra : Reg) (imm : Imm) (f : W64 → W64 → W64) : (s.alui n rd ra imm f).mem = s.mem := by
  simp [State.alui]

@[simp] theorem State.illegal_mem (s : State) (n : Nat) : (s.illegal n).mem = s.mem := by simp [State.illegal]
@[simp] theorem State.dci_leavesMem {s : State} {n : Nat} {cp : Bool} {f : State → State} (hf : (f s).mem = s.mem) :
    leavesMem s (s.dci n cp f) := by
  simp [State.dci, hf]

@[simp] theorem execAdd_leavesMem (core : CoreId) (rd ra rb : Reg) (cp : Bool) (s : State) : leavesMem s (execAdd core rd ra rb cp s) := by
  simp [execAdd]

@[simp] theorem execSub_leavesMem (core : CoreId) (rd ra rb : Reg) (cp : Bool) (s : State) : leavesMem s (execSub core rd ra rb cp s) := by
  simp [execSub]

@[simp] theorem execAnd_leavesMem (core : CoreId) (rd ra rb : Reg) (cp : Bool) (s : State) : leavesMem s (execAnd core rd ra rb cp s) := by
  simp [execAnd]

@[simp] theorem execOr_leavesMem (core : CoreId) (rd ra rb : Reg) (cp : Bool) (s : State) : leavesMem s (execOr core rd ra rb cp s) := by
  simp [execOr]

@[simp] theorem execXor_leavesMem (core : CoreId) (rd ra rb : Reg) (cp : Bool) (s : State) : leavesMem s (execXor core rd ra rb cp s) := by
  simp [execXor]

@[simp] theorem execSll_leavesMem (core : CoreId) (rd ra rb : Reg) (cp : Bool) (s : State) : leavesMem s (execSll core rd ra rb cp s) := by
  simp [execSll]

@[simp] theorem execSrl_leavesMem (core : CoreId) (rd ra rb : Reg) (cp : Bool) (s : State) : leavesMem s (execSrl core rd ra rb cp s) := by
  simp [execSrl]

@[simp] theorem execSra_leavesMem (core : CoreId) (rd ra rb : Reg) (cp : Bool) (s : State) : leavesMem s (execSra core rd ra rb cp s) := by
  simp [execSra]

@[simp] theorem execMul_leavesMem (core : CoreId) (rd ra rb : Reg) (cp : Bool) (s : State) : leavesMem s (execMul core rd ra rb cp s) := by
  simp [execMul]

@[simp] theorem execMulhu_leavesMem (core : CoreId) (rd ra rb : Reg) (cp : Bool) (s : State) : leavesMem s (execMulhu core rd ra rb cp s) := by
  simp [execMulhu]

@[simp] theorem execMulh_leavesMem (core : CoreId) (rd ra rb : Reg) (cp : Bool) (s : State) : leavesMem s (execMulh core rd ra rb cp s) := by
  simp [execMulh]

@[simp] theorem execSlt_leavesMem (core : CoreId) (rd ra rb : Reg) (cp : Bool) (s : State) : leavesMem s (execSlt core rd ra rb cp s) := by
  simp [execSlt]

@[simp] theorem execSltu_leavesMem (core : CoreId) (rd ra rb : Reg) (cp : Bool) (s : State) : leavesMem s (execSltu core rd ra rb cp s) := by
  simp [execSltu]

@[simp] theorem execMin_leavesMem (core : CoreId) (rd ra rb : Reg) (cp : Bool) (s : State) : leavesMem s (execMin core rd ra rb cp s) := by
  simp [execMin]

@[simp] theorem execMax_leavesMem (core : CoreId) (rd ra rb : Reg) (cp : Bool) (s : State) : leavesMem s (execMax core rd ra rb cp s) := by
  simp [execMax]

@[simp] theorem execAddi_leavesMem (core : CoreId) (rd ra : Reg) (imm : Imm) (cp : Bool) (s : State) :
    leavesMem s (execAddi core rd ra imm cp s) := by
  simp [execAddi]

@[simp] theorem execAndi_leavesMem (core : CoreId) (rd ra : Reg) (imm : Imm) (cp : Bool) (s : State) :
    leavesMem s (execAndi core rd ra imm cp s) := by
  simp [execAndi]

@[simp] theorem execOri_leavesMem (core : CoreId) (rd ra : Reg) (imm : Imm) (cp : Bool) (s : State) : leavesMem s (execOri core rd ra imm cp s) := by
  simp [execOri]

@[simp] theorem execXori_leavesMem (core : CoreId) (rd ra : Reg) (imm : Imm) (cp : Bool) (s : State) :
    leavesMem s (execXori core rd ra imm cp s) := by
  simp [execXori]

@[simp] theorem State.shifti_mem (s : State) (n : Nat) (rd ra : Reg) (imm : Imm) (f : W64 → Nat → W64) : (s.shifti n rd ra imm f).mem = s.mem := by
  simp [State.shifti]

@[simp] theorem execSlli_leavesMem (core : CoreId) (rd ra : Reg) (imm : Imm) (cp : Bool) (s : State) :
    leavesMem s (execSlli core rd ra imm cp s) := by
  simp [execSlli]

@[simp] theorem execSrli_leavesMem (core : CoreId) (rd ra : Reg) (imm : Imm) (cp : Bool) (s : State) :
    leavesMem s (execSrli core rd ra imm cp s) := by
  simp [execSrli]

@[simp] theorem execSrai_leavesMem (core : CoreId) (rd ra : Reg) (imm : Imm) (cp : Bool) (s : State) :
    leavesMem s (execSrai core rd ra imm cp s) := by
  simp [execSrai]

@[simp] theorem execSlti_leavesMem (core : CoreId) (rd ra : Reg) (imm : Imm) (cp : Bool) (s : State) :
    leavesMem s (execSlti core rd ra imm cp s) := by
  simp [execSlti]

@[simp] theorem execSltiu_leavesMem (core : CoreId) (rd ra : Reg) (imm : Imm) (cp : Bool) (s : State) :
    leavesMem s (execSltiu core rd ra imm cp s) := by
  simp [execSltiu]

@[simp] theorem execLih_leavesMem (core : CoreId) (rd ra : Reg) (imm : Imm) (cp : Bool) (s : State) : leavesMem s (execLih core rd ra imm cp s) := by
  simp [execLih]

@[simp] theorem State.load_mem (s : State) (n : Nat) (rd ra : Reg) (imm : Imm) (k : Nat) (ext : Nat → W64) :
    (s.load n rd ra imm k ext).mem = s.mem := by
  unfold State.load
  dsimp only
  repeat' split
  all_goals simp

@[simp] theorem State.store_mem (s : State) (n : Nat) (rd ra : Reg) (imm : Imm) (k : Nat) : (s.store n rd ra imm k).mem = s.mem := by
  unfold State.store
  dsimp only
  repeat' split
  all_goals simp

@[simp] theorem execLdb_leavesMem (core : CoreId) (rd ra : Reg) (imm : Imm) (cp : Bool) (s : State) : leavesMem s (execLdb core rd ra imm cp s) := by
  simp [execLdb]

@[simp] theorem execLdh_leavesMem (core : CoreId) (rd ra : Reg) (imm : Imm) (cp : Bool) (s : State) : leavesMem s (execLdh core rd ra imm cp s) := by
  simp [execLdh]

@[simp] theorem execLdw_leavesMem (core : CoreId) (rd ra : Reg) (imm : Imm) (cp : Bool) (s : State) : leavesMem s (execLdw core rd ra imm cp s) := by
  simp [execLdw]

@[simp] theorem execLdd_leavesMem (core : CoreId) (rd ra : Reg) (imm : Imm) (cp : Bool) (s : State) : leavesMem s (execLdd core rd ra imm cp s) := by
  simp [execLdd]

@[simp] theorem execLdbu_leavesMem (core : CoreId) (rd ra : Reg) (imm : Imm) (cp : Bool) (s : State) :
    leavesMem s (execLdbu core rd ra imm cp s) := by
  simp [execLdbu]

@[simp] theorem execLdhu_leavesMem (core : CoreId) (rd ra : Reg) (imm : Imm) (cp : Bool) (s : State) :
    leavesMem s (execLdhu core rd ra imm cp s) := by
  simp [execLdhu]

@[simp] theorem execLdwu_leavesMem (core : CoreId) (rd ra : Reg) (imm : Imm) (cp : Bool) (s : State) :
    leavesMem s (execLdwu core rd ra imm cp s) := by
  simp [execLdwu]

@[simp] theorem execStb_leavesMem (core : CoreId) (rd ra : Reg) (imm : Imm) (cp : Bool) (s : State) : leavesMem s (execStb core rd ra imm cp s) := by
  simp [execStb]

@[simp] theorem execSth_leavesMem (core : CoreId) (rd ra : Reg) (imm : Imm) (cp : Bool) (s : State) : leavesMem s (execSth core rd ra imm cp s) := by
  simp [execSth]

@[simp] theorem execStw_leavesMem (core : CoreId) (rd ra : Reg) (imm : Imm) (cp : Bool) (s : State) : leavesMem s (execStw core rd ra imm cp s) := by
  simp [execStw]

@[simp] theorem execStd_leavesMem (core : CoreId) (rd ra : Reg) (imm : Imm) (cp : Bool) (s : State) : leavesMem s (execStd core rd ra imm cp s) := by
  simp [execStd]

@[simp] theorem State.branch_mem (s : State) (n : Nat) (ra rb : Reg) (off : Imm) (f : W64 → W64 → Bool) : (s.branch n ra rb off f).mem = s.mem := by
  simp [State.branch]

@[simp] theorem execBeq_leavesMem (core : CoreId) (ra rb : Reg) (off : Imm) (cp : Bool) (s : State) : leavesMem s (execBeq core ra rb off cp s) := by
  simp [execBeq]

@[simp] theorem execBne_leavesMem (core : CoreId) (ra rb : Reg) (off : Imm) (cp : Bool) (s : State) : leavesMem s (execBne core ra rb off cp s) := by
  simp [execBne]

@[simp] theorem execBlt_leavesMem (core : CoreId) (ra rb : Reg) (off : Imm) (cp : Bool) (s : State) : leavesMem s (execBlt core ra rb off cp s) := by
  simp [execBlt]

@[simp] theorem execBge_leavesMem (core : CoreId) (ra rb : Reg) (off : Imm) (cp : Bool) (s : State) : leavesMem s (execBge core ra rb off cp s) := by
  simp [execBge]

@[simp] theorem execBltu_leavesMem (core : CoreId) (ra rb : Reg) (off : Imm) (cp : Bool) (s : State) :
    leavesMem s (execBltu core ra rb off cp s) := by
  simp [execBltu]

@[simp] theorem execBgeu_leavesMem (core : CoreId) (ra rb : Reg) (off : Imm) (cp : Bool) (s : State) :
    leavesMem s (execBgeu core ra rb off cp s) := by
  simp [execBgeu]

@[simp] theorem State.linkJump_mem (s : State) (n : Nat) (rd : Reg) (chaff : Bool) (target : Int) : (s.linkJump n rd chaff target).mem = s.mem := by
  simp [State.linkJump]

@[simp] theorem execJal_leavesMem (core : CoreId) (rd : Reg) (imm : Imm) (cp : Bool) (s : State) : leavesMem s (execJal core rd imm cp s) := by
  simp [execJal]

@[simp] theorem execJalr_leavesMem (core : CoreId) (rd ra : Reg) (imm : Imm) (cp : Bool) (s : State) :
    leavesMem s (execJalr core rd ra imm cp s) := by
  simp [execJalr]

/-! ### Machine/Control.lean -/

@[simp] theorem execArrayGate_leavesMem (core : CoreId) (s : State) : leavesMem s (execArrayGate core s) := by simp [execArrayGate]

@[simp] theorem execIcacheFill_leavesMem (core : CoreId) (line : Nat) (s : State) : leavesMem s (execIcacheFill core line s) := by
  simp [execIcacheFill]

@[simp] theorem execWorkItemStart_leavesMem (core : CoreId) (s : State) : leavesMem s (execWorkItemStart core s) := by
  unfold execWorkItemStart
  dsimp only
  repeat' split
  all_goals simp

@[simp] theorem State.place_mem (s : State) (n : Nat) (d : Cmd) : (s.place n d).mem = s.mem := by rfl

@[simp] theorem execCmd_leavesMem (core : CoreId) (kind op : BitVec 4) (ra : Reg) (body : Imm) (cp : Bool) (s : State) :
    leavesMem s (execCmd core kind op ra body cp s) := by
  simp [execCmd]

@[simp] theorem execQueueSpaceIssue_leavesMem (core : CoreId) (s : State) : leavesMem s (execQueueSpaceIssue core s) := by
  unfold execQueueSpaceIssue
  dsimp only
  repeat' split
  all_goals simp

@[simp] theorem execWaitq_leavesMem (core : CoreId) (q : BitVec 3) (imm : Imm) (s : State) : leavesMem s (execWaitq core q imm s) := by
  unfold execWaitq
  repeat' split
  all_goals simp

@[simp] theorem execWaitqSatisfied_leavesMem (core : CoreId) (s : State) : leavesMem s (execWaitqSatisfied core s) := by
  unfold execWaitqSatisfied
  dsimp only
  repeat' split
  all_goals simp

@[simp] theorem execFchk_leavesMem (core : CoreId) (ra : Reg) (q : BitVec 3) (imm : Imm) (cp : Bool) (s : State) :
    leavesMem s (execFchk core ra q imm cp s) := by
  unfold execFchk
  dsimp only
  repeat' split
  all_goals simp

@[simp] theorem execCsrr_leavesMem (core : CoreId) (rd : Reg) (imm : Imm) (cp : Bool) (s : State) : leavesMem s (execCsrr core rd imm cp s) := by
  refine State.dci_leavesMem ?_
  split <;> simp

@[simp] theorem execCsrw_leavesMem (core : CoreId) (ra : Reg) (imm : Imm) (cp : Bool) (s : State) : leavesMem s (execCsrw core ra imm cp s) := by
  simp [execCsrw]

@[simp] theorem execErr_leavesMem (core : CoreId) (ra : Reg) (cp : Bool) (s : State) : leavesMem s (execErr core ra cp s) := by simp [execErr]
@[simp] theorem execEndItem_leavesMem (core : CoreId) (s : State) : leavesMem s (execEndItem core s) := by simp [execEndItem]

@[simp] theorem execDciIllegalInstruction_leavesMem (core : CoreId) (word : W64) (s : State) :
    leavesMem s (execDciIllegalInstruction core word s) := by
  simp [execDciIllegalInstruction]

/-! ### Machine/Moves.lean -/

@[simp] theorem execMoveComplete_leavesMem (id : Nat) (s : State) : leavesMem s (execMoveComplete id s) := by
  unfold execMoveComplete
  repeat' split
  all_goals simp

/-! ### Machine/Sync.lean -/

@[simp] theorem State.fenceCmd_mem (s : State) (n type : Nat) : (s.fenceCmd n type).mem = s.mem := by
  unfold State.fenceCmd
  split
  · rfl
  · split
    · rfl
    · next h => exact State.take_done_mem h
    · next h => simp [State.take_ok_mem h]

@[simp] theorem execFenceRel_leavesMem (core : CoreId) (s : State) : leavesMem s (execFenceRel core s) := by simp [execFenceRel]
@[simp] theorem execFenceAcq_leavesMem (core : CoreId) (s : State) : leavesMem s (execFenceAcq core s) := by simp [execFenceAcq]
@[simp] theorem execFenceFull_leavesMem (core : CoreId) (s : State) : leavesMem s (execFenceFull core s) := by simp [execFenceFull]
@[simp] theorem State.endHold_mem (s : State) (r step : Nat) : (s.endHold r step).mem = s.mem := by simp [State.endHold]

@[simp] theorem execFenceComplete_leavesMem (src : Src) (s : State) : leavesMem s (execFenceComplete src s) := by
  unfold execFenceComplete
  repeat' split
  all_goals simp

@[simp] theorem State.waitCmd_mem (s : State) (n : Nat) (eq : Bool) : (s.waitCmd n eq).mem = s.mem := by
  unfold State.waitCmd
  split
  · rfl
  · split
    · rfl
    · next h => exact State.take_done_mem h
    · next h => simp [State.take_ok_mem h]

@[simp] theorem execWaitGe_leavesMem (core : CoreId) (s : State) : leavesMem s (execWaitGe core s) := by simp [execWaitGe]
@[simp] theorem execWaitEq_leavesMem (core : CoreId) (s : State) : leavesMem s (execWaitEq core s) := by simp [execWaitEq]

@[simp] theorem execSemWaitComplete_leavesMem (who : Waiter) (s : State) : leavesMem s (execSemWaitComplete who s) := by
  unfold execSemWaitComplete
  repeat' split
  all_goals simp

@[simp] theorem execSemTimeout_leavesMem (who : Waiter) (s : State) : leavesMem s (execSemTimeout who s) := by
  unfold execSemTimeout
  repeat' split
  all_goals simp

/-! ### Machine/Entries.lean -/

@[simp] theorem State.fetch_mem (s : State) (r : Nat) (mine : Nat → Bool) (given : List Byte) : (s.fetch r mine given).mem = s.mem := by
  simp [State.fetch]

@[simp] theorem State.nextEntry_mem (s : State) (r : Nat) : (s.nextEntry r).mem = s.mem := by
  unfold State.nextEntry
  dsimp only
  repeat' split
  all_goals simp

@[simp] theorem State.accept_mem (s : State) (r : Nat) (e : List Byte) : (s.accept r e).mem = s.mem := by
  unfold State.accept
  split <;> simp

@[simp] theorem State.addEntry_mem (s : State) (r : Nat) (e : List Byte) : (s.addEntry r e).mem = s.mem := by rfl

@[simp] theorem State.placeItems_mem (s : State) (w : WorkItem) (first count : Nat) : (s.placeItems w first count).mem = s.mem := by
  refine State.foldl_mem (fun _ _ => ?_) _ _
  rfl

@[simp] theorem State.feNext_mem (s : State) (p : Nat) : (s.feNext p).2.mem = s.mem := by rfl

/-! ### Machine/TimeOps.lean -/

@[simp] theorem State.onPtp_mem (s : State) (f : PtpSt → PtpSt) : (s.onPtp f).mem = s.mem := by rfl
@[simp] theorem State.timeEvent_mem (s : State) (off : Int) : (s.timeEvent off).mem = s.mem := by simp [State.timeEvent]
@[simp] theorem State.toTime_mem (s : State) (st : Nat) (off : Int) : (s.toTime st off).mem = s.mem := by simp [State.toTime]
@[simp] theorem State.tick_mem (s : State) : (s.tick).mem = s.mem := by simp [State.tick]
@[simp] theorem State.selectMaster_mem (s : State) (id : Nat) : (s.selectMaster id).mem = s.mem := by simp [State.selectMaster]
@[simp] theorem State.synced_mem (s : State) (behind : Int) : (s.synced behind).mem = s.mem := by simp [State.synced]

/-! ### Machine/Mctp.lean -/

@[simp] theorem State.onMgmt_mem (s : State) (f : MgmtSt → MgmtSt) : (s.onMgmt f).mem = s.mem := by rfl
@[simp] theorem execSetEndpointId_leavesMem (eid : BitVec 8) (s : State) : leavesMem s (execSetEndpointId eid s) := by simp [execSetEndpointId]
@[simp] theorem execGetEndpointId_leavesMem (s : State) : leavesMem s (execGetEndpointId s) := by simp [execGetEndpointId]
@[simp] theorem execGetEndpointUuid_leavesMem (s : State) : leavesMem s (execGetEndpointUuid s) := by simp [execGetEndpointUuid]
@[simp] theorem execGetMctpVersionSupport_leavesMem (s : State) : leavesMem s (execGetMctpVersionSupport s) := by simp [execGetMctpVersionSupport]
@[simp] theorem execGetMessageTypeSupport_leavesMem (s : State) : leavesMem s (execGetMessageTypeSupport s) := by simp [execGetMessageTypeSupport]

@[simp] theorem execMctpUnsupportedType_leavesMem (x_type : BitVec 8) (s : State) : leavesMem s (execMctpUnsupportedType x_type s) := by
  simp [execMctpUnsupportedType]

@[simp] theorem execI3cDynamicAddress_leavesMem (addr : BitVec 7) (s : State) : leavesMem s (execI3cDynamicAddress addr s) := by
  simp [execI3cDynamicAddress]

@[simp] theorem execGetFruRecordTable_leavesMem (s : State) : leavesMem s (execGetFruRecordTable s) := by simp [execGetFruRecordTable]
@[simp] theorem execSetEventReceiver_leavesMem (s : State) : leavesMem s (execSetEventReceiver s) := by simp [execSetEventReceiver]

@[simp] theorem execPollForPlatformEventMessage_leavesMem (s : State) : leavesMem s (execPollForPlatformEventMessage s) := by
  unfold execPollForPlatformEventMessage
  split <;> simp

@[simp] theorem execPldmSensorRefresh_leavesMem (vin iin pin ss : Nat) (s : State) : leavesMem s (execPldmSensorRefresh vin iin pin ss s) := by
  simp [execPldmSensorRefresh]

/-! ### Machine/Observe.lean -/

@[simp] theorem State.onObs_mem (s : State) (f : ObsSt → ObsSt) : (s.onObs f).mem = s.mem := by rfl

@[simp] theorem execTlmCfgWrite_leavesMem (conv : Fin 16) (val : W32) (s : State) : leavesMem s (execTlmCfgWrite conv val s) := by
  simp [execTlmCfgWrite]

@[simp] theorem execTlmSampleDone_leavesMem (conv : Fin 16) (value : BitVec 16) (s : State) : leavesMem s (execTlmSampleDone conv value s) := by
  simp [execTlmSampleDone]

@[simp] theorem State.gleanAt_mem (s : State) (t : Nat) : (s.gleanAt t).mem = s.mem := by rfl
@[simp] theorem execGleanGo_leavesMem (val : W32) (s : State) : leavesMem s (execGleanGo val s) := by simp [execGleanGo]

@[simp] theorem execGleanTimeReached_leavesMem (s : State) : leavesMem s (execGleanTimeReached s) := by
  unfold execGleanTimeReached
  split <;> simp

@[simp] theorem execTraceCtlWrite_leavesMem (val : W32) (s : State) : leavesMem s (execTraceCtlWrite val s) := by simp [execTraceCtlWrite]

/-! ### Machine/Debug.lean -/

@[simp] theorem State.dbgCtl_mem (s : State) (key : BitVec 16) (plot : PlotId) (index : Nat) (halt : Bool) :
    (s.dbgCtl key plot index halt).mem = s.mem := by
  simp [State.dbgCtl]

@[simp] theorem execDebugHalt_leavesMem (key : BitVec 16) (plot : PlotId) (index : Nat) (s : State) :
    leavesMem s (execDebugHalt key plot index s) := by
  simp [execDebugHalt]

@[simp] theorem execDebugResume_leavesMem (key : BitVec 16) (plot : PlotId) (index : Nat) (s : State) :
    leavesMem s (execDebugResume key plot index s) := by
  simp [execDebugResume]

@[simp] theorem execDbgDataWrite_leavesMem (val : W64) (s : State) : leavesMem s (execDbgDataWrite val s) := by
  unfold execDbgDataWrite
  split <;> simp

@[simp] theorem State.wfgStart_mem (s : State) (auto : Bool) : (s.wfgStart auto).mem = s.mem := by simp [State.wfgStart]
@[simp] theorem execWfgGo_leavesMem (val : W32) (s : State) : leavesMem s (execWfgGo val s) := by simp [execWfgGo]
@[simp] theorem execWfgAuto_leavesMem (s : State) : leavesMem s (execWfgAuto s) := by simp [execWfgAuto]

@[simp] theorem execWfgReportDone_leavesMem (s : State) : leavesMem s (execWfgReportDone s) := by
  unfold execWfgReportDone
  split <;> simp

@[simp] theorem execWfgDataRead_leavesMem (src : Src) (off size : Nat) (bad : Bool) (s : State) :
    leavesMem s (execWfgDataRead src off size bad s) := by
  simp [execWfgDataRead]

/-! ### Machine/Ecc.lean -/

@[simp] theorem State.logFree_mem (s : State) (i : Nat) : (s.logFree i).mem = s.mem := by simp [State.logFree]

@[simp] theorem execEventClassify_leavesMem (s : State) : leavesMem s (execEventClassify s) := by
  unfold execEventClassify
  dsimp only
  repeat' split
  all_goals simp

@[simp] theorem execScrubRewrite_leavesMem (s : State) : leavesMem s (execScrubRewrite s) := by
  unfold execScrubRewrite
  dsimp only
  repeat' split
  all_goals simp

@[simp] theorem State.passEnd_mem (s : State) (h : HarrowPos) (period : Nat) : (s.passEnd h period).2.mem = s.mem := by simp [State.passEnd]
@[simp] theorem State.setVaultHarrow_mem (s : State) (n : Nat) (h : HarrowPos) : (s.setVaultHarrow n h).mem = s.mem := by simp [State.setVaultHarrow]
@[simp] theorem execLogEntryAgeOut_leavesMem (idx : Nat) (s : State) : leavesMem s (execLogEntryAgeOut idx s) := by simp [execLogEntryAgeOut]
@[simp] theorem execLogClr_leavesMem (val : W32) (s : State) : leavesMem s (execLogClr val s) := by simp [execLogClr]
@[simp] theorem State.retResult_mem (s : State) (r : Nat) : (s.retResult r).mem = s.mem := by rfl
@[simp] theorem State.retStart_mem (s : State) (j : RetJob) : (s.retStart j).mem = s.mem := by simp [State.retStart]
@[simp] theorem State.retCmd_mem (s : State) (scope : Nat) (val : W32) : (s.retCmd scope val).mem = s.mem := by simp [State.retCmd]
@[simp] theorem execRetirePage_leavesMem (val : W32) (s : State) : leavesMem s (execRetirePage val s) := by simp [execRetirePage]
@[simp] theorem execRetireBank_leavesMem (val : W32) (s : State) : leavesMem s (execRetireBank val s) := by simp [execRetireBank]
@[simp] theorem execRetireBin_leavesMem (val : W32) (s : State) : leavesMem s (execRetireBin val s) := by simp [execRetireBin]

/-! ### Machine/Bins.lean -/

@[simp] theorem State.binErr_mem (s : State) (k : Nat) : (s.binErr k).mem = s.mem := by rfl

@[simp] theorem State.binBegin_mem (s : State) (k mode owner slot : Nat) (cache : Bool) : (s.binBegin k mode owner slot cache).mem = s.mem := by
  simp [State.binBegin]

@[simp] theorem execBinTransitionDone_leavesMem (k : BinId) (s : State) : leavesMem s (execBinTransitionDone k s) := by simp [execBinTransitionDone]
@[simp] theorem execCacheFlushDone_leavesMem (s : State) : leavesMem s (execCacheFlushDone s) := by simp [execCacheFlushDone]
@[simp] theorem State.crcRetries_mem (s : State) (crc : Nat) : (s.crcRetries crc).mem = s.mem := by simp [State.crcRetries]
@[simp] theorem State.ssMark_mem (s : State) (w : Nat) : (s.ssMark w).mem = s.mem := by simp [State.ssMark]

@[simp] theorem execCwinWrite_leavesMem (p : PartId) (j : Fin 16) (val : W64) (s : State) : leavesMem s (execCwinWrite p j val s) := by
  simp [execCwinWrite]

/-! ### Machine/Reduce.lean -/

@[simp] theorem State.combined_mem (s : State) (sats : Nat) (chaffed l : List DetItem) (cells : List (Nat × Byte × Bool)) :
    (s.combined sats chaffed l cells).mem = s.mem := by
  simp [State.combined]

@[simp] theorem State.sendComb_mem (s : State) (burst : Nat) (l : List DetItem) : (s.sendComb burst l).mem = s.mem := by
  unfold State.sendComb
  split <;> simp

@[simp] theorem State.reply_mem (s : State) (module srcId txn type status : Nat) (payload : List Byte) (poison : Nat) :
    (s.reply module srcId txn type status payload poison).mem = s.mem := by
  rfl

@[simp] theorem State.replyContrib_mem (s : State) (c : Contrib) (done : Bool) : (s.replyContrib c done).mem = s.mem := by
  unfold State.replyContrib
  split <;> rfl

/-! ### Machine/Packets.lean -/

@[simp] theorem State.remoteCheck_mem (s : State) (p : Packet) (n : Nat) (write : Bool) : (s.remoteCheck p n write).2.mem = s.mem := by
  unfold State.remoteCheck
  repeat' split
  all_goals simp

@[simp] theorem State.answerReq_mem (s : State) (p : Packet) (status : Nat) : (s.answerReq p status).mem = s.mem := by rfl
@[simp] theorem State.doRead_mem (s : State) (p : Packet) : (s.doRead p).mem = s.mem := by simp [State.doRead]
@[simp] theorem State.doCombine_mem (s : State) (p : Packet) : (s.doCombine p).mem = s.mem := by simp [State.doCombine]
@[simp] theorem State.txnTake_mem (s : State) (t : Txn) : (s.txnTake t).mem = s.mem := by rfl
@[simp] theorem State.doSweepReq_mem (s : State) (p : Packet) : (s.doSweepReq p).mem = s.mem := by rfl

@[simp] theorem State.doSweepRsp_mem (s : State) (p : Packet) : (s.doSweepRsp p).mem = s.mem := by
  unfold State.doSweepRsp
  split <;> simp

@[simp] theorem State.doBreak_mem (s : State) (p : Packet) (from_ : Option Nat) : (s.doBreak p from_).mem = s.mem := by simp [State.doBreak]
@[simp] theorem State.routeDrop_mem (s : State) (p : Packet) : (s.routeDrop p).mem = s.mem := by simp [State.routeDrop]
@[simp] theorem execRouteSwitch_leavesMem (s : State) : leavesMem s (execRouteSwitch s) := by simp [execRouteSwitch]

@[simp] theorem execRouteDataAccess_leavesMem (src : Src) (write : Option W32) (s : State) : leavesMem s (execRouteDataAccess src write s) := by
  unfold execRouteDataAccess
  split <;> simp

@[simp] theorem execSweepStart_leavesMem (s : State) : leavesMem s (execSweepStart s) := by simp [execSweepStart]

/-! ### Machine/Descriptors.lean -/

@[simp] theorem execDescTableWrite_leavesMem (p : PartId) (val : W64) (s : State) : leavesMem s (execDescTableWrite p val s) := by
  simp [execDescTableWrite]

@[simp] theorem execDescDetWrite_leavesMem (p : PartId) (val : W64) (s : State) : leavesMem s (execDescDetWrite p val s) :=
  by simp [execDescDetWrite]
@[simp] theorem State.descBegin_mem (s : State) (p code : Nat) : (s.descBegin p code).mem = s.mem := by rfl
@[simp] theorem State.descRefused_mem (s : State) (p : Nat) : (s.descRefused p).mem = s.mem := by rfl

@[simp] theorem execDescInvalidate_leavesMem (p : PartId) (index : BitVec 16) (s : State) : leavesMem s (execDescInvalidate p index s) := by
  simp [execDescInvalidate]

/-! ### Machine/Streams.lean -/

@[simp] theorem execStrmRead_leavesMem (p : PartId) (id : BitVec 21) (s : State) : leavesMem s (execStrmRead p id s) := by simp [execStrmRead]
@[simp] theorem execMdlQuery_leavesMem (p : PartId) (index : BitVec 12) (s : State) : leavesMem s (execMdlQuery p index s) := by simp [execMdlQuery]

/-! ### Machine/Partition.lean -/

@[simp] theorem State.clearReg_mem (s : State) (r : RegDef) (i : Nat) : (s.clearReg r i).mem = s.mem := by
  refine State.foldl_mem (fun _ _ => ?_) _ _
  rfl

@[simp] theorem State.clearPart_mem (s : State) (p : Nat) : (s.clearPart p).mem = s.mem := by simp [State.clearPart]

@[simp] theorem execPartCreate_leavesMem (index : PartId) (s : State) : leavesMem s (execPartCreate index s) := by
  unfold execPartCreate
  dsimp only
  split
  · simp
  · simp -implicitDefEqProofs

@[simp] theorem State.verifyMdls_mem (s : State) : (s.verifyMdls).mem = s.mem := by simp [State.verifyMdls]
@[simp] theorem execAllocCreate_leavesMem (p : PartId) (s : State) : leavesMem s (execAllocCreate p s) := by simp [execAllocCreate]

@[simp] theorem execAllocRelease_leavesMem (p : PartId) (s : State) : leavesMem s (execAllocRelease p s) := by
  unfold execAllocRelease
  dsimp only
  repeat' split
  all_goals simp

/-! ### Machine/Power.lean -/

@[simp] theorem State.setCeil_mem (s : State) (c plot : Nat) (report : Bool) : (s.setCeil c plot report).mem = s.mem := by simp [State.setCeil]
@[simp] theorem execCeilRaise_leavesMem (plot : PlotId) (s : State) : leavesMem s (execCeilRaise plot s) := by simp [execCeilRaise]
@[simp] theorem execCeilReturn_leavesMem (plot : PlotId) (s : State) : leavesMem s (execCeilReturn plot s) := by simp [execCeilReturn]
@[simp] theorem execLevelRampDone_leavesMem (s : State) : leavesMem s (execLevelRampDone s) := by simp [execLevelRampDone]

@[simp] theorem execAutoCeilAdjust_leavesMem (predicted : Nat) (s : State) : leavesMem s (execAutoCeilAdjust predicted s) := by
  simp [execAutoCeilAdjust]

@[simp] theorem execPowerControlWrite_leavesMem (cap : Bool) (val : W32) (s : State) : leavesMem s (execPowerControlWrite cap val s) := by
  simp [execPowerControlWrite]

@[simp] theorem execSparePhaseSoftStartDone_leavesMem (plot : PlotId) (s : State) : leavesMem s (execSparePhaseSoftStartDone plot s) := by
  simp [execSparePhaseSoftStartDone]

@[simp] theorem execCrackSuspect_leavesMem (plot : PlotId) (cluster : Fin 12) (mv others current ago : Nat) (s : State) :
    leavesMem s (execCrackSuspect plot cluster mv others current ago s) := by
  simp [execCrackSuspect]

@[simp] theorem State.dutyTick_mem (s : State) : (s.dutyTick).mem = s.mem := by rfl
@[simp] theorem State.dutyWindow_mem (s : State) : (s.dutyWindow).mem = s.mem := by rfl

@[simp] theorem State.throttleFlags_mem (s : State) : (s.throttleFlags).mem = s.mem := by
  refine State.foldl_mem (fun _ _ => ?_) _ _
  rfl

@[simp] theorem execCapRecompute_leavesMem (s : State) : leavesMem s (execCapRecompute s) := by simp [execCapRecompute]
@[simp] theorem execRthUpdate_leavesMem (avgW hot : Nat) (s : State) : leavesMem s (execRthUpdate avgW hot s) := by simp [execRthUpdate]

@[simp] theorem execBudgetPeriod_leavesMem (other : Nat) (plots : List PlotReading) (s : State) : leavesMem s (execBudgetPeriod other plots s) := by
  simp [execBudgetPeriod]

@[simp] theorem execBudgetMessageStale_leavesMem (plot : PlotId) (s : State) : leavesMem s (execBudgetMessageStale plot s) := by
  simp [execBudgetMessageStale]

@[simp] theorem execOvercurrentDutyCut_leavesMem (plot : PlotId) (amps : Nat) (s : State) : leavesMem s (execOvercurrentDutyCut plot amps s) := by
  simp [execOvercurrentDutyCut]

/-! ### Machine/Reset.lean -/

@[simp] theorem execPwrOkFall_leavesMem (s : State) : leavesMem s (execPwrOkFall s) := by simp [execPwrOkFall]
@[simp] theorem execPerstRelease_leavesMem (s : State) : leavesMem s (execPerstRelease s) := by simp [execPerstRelease]
@[simp] theorem execWarmRstRelease_leavesMem (s : State) : leavesMem s (execWarmRstRelease s) := by simp [execWarmRstRelease]
@[simp] theorem execResetPinGlitch_leavesMem (s : State) : leavesMem s (execResetPinGlitch s) := by simp [execResetPinGlitch]

/-! ### Machine/Sleep.lean -/

@[simp] theorem execSleepBlockAnswer_leavesMem (block : Fin 9) (s : State) : leavesMem s (execSleepBlockAnswer block s) := by
  unfold execSleepBlockAnswer
  repeat' split
  all_goals simp

@[simp] theorem execSleepEntryTimeout_leavesMem (s : State) : leavesMem s (execSleepEntryTimeout s) := by
  unfold execSleepEntryTimeout
  split <;> simp

@[simp] theorem execSleepEntryDone_leavesMem (s : State) : leavesMem s (execSleepEntryDone s) := by
  unfold execSleepEntryDone
  split
  · simp
  · simp -implicitDefEqProofs

@[simp] theorem execSleepExitDone_leavesMem (s : State) : leavesMem s (execSleepExitDone s) := by
  unfold execSleepExitDone
  dsimp only
  repeat' split
  all_goals simp

/-! ### Machine/Thermal.lean -/

@[simp] theorem State.hotUpdate_mem (s : State) (n t : Nat) : (s.hotUpdate n t).mem = s.mem := by simp [State.hotUpdate]
@[simp] theorem State.breakDiode_mem (s : State) (n : Nat) : (s.breakDiode n).mem = s.mem := by simp [State.breakDiode]
@[simp] theorem State.throttleTo_mem (s : State) (n d : Nat) : (s.throttleTo n d).mem = s.mem := by rfl
@[simp] theorem State.trip_mem (s : State) (n t : Nat) : (s.trip n t).mem = s.mem := by simp [State.trip]

@[simp] theorem State.substReading_mem (s : State) (n : Nat) : (s.substReading n).mem = s.mem := by
  unfold State.substReading
  split <;> simp

@[simp] theorem execDiodeConversion_leavesMem (core : CoreId) (quarters : Int) (s : State) : leavesMem s (execDiodeConversion core quarters s) := by
  simp [execDiodeConversion]

@[simp] theorem execThrottleStep_leavesMem (core : CoreId) (s : State) : leavesMem s (execThrottleStep core s) := by
  unfold execThrottleStep
  dsimp only
  repeat' split
  all_goals simp

@[simp] theorem execDiodeBroken_leavesMem (core : CoreId) (s : State) : leavesMem s (execDiodeBroken core s) := by simp [execDiodeBroken]
@[simp] theorem execSensorBroken_leavesMem (kind unit : Nat) (s : State) : leavesMem s (execSensorBroken kind unit s) := by simp [execSensorBroken]
@[simp] theorem execCoolInWrite_leavesMem (val : W32) (s : State) : leavesMem s (execCoolInWrite val s) := by simp [execCoolInWrite]

@[simp] theorem execCoolInStale_leavesMem (s : State) : leavesMem s (execCoolInStale s) := by
  unfold execCoolInStale
  split <;> simp

@[simp] theorem State.bandOne_mem (s : State) (n : Nat) : (s.bandOne n).mem = s.mem := by simp [State.bandOne]
@[simp] theorem execBandEstimate_leavesMem (s : State) : leavesMem s (execBandEstimate s) := by simp [execBandEstimate]

@[simp] theorem execHulPlotLimitWrite_leavesMem (plot : PlotId) (val : W32) (s : State) : leavesMem s (execHulPlotLimitWrite plot val s) := by
  simp [execHulPlotLimitWrite]

/-! ### Machine/Time.lean -/

@[simp] theorem execPtpAnnounce_leavesMem (domain master : Nat) (set : List Nat) (s : State) :
    leavesMem s (execPtpAnnounce domain master set s) := by
  unfold execPtpAnnounce
  dsimp only
  repeat' split
  all_goals simp

@[simp] theorem execPtpSync_leavesMem (domain master interval origin : Nat) (twoStep : Bool) (s : State) :
    leavesMem s (execPtpSync domain master interval origin twoStep s) := by
  simp [execPtpSync]

@[simp] theorem execPtpFollowUp_leavesMem (domain master origin : Nat) (s : State) : leavesMem s (execPtpFollowUp domain master origin s) := by
  unfold execPtpFollowUp
  repeat' split
  all_goals simp

@[simp] theorem execPtpDelayResp_leavesMem (domain master sent received : Nat) (s : State) :
    leavesMem s (execPtpDelayResp domain master sent received s) := by
  simp [execPtpDelayResp]

@[simp] theorem execPtpSyncLoss_leavesMem (s : State) : leavesMem s (execPtpSyncLoss s) := by simp [execPtpSyncLoss]
@[simp] theorem execTimeSet_leavesMem (val : W32) (s : State) : leavesMem s (execTimeSet val s) := by simp [execTimeSet]

/-! ### Machine/Timing.lean -/

@[simp] theorem execVaultRecalibration_leavesMem (s : State) : leavesMem s (execVaultRecalibration s) := by
  unfold execVaultRecalibration
  split <;> simp

@[simp] theorem execDroopHold_leavesMem (fid : FieldId) (mv : Nat) (s : State) : leavesMem s (execDroopHold fid mv s) := by simp [execDroopHold]
@[simp] theorem execDroopResume_leavesMem (fid : FieldId) (mv : Nat) (s : State) : leavesMem s (execDroopResume fid mv s) :=
  by simp [execDroopResume]

@[simp] theorem execRateWindowEnd_leavesMem (fid : FieldId) (actual capable : BitVec 16) (s : State) :
    leavesMem s (execRateWindowEnd fid actual capable s) := by
  unfold execRateWindowEnd
  dsimp only
  repeat' split
  all_goals simp

@[simp] theorem execSlowFieldReport_leavesMem (fid : FieldId) (s : State) : leavesMem s (execSlowFieldReport fid s) := by simp [execSlowFieldReport]
@[simp] theorem execStallCtlWrite_leavesMem (val : W32) (s : State) : leavesMem s (execStallCtlWrite val s) := by simp [execStallCtlWrite]

@[simp] theorem execStall_leavesMem (hs : Handshake) (s : State) : leavesMem s (execStall hs s) := by
  unfold execStall
  repeat' split
  all_goals simp

@[simp] theorem State.endStallHold_mem (s : State) (fields : List Nat) (w : Watch) : (s.endStallHold fields w).mem = s.mem := by
  unfold State.endStallHold
  split <;> simp

@[simp] theorem execStallCollectionClose_leavesMem (others : List Handshake) (s : State) : leavesMem s (execStallCollectionClose others s) := by
  unfold execStallCollectionClose
  split
  · simp
  · simp only [leavesMem_ite, leavesMem_next, State.foldl_mem State.resetField_mem, State.ite_mem, State.endEntry_mem, ite_self]
    rw [State.foldl_mem, State.foldl_mem]
    · simp
    · intro s h
      simp
    · intro s x
      split <;> rfl

@[simp] theorem execFieldResetDone_leavesMem (fid : FieldId) (s : State) : leavesMem s (execFieldResetDone fid s) := by simp [execFieldResetDone]

/-! ### Machine/Bring.lean -/

@[simp] theorem State.stepBegin_mem (s : State) (code bound : Nat) : (s.stepBegin code bound).mem = s.mem := by simp [State.stepBegin]
@[simp] theorem State.stepRefused_mem (s : State) : (s.stepRefused).mem = s.mem := by rfl

@[simp] theorem State.stepFails_mem (s : State) (code detail : Nat) : (s.stepFails code detail).mem = s.mem := by
  unfold State.stepFails
  split <;> simp

@[simp] theorem State.moreTime_mem (s : State) (ns : Nat) : (s.moreTime ns).mem = s.mem := by
  unfold State.moreTime
  split <;> rfl

@[simp] theorem State.stepTimed_mem (s : State) (j : BringJob) : (s.stepTimed j).mem = s.mem := by rfl

@[simp] theorem execStepStrap_leavesMem (counts : List Nat) (s : State) : leavesMem s (execStepStrap counts s) := by
  unfold execStepStrap
  repeat' split
  all_goals simp

@[simp] theorem State.laneUsed_mem (s : State) (plot key spare : Nat) : (s.laneUsed plot key spare).mem = s.mem := by rfl

@[simp] theorem State.repairMap_mem (s : State) : (s.repairMap).mem = s.mem := by
  simp only [State.repairMap, State.seedRegs_mem]
  rw [State.foldl_mem fun _ _ => State.fset_mem .., State.foldl_mem fun _ _ => State.fset_mem ..,
    State.foldl_mem fun _ _ => State.laneUsed_mem ..,
    State.foldl_mem fun _ _ => by simp only [State.fset_mem]]
  rfl

@[simp] theorem State.bringSubst_mem (s : State) (n : Nat) : (s.bringSubst n).1.mem = s.mem := by
  unfold State.bringSubst
  dsimp only
  repeat' split
  all_goals simp

@[simp] theorem State.restoreUnits_mem (s : State) : (s.restoreUnits).mem = s.mem := by
  unfold State.restoreUnits
  repeat' split
  all_goals simp

@[simp] theorem execStepRepair_leavesMem (bad : Option Nat) (s : State) : leavesMem s (execStepRepair bad s) := by
  unfold execStepRepair
  split
  · simp
  · dsimp only
    split
    · simp
    · split <;> simp

@[simp] theorem execStepPower_leavesMem (rail : Option (Nat × Nat)) (lanes : List (Nat × Bool × Nat)) (headland : Option (Nat × Bool)) (s : State) :
    leavesMem s (execStepPower rail lanes headland s) := by
  unfold execStepPower
  split
  · simp
  · dsimp only
    split
    · simp
    · simp
    · rw [leavesMem_next, State.foldl_mem]
      · simp
      · intro s x
        have h := s.laneSwap_mem x.1 x.2.1 x.2.2
        split <;> simp_all

@[simp] theorem execStepField_leavesMem (slow : List CoreId) (s : State) : leavesMem s (execStepField slow s) := by simp [execStepField]

@[simp] theorem execStepFetch_leavesMem (s : State) : leavesMem s (execStepFetch s) := by
  unfold execStepFetch
  split
  · simp
  · dsimp only
    split
    · simp
    · rw [leavesMem_next, State.foldl_mem fun _ _ => State.onCore_mem ..]
      simp

@[simp] theorem execBootItemTimeout_leavesMem (core : CoreId) (s : State) : leavesMem s (execBootItemTimeout core s) := by
  unfold execBootItemTimeout
  dsimp only
  repeat' split
  all_goals simp

@[simp] theorem execStepLink_leavesMem (s : State) : leavesMem s (execStepLink s) := by simp [execStepLink]

@[simp] theorem execStepTopo_leavesMem (s : State) : leavesMem s (execStepTopo s) := by
  unfold execStepTopo
  dsimp only
  repeat' split
  all_goals simp

@[simp] theorem execStepReady_leavesMem (present : Bool) (s : State) : leavesMem s (execStepReady present s) := by simp [execStepReady]
@[simp] theorem State.stepEndDone_mem (s : State) : (s.stepEndDone).mem = s.mem := by simp [State.stepEndDone]

@[simp] theorem execStepLinkLimit_leavesMem (s : State) : leavesMem s (execStepLinkLimit s) := by
  unfold execStepLinkLimit
  split <;> simp

/-! ### Machine/Update.lean -/

@[simp] theorem State.pldm_mem (s : State) (code : Nat) (data : List Byte) : (s.pldm code data).mem = s.mem := by rfl

@[simp] theorem State.updNote_mem (s : State) (stage slot ver outcome : Nat) : (s.updNote stage slot ver outcome).mem = s.mem := by
  simp [State.updNote]

@[simp] theorem State.onSeed_mem (s : State) (f : SeedSt → SeedSt) : (s.onSeed f).mem = s.mem := by rfl
@[simp] theorem State.markLoading_mem (s : State) (slot : Nat) : (s.markLoading slot).mem = s.mem := by simp [State.markLoading]
@[simp] theorem execRequestUpdate_leavesMem (s : State) : leavesMem s (execRequestUpdate s) := by simp [execRequestUpdate]

@[simp] theorem execUpdateComponent_leavesMem (size : Nat) (s : State) : leavesMem s (execUpdateComponent size s) := by
  unfold execUpdateComponent
  split <;> simp

@[simp] theorem execFirmwareData_leavesMem (data : List Byte) (s : State) : leavesMem s (execFirmwareData data s) := by
  unfold execFirmwareData
  repeat' split
  all_goals simp

@[simp] theorem execActivateFirmware_leavesMem (s : State) : leavesMem s (execActivateFirmware s) := by simp [execActivateFirmware]

@[simp] theorem execSeedConfirm_leavesMem (val : W32) (s : State) : leavesMem s (execSeedConfirm val s) := by
  unfold execSeedConfirm
  dsimp only
  repeat' split
  all_goals simp

/-! ### Machine/Vault.lean -/

@[simp] theorem State.mdqCount_mem (s : State) : (s.mdqCount).mem = s.mem := by rfl

@[simp] theorem State.msgDone_mem (s : State) (m : Msg) : (s.msgDone m).mem = s.mem := by
  unfold State.msgDone
  split <;> simp

@[simp] theorem State.mdqTake_mem (s : State) (i : Nat) : (s.mdqTake i).mem = s.mem := by rfl

@[simp] theorem execMisdeliveryResend_leavesMem (idx : Nat) (s : State) : leavesMem s (execMisdeliveryResend idx s) := by
  unfold execMisdeliveryResend
  repeat' split
  all_goals simp

@[simp] theorem execMisdeliveryHoldExpire_leavesMem (idx : Nat) (s : State) : leavesMem s (execMisdeliveryHoldExpire idx s) := by
  unfold execMisdeliveryHoldExpire
  split
  · simp
  · split
    · simp
    · rw [leavesMem_next, State.foldl_mem]
      · simp
      · intro s x
        split <;> simp

/-! ### Machine/AccessOps.lean -/

@[simp] theorem State.setLatch_mem (s : State) (block : Nat) (src : Src) (v : Option (Nat × Nat)) : (s.setLatch block src v).mem = s.mem := by rfl

@[simp] theorem State.read4_mem (s : State) (src : Src) (off : Nat) : (s.read4 src off).1.mem = s.mem := by
  unfold State.read4
  dsimp only
  repeat' split
  all_goals simp

@[simp] theorem State.readEffect_mem (s : State) (off size : Nat) : (s.readEffect off size).mem = s.mem := by simp [State.readEffect]

@[simp] theorem State.regRead_mem (s : State) (src : Src) (off size : Nat) : (s.regRead src off size).1.mem = s.mem := by
  unfold State.regRead
  dsimp only
  repeat' split
  all_goals simp

@[simp] theorem State.writePortCtl_mem (s : State) (p : PortId) (w : Nat) : (s.writePortCtl p w).mem = s.mem := by
  simp [State.writePortCtl]

@[simp] theorem State.writePtpCfg_mem (s : State) (w : Nat) : (s.writePtpCfg w).mem = s.mem := by simp [State.writePtpCfg]

@[simp] theorem State.writeRetCmd_mem (s : State) (v : W32) : (s.writeRetCmd v).mem = s.mem := by
  unfold State.writeRetCmd
  split <;> simp

@[simp] theorem State.writeStage_mem (s : State) (off n v : Nat) : (s.writeStage off n v).mem = s.mem := by
  refine State.foldl_mem (fun s k => ?_) _ _
  split <;> rfl

/-! ### Machine/Matrix.lean -/

@[simp] theorem execMma_leavesMem (core : CoreId) (s : State) : leavesMem s (execMma core s) := by
  unfold execMma
  split
  · simp
  · split
    · simp
    · next h => simp [State.take_done_mem h]
    · next h => simp [State.take_ok_mem h]

@[simp] theorem execShadowTileLoaded_leavesMem (core : CoreId) (s : State) : leavesMem s (execShadowTileLoaded core s) := by
  unfold execShadowTileLoaded
  dsimp only
  split
  · simp
  · generalize 1024 = n
    simp

@[simp] theorem State.arrayDone_mem (s : State) (n : Nat) (i : MtxInst) : (s.arrayDone n i).mem = s.mem := by simp [State.arrayDone]

@[simp] theorem State.arrayCount_mem (s : State) (n sat nan : Nat) (chaff : Bool) : (s.arrayCount n sat nan chaff).mem = s.mem := by
  simp [State.arrayCount]

@[simp] theorem State.arrayWs_mem (s : State) (n : Nat) (i : MtxInst) (flips : List (Nat × Nat)) : (s.arrayWs n i flips).mem = s.mem := by
  simp [State.arrayWs]

@[simp] theorem State.arrayOs_mem (s : State) (n : Nat) (i : MtxInst) (flips : List (Nat × Nat)) : (s.arrayOs n i flips).mem = s.mem := by
  simp [State.arrayOs]

@[simp] theorem execArrayStep_leavesMem (core : CoreId) (flips : List (Nat × Nat)) (s : State) : leavesMem s (execArrayStep core flips s) := by
  unfold execArrayStep
  split <;> simp

/-! ### Machine/Waits.lean -/

@[simp] theorem State.countCore_mem (s : State) (n : Nat) : (s.countCore n).mem = s.mem := by simp [State.countCore]
@[simp] theorem State.countWaits_mem (s : State) : (s.countWaits).mem = s.mem := by simp [State.countWaits]

/-! ### Machine/HostMem.lean -/

@[simp] theorem State.answerHost_mem (s : State) (fn status : Nat) (data : List Byte) : (s.answerHost fn status data).mem = s.mem := by rfl

@[simp] theorem State.hostNo_mem (s : State) (r : HostReq) (a : Nat) (why : Refused × Nat) (post : Bool) : (s.hostNo r a why post).mem = s.mem := by
  simp [State.hostNo]

@[simp] theorem State.bar0Read_mem (s : State) (fn off size : Nat) : (s.bar0Read fn off size).mem = s.mem := by
  unfold State.bar0Read
  dsimp only
  repeat' split
  all_goals simp

/-! ### Machine/Access.lean -/

@[simp] theorem State.mctpAnswer_mem (s : State) (op status off data : Nat) : (s.mctpAnswer op status off data).mem = s.mem := by rfl
@[simp] theorem State.mctpRead_mem (s : State) (op off size : Nat) : (s.mctpRead op off size).mem = s.mem := by simp [State.mctpRead]
@[simp] theorem execRead32_leavesMem (off : Nat) (s : State) : leavesMem s (execRead32 off s) := by simp [execRead32]
@[simp] theorem execRead64_leavesMem (off : Nat) (s : State) : leavesMem s (execRead64 off s) := by simp [execRead64]

/-! ### Machine/Events.lean -/

@[simp] theorem State.eventAlert_mem (s : State) (e : Event) : (s.eventAlert e).mem = s.mem := by simp [State.eventAlert]

@[simp] theorem execEventSend_leavesMem (s : State) : leavesMem s (execEventSend s) := by
  unfold execEventSend
  split <;> simp

@[simp] theorem execHeartbeat_leavesMem (s : State) : leavesMem s (execHeartbeat s) := by simp [execHeartbeat]
@[simp] theorem State.evDiscard_mem (s : State) (seq : Nat) : (s.evDiscard seq).mem = s.mem := by simp [State.evDiscard]

@[simp] theorem execResend_leavesMem (first count : Nat) (bad : List Nat) (s : State) : leavesMem s (execResend first count bad s) := by
  unfold execResend
  split
  · simp
  · rw [leavesMem_next, State.foldl_mem fun _ _ => State.emit_mem .., State.foldl_mem State.evDiscard_mem]

@[simp] theorem execArpRequest_leavesMem (ip : Nat) (s : State) : leavesMem s (execArpRequest ip s) := by simp [execArpRequest]
@[simp] theorem execIcmpEcho_leavesMem (ip : Nat) (data : List Nat) (s : State) : leavesMem s (execIcmpEcho ip data s) := by simp [execIcmpEcho]

@[simp] theorem execDhcpExchange_leavesMem (ip mask gateway : Nat) (s : State) : leavesMem s (execDhcpExchange ip mask gateway s) := by
  unfold execDhcpExchange
  split <;> simp

/-! ### Machine/Host.lean -/

@[simp] theorem execHdmDecoderCommit_leavesMem (size : Nat) (s : State) : leavesMem s (execHdmDecoderCommit size s) := by simp [execHdmDecoderCommit]
@[simp] theorem State.fnReset_mem (s : State) (fn : Nat) : (s.fnReset fn).mem = s.mem := by simp [State.fnReset]
@[simp] theorem execD3hotEntry_leavesMem (fn : FnId) (s : State) : leavesMem s (execD3hotEntry fn s) := by simp [execD3hotEntry]

@[simp] theorem execAtsInvalidate_leavesMem (fn : FnId) (tag : BitVec 5) (s : State) : leavesMem s (execAtsInvalidate fn tag s) := by
  simp [execAtsInvalidate]

@[simp] theorem execMsixVectorUnmask_leavesMem (fn : FnId) (vector : BitVec 8) (s : State) : leavesMem s (execMsixVectorUnmask fn vector s) := by
  simp [execMsixVectorUnmask]

/-! ### Machine/Vector.lean -/

@[simp] theorem State.vec_mem (s : State) (n op sub : Nat) (flips : List (Nat × Nat)) : (s.vec n op sub flips).mem = s.mem := by
  unfold State.vec
  split
  · rfl
  · next h => exact State.take_done_mem h
  · next h => simp [State.take_ok_mem h]

@[simp] theorem execDot_leavesMem (core : CoreId) (flips : List (Nat × Nat)) (s : State) : leavesMem s (execDot core flips s) := by simp [execDot]

@[simp] theorem execEwAdd_leavesMem (core : CoreId) (flips : List (Nat × Nat)) (s : State) : leavesMem s (execEwAdd core flips s) := by
  simp [execEwAdd]

@[simp] theorem execEwSub_leavesMem (core : CoreId) (flips : List (Nat × Nat)) (s : State) : leavesMem s (execEwSub core flips s) := by
  simp [execEwSub]

@[simp] theorem execEwMul_leavesMem (core : CoreId) (flips : List (Nat × Nat)) (s : State) : leavesMem s (execEwMul core flips s) := by
  simp [execEwMul]

@[simp] theorem execEwFma_leavesMem (core : CoreId) (flips : List (Nat × Nat)) (s : State) : leavesMem s (execEwFma core flips s) := by
  simp [execEwFma]

@[simp] theorem execEwMin_leavesMem (core : CoreId) (flips : List (Nat × Nat)) (s : State) : leavesMem s (execEwMin core flips s) := by
  simp [execEwMin]

@[simp] theorem execEwMax_leavesMem (core : CoreId) (flips : List (Nat × Nat)) (s : State) : leavesMem s (execEwMax core flips s) := by
  simp [execEwMax]

@[simp] theorem execEwCmp_leavesMem (core : CoreId) (flips : List (Nat × Nat)) (s : State) : leavesMem s (execEwCmp core flips s) := by
  simp [execEwCmp]

@[simp] theorem execEwSel_leavesMem (core : CoreId) (flips : List (Nat × Nat)) (s : State) : leavesMem s (execEwSel core flips s) := by
  simp [execEwSel]

@[simp] theorem execFnRcp_leavesMem (core : CoreId) (flips : List (Nat × Nat)) (s : State) : leavesMem s (execFnRcp core flips s) := by
  simp [execFnRcp]

@[simp] theorem execFnRsqrt_leavesMem (core : CoreId) (flips : List (Nat × Nat)) (s : State) : leavesMem s (execFnRsqrt core flips s) := by
  simp [execFnRsqrt]

@[simp] theorem execFnExp_leavesMem (core : CoreId) (flips : List (Nat × Nat)) (s : State) : leavesMem s (execFnExp core flips s) := by
  simp [execFnExp]

@[simp] theorem execFnLog_leavesMem (core : CoreId) (flips : List (Nat × Nat)) (s : State) : leavesMem s (execFnLog core flips s) := by
  simp [execFnLog]

@[simp] theorem execFnTanh_leavesMem (core : CoreId) (flips : List (Nat × Nat)) (s : State) : leavesMem s (execFnTanh core flips s) := by
  simp [execFnTanh]

@[simp] theorem execFnLogistic_leavesMem (core : CoreId) (flips : List (Nat × Nat)) (s : State) : leavesMem s (execFnLogistic core flips s) := by
  simp [execFnLogistic]

@[simp] theorem execFnErf_leavesMem (core : CoreId) (flips : List (Nat × Nat)) (s : State) : leavesMem s (execFnErf core flips s) := by
  simp [execFnErf]

@[simp] theorem execCvt_leavesMem (core : CoreId) (flips : List (Nat × Nat)) (s : State) : leavesMem s (execCvt core flips s) := by simp [execCvt]

@[simp] theorem execStatSum_leavesMem (core : CoreId) (flips : List (Nat × Nat)) (s : State) : leavesMem s (execStatSum core flips s) := by
  simp [execStatSum]

@[simp] theorem execStatSumsq_leavesMem (core : CoreId) (flips : List (Nat × Nat)) (s : State) : leavesMem s (execStatSumsq core flips s) := by
  simp [execStatSumsq]

@[simp] theorem execStatMax_leavesMem (core : CoreId) (flips : List (Nat × Nat)) (s : State) : leavesMem s (execStatMax core flips s) := by
  simp [execStatMax]

@[simp] theorem execPack3_leavesMem (core : CoreId) (flips : List (Nat × Nat)) (s : State) : leavesMem s (execPack3 core flips s) := by
  simp [execPack3]

/-! ### Machine/Huller.lean -/

@[simp] theorem State.hulAccept_mem (s : State) (n op : Nat) (mine : Cmd → Bool) : (s.hulAccept n op mine).mem = s.mem := by
  unfold State.hulAccept
  split
  · rfl
  · next h => exact State.take_done_mem h
  · next h => simp [State.take_ok_mem h]

@[simp] theorem execAttn_leavesMem (core : CoreId) (s : State) : leavesMem s (execAttn core s) := by simp [execAttn]
@[simp] theorem execDotv_leavesMem (core : CoreId) (s : State) : leavesMem s (execDotv core s) := by simp [execDotv]
@[simp] theorem execRedSum_leavesMem (core : CoreId) (s : State) : leavesMem s (execRedSum core s) := by simp [execRedSum]
@[simp] theorem execRedMax_leavesMem (core : CoreId) (s : State) : leavesMem s (execRedMax core s) := by simp [execRedMax]
@[simp] theorem execRedMin_leavesMem (core : CoreId) (s : State) : leavesMem s (execRedMin core s) := by simp [execRedMin]
@[simp] theorem execFill_leavesMem (core : CoreId) (s : State) : leavesMem s (execFill core s) := by simp [execFill]

@[simp] theorem execBankTaskSlotTake_leavesMem (core : CoreId) (slice : Fin 8) (s : State) : leavesMem s (execBankTaskSlotTake core slice s) := by
  unfold execBankTaskSlotTake
  dsimp only
  repeat' split
  all_goals simp

@[simp] theorem execBankTaskAdmit_leavesMem (core : CoreId) (bank : Fin 32) (s : State) : leavesMem s (execBankTaskAdmit core bank s) := by
  unfold execBankTaskAdmit
  dsimp only
  repeat' split
  all_goals simp

@[simp] theorem execEnvelopeVerifyDone_leavesMem (core : CoreId) (s : State) : leavesMem s (execEnvelopeVerifyDone core s) := by
  unfold execEnvelopeVerifyDone
  dsimp only
  repeat' split
  all_goals simp

/-! ### Machine/Pins.lean -/

@[simp] theorem execInputSag_leavesMem (s : State) : leavesMem s (execInputSag s) := by simp [execInputSag]
@[simp] theorem execStandbyStageStart_leavesMem (s : State) : leavesMem s (execStandbyStageStart s) := by simp [execStandbyStageStart]

/-! ### Machine/Spdm.lean -/

@[simp] theorem State.spdm_mem (s : State) (code : Nat) (data : List Byte) : (s.spdm code data).mem = s.mem := by rfl
@[simp] theorem State.spdmError_mem (s : State) (code : Nat) : (s.spdmError code).mem = s.mem := by rfl
@[simp] theorem execGetVersion_leavesMem (s : State) : leavesMem s (execGetVersion s) := by simp [execGetVersion]
@[simp] theorem execGetCapabilities_leavesMem (s : State) : leavesMem s (execGetCapabilities s) := by simp [execGetCapabilities]
@[simp] theorem execNegotiateAlgorithms_leavesMem (s : State) : leavesMem s (execNegotiateAlgorithms s) := by simp [execNegotiateAlgorithms]
@[simp] theorem execGetDigests_leavesMem (s : State) : leavesMem s (execGetDigests s) := by simp [execGetDigests]

@[simp] theorem execGetCertificate_leavesMem (slot offset len : Nat) (s : State) : leavesMem s (execGetCertificate slot offset len s) := by
  simp [execGetCertificate]

@[simp] theorem execChallenge_leavesMem (slot : Nat) (nonce : List Byte) (s : State) : leavesMem s (execChallenge slot nonce s) := by
  simp [execChallenge]

@[simp] theorem execGetMeasurements_leavesMem (index : Nat) (s : State) : leavesMem s (execGetMeasurements index s) := by
  unfold execGetMeasurements
  repeat' split
  all_goals simp

@[simp] theorem execSpdmUnsupportedRequest_leavesMem (code : BitVec 8) (s : State) : leavesMem s (execSpdmUnsupportedRequest code s) := by
  simp [execSpdmUnsupportedRequest]

/-! ### Machine/Step.lean -/

@[simp] theorem State.withFetchWord_mem (s : State) (nbits w : Nat) : (s.withFetchWord nbits w).mem = s.mem := by rfl
/-! ## What keeps the canonical form of memory

The state functions and the commands that may write memory, file by file of the model: a state function `f` by `f_memWf`, a command `execX` by
`execX_endsWf`. Where `split` or `extract_lets` stand in the way of a shorter proof, they keep the kernel from comparing two states by evaluation. -/

/-- The canonical form of memory holds of the outcome, where it is a next state. -/
def endsWf (o : Outcome State Fault Refusal) : Prop := ∀ t, o = .next t → memWf t.mem = true

@[simp] theorem endsWf_next (t : State) : endsWf (.next t) ↔ memWf t.mem = true := by
  simp [endsWf]

@[simp] theorem endsWf_ite (c : Prop) [Decidable c] (a b : Outcome State Fault Refusal) :
    endsWf (if c then a else b) ↔ if c then endsWf a else endsWf b := by split <;> rfl

/-- An operation that leaves memory keeps its form. -/
theorem leavesMem.endsWf {s : State} {o : Outcome State Fault Refusal} (ho : leavesMem s o) (h : memWf s.mem = true) : endsWf o :=
  fun t ht => (congrArg memWf (ho t ht)).trans h

@[simp] theorem State.after_memWf {s : State} {o : Outcome State Fault Refusal} (h : memWf s.mem = true) (ho : Machine.endsWf o) :
    memWf (s.after o).mem = true := by
  cases o with
  | next t => exact ho t rfl
  | fault | refused => exact h

@[simp] theorem memWf_ite (c : Prop) [Decidable c] (a b : List Host.Cell) :
    memWf (if c then a else b) = if c then memWf a else memWf b :=
  apply_ite memWf c a b

/-- A loop whose every turn keeps the form keeps it. -/
@[simp] theorem State.foldl_memWf {α : Type} {f : State → α → State} {s : State} (h : memWf s.mem = true)
    (hf : ∀ s x, memWf s.mem = true → memWf (f s x).mem = true) (l : List α) : memWf (l.foldl f s).mem = true := by
  induction l generalizing s with
  | nil => exact h
  | cons x l ih => exact ih (hf s x h)

/-! The writes of State keep the form (`State.wrMarked_memWf` and its kin), said so that `simp` uses it. -/

@[simp] theorem memWf_wrMarked {s : State} (h : memWf s.mem = true) (a : Nat) (bs : List (Byte × Bool)) : memWf (s.wrMarked a bs).mem = true :=
  s.wrMarked_memWf a bs h
@[simp] theorem memWf_wr {s : State} (h : memWf s.mem = true) (a : Nat) (bs : List Byte) : memWf (s.wr a bs).mem = true := s.wr_memWf a bs h
@[simp] theorem memWf_zeroRange {s : State} (h : memWf s.mem = true) (a n : Nat) : memWf (s.zeroRange a n).mem = true := s.zeroRange_memWf a n h
@[simp] theorem memWf_spWrite {s : State} (h : memWf s.mem = true) (p off : Nat) (bs : List Byte) : memWf (s.spWrite p off bs).mem = true :=
  s.spWrite_memWf p off bs h

theorem endsWf.ite {c : Prop} [Decidable c] {a b : Outcome State Fault Refusal} (ha : endsWf a) (hb : endsWf b) :
    endsWf (if c then a else b) := by
  split
  · exact ha
  · exact hb

theorem State.ite_memWf {c : Prop} [Decidable c] {a b : State} (ha : memWf a.mem = true) (hb : memWf b.mem = true) :
    memWf (if c then a else b).mem = true := by
  split
  · exact ha
  · exact hb

@[simp] theorem State.host_mem (s : State) (x : HostSt) : ({ s with host := x } : State).mem = s.mem := rfl

/-! ### Machine/EccOps.lean -/

@[simp] theorem State.goneBad_memWf {s : State} (h : memWf s.mem = true) (addr : Nat) : memWf (s.goneBad addr).mem = true := memWf_memSetN h

@[simp] theorem State.eccRead_memWf {s : State} (h : memWf s.mem = true) (addr : Nat) (e : Ecc) (src part : Nat) :
    memWf (s.eccRead addr e src part).mem = true := by
  unfold State.eccRead
  repeat' split
  all_goals simp [h]

@[simp] theorem State.ssRead_memWf {s : State} (h : memWf s.mem = true) (addr : Nat) (e : Ecc) (part : Nat) :
    memWf (s.ssRead addr e part).1.mem = true := by
  unfold State.ssRead
  dsimp only
  repeat' split
  all_goals simp [h]

/-! ### Machine/CoreOps.lean -/

@[simp] theorem State.spoil_memWf {s : State} (h : memWf s.mem = true) (w : Wrote) : memWf (s.spoil w).mem = true := by
  unfold State.spoil
  split
  · simp [h]
  · exact memWf_memSetN h

@[simp] theorem State.spoilSteps_memWf {s : State} (h : memWf s.mem = true) (ring : Nat) (steps : List Nat) :
    memWf (s.spoilSteps ring steps).mem = true := by
  simp +contextual [State.spoilSteps, h]

/-! ### Machine/MoveOps.lean -/

@[simp] theorem State.wrCells_memWf {s : State} (h : memWf s.mem = true) (cells : List (Nat × Byte × Bool)) :
    memWf (s.wrCells cells).mem = true := by
  simp +contextual [State.wrCells, h]

@[simp] theorem State.deliver_memWf {s : State} (h : memWf s.mem = true) (m : Move) (cells : List (Nat × Byte × Bool)) :
    memWf (s.deliver m cells).mem = true := by
  simp only [State.deliver, State.onMove_mem]
  refine State.foldl_memWf ?_ (fun s r hs => by simpa using hs) _
  refine State.foldl_memWf ?_ (fun s r hs => by simp [hs]) _
  refine State.foldl_memWf ?_ (fun s g hs => by simpa using hs) _
  refine State.foldl_memWf ?_ (fun s g hs => by simp [hs]) _
  split
  · refine State.foldl_memWf ?_ (fun s r hs => by simpa using hs) _
    split <;> simp [h]
  · split <;> simp [h]

@[simp] theorem State.zeroPads_memWf {s : State} (h : memWf s.mem = true) (c : Contrib) (pads : List Nat) :
    memWf (s.zeroPads c pads).mem = true := by
  simp [State.zeroPads, h]

@[simp] theorem State.sendContribs_memWf {s : State} (h : memWf s.mem = true) (cs : List Contrib) (id : Option Nat) :
    memWf (s.sendContribs cs id).mem = true := by
  simp only [State.sendContribs]
  refine State.foldl_memWf (State.foldl_memWf ?_ (fun s c hs => State.zeroPads_memWf hs ..) _) (fun s c hs => ?_) _
  · exact h
  · refine State.zeroPads_memWf ?_ ..
    split <;> simpa using hs

@[simp] theorem State.performMove_memWf {s : State} (h : memWf s.mem = true) (m : Move) : memWf (s.performMove m).mem = true := by
  unfold State.performMove
  extract_lets +onlyGivenNames rd
  split
  extract_lets +onlyGivenNames denied
  clear_value denied
  split
  · simpa using h
  · extract_lets +onlyGivenNames s1 s2 s3 its nr nw cnt s4
    have hcnt (t : State) (a b k : Nat) : (cnt t a b k).mem = t.mem := by
      simp only [cnt]
      split
      · rfl
      · split <;> simp
    have h3 : memWf s3.mem = true := by
      simp only [s3]
      split <;> simpa [s2, s1] using h
    clear_value s3 cnt
    split
    extract_lets +onlyGivenNames anyChaff s5 s6 issuer stage
    have h6 : memWf s6.mem = true := by simpa [s6, s5, s4, hcnt] using h3
    have hstage (t : State) (l) : (stage t l).mem = t.mem := rfl
    clear_value s6 stage
    refine State.ite_memWf ?_ ?_
    · extract_lets +onlyGivenNames all struck s7 cs
      have h7 : memWf s7.mem = true := by
        simp only [s7]
        split <;> simpa using h6
      exact State.ite_memWf (by rwa [hstage]) (State.sendContribs_memWf h7 ..)
    · extract_lets +onlyGivenNames s7 o s8 s9
      have h7 : memWf s7.mem = true := by simpa [s7, hcnt] using h6
      have h9 : memWf s9.mem = true := by
        refine State.ite_memWf (c := o.bad.isEmpty = true) h7 ?_
        split <;> simpa [s8, hcnt] using h7
      clear_value s9
      split
      extract_lets +onlyGivenNames s10
      have h10 : memWf s10.mem = true := State.foldl_memWf h9 (fun s k hs => by simpa using hs) _
      exact State.ite_memWf (by rwa [hstage]) (State.deliver_memWf h10 ..)

@[simp] theorem State.advanceMove_memWf {s : State} (h : memWf s.mem = true) (id : Nat) : memWf (s.advanceMove id).mem = true := by
  simp only [State.advanceMove]
  split
  · exact h
  · repeat' split
    all_goals simp [h]

@[simp] theorem State.acceptMove_memWf {s : State} (h : memWf s.mem = true) (core ring : Option Nat) (part step : Nat) (cmd : Cmd)
    (op sub : Nat) (det : Bool) (src dst : Desc) (idx : Option Desc) (perm : List Nat) (overlap need : Nat) (chaff : Bool) (flips : List
    (Nat × Nat)) (entry : Option ErrPlace) :
    memWf (s.acceptMove core ring part step cmd op sub det src dst idx perm overlap need chaff flips entry).mem = true := by
  simp [State.acceptMove, h]

/-! ### Machine/SyncOps.lean -/

@[simp] theorem State.signalLocal_memWf {s : State} (h : memWf s.mem = true) (a : Nat) (set : Bool) (v : Nat) (chaff : Bool) :
    memWf (s.signalLocal a set v chaff).mem = true := by
  simp [State.signalLocal, h]

/-! ### Machine/StreamOps.lean -/

@[simp] theorem State.setCtx_memWf {s : State} (h : memWf s.mem = true) (k : Nat) (c : Ctx) : memWf (s.setCtx k c).mem = true := by
  simp [State.setCtx, h]

@[simp] theorem State.setMdl_memWf {s : State} (h : memWf s.mem = true) (i : Nat) (b : List Byte) : memWf (s.setMdl i b).mem = true := by
  simp [State.setMdl, h]

@[simp] theorem State.mdlStreams_memWf {s : State} (h : memWf s.mem = true) (i n : Nat) : memWf (s.mdlStreams i n).mem = true := by
  simp [State.mdlStreams, h]

@[simp] theorem State.mdlUp_memWf {s : State} (h : memWf s.mem = true) (i : Nat) : memWf (s.mdlUp i).mem = true := by simp [State.mdlUp, h]
@[simp] theorem State.mdlDown_memWf {s : State} (h : memWf s.mem = true) (i : Nat) : memWf (s.mdlDown i).mem = true := by simp [State.mdlDown, h]

/-! ### Machine/ReshardOps.lean -/

@[simp] theorem State.rshCopy_memWf {s : State} (h : memWf s.mem = true) (m : Move) (c : Nat × Nat × Nat) : memWf (s.rshCopy m c).mem = true := by
  simp [State.rshCopy, h]

@[simp] theorem State.rshStream_memWf {s : State} (h : memWf s.mem = true) (p : Nat) (plan : List (Nat × Nat × Nat)) :
    memWf (s.rshStream p plan).mem = true := by
  simp +contextual [State.rshStream, h]

/-! ### Machine/SafeOps.lean -/

@[simp] theorem State.rshHolds_memWf {s : State} (h : memWf s.mem = true) (p n : Nat) : memWf (s.rshHolds p n).mem = true := by
  induction n generalizing s with
  | zero => exact h
  | succ n ih =>
    unfold State.rshHolds
    split
    · exact h
    · split
      · exact h
      · dsimp only
        split
        · split
          · simp [h]
          · exact ih (by simp [h])
        · exact State.foldl_memWf (by simp [h]) (fun s c hs => State.rshStream_memWf hs p c) _

@[simp] theorem State.rshWake_memWf {s : State} (h : memWf s.mem = true) : memWf (s.rshWake).mem = true :=
  State.foldl_memWf h (fun _ _ hs => State.rshHolds_memWf hs _ _) _

/-! ### Machine/RingOps.lean -/

@[simp] theorem State.putCpl_memWf {s : State} (h : memWf s.mem = true) (r : Nat) (c : CplRec) : memWf (s.putCpl r c).mem = true := by
  unfold State.putCpl
  split <;> simp [h]

@[simp] theorem State.writeCpl_memWf {s : State} (h : memWf s.mem = true) (r : Nat) (c : CplRec) : memWf (s.writeCpl r c).mem = true := by
  simp [State.writeCpl, h]

@[simp] theorem State.flushCpl_memWf {s : State} (h : memWf s.mem = true) (r n : Nat) : memWf (s.flushCpl r n).mem = true := by
  induction n generalizing s with
  | zero => exact h
  | succ n ih =>
    unfold State.flushCpl
    split
    · exact h
    · split
      · exact h
      · split
        · simp [h]
        · exact ih (by simp [h])

@[simp] theorem State.onHeld_memWf {s : State} (h : memWf s.mem = true) (ring : Nat) (o : OpenStep) (f : Ctx → Ctx) :
    memWf (s.onHeld ring o f).mem = true := by
  simp +contextual [State.onHeld, h]

@[simp] theorem State.releaseHolds_memWf {s : State} (h : memWf s.mem = true) (ring : Nat) (o : OpenStep) :
    memWf (s.releaseHolds ring o).mem = true := by
  simp [State.releaseHolds, h]

@[simp] theorem State.dropSteps_memWf {s : State} (h : memWf s.mem = true) (r : Nat) (gone : List OpenStep) :
    memWf (s.dropSteps r gone).mem = true := by
  simp only [State.dropSteps, State.ringState_mem]
  refine State.rshWake_memWf ?_
  rw [State.onRing_mem]
  refine State.foldl_memWf ?_ (fun s o hs => State.releaseHolds_memWf hs ..) _
  simp [h]

@[simp] theorem State.flushLate_memWf {s : State} (h : memWf s.mem = true) (r : Nat) (now : Bool) : memWf (s.flushLate r now).mem = true := by
  unfold State.flushLate
  dsimp only
  repeat' split
  all_goals simp -implicitDefEqProofs +contextual [h]

@[simp] theorem State.cancelFrom_memWf {s : State} (h : memWf s.mem = true) (r step status core soft : Nat) (at_ : Option ErrPlace) :
    memWf (s.cancelFrom r step status core soft at_).mem = true := by
  unfold State.cancelFrom
  split
  · exact h
  · simp only [State.halt_mem]
    refine State.flushLate_memWf ?_ ..
    rw [State.onRing_mem]
    refine State.dropSteps_memWf ?_ ..
    exact State.flushLate_memWf h ..

@[simp] theorem State.terminate_memWf {s : State} (h : memWf s.mem = true) (r : Nat) (o : OpenStep) (status : Nat) :
    memWf (s.terminate r o status).mem = true := by
  simp [State.terminate, h]

@[simp] theorem State.commitStep_memWf {s : State} (h : memWf s.mem = true) (r : Nat) (o : OpenStep) : memWf (s.commitStep r o).mem = true := by
  simp only [State.commitStep, State.ringState_mem]
  refine State.rshWake_memWf (State.writeCpl_memWf ?_ ..)
  rw [State.onRing_mem]
  split
  · rw [State.fadd_mem]
    exact State.terminate_memWf (by exact h) ..
  · refine State.onHeld_memWf ?_ ..
    exact h

@[simp] theorem State.unreadyRing_memWf {s : State} (h : memWf s.mem = true) (r : Nat) : memWf (s.unreadyRing r).mem = true := by
  simp only [State.unreadyRing, State.halt_mem]
  exact State.foldl_memWf (State.dropSteps_memWf (State.flushLate_memWf h ..) ..) (fun s x hs => State.writeCpl_memWf hs ..) _

@[simp] theorem State.unready_memWf {s : State} (h : memWf s.mem = true) (kind id : Nat) (f : FaultRec) :
    memWf (s.unready kind id f).mem = true := by
  simp +contextual [State.unready, h]

/-! ### Machine/Links.lean -/

@[simp] theorem State.laneFail_memWf {s : State} (h : memWf s.mem = true) (plot : Nat) (inward : Bool) (lane : Nat) :
    memWf (s.laneFail plot inward lane).mem = true := by
  have hswap := s.laneSwap_mem plot inward lane
  unfold State.laneFail
  split
  · next hs => simp_all
  · next t hs =>
    have ht : memWf t.mem = true := by simp_all
    refine State.unready_memWf ?_ ..
    simp only [State.almanac_mem, State.fset_mem]
    split <;> simpa using ht

@[simp] theorem execHeadlandFlitReceive_endsWf {s : State} (h : memWf s.mem = true) (plot : PlotId) (inward : Bool) (lane : Nat)
    (flit : HlFlit) (got : List Byte) :
    endsWf (execHeadlandFlitReceive plot inward lane flit got s) := by
  simp [execHeadlandFlitReceive, h]

@[simp] theorem execMeshFlitReceive_endsWf {s : State} (h : memWf s.mem = true) (fid : FieldId) (flit : MeshFlit) :
    endsWf (execMeshFlitReceive fid flit s) := by
  unfold execMeshFlitReceive
  repeat' split
  all_goals simp [h]

/-! ### Machine/Replay.lean -/

@[simp] theorem State.poisonLedger_memWf {s : State} (h : memWf s.mem = true) (r : Nat) (o : OpenStep) : memWf (s.poisonLedger r o).mem = true := by
  simp +contextual [State.poisonLedger, h]

@[simp] theorem State.closeExported_memWf {s : State} (h : memWf s.mem = true) (r : Nat) (o : OpenStep) :
    memWf (s.closeExported r o).mem = true := by
  simp [State.closeExported, h]

@[simp] theorem execFaultConfirmed_endsWf {s : State} (h : memWf s.mem = true) : endsWf (execFaultConfirmed s) := by
  unfold execFaultConfirmed
  dsimp only
  repeat' split
  all_goals simp [h]

@[simp] theorem State.undoLedger_memWf {s : State} (h : memWf s.mem = true) (r : Nat) (o : OpenStep) : memWf (s.undoLedger r o).mem = true := by
  simp only [State.undoLedger, State.onStep_mem]
  exact State.foldl_memWf (State.foldl_memWf h (fun s e hs => State.signalLocal_memWf hs ..) _) (fun s x hs => by simpa using hs) _

@[simp] theorem execReplayRestored_endsWf {s : State} (h : memWf s.mem = true) (ring : RingId) : endsWf (execReplayRestored ring s) := by
  have hundo : ∀ l : List OpenStep, memWf (l.foldl (fun (s : State) o => s.undoLedger ring o) s).mem = true :=
    fun l => State.foldl_memWf h (fun s o hs => State.undoLedger_memWf hs ..) l
  simp only [execReplayRestored]
  split
  · simpa using h
  · split
    · exact (endsWf_next _).mpr (hundo _)
    · simp only [endsWf_next, State.ringState_mem, State.onRing_mem, State.fadd_mem]
      exact hundo _

/-! ### Machine/Reshard.lean -/

@[simp] theorem State.rshPlace_memWf {s : State} (h : memWf s.mem = true) (p : Nat) : memWf (s.rshPlace p).mem = true := by
  simp [State.rshPlace, h]

@[simp] theorem execRshStart_endsWf {s : State} (h : memWf s.mem = true) (p : PartId) : endsWf (execRshStart p s) := by
  -- The equation is taken of the function, not of its value: the kernel would evaluate the command list at START.
  have hf : execRshStart = delta% execRshStart := rfl
  have hr := congrFun (congrFun hf p) s
  beta_reduce at hr
  rw [hr]
  refine endsWf.ite (by simpa using h) (endsWf.ite (by simpa using h) (endsWf.ite ?_ ?_))
  · simp [h]
  · split
    · simp -implicitDefEqProofs [h]
    · simp -implicitDefEqProofs [h]

@[simp] theorem execRshJobPlace_endsWf {s : State} (h : memWf s.mem = true) : endsWf (execRshJobPlace s) := by
  unfold execRshJobPlace
  split <;> simp [h]

@[simp] theorem State.rshRelease_memWf {s : State} (h : memWf s.mem = true) (j : RshJob) : memWf (s.rshRelease j).mem = true := by
  simp +contextual [State.rshRelease, h]

@[simp] theorem State.rshUndefined_memWf {s : State} (h : memWf s.mem = true) (j : RshJob) : memWf (s.rshUndefined j).mem = true := by
  simp only [State.rshUndefined]
  refine State.foldl_memWf (State.foldl_memWf ?_ (fun s c hs => memWf_memSetN hs) _) (fun s o hs => ?_) _
  · exact h
  · split
    · exact memWf_memSetN hs
    · exact hs

@[simp] theorem State.rshAbortNow_memWf {s : State} (h : memWf s.mem = true) (p code : Nat) : memWf (s.rshAbortNow p code).mem = true := by
  unfold State.rshAbortNow
  split <;> simp [h]

@[simp] theorem State.rshAbortWith_memWf {s : State} (h : memWf s.mem = true) (p code : Nat) : memWf (s.rshAbortWith p code).mem = true := by
  unfold State.rshAbortWith
  split <;> simp [h]

@[simp] theorem execRshAbort_endsWf {s : State} (h : memWf s.mem = true) (p : PartId) : endsWf (execRshAbort p s) := by simp [execRshAbort, h]

@[simp] theorem execRshMoveDone_endsWf {s : State} (h : memWf s.mem = true) (p : PartId) (mismatch : Nat) :
    endsWf (execRshMoveDone p mismatch s) := by
  simp only [execRshMoveDone]
  split
  · simpa using h
  · refine endsWf.ite (by simpa using h) (endsWf.ite (by simpa using h) (endsWf.ite (by simp [h]) ?_))
    simp only [endsWf_next, State.fset_mem, State.onRsh_mem]
    refine State.foldl_memWf (by simpa using h) (fun s m hs => ?_) _
    exact State.ite_memWf (State.ite_memWf (by simpa using hs) (by simp [hs])) (by simpa using hs)

@[simp] theorem State.rshFinish_memWf {s : State} (h : memWf s.mem = true) (j : RshJob) : memWf (s.rshFinish j).mem = true := by
  unfold State.rshFinish
  extract_lets t
  have ht : memWf t.mem = true := State.foldl_memWf h (fun s e hs => State.ite_memWf (by simpa using hs)
    (State.mdlUp_memWf (State.mdlDown_memWf (State.setCtx_memWf (by simpa using hs) ..) _) _)) _
  refine State.ite_memWf ht ?_
  rw [State.rshEnd_mem]
  exact State.foldl_memWf ht (fun s f hs => State.spWrite_memWf s _ _ _ hs) _

@[simp] theorem execRshWaitDone_endsWf {s : State} (h : memWf s.mem = true) (p : PartId) : endsWf (execRshWaitDone p s) := by
  unfold execRshWaitDone
  split <;> simp [h]

@[simp] theorem execRshTimeout_endsWf {s : State} (h : memWf s.mem = true) (p : PartId) : endsWf (execRshTimeout p s) := by
  unfold execRshTimeout
  split <;> simp [h]

/-! ### Machine/Rings.lean -/

@[simp] theorem execCplHeadWrite_endsWf {s : State} (h : memWf s.mem = true) (ring : RingId) (val : W32) : endsWf (execCplHeadWrite ring val s) := by
  simp [execCplHeadWrite, h]

@[simp] theorem State.resetRing_memWf {s : State} (h : memWf s.mem = true) (r : Nat) : memWf (s.resetRing r).mem = true := by
  simp [State.resetRing, h]

@[simp] theorem execRingReset_endsWf {s : State} (h : memWf s.mem = true) (ring : RingId) : endsWf (execRingReset ring s) := by
  simp [execRingReset, h]

@[simp] theorem execRingResume_endsWf {s : State} (h : memWf s.mem = true) (ring : RingId) : endsWf (execRingResume ring s) := by
  simp [execRingResume, h]

/-! ### Machine/ResetOps.lean -/

@[simp] theorem State.deviceFallow_memWf {s : State} (h : memWf s.mem = true) (d : Nat) : memWf (s.deviceFallow d).mem = true := by
  simp [State.deviceFallow, h]

@[simp] theorem State.coldReset_memWf {s : State} (h : memWf s.mem = true) : memWf (s.coldReset).mem = true := by simp [State.coldReset, h]
@[simp] theorem State.warmReset_memWf {s : State} (h : memWf s.mem = true) : memWf (s.warmReset).mem = true := by simp [State.warmReset, h]

@[simp] theorem State.hostReset_memWf {s : State} (h : memWf s.mem = true) : memWf (s.hostReset).mem = true := by
  simp +contextual [State.hostReset, h]

@[simp] theorem State.takeReset_memWf {s : State} (h : memWf s.mem = true) (cold : Bool) (bits : Nat) :
    memWf (s.takeReset cold bits).mem = true := by
  simp [State.takeReset, h]

/-! ### Machine/BlockReset.lean -/

@[simp] theorem State.blkField_memWf {s : State} (h : memWf s.mem = true) (fid : Nat) : memWf (s.blkField fid).mem = true := by
  simp only [State.blkField, State.resetField_mem]
  refine State.foldl_memWf h (fun s x hs => ?_) _
  split
  · exact State.cancelFrom_memWf hs ..
  · exact hs

@[simp] theorem State.blkReset_memWf {s : State} (h : memWf s.mem = true) (b : BlkJob) (forced : Bool) : memWf (s.blkReset b forced).mem = true := by
  simp only [State.blkReset, State.event_mem, State.almanac_mem, State.blkResult_mem]
  split
  · exact State.blkField_memWf (by exact h) _
  · simpa using h
  · rw [State.host_mem]
    exact State.hostReset_memWf (by exact h)
  · simpa using h
  · exact State.foldl_memWf (by exact h) (fun s p hs => State.rshAbortNow_memWf hs ..) _

@[simp] theorem execBlockIdleReached_endsWf {s : State} (h : memWf s.mem = true) : endsWf (execBlockIdleReached s) := by
  unfold execBlockIdleReached
  split <;> simp [h]

@[simp] theorem execBlockIdleTimeout_endsWf {s : State} (h : memWf s.mem = true) : endsWf (execBlockIdleTimeout s) := by
  unfold execBlockIdleTimeout
  split <;> simp [h]

/-! ### Machine/Control.lean -/

@[simp] theorem execWorkItemEnd_endsWf {s : State} (h : memWf s.mem = true) (core : CoreId) : endsWf (execWorkItemEnd core s) := by
  unfold execWorkItemEnd
  dsimp only
  repeat' split
  all_goals simp [h]

/-! ### Machine/Moves.lean -/

@[simp] theorem State.moveCmd_memWf {s : State} (h : memWf s.mem = true) (n op sub : Nat) (flips : List (Nat × Nat)) :
    memWf (s.moveCmd n op sub flips).mem = true := by
  unfold State.moveCmd
  split
  · exact h
  · next ht => simpa [State.take_done_mem ht] using h
  · next t _ _ ht =>
    have ht : memWf t.mem = true := by simp [State.take_ok_mem ht, h]
    refine State.ite_memWf (by simpa using ht) ?_
    dsimp only
    split
    · simpa using ht
    · simpa using ht
    · refine State.ite_memWf h ?_
      simp [ht]

@[simp] theorem execCopy_endsWf {s : State} (h : memWf s.mem = true) (core : CoreId) (flips : List (Nat × Nat)) :
    endsWf (execCopy core flips s) := by
  simp [execCopy, h]

@[simp] theorem execTcopy_endsWf {s : State} (h : memWf s.mem = true) (core : CoreId) (flips : List (Nat × Nat)) :
    endsWf (execTcopy core flips s) := by
  simp [execTcopy, h]

@[simp] theorem execGather_endsWf {s : State} (h : memWf s.mem = true) (core : CoreId) (flips : List (Nat × Nat)) :
    endsWf (execGather core flips s) := by
  simp [execGather, h]

@[simp] theorem execScatterReplace_endsWf {s : State} (h : memWf s.mem = true) (core : CoreId) (flips : List (Nat × Nat)) :
    endsWf (execScatterReplace core flips s) := by
  simp [execScatterReplace, h]

@[simp] theorem execScatterAdd_endsWf {s : State} (h : memWf s.mem = true) (core : CoreId) (flips : List (Nat × Nat)) :
    endsWf (execScatterAdd core flips s) := by
  simp [execScatterAdd, h]

@[simp] theorem execScatterMax_endsWf {s : State} (h : memWf s.mem = true) (core : CoreId) (flips : List (Nat × Nat)) :
    endsWf (execScatterMax core flips s) := by
  simp [execScatterMax, h]

@[simp] theorem execScatterMin_endsWf {s : State} (h : memWf s.mem = true) (core : CoreId) (flips : List (Nat × Nat)) :
    endsWf (execScatterMin core flips s) := by
  simp [execScatterMin, h]

@[simp] theorem execDrill_endsWf {s : State} (h : memWf s.mem = true) (core : CoreId) (flips : List (Nat × Nat)) :
    endsWf (execDrill core flips s) := by
  simp [execDrill, h]

@[simp] theorem execStagingSpaceGrant_endsWf {s : State} (h : memWf s.mem = true) : endsWf (execStagingSpaceGrant s) := by
  unfold execStagingSpaceGrant
  split <;> simp [h]

@[simp] theorem execGranaryDrillGrant_endsWf {s : State} (h : memWf s.mem = true) : endsWf (execGranaryDrillGrant s) := by
  unfold execGranaryDrillGrant
  split <;> simp [h]

/-! ### Machine/Sync.lean -/

@[simp] theorem State.signalCmd_memWf {s : State} (h : memWf s.mem = true) (n : Nat) (set : Bool) (mismatch : Nat) :
    memWf (s.signalCmd n set mismatch).mem = true := by
  unfold State.signalCmd
  split
  · exact h
  · split
    · exact h
    · next ht => simpa [State.take_done_mem ht] using h
    · next ht => simp [State.take_ok_mem ht, h]

@[simp] theorem execSignalAdd_endsWf {s : State} (h : memWf s.mem = true) (core : CoreId) (mismatch : Nat) :
    endsWf (execSignalAdd core mismatch s) := by
  simp [execSignalAdd, h]

@[simp] theorem execSignalSet_endsWf {s : State} (h : memWf s.mem = true) (core : CoreId) (mismatch : Nat) :
    endsWf (execSignalSet core mismatch s) := by
  simp [execSignalSet, h]

/-! ### Machine/Entries.lean -/

@[simp] theorem State.entryErr_memWf {s : State} (h : memWf s.mem = true) (r : Nat) (e : List Byte) (status : Nat) :
    memWf (s.entryErr r e status).mem = true := by
  unfold State.entryErr
  dsimp only
  repeat' split
  all_goals simp [h]

theorem State.headEntry_done_memWf {s t : State} {r : Nat} {mine : Nat → Bool} {given : List Byte} (h : memWf s.mem = true)
    (he : s.headEntry r mine given = .done t) : memWf t.mem = true := by
  unfold State.headEntry at he
  dsimp only at he
  repeat' split at he
  all_goals cases he
  all_goals simp [h]

theorem State.takeEntry_done_memWf {s t : State} {r : Nat} {mine : Nat → Bool} {given : List Byte} (h : memWf s.mem = true)
    (he : s.takeEntry r mine given = .done t) : memWf t.mem = true := by
  unfold State.takeEntry at he
  split at he
  · cases he
    simp [h]
  · split at he
    · exact State.headEntry_done_memWf h he
    · cases he

@[simp] theorem State.resolveEntry_memWf {s : State} (h : memWf s.mem = true) (r step model a : Nat) :
    memWf (s.resolveEntry r step model a).mem = true := by
  -- The equation is taken of the function, not of its value: the kernel would evaluate the lookup of the table.
  have hf : State.resolveEntry = delta% State.resolveEntry := rfl
  have hr := congrFun (congrFun (congrFun (congrFun (congrFun hf s) r) step) model) a
  beta_reduce at hr
  extract_lets p at hr
  rw [hr]
  rcases hq : s.spRead p a 8 with _ | b
  · exact h
  · refine State.spWrite_memWf _ _ _ _ (State.spWrite_memWf _ _ _ _ (State.ite_memWf ?_ ?_))
    · simp [h]
    · simpa using h

theorem State.resolveEntries_memWf {s : State} (h : memWf s.mem = true) (r step model off : Nat) (l : List Nat) :
    memWf (l.foldl (fun (s : State) i => s.resolveEntry r step model (off + 16 + 16 * i)) s).mem = true := by
  induction l generalizing s with
  | nil => exact h
  | cons i l ih =>
    rw [List.foldl_cons]
    exact ih (State.resolveEntry_memWf h ..)

@[simp] theorem execDispatch_endsWf {s : State} (h : memWf s.mem = true) (ring : RingId) (bytes : List Byte) :
    endsWf (execDispatch ring bytes s) := by
  -- The equation is taken of the function, not of its value: the kernel would evaluate the entry.
  have hf : execDispatch = delta% execDispatch := rfl
  have hr := congrFun (congrFun (congrFun hf ring) bytes) s
  beta_reduce at hr
  rw [hr]
  extract_lets +onlyGivenNames r
  split
  · simpa using h
  · next he => exact (endsWf_next _).mpr (State.takeEntry_done_memWf h he)
  · extract_lets +onlyGivenNames p x first count model batch owned again kept before force s1
    have h1 : memWf s1.mem = true := by simpa [s1] using h
    clear_value s1 again force owned
    refine endsWf.ite (by simpa using h1) (endsWf.ite (by simp [h1]) (endsWf.ite (by simp [h1])
      (endsWf.ite (by simp [h1]) (endsWf.ite (by simp [h1]) ?_))))
    split
    · simp [h1]
    · refine endsWf.ite (by simpa using h1) ?_
      extract_lets +onlyGivenNames place s2 step s3 s4 s5
      have h4 : memWf s4.mem = true := by simpa [s4, s3, s2] using h1
      clear_value s4
      have h5 : memWf s5.mem = true :=
        State.ite_memWf h4 (State.resolveEntries_memWf h4 ..)
      exact endsWf.ite ((endsWf_next _).mpr h5) (by simpa using h5)

@[simp] theorem execCommitEntry_endsWf {s : State} (h : memWf s.mem = true) (ring : RingId) (bytes : List Byte) :
    endsWf (execCommitEntry ring bytes s) := by
  unfold execCommitEntry
  dsimp only
  split
  · simp [h]
  · next he => simpa using State.takeEntry_done_memWf h he
  · (repeat' split) <;> simp [h]

@[simp] theorem execFenceEntry_endsWf {s : State} (h : memWf s.mem = true) (ring : RingId) (bytes : List Byte) :
    endsWf (execFenceEntry ring bytes s) := by
  unfold execFenceEntry
  dsimp only
  split
  · simp [h]
  · next he => simpa using State.takeEntry_done_memWf h he
  · (repeat' split) <;> simp [h]

@[simp] theorem execNopEntry_endsWf {s : State} (h : memWf s.mem = true) (ring : RingId) (bytes : List Byte) :
    endsWf (execNopEntry ring bytes s) := by
  unfold execNopEntry
  dsimp only
  split
  · simp [h]
  · next he => simpa using State.takeEntry_done_memWf h he
  · (repeat' split) <;> simp [h]

@[simp] theorem execMark_endsWf {s : State} (h : memWf s.mem = true) (ring : RingId) (bytes : List Byte) : endsWf (execMark ring bytes s) := by
  unfold execMark
  dsimp only
  split
  · simp [h]
  · next he => simpa using State.takeEntry_done_memWf h he
  · (repeat' split) <;> simp [h]

@[simp] theorem execUnlistedEntryType_endsWf {s : State} (h : memWf s.mem = true) (ring : RingId) (bytes : List Byte) :
    endsWf (execUnlistedEntryType ring bytes s) := by
  unfold execUnlistedEntryType
  split
  · simp [h]
  · next he => simpa using State.takeEntry_done_memWf h he
  · simp [h]

@[simp] theorem execMoveEntry_endsWf {s : State} (h : memWf s.mem = true) (ring : RingId) (bytes : List Byte) :
    endsWf (execMoveEntry ring bytes s) := by
  unfold execMoveEntry
  dsimp only
  split
  · simp [h]
  · next he => simpa using State.takeEntry_done_memWf h he
  · (repeat' split) <;> simp [h]

@[simp] theorem execSemSignalEntry_endsWf {s : State} (h : memWf s.mem = true) (ring : RingId) (bytes : List Byte) (mismatch : Nat) :
    endsWf (execSemSignalEntry ring bytes mismatch s) := by
  unfold execSemSignalEntry
  dsimp only
  split
  · simp [h]
  · next he => simpa using State.takeEntry_done_memWf h he
  · (repeat' split) <;> simp [h]

@[simp] theorem execSemWaitEntry_endsWf {s : State} (h : memWf s.mem = true) (ring : RingId) (bytes : List Byte) :
    endsWf (execSemWaitEntry ring bytes s) := by
  unfold execSemWaitEntry
  dsimp only
  split
  · simp [h]
  · next he => simpa using State.takeEntry_done_memWf h he
  · (repeat' split) <;> simp [h]

@[simp] theorem execStepCommit_endsWf {s : State} (h : memWf s.mem = true) (ring : RingId) : endsWf (execStepCommit ring s) := by
  unfold execStepCommit
  split <;> simp [h]

@[simp] theorem execRingReadFail_endsWf {s : State} (h : memWf s.mem = true) (ring : RingId) : endsWf (execRingReadFail ring s) := by
  unfold execRingReadFail
  dsimp only
  repeat' split
  all_goals simp [h]

@[simp] theorem execCplWriteFail_endsWf {s : State} (h : memWf s.mem = true) (ring : RingId) : endsWf (execCplWriteFail ring s) := by
  unfold execCplWriteFail
  dsimp only
  repeat' split
  all_goals simp [h]

@[simp] theorem execCmdErrorReport_endsWf {s : State} (h : memWf s.mem = true) : endsWf (execCmdErrorReport s) := by
  unfold execCmdErrorReport
  dsimp only
  repeat' split
  all_goals simp [h]

/-! ### Machine/Observe.lean -/

@[simp] theorem execTraceRecordStore_endsWf {s : State} (h : memWf s.mem = true) (rec : TraceRec) (full : Bool) (held : Nat) :
    endsWf (execTraceRecordStore rec full held s) := by
  simp +contextual [execTraceRecordStore, h]

/-! ### Machine/Ecc.lean -/

@[simp] theorem execHarrowVaultRead_endsWf {s : State} (h : memWf s.mem = true) (core : CoreId) (word : Fin 8) (ecc : Ecc) (vbad : Bool) :
    endsWf (execHarrowVaultRead core word ecc vbad s) := by
  unfold execHarrowVaultRead
  dsimp only
  repeat' split
  all_goals simp [h]

@[simp] theorem execHarrowGranaryRead_endsWf {s : State} (h : memWf s.mem = true) (ecc : Ecc) : endsWf (execHarrowGranaryRead ecc s) := by
  unfold execHarrowGranaryRead
  dsimp only
  repeat' split
  all_goals simp [h]

@[simp] theorem execHarrowSeedstoreRead_endsWf {s : State} (h : memWf s.mem = true) (ecc : Ecc) : endsWf (execHarrowSeedstoreRead ecc s) := by
  unfold execHarrowSeedstoreRead
  dsimp only
  repeat' split
  all_goals simp [h]

@[simp] theorem execRetireCopyDone_endsWf {s : State} (h : memWf s.mem = true) : endsWf (execRetireCopyDone s) := by
  unfold execRetireCopyDone
  split <;> simp [h]

/-! ### Machine/Bins.lean -/

@[simp] theorem State.binCfg_memWf {s : State} (h : memWf s.mem = true) (k mode owner : Nat) : memWf (s.binCfg k mode owner).mem = true := by
  simp [State.binCfg, h]

@[simp] theorem execBinFreeToScratch_endsWf {s : State} (h : memWf s.mem = true) (k : BinId) (owner : PartId) :
    endsWf (execBinFreeToScratch k owner s) := by
  simp [execBinFreeToScratch, h]

@[simp] theorem execBinScratchToFree_endsWf {s : State} (h : memWf s.mem = true) (k : BinId) : endsWf (execBinScratchToFree k s) := by
  simp [execBinScratchToFree, h]

@[simp] theorem execBinFreeToCache_endsWf {s : State} (h : memWf s.mem = true) (k : BinId) : endsWf (execBinFreeToCache k s) := by
  simp [execBinFreeToCache, h]

@[simp] theorem execBinCacheToFree_endsWf {s : State} (h : memWf s.mem = true) (k : BinId) : endsWf (execBinCacheToFree k s) := by
  simp [execBinCacheToFree, h]

@[simp] theorem execSeedstoreAccess_endsWf {s : State} (h : memWf s.mem = true) (src : Src) (addr len : Nat) (write : Option (List Byte))
    (run : Nat) (ecc : Ecc) (crc : Nat) :
    endsWf (execSeedstoreAccess src addr len write run ecc crc s) := by
  unfold execSeedstoreAccess
  dsimp only
  repeat' split
  all_goals simp [h]

/-! ### Machine/Reduce.lean -/

@[simp] theorem State.combineHere_memWf {s : State} (h : memWf s.mem = true) (l : List DetItem) : memWf (s.combineHere l).mem = true := by
  simp +contextual [State.combineHere, h]

@[simp] theorem State.combineNow_memWf {s : State} (h : memWf s.mem = true) (cs : List Contrib) : memWf (s.combineNow cs).mem = true := by
  unfold State.combineNow
  split
  · exact h
  · refine State.foldl_memWf (State.ite_memWf ?_ ?_) (fun s c hs => State.zeroPads_memWf hs ..) _
    · simpa using h
    · exact State.combineHere_memWf h _

@[simp] theorem execCombineContribution_endsWf {s : State} (h : memWf s.mem = true) (mismatch : Nat) :
    endsWf (execCombineContribution mismatch s) := by
  unfold execCombineContribution
  extract_lets free
  split
  · simpa using h
  · extract_lets a vault same mine s1 s2 ok s3
    have h2 : memWf s2.mem = true := by
      refine State.foldl_memWf (by exact h) (fun s x hs => ?_) _
      split <;> simpa using hs
    have h3 : memWf s3.mem = true := State.combineNow_memWf h2 _
    refine endsWf.ite (by simpa using h) ((endsWf_next _).mpr (State.ite_memWf h3 ?_))
    exact State.foldl_memWf h3 (fun s x hs => by simpa using hs) _

@[simp] theorem State.detCombine_memWf {s : State} (h : memWf s.mem = true) (items : List DetItem) : memWf (s.detCombine items).mem = true := by
  unfold State.detCombine
  refine State.foldl_memWf ?_ (fun s x hs => State.ite_memWf (State.deliver_memWf hs ..) (State.sendContribs_memWf hs ..)) _
  refine State.foldl_memWf ?_ (fun s x hs => State.zeroPads_memWf hs ..) _
  refine State.combineHere_memWf ?_ _
  refine State.foldl_memWf h (fun s x hs => by simpa using hs) _

@[simp] theorem execDetScatterCombine_endsWf {s : State} (h : memWf s.mem = true) (ring : RingId) (mismatch : Nat) :
    endsWf (execDetScatterCombine ring mismatch s) := by
  unfold execDetScatterCombine
  dsimp only
  repeat' split
  all_goals simp [h]

/-! ### Machine/Packets.lean -/

@[simp] theorem State.doWrite_memWf {s : State} (h : memWf s.mem = true) (p : Packet) : memWf (s.doWrite p).mem = true := by simp [State.doWrite, h]

@[simp] theorem State.doSignal_memWf {s : State} (h : memWf s.mem = true) (p : Packet) (mismatch : Nat) :
    memWf (s.doSignal p mismatch).mem = true := by
  simp [State.doSignal, h]

@[simp] theorem State.doResponse_memWf {s : State} (h : memWf s.mem = true) (p : Packet) : memWf (s.doResponse p).mem = true := by
  unfold State.doResponse
  repeat' split
  all_goals simp [h]

@[simp] theorem State.txnLost_memWf {s : State} (h : memWf s.mem = true) (t : Txn) (port : Nat) : memWf (s.txnLost t port).mem = true := by
  unfold State.txnLost
  repeat' split
  all_goals simp [h]

@[simp] theorem State.perform_memWf {s : State} (h : memWf s.mem = true) (p : Packet) (from_ : Option Nat) (mismatch : Nat) :
    memWf (s.perform p from_ mismatch).mem = true := by
  unfold State.perform
  repeat' split
  all_goals simp [h]

@[simp] theorem State.arrive_memWf {s : State} (h : memWf s.mem = true) (port : Nat) (p : Packet) (mismatch : Nat) :
    memWf (s.arrive port p mismatch).mem = true := by
  simp [State.arrive, h]

@[simp] theorem State.receive_memWf {s : State} (h : memWf s.mem = true) (port : Nat) (b : List Byte) (type : Nat) (op : Option Nat)
    (mismatch : Nat) :
    memWf (s.receive port b type op mismatch).mem = true := by
  simp [State.receive, h]

@[simp] theorem execRdReq_endsWf {s : State} (h : memWf s.mem = true) (port : PortId) (pkt : List Byte) : endsWf (execRdReq port pkt s) := by
  simp [execRdReq, h]

@[simp] theorem execWr_endsWf {s : State} (h : memWf s.mem = true) (port : PortId) (pkt : List Byte) : endsWf (execWr port pkt s) := by
  simp [execWr, h]

@[simp] theorem execSignal_endsWf {s : State} (h : memWf s.mem = true) (port : PortId) (pkt : List Byte) (mismatch : Nat) :
    endsWf (execSignal port pkt mismatch s) := by
  simp [execSignal, h]

@[simp] theorem execCombine_endsWf {s : State} (h : memWf s.mem = true) (port : PortId) (pkt : List Byte) : endsWf (execCombine port pkt s) := by
  simp [execCombine, h]

@[simp] theorem execRdRsp_endsWf {s : State} (h : memWf s.mem = true) (port : PortId) (pkt : List Byte) : endsWf (execRdRsp port pkt s) := by
  simp [execRdRsp, h]

@[simp] theorem execCpl_endsWf {s : State} (h : memWf s.mem = true) (port : PortId) (pkt : List Byte) : endsWf (execCpl port pkt s) := by
  simp [execCpl, h]

@[simp] theorem execAbort_endsWf {s : State} (h : memWf s.mem = true) (port : PortId) (pkt : List Byte) : endsWf (execAbort port pkt s) := by
  simp [execAbort, h]

@[simp] theorem execSweepReq_endsWf {s : State} (h : memWf s.mem = true) (port : PortId) (pkt : List Byte) : endsWf (execSweepReq port pkt s) := by
  simp [execSweepReq, h]

@[simp] theorem execSweepRsp_endsWf {s : State} (h : memWf s.mem = true) (port : PortId) (pkt : List Byte) : endsWf (execSweepRsp port pkt s) := by
  simp [execSweepRsp, h]

@[simp] theorem execBreakNotice_endsWf {s : State} (h : memWf s.mem = true) (port : PortId) (pkt : List Byte) :
    endsWf (execBreakNotice port pkt s) := by
  simp [execBreakNotice, h]

@[simp] theorem execPacketRoute_endsWf {s : State} (h : memWf s.mem = true) (mismatch : Nat) : endsWf (execPacketRoute mismatch s) := by
  unfold execPacketRoute
  split <;> simp [h]

@[simp] theorem execOncResponseTimeout_endsWf {s : State} (h : memWf s.mem = true) (txn : Nat) : endsWf (execOncResponseTimeout txn s) := by
  unfold execOncResponseTimeout
  split <;> simp [h]

/-! ### Machine/Descriptors.lean -/

@[simp] theorem execDescCreate_endsWf {s : State} (h : memWf s.mem = true) (p : PartId) (index : BitVec 16) : endsWf (execDescCreate p index s) := by
  simp [execDescCreate, h]

/-! ### Machine/Streams.lean -/

@[simp] theorem execStrmOpen_endsWf {s : State} (h : memWf s.mem = true) (p : PartId) (id : BitVec 21) : endsWf (execStrmOpen p id s) := by
  simp [execStrmOpen, h]

@[simp] theorem execStrmClose_endsWf {s : State} (h : memWf s.mem = true) (p : PartId) (id : BitVec 21) : endsWf (execStrmClose p id s) := by
  simp [execStrmClose, h]

@[simp] theorem execMdlInstall_endsWf {s : State} (h : memWf s.mem = true) (p : PartId) (index : BitVec 12) : endsWf (execMdlInstall p index s) := by
  simp [execMdlInstall, h]

@[simp] theorem execMdlEvict_endsWf {s : State} (h : memWf s.mem = true) (p : PartId) (index : BitVec 12) : endsWf (execMdlEvict p index s) := by
  unfold execMdlEvict
  refine endsWf.ite (by simpa using h) (endsWf.ite (by simpa using h) (endsWf.ite (by simpa using h) ?_))
  rw [endsWf_next, State.fset_mem]
  exact State.setMdl_memWf (by simpa using h) ..

/-! ### Machine/Partition.lean -/

@[simp] theorem execPartDestroy_endsWf {s : State} (h : memWf s.mem = true) (index : PartId) : endsWf (execPartDestroy index s) := by
  unfold execPartDestroy
  extract_lets p bins s1 s2 s3 s4 s5 s6
  have h1 : memWf s1.mem = true := State.foldl_memWf h (fun s k hs => by simp [hs]) _
  have h2 : memWf s2.mem = true := by
    simp only [s2, State.verifyMdls_mem, State.foldl_mem State.ctxVerify_mem]
    exact h1
  have h3 : memWf s3.mem = true := State.foldl_memWf h2 (fun s k hs => State.mdlDown_memWf (State.setCtx_memWf hs ..) _) _
  have h4 : memWf s4.mem = true := State.foldl_memWf h3 (fun s k hs => State.setMdl_memWf hs ..) _
  refine endsWf.ite (by simpa using h) (endsWf.ite (by simpa using h) (endsWf.ite (by simpa using h2) ?_))
  simp -implicitDefEqProofs [s6, s5, h4]

/-! ### Machine/Power.lean -/

@[simp] theorem State.phaseFail_memWf {s : State} (h : memWf s.mem = true) (plot phase : Nat) : memWf (s.phaseFail plot phase).mem = true := by
  simp [State.phaseFail, h]

@[simp] theorem execPhaseFailShort_endsWf {s : State} (h : memWf s.mem = true) (plot : PlotId) (phase : Fin 96) :
    endsWf (execPhaseFailShort plot phase s) := by
  simp [execPhaseFailShort, h]

@[simp] theorem execPhaseFailOpen_endsWf {s : State} (h : memWf s.mem = true) (plot : PlotId) (phase : Fin 96) :
    endsWf (execPhaseFailOpen plot phase s) := by
  simp [execPhaseFailOpen, h]

/-! ### Machine/Reset.lean -/

@[simp] theorem execPwrOkRise_endsWf {s : State} (h : memWf s.mem = true) : endsWf (execPwrOkRise s) := by simp [execPwrOkRise, h]

@[simp] theorem execEmergencyCommitEnd_endsWf {s : State} (h : memWf s.mem = true) : endsWf (execEmergencyCommitEnd s) := by
  simp [execEmergencyCommitEnd, h]

@[simp] theorem execPerstAssert_endsWf {s : State} (h : memWf s.mem = true) : endsWf (execPerstAssert s) := by simp [execPerstAssert, h]
@[simp] theorem execWarmRstAssert_endsWf {s : State} (h : memWf s.mem = true) : endsWf (execWarmRstAssert s) := by simp [execWarmRstAssert, h]

@[simp] theorem execRstCtlCold_endsWf {s : State} (h : memWf s.mem = true) (key : BitVec 16) : endsWf (execRstCtlCold key s) := by
  simp [execRstCtlCold, h]

@[simp] theorem execRstCtlWarm_endsWf {s : State} (h : memWf s.mem = true) (key : BitVec 16) : endsWf (execRstCtlWarm key s) := by
  simp [execRstCtlWarm, h]

/-! ### Machine/Sleep.lean -/

@[simp] theorem State.leaveS4_memWf {s : State} (h : memWf s.mem = true) : memWf (s.leaveS4).mem = true := by
  simp only [State.leaveS4, State.refreshHif_mem, State.seedRegs_mem]
  exact memWf_filter _ (State.coldReset_memWf h)

@[simp] theorem State.sleepTarget_memWf {s : State} (h : memWf s.mem = true) (k : Nat) : memWf (s.sleepTarget k).mem = true := by
  simp [State.sleepTarget, h]

@[simp] theorem execSleepTargetS0_endsWf {s : State} (h : memWf s.mem = true) : endsWf (execSleepTargetS0 s) := by simp [execSleepTargetS0, h]
@[simp] theorem execSleepTargetS1_endsWf {s : State} (h : memWf s.mem = true) : endsWf (execSleepTargetS1 s) := by simp [execSleepTargetS1, h]
@[simp] theorem execSleepTargetS2_endsWf {s : State} (h : memWf s.mem = true) : endsWf (execSleepTargetS2 s) := by simp [execSleepTargetS2, h]
@[simp] theorem execSleepTargetS4_endsWf {s : State} (h : memWf s.mem = true) : endsWf (execSleepTargetS4 s) := by simp [execSleepTargetS4, h]

/-! ### Machine/Thermal.lean -/

@[simp] theorem execDiodeSubstitute_endsWf {s : State} (h : memWf s.mem = true) (core : CoreId) : endsWf (execDiodeSubstitute core s) := by
  simp [execDiodeSubstitute, h]

/-! ### Machine/Bring.lean -/

@[simp] theorem State.stepEndFailed_memWf {s : State} (h : memWf s.mem = true) (code detail : Nat) :
    memWf (s.stepEndFailed code detail).mem = true := by
  simp [State.stepEndFailed, h]

@[simp] theorem State.loadImage_memWf {s : State} (h : memWf s.mem = true) (i : Image) (slot : Nat) : memWf (s.loadImage i slot).mem = true := by
  simp +contextual [State.loadImage, h]

@[simp] theorem execStepSeed_endsWf {s : State} (h : memWf s.mem = true) (answered stale : BitVec 2) (a b r : SlotRead) :
    endsWf (execStepSeed answered stale a b r s) := by
  unfold execStepSeed
  refine endsWf.ite (by simpa using h) ?_
  extract_lets s1 s2 s3 s4 per s5
  have h3 : memWf s3.mem = true := State.zeroRange_memWf s1 _ _ (by simpa [s1] using h)
  have h4 : memWf s4.mem = true :=
    State.foldl_memWf h3 (fun s d hs => State.ite_memWf (State.deviceFallow_memWf hs d) hs) _
  have h5 : memWf s5.mem = true := by simpa [s5] using h4
  refine endsWf.ite (by simpa using h3) ?_
  split
  extract_lets s6 seed s7
  have h7 : memWf s7.mem = true := State.ite_memWf (c := _ = _) h5 (by simpa using h5)
  split
  · exact (endsWf_next _).mpr (State.loadImage_memWf h7 ..)
  · simpa using h7

@[simp] theorem execStepVault_endsWf {s : State} (h : memWf s.mem = true) (seedstore cal : Option Nat) : endsWf (execStepVault seedstore cal s) := by
  unfold execStepVault
  refine endsWf.ite (by simpa using h) ?_
  extract_lets cap t u v
  have ht : memWf t.mem = true := by simpa [t] using h
  have hu : memWf u.mem = true := State.zeroRange_memWf _ _ _ ht
  split
  · simpa using ht
  · simpa using ht
  · exact endsWf.ite ((endsWf_next _).mpr (by simp [v, hu])) ((endsWf_next _).mpr hu)

@[simp] theorem execBringStepDone_endsWf {s : State} (h : memWf s.mem = true) : endsWf (execBringStepDone s) := by
  unfold execBringStepDone
  split <;> simp [h]

@[simp] theorem execBringStepTimeout_endsWf {s : State} (h : memWf s.mem = true) : endsWf (execBringStepTimeout s) := by
  unfold execBringStepTimeout
  split <;> simp [h]

/-! ### Machine/Update.lean -/

@[simp] theorem execSlotVerifyDone_endsWf {s : State} (h : memWf s.mem = true) (read : SlotRead) (only : Option (Fin 2)) :
    endsWf (execSlotVerifyDone read only s) := by
  unfold execSlotVerifyDone
  repeat' split
  all_goals simp [h]

/-! ### Machine/Vault.lean -/

@[simp] theorem State.performMsg_memWf {s : State} (h : memWf s.mem = true) (n : Nat) (m : Msg) : memWf (s.performMsg n m).mem = true := by
  simp [State.performMsg, h]

@[simp] theorem State.serveMsg_memWf {s : State} (h : memWf s.mem = true) (n : Nat) (m : Msg) (pop : Core → Core) (turn : Nat) :
    memWf (s.serveMsg n m pop turn).mem = true := by
  simp [State.serveMsg, h]

@[simp] theorem execVaultBurst_endsWf {s : State} (h : memWf s.mem = true) (core : CoreId) (busy : BitVec 32) (records : Nat)
    (reads : List VaultRead) :
    endsWf (execVaultBurst core busy records reads s) := by
  unfold execVaultBurst
  dsimp only
  repeat' split
  all_goals simp [h]

/-! ### Machine/AccessOps.lean -/

@[simp] theorem State.writeBring_memWf {s : State} (h : memWf s.mem = true) (code : Nat) : memWf (s.writeBring code).mem = true := by
  unfold State.writeBring
  split <;> simp [h]

@[simp] theorem State.writeRingCtl_memWf {s : State} (h : memWf s.mem = true) (r : RingId) (w : Nat) : memWf (s.writeRingCtl r w).mem = true := by
  simp [State.writeRingCtl, h]

@[simp] theorem State.writeSleepCtl_memWf {s : State} (h : memWf s.mem = true) (w : Nat) : memWf (s.writeSleepCtl w).mem = true := by
  simp [State.writeSleepCtl, h]

/-- Every state the option holds has its memory in canonical form. -/
def someWf (o : Option State) : Prop := ∀ t, o = some t → memWf t.mem = true

@[simp] theorem someWf_none : someWf none := fun _ ht => nomatch ht

@[simp] theorem someWf_some (t : State) : someWf (some t) ↔ memWf t.mem = true := by simp [someWf]

@[simp] theorem someWf_ite (c : Prop) [Decidable c] (a b : Option State) :
    someWf (if c then a else b) ↔ if c then someWf a else someWf b := by split <;> rfl

theorem someWf.ite {c : Prop} [Decidable c] {a b : Option State} (ha : someWf a) (hb : someWf b) : someWf (if c then a else b) := by
  split
  · exact ha
  · exact hb

@[simp] theorem State.writeWork_someWf {s : State} (h : memWf s.mem = true) (r : RegDef) (i w : Nat) : someWf (s.writeWork r i w) := by
  unfold State.writeWork
  extract_lets w32 w64 ring part
  repeat' refine someWf.ite ?_ ?_
  all_goals try split
  all_goals simp [h]

@[simp] theorem State.writeModule_someWf {s : State} (h : memWf s.mem = true) (src : Src) (r : RegDef) (i w : Nat) :
    someWf (s.writeModule src r i w) := by
  unfold State.writeModule
  extract_lets w32 s1 field key plot
  have h1 : memWf s1.mem = true := by simpa [s1] using h
  repeat' refine someWf.ite ?_ ?_
  all_goals try split
  all_goals simp [h, h1]

@[simp] theorem State.write4_memWf {s : State} (h : memWf s.mem = true) (src : Src) (off v : Nat) : memWf (s.write4 src off v).mem = true := by
  unfold State.write4
  split
  · extract_lets lo w
    split
    · next ht => exact State.writeWork_someWf h _ _ _ _ ht
    · split
      · next ht => exact State.writeModule_someWf h _ _ _ _ _ ht
      · simpa using h
  · simpa using h

@[simp] theorem State.regWrite_memWf {s : State} (h : memWf s.mem = true) (src : Src) (off size v : Nat) :
    memWf (s.regWrite src off size v).mem = true := by
  unfold State.regWrite
  have hhalves : memWf ((s.write4 src off (v % 2 ^ 32)).write4 src (off + 4) (v / 2 ^ 32)).mem = true := by simp [h]
  refine State.ite_memWf (by simp [h]) ?_
  split
  · refine State.ite_memWf ?_ hhalves
    split
    · next ht => exact State.writeWork_someWf h _ _ _ _ ht
    · split
      · next ht => exact State.writeModule_someWf h _ _ _ _ _ ht
      · simpa using h
  · exact hhalves

/-! ### Machine/HostMem.lean -/

@[simp] theorem State.hostLook_memWf {s : State} (h : memWf s.mem = true) (fn a n : Nat) (ecc : List Ecc) :
    memWf (s.hostLook fn a n ecc).1.mem = true := by
  unfold State.hostLook
  split
  next t bad hfold =>
  have ht : memWf t.mem = true := by
    rw [show t = (t, bad).1 from rfl, ← hfold]
    refine List.foldlRecOn (motive := fun x : State × Bool => memWf x.1.mem = true) _ _ h (fun x hx g _ => ?_)
    dsimp only
    repeat' split
    · exact hx
    · simpa using State.ssRead_memWf hx ..
    · simpa using State.eccRead_memWf hx ..
  simpa using ht

@[simp] theorem State.hostStore_memWf {s : State} (h : memWf s.mem = true) (fn a : Nat) (cells : List (Nat × Byte × Bool)) :
    memWf (s.hostStore fn a cells).mem = true := by
  simp +contextual [State.hostStore, h]

@[simp] theorem State.hostRead_memWf {s : State} (h : memWf s.mem = true) (r : HostReq) (fn a n : Nat) (cxl : Bool) :
    memWf (s.hostRead r fn a n cxl).mem = true := by
  unfold State.hostRead
  split <;> simp [h]

@[simp] theorem State.hostWrite_memWf {s : State} (h : memWf s.mem = true) (r : HostReq) (a : Nat) (bytes : List Byte) (ep : Bool) :
    memWf (s.hostWrite r a bytes ep).mem = true := by
  unfold State.hostWrite
  split <;> simp [h]

@[simp] theorem State.hostAtomic_memWf {s : State} (h : memWf s.mem = true) (r : HostReq) (w : Nat) (cas128 : Bool) (f : Nat → Option (Nat × Bool)) :
    memWf (s.hostAtomic r w cas128 f).mem = true := by
  unfold State.hostAtomic
  dsimp only
  repeat' split
  all_goals simp [h]

@[simp] theorem State.cxlRead_memWf {s : State} (h : memWf s.mem = true) (r : HostReq) (a : Nat) (cacheable : Bool) :
    memWf (s.cxlRead r a cacheable).mem = true := by
  simp [State.cxlRead, h]

@[simp] theorem State.cxlWrite_memWf {s : State} (h : memWf s.mem = true) (r : HostReq) (a : Nat) (bytes : List Byte) (enable : BitVec 64)
    (poison : Bool) :
    memWf (s.cxlWrite r a bytes enable poison).mem = true := by
  unfold State.cxlWrite
  split <;> simp [h]

@[simp] theorem State.bar0Write_memWf {s : State} (h : memWf s.mem = true) (fn off size v : Nat) : memWf (s.bar0Write fn off size v).mem = true := by
  unfold State.bar0Write
  repeat' split
  all_goals simp [h]

@[simp] theorem State.hostPerform_memWf {s : State} (h : memWf s.mem = true) (r : HostReq) : memWf (s.hostPerform r).mem = true := by
  unfold State.hostPerform
  repeat' split
  all_goals simp [h]

@[simp] theorem State.hostStep_memWf {s : State} (h : memWf s.mem = true) : memWf (s.hostStep).mem = true := by
  unfold State.hostStep
  split <;> simp [h]

@[simp] theorem State.hostArrive_memWf {s : State} (h : memWf s.mem = true) (r : HostReq) : memWf (s.hostArrive r).mem = true := by
  simp [State.hostArrive, h]

@[simp] theorem State.idle_memWf {s : State} (h : memWf s.mem = true) : memWf (s.idle).mem = true := by
  unfold State.idle
  extract_lets t
  have ht : memWf t.mem = true := State.foldl_memWf (by exact h) (fun s x hs => State.flushLate_memWf hs ..) _
  exact State.hostStep_memWf (by simpa using ht)

/-! ### Machine/Access.lean -/

@[simp] theorem execDoorbell_endsWf {s : State} (h : memWf s.mem = true) (src : Src) (ring : RingId) (val : W32) :
    endsWf (execDoorbell src ring val s) := by
  unfold execDoorbell
  split <;> simp [h]

@[simp] theorem execRegisterWrite_endsWf {s : State} (h : memWf s.mem = true) (src : Src) (off size : Nat) (val : W64) :
    endsWf (execRegisterWrite src off size val s) := by
  unfold execRegisterWrite
  split <;> simp [h]

@[simp] theorem execLatchedLowRead_endsWf {s : State} (h : memWf s.mem = true) (src : Src) (off size : Nat) :
    endsWf (execLatchedLowRead src off size s) := by
  unfold execLatchedLowRead
  split <;> simp [h]

@[simp] theorem State.mctpWrite_memWf {s : State} (h : memWf s.mem = true) (op off size v : Nat) : memWf (s.mctpWrite op off size v).mem = true := by
  simp [State.mctpWrite, h]

@[simp] theorem execWrite32_endsWf {s : State} (h : memWf s.mem = true) (off : Nat) (val : W32) : endsWf (execWrite32 off val s) := by
  simp [execWrite32, h]

@[simp] theorem execWrite64_endsWf {s : State} (h : memWf s.mem = true) (off : Nat) (val : W64) : endsWf (execWrite64 off val s) := by
  simp [execWrite64, h]

/-! ### Machine/Almanac.lean -/

@[simp] theorem execAlmanacRecordWrite_endsWf {s : State} (h : memWf s.mem = true) (dev0 dev1 : Bool) :
    endsWf (execAlmanacRecordWrite dev0 dev1 s) := by
  unfold execAlmanacRecordWrite
  split <;> simp +contextual [h]

@[simp] theorem execAlmanacCompact_endsWf {s : State} (h : memWf s.mem = true) (region : Nat) : endsWf (execAlmanacCompact region s) := by
  unfold execAlmanacCompact
  refine endsWf.ite ?_ ?_
  · simp [h]
  · split
    · extract_lets early log last live size maps tight s1 keep aged keep2 alm0 a0 a1 s2 counts
      have h1 : memWf s1.mem = true := State.ite_memWf (State.unready_memWf h ..) h
      have h2 : memWf s2.mem = true := by simpa [s2] using h1
      exact endsWf.ite (by simpa using h) (endsWf.ite (by simpa using h2) (by simpa using h2))
    · simpa using h

/-! ### Machine/Host.lean -/

@[simp] theorem execHostMemRead_endsWf {s : State} (h : memWf s.mem = true) (fn : FnId) (addr len : Nat) (ecc : List Ecc) :
    endsWf (execHostMemRead fn addr len ecc s) := by
  simp [execHostMemRead, h]

@[simp] theorem execHostMemWrite_endsWf {s : State} (h : memWf s.mem = true) (fn : FnId) (addr : Nat) (bytes : List Byte) (ep : Bool) :
    endsWf (execHostMemWrite fn addr bytes ep s) := by
  simp [execHostMemWrite, h]

@[simp] theorem execHostFetchadd_endsWf {s : State} (h : memWf s.mem = true) (fn : FnId) (addr : Nat) (wide : Bool) (value : W64) (mismatch : Nat) :
    endsWf (execHostFetchadd fn addr wide value mismatch s) := by
  simp [execHostFetchadd, h]

@[simp] theorem execHostSwap_endsWf {s : State} (h : memWf s.mem = true) (fn : FnId) (addr : Nat) (wide : Bool) (value : W64) (mismatch : Nat) :
    endsWf (execHostSwap fn addr wide value mismatch s) := by
  simp [execHostSwap, h]

@[simp] theorem execHostCas_endsWf {s : State} (h : memWf s.mem = true) (fn : FnId) (addr : Nat) (width : BitVec 2) (cmp new : W64)
    (mismatch : Nat) :
    endsWf (execHostCas fn addr width cmp new mismatch s) := by
  simp [execHostCas, h]

@[simp] theorem execCxlMemRead_endsWf {s : State} (h : memWf s.mem = true) (line : Nat) (cacheable : Bool) (ecc : List Ecc) :
    endsWf (execCxlMemRead line cacheable ecc s) := by
  simp [execCxlMemRead, h]

@[simp] theorem execCxlMemWrite_endsWf {s : State} (h : memWf s.mem = true) (line : Nat) (bytes : List Byte) (enable : BitVec 64) (poison : Bool) :
    endsWf (execCxlMemWrite line bytes enable poison s) := by
  simp [execCxlMemWrite, h]

@[simp] theorem State.flushRings_memWf {s : State} (h : memWf s.mem = true) (rs : List Nat) : memWf (s.flushRings rs).mem = true :=
  State.foldl_memWf h (fun _ _ hs => State.flushCpl_memWf hs _ _) _

@[simp] theorem execHostLinkTrain_endsWf {s : State} (h : memWf s.mem = true) (width : Nat) (speed : Fin 6) (flit cxl : Bool) :
    endsWf (execHostLinkTrain width speed flit cxl s) := by
  simp [execHostLinkTrain, h]

@[simp] theorem State.ringAborted_memWf {s : State} (h : memWf s.mem = true) (r : Nat) : memWf (s.ringAborted r).mem = true := by
  simp [State.ringAborted, h]

@[simp] theorem State.hostDown_memWf {s : State} (h : memWf s.mem = true) : memWf (s.hostDown).mem = true := by simp +contextual [State.hostDown, h]
@[simp] theorem execHostLinkDown_endsWf {s : State} (h : memWf s.mem = true) : endsWf (execHostLinkDown s) := by simp [execHostLinkDown, h]
@[simp] theorem execVfFlr_endsWf {s : State} (h : memWf s.mem = true) (vf : Fin 32) : endsWf (execVfFlr vf s) := by simp +contextual [execVfFlr, h]
@[simp] theorem execPfFlr_endsWf {s : State} (h : memWf s.mem = true) : endsWf (execPfFlr s) := by simp [execPfFlr, h]
@[simp] theorem execD0Return_endsWf {s : State} (h : memWf s.mem = true) (fn : FnId) : endsWf (execD0Return fn s) := by simp [execD0Return, h]

/-! ### Machine/Huller.lean -/

@[simp] theorem execBankTaskEnd_endsWf {s : State} (h : memWf s.mem = true) (core : CoreId) (bank : Fin 32) (flips : List (Nat × Nat))
    (ecc : List (Nat × Ecc)) :
    endsWf (execBankTaskEnd core bank flips ecc s) := by
  unfold execBankTaskEnd
  extract_lets c part
  split
  · simpa using h
  extract_lets base o ra words before s1 ended bs once s2 q task bad count chaff torn good per struck rec s3 s4 s5
  have h1 : memWf s1.mem = true := State.foldl_memWf h (fun s e hs => State.ite_memWf (State.eccRead_memWf hs ..) hs) _
  have h2 : memWf s2.mem = true := by simpa [s2, once] using h1
  have h3 : memWf s3.mem = true := State.ite_memWf (by simpa using h1) h1
  have hended (t : State) : (ended t).mem = t.mem := by simp [ended]
  have h5 : memWf s5.mem = true := by simpa [s5, s4, hended] using h3
  refine endsWf.ite (by simpa using h) (endsWf.ite ?_ ?_)
  · simp [hended, h2]
  · exact endsWf.ite (by simpa using h5) (by simpa using h5)

/-! ### Machine/Pins.lean -/

@[simp] theorem execRefclkLoss_endsWf {s : State} (h : memWf s.mem = true) : endsWf (execRefclkLoss s) := by simp [execRefclkLoss, h]

@[simp] theorem execStandbyStageStop_endsWf {s : State} (h : memWf s.mem = true) : endsWf (execStandbyStageStop s) := by
  simp [execStandbyStageStop, h]

/-! ### The dispatch of commands and the step -/

/-- Every command keeps the form: the commands listed may write memory, each other command leaves it as it was. -/
theorem exec_endsWf {s : State} (h : memWf s.mem = true) (c : Instr) : endsWf (exec c s) := by
  cases c
  case registerWrite | latchedLowRead | workItemEnd | bankTaskEnd | copy | tcopy | gather | scatterReplace | scatterAdd | scatterMax | scatterMin |
    drill | stagingSpaceGrant | granaryDrillGrant | detScatterCombine | signalAdd | signalSet | vaultBurst | doorbell | cplHeadWrite | ringReset
    | ringResume | dispatch | commitEntry | stepCommit | moveEntry | fenceEntry | semSignalEntry | semWaitEntry | mark | nopEntry |
    unlistedEntryType | ringReadFail | cplWriteFail | cmdErrorReport | descCreate | binFreeToScratch | binScratchToFree | binFreeToCache |
    binCacheToFree | seedstoreAccess | combineContribution | strmOpen | strmClose | mdlInstall | mdlEvict | rshStart | rshAbort | rshJobPlace |
    rshMoveDone | rshWaitDone | rshTimeout | headlandFlitReceive | meshFlitReceive | rdReq | wr | signal | combine | rdRsp | cpl | abort |
    sweepReq | sweepRsp | breakNotice | packetRoute | oncResponseTimeout | faultConfirmed | replayRestored | harrowVaultRead | harrowGranaryRead
    | harrowSeedstoreRead | retireCopyDone | pwrOkRise | emergencyCommitEnd | perstAssert | warmRstAssert | rstCtlCold | rstCtlWarm | stepSeed |
    stepVault | bringStepDone | bringStepTimeout | blockIdleReached | blockIdleTimeout | slotVerifyDone | almanacRecordWrite | almanacCompact |
    phaseFailShort | phaseFailOpen | diodeSubstitute | sleepTargetS0 | sleepTargetS1 | sleepTargetS2 | sleepTargetS4 | write32 | write64 |
    traceRecordStore | hostMemRead | hostMemWrite | hostFetchadd | hostSwap | hostCas | cxlMemRead | cxlMemWrite | hostLinkTrain | hostLinkDown
    | vfFlr | pfFlr | d0Return | partDestroy | refclkLoss | standbyStageStop =>
    simp [exec, h]
  all_goals exact leavesMem.endsWf (by simp [exec]) h

/-- Settles O56: the form is an invariant of every command and of the idle step. -/
theorem memoryKeepsItsForm : Obligations.MemoryKeepsItsForm := by
  intro s t h hstep
  unfold step at hstep
  split at hstep
  · cases hstep
    exact State.idle_memWf h
  · next c rest _ => exact exec_endsWf (s := { s with pending := rest }) h c t hstep

end Sys2Proof.Machine

namespace Sys2Proof.Machine
open Host (Outcome)

/-! ## Register fields of different registers -/

/-- Fields of different numbers have different places in the register table, whatever their copies. -/
theorem Fld.key_ne_of_id {f g : Fld} (h : f.id % 1024 ≠ g.id % 1024) (i j : Nat) : f.key i ≠ g.key j := by
  unfold Fld.key
  omega

theorem State.fget_fset_of_id (s : State) {f g : Fld} (h : g.id % 1024 ≠ f.id % 1024) (i j v : Nat) :
    (s.fset f i v).fget g j = s.fget g j :=
  s.fget_fset_other f g i j v (Fld.key_ne_of_id h j i)

@[simp] theorem State.flag_eq_true (s : State) (f : Fld) (i : Nat) : s.flag f i = true ↔ s.fget f i ≠ 0 := decide_eq_true_iff
@[simp] theorem State.flag_eq_false (s : State) (f : Fld) (i : Nat) : s.flag f i = false ↔ s.fget f i = 0 := by
  simp [State.flag]

/-- A write of one field differs from the state before in that field only. -/
theorem State.regsOnly_fset (s : State) {f : Fld} {i : Nat} (v : Nat) {l : List (Fld × Nat)} (h : (f, i) ∈ l) : regsOnly s (s.fset f i v) l :=
  ⟨rfl, fun g j hg => s.fget_fset_other f g i j v (hg _ h)⟩

theorem regsOnly.trans {s t u : State} {l : List (Fld × Nat)} (h₁ : regsOnly s t l) (h₂ : regsOnly t u l) : regsOnly s u l := by
  obtain ⟨e₁, f₁⟩ := h₁
  obtain ⟨e₂, f₂⟩ := h₂
  refine ⟨?_, fun g j hg => (f₂ g j hg).trans (f₁ g j hg)⟩
  rw [e₂, e₁]

theorem regsOnly_refl (s : State) (l : List (Fld × Nat)) : regsOnly s s l := ⟨rfl, fun _ _ _ => rfl⟩

/-! ## Memory after zeroing and after a write -/

theorem alFind_filter_key {α : Type} (p : Nat → Bool) (l : List (Nat × α)) (x : Nat) :
    alFind (l.filter fun e => p e.1) x = if p x then alFind l x else none := by
  induction l with
  | nil => simp [alFind]
  | cons e t ih =>
    obtain ⟨k, v⟩ := e
    by_cases hk : k = x
    · subst hk
      by_cases hp : p k <;> simp_all [alFind]
    · by_cases hp : p k <;> simp_all [alFind]

theorem State.memGet_zeroRange (s : State) (a n x : Nat) :
    memGet (s.zeroRange a n).mem x = if a ≤ x ∧ x < a + n then 0 else memGet s.mem x := by
  have hf := alFind_filter_key (fun y => decide ¬ (a ≤ y ∧ y < a + n)) s.mem x
  simp only [memGet, alGet, State.zeroRange, hf]
  by_cases hx : a ≤ x ∧ x < a + n <;> simp [hx]

theorem memGet_memSetN_inside (bs : List Byte) (m : List Host.Cell) (a i : Nat) (h : i < bs.length) :
    memGet (memSetN m a bs) (a + i) = bs.getD i 0 := by
  induction bs generalizing m a i with
  | nil => simp at h
  | cons b t ih =>
    rw [memSetN]
    cases i with
    | zero => simp [memGet_memSetN_outside]
    | succ i => simpa [Nat.add_comm, Nat.add_left_comm] using ih (memSet m a b) (a + 1) i (by simpa using h)

/-- A write of clean bytes adds no chaff. -/
theorem chaffAfter_sublist (ch : List Nat) (a : Nat) {marks : List Bool} (h : ∀ b ∈ marks, b = false) :
    (chaffAfter ch a marks).Sublist ch := by
  unfold chaffAfter
  refine List.foldlRecOn (motive := fun c : List Nat => c.Sublist ch) _ _ (List.Sublist.refl _) (fun c hc g _ => ?_)
  have hclean : (List.take (granule g - (a - g)) (List.drop (g - a) marks)).any id = false := by
    rw [List.any_eq_false]
    intro b hb
    simp [h b (List.mem_of_mem_drop (List.mem_of_mem_take hb))]
  simp only [hclean]
  split
  · contradiction
  · split
    · exact List.filter_sublist.trans hc
    · exact hc

/-- Clean bytes are written where the seedstore chaff list is not over its bound and the address is in no retired unit (R415, R452). -/
theorem State.wr_mem (s : State) {a : Nat} (bs : List Byte) (hch : s.ssChaff ≤ 65536) (hgone : s.goneAt a = false) :
    (s.wr a bs).mem = memSetN s.mem a bs := by
  have hsub := chaffAfter_sublist s.chaff a (marks := (bs.map fun b => (b, false)).map Prod.snd) (by simp)
  have hlen := (hsub.filter fun x => decide (0x8000000000 ≤ x)).length_le
  have hroom : ¬ 65536 < ((chaffAfter s.chaff a ((bs.map fun b => (b, false)).map Prod.snd)).filter
      fun x => decide (0x8000000000 ≤ x)).length := by
    unfold State.ssChaff at hch
    omega
  unfold State.wr State.wrMarked
  rw [if_neg (fun h => hroom h.2), if_neg (by simp [hgone])]
  simp [Function.comp_def]

@[simp] theorem State.wr_out (s : State) (a : Nat) (bs : List Byte) : (s.wr a bs).out = s.out := by
  unfold State.wr State.wrMarked
  dsimp only
  repeat' split
  all_goals rfl

@[simp] theorem State.wr_partNo (s : State) (a : Nat) (bs : List Byte) : (s.wr a bs).partNo = s.partNo := by
  unfold State.wr State.wrMarked
  dsimp only
  repeat' split
  all_goals rfl

/-! ## Reaching the seedstore (R253 to R256, R599) -/

theorem State.ssTouch_frame (s : State) (line : Nat) (write whole : Bool) (run : Nat) :
    ∃ x, s.ssTouch line write whole run = { s with lines := x } := by
  unfold State.ssTouch
  dsimp only
  split
  · exact ⟨_, rfl⟩
  · split
    · exact ⟨s.lines, rfl⟩
    · exact ⟨_, rfl⟩

theorem State.ssTouchN_frame (s : State) (a n : Nat) (write : Bool) (run : Nat) : ∃ x, s.ssTouchN a n write run = { s with lines := x } := by
  unfold State.ssTouchN
  split
  · exact ⟨s.lines, rfl⟩
  · refine List.foldlRecOn (motive := fun t : State => ∃ x, t = { s with lines := x }) _ _ ⟨s.lines, rfl⟩ ?_
    rintro _ ⟨x, rfl⟩ i _
    obtain ⟨y, hy⟩ := State.ssTouch_frame { s with lines := x } ((a / 256 + i) * 256) write
      (decide (a ≤ (a / 256 + i) * 256 ∧ (a / 256 + i) * 256 + 256 ≤ a + n)) run
    exact ⟨y, hy⟩

theorem State.recall_frame (s : State) (a n : Nat) : ∃ x l, s.recall a n = { s with host := x, out := s.out ++ l } := by
  unfold State.recall
  dsimp only
  split
  · exact ⟨s.host, [], by simp⟩
  · exact ⟨_, _, rfl⟩

/-- Reaching bytes changes the cache lines, the host's lines and the outputs, and nothing else. -/
theorem State.reach_frame (s : State) (a n : Nat) (write : Bool) (run : Nat) :
    ∃ x y l, s.reach a n write run = { s with host := x, lines := y, out := s.out ++ l } := by
  unfold State.reach
  split
  · exact ⟨s.host, s.lines, [], by simp⟩
  · obtain ⟨x, l, hx⟩ := s.recall_frame a n
    obtain ⟨y, hy⟩ := (s.recall a n).ssTouchN_frame a n write run
    exact ⟨x, y, l, by rw [hy, hx]⟩

/-- Reads depend on memory and retired units only. -/
theorem State.rdN_congr {s t : State} (hmem : t.mem = s.mem) (hret : t.ret = s.ret) (a n : Nat) : t.rdN a n = s.rdN a n := by
  induction n generalizing a with
  | zero => rfl
  | succ n ih => simp [State.rdN, State.rd8, State.goneAt, hmem, hret, ih]

/-! ## Bin modes (R250, R251, Table 8-4) -/

theorem State.fget_binBegin (s : State) (k mode owner slot : Nat) (cache : Bool) (f : Fld) (i : Nat) :
    (s.binBegin k mode owner slot cache).fget f i =
      let t := (((s.fset F.grnBinCfg_BUSY k 1).fset F.grnBinCfg_MODE k mode).fset F.grnBinCfg_OWNER k owner).fset F.grnBinCfg_SLOT k slot
      if cache then (t.fset F.grnCacheStat_FLUSH 0 1).fget f i else t.fget f i := by
  cases cache <;> rfl

@[simp] theorem State.binBegin_mode (s : State) (k mode owner slot : Nat) (cache : Bool) :
    (s.binBegin k mode owner slot cache).fget F.grnBinCfg_MODE k = mode % 4 := by
  cases cache <;> simp (disch := decide) [State.fget_binBegin, State.fget_fset_of_id, F.grnBinCfg_MODE]

@[simp] theorem State.binBegin_owner (s : State) (k mode owner slot : Nat) (cache : Bool) :
    (s.binBegin k mode owner slot cache).fget F.grnBinCfg_OWNER k = owner % 32 := by
  cases cache <;> simp (disch := decide) [State.fget_binBegin, State.fget_fset_of_id, F.grnBinCfg_OWNER]

@[simp] theorem State.binBegin_slot (s : State) (k mode owner slot : Nat) (cache : Bool) :
    (s.binBegin k mode owner slot cache).fget F.grnBinCfg_SLOT k = slot % 64 := by
  cases cache <;> simp (disch := decide) [State.fget_binBegin, State.fget_fset_of_id, F.grnBinCfg_SLOT]

@[simp] theorem State.binBegin_busy (s : State) (k mode owner slot : Nat) (cache : Bool) :
    (s.binBegin k mode owner slot cache).fget F.grnBinCfg_BUSY k = 1 := by
  cases cache <;> simp (disch := decide) [State.fget_binBegin, State.fget_fset_of_id, F.grnBinCfg_BUSY]

@[simp] theorem State.binBegin_flush (s : State) (k mode owner slot : Nat) :
    (s.binBegin k mode owner slot true).fget F.grnCacheStat_FLUSH 0 = 1 := by
  simp [State.fget_binBegin, F.grnCacheStat_FLUSH]

@[simp] theorem State.fget_descLose (s : State) (p : Nat) (f : Fld) (i : Nat) : (s.descLose p).fget f i = s.fget f i := rfl

section
variable {s : State} {k owner : Nat}

theorem State.binCfg_freeToScratch (hm : s.fget F.grnBinCfg_MODE k = 0) (hb : s.flag F.grnBinCfg_BUSY k = false)
    (hp : (s.partOf owner).isSome = true) :
    s.binCfg k 2 owner = (s.zeroRange (binBase k) 0x1000000).binBegin k 2 owner (s.binsOf owner) false := by
  obtain ⟨x, hx⟩ := Option.isSome_iff_exists.mp hp
  simp only [State.binCfg, hm, hb]
  simp [hx]

theorem State.binCfg_scratchToFree (hm : s.fget F.grnBinCfg_MODE k = 2) (hb : s.flag F.grnBinCfg_BUSY k = false)
    (hslot : s.fget F.grnBinCfg_SLOT k + 1 = s.binsOf (s.fget F.grnBinCfg_OWNER k)) (hoff : s.ringsOff (s.fget F.grnBinCfg_OWNER k) = true) :
    s.binCfg k 0 0 = ((s.zeroRange (binBase k) 0x1000000).binBegin k 0 0 0 false).descLose (s.fget F.grnBinCfg_OWNER k) := by
  simp only [State.binCfg, hm, hb, hslot, hoff]
  simp

theorem State.binCfg_freeToCache (hm : s.fget F.grnBinCfg_MODE k = 0) (hb : s.flag F.grnBinCfg_BUSY k = false)
    (hf : s.flag F.grnCacheStat_FLUSH 0 = false) : s.binCfg k 1 0 = s.binBegin k 1 0 0 true := by
  simp only [State.binCfg, hm, hb, hf]
  simp

theorem State.binCfg_cacheToFree (hm : s.fget F.grnBinCfg_MODE k = 1) (hb : s.flag F.grnBinCfg_BUSY k = false)
    (hf : s.flag F.grnCacheStat_FLUSH 0 = false) : s.binCfg k 0 0 = s.binBegin k 0 0 0 true := by
  simp only [State.binCfg, hm, hb, hf]
  simp

theorem State.binCfg_busy (hm : s.fget F.grnBinCfg_MODE k = 0) (hb : s.flag F.grnBinCfg_BUSY k = true) :
    s.binCfg k 2 owner = s.fset F.grnBinCfg_ERR k 1 := by
  simp only [State.binCfg, hm, hb]
  simp [State.binErr]

end

section
variable {s : State} (k : BinId)

theorem binFreeToScratch_begins (o : PartId) (hm : s.fget F.grnBinCfg_MODE k = 0) (hb : s.flag F.grnBinCfg_BUSY k = false)
    (hp : (s.partOf o).isSome = true) :
    completes (.binFreeToScratch k o) s fun t =>
      t.fget F.grnBinCfg_MODE k = 2 ∧ t.fget F.grnBinCfg_OWNER k = o.val ∧ t.fget F.grnBinCfg_SLOT k = s.binsOf o % 64 ∧
      t.flag F.grnBinCfg_BUSY k = true ∧ (∀ i, i < 0x1000000 → t.rd8 (binBase k + i) = 0) ∧
      ∀ a, a < binBase k ∨ binBase k + 0x1000000 ≤ a → memGet t.mem a = memGet s.mem a := by
  refine ⟨s.binCfg k 2 o, rfl, ?_⟩
  rw [State.binCfg_freeToScratch hm hb hp]
  refine ⟨by simp, by simp, by simp, by simp, fun i hi => ?_, fun a ha => ?_⟩
  · have hzero : memGet (s.zeroRange (binBase k) 0x1000000).mem (binBase k + i) = 0 := by
      rw [State.memGet_zeroRange, if_pos (by omega)]
    rw [State.rd8, State.binBegin_mem, hzero, ite_self]
  · rw [State.binBegin_mem, State.memGet_zeroRange, if_neg (by omega)]

theorem binScratchToFree_begins (hm : s.fget F.grnBinCfg_MODE k = 2) (hb : s.flag F.grnBinCfg_BUSY k = false)
    (hslot : s.fget F.grnBinCfg_SLOT k + 1 = s.binsOf (s.fget F.grnBinCfg_OWNER k)) (hoff : s.ringsOff (s.fget F.grnBinCfg_OWNER k) = true) :
    completes (.binScratchToFree k) s fun t =>
      t.fget F.grnBinCfg_MODE k = 0 ∧ t.flag F.grnBinCfg_BUSY k = true ∧ (∀ i, i < 0x1000000 → memGet t.mem (binBase k + i) = 0) ∧
      ∀ a, a < binBase k ∨ binBase k + 0x1000000 ≤ a → memGet t.mem a = memGet s.mem a := by
  refine ⟨s.binCfg k 0 0, congrArg Outcome.next (if_pos hm), ?_⟩
  rw [State.binCfg_scratchToFree hm hb hslot hoff]
  refine ⟨by simp, by simp, fun i hi => ?_, fun a ha => ?_⟩
  · rw [State.descLose_mem, State.binBegin_mem, State.memGet_zeroRange, if_pos (by omega)]
  · rw [State.descLose_mem, State.binBegin_mem, State.memGet_zeroRange, if_neg (by omega)]

theorem binFreeToCache_begins (hm : s.fget F.grnBinCfg_MODE k = 0) (hb : s.flag F.grnBinCfg_BUSY k = false)
    (hf : s.flag F.grnCacheStat_FLUSH 0 = false) :
    completes (.binFreeToCache k) s fun t =>
      t.fget F.grnBinCfg_MODE k = 1 ∧ t.flag F.grnBinCfg_BUSY k = true ∧ t.flag F.grnCacheStat_FLUSH 0 = true ∧ t.mem = s.mem := by
  refine ⟨s.binCfg k 1 0, rfl, ?_⟩
  rw [State.binCfg_freeToCache hm hb hf]
  simp

theorem binCacheToFree_begins (hm : s.fget F.grnBinCfg_MODE k = 1) (hb : s.flag F.grnBinCfg_BUSY k = false)
    (hf : s.flag F.grnCacheStat_FLUSH 0 = false) :
    completes (.binCacheToFree k) s fun t =>
      t.fget F.grnBinCfg_MODE k = 0 ∧ t.flag F.grnBinCfg_BUSY k = true ∧ t.flag F.grnCacheStat_FLUSH 0 = true ∧ t.mem = s.mem := by
  refine ⟨s.binCfg k 0 0, congrArg Outcome.next (if_pos hm), ?_⟩
  rw [State.binCfg_cacheToFree hm hb hf]
  simp

theorem binFreeToScratch_refused_of_busy (o : PartId) (hb : s.flag F.grnBinCfg_BUSY k = true) (hm : s.fget F.grnBinCfg_MODE k = 0) :
    completes (.binFreeToScratch k o) s fun t => t.flag F.grnBinCfg_ERR k = true ∧ regsOnly s t [(F.grnBinCfg_ERR, k)] := by
  refine ⟨s.binCfg k 2 o, rfl, ?_⟩
  rw [State.binCfg_busy hm hb]
  exact ⟨by simp [F.grnBinCfg_ERR], s.regsOnly_fset 1 (by simp)⟩

theorem binTransitionDone_ends (hb : s.flag F.grnBinCfg_BUSY k = true) (hf : s.binFlushes k = false) :
    completes (.binTransitionDone k) s fun t =>
      t.flag F.grnBinCfg_BUSY k = false ∧ t.fget F.grnBinCfg_MODE k = s.fget F.grnBinCfg_MODE k ∧ t.mem = s.mem := by
  refine ⟨{ s with binMoves := alDel s.binMoves k }.fset F.grnBinCfg_BUSY k 0, ?_, by simp, ?_, rfl⟩
  · simp_all [exec, execBinTransitionDone]
  · exact State.fget_fset_of_id _ (by decide) ..

/-- The bins in CACHE mode are at most the 64 bins of the module. -/
theorem State.cacheBins_le (s : State) : ((List.range 64).filter fun k => s.fget F.grnBinCfg_MODE k = 1).length ≤ 64 := by
  simpa using List.length_filter_le (fun k => decide (s.fget F.grnBinCfg_MODE k = 1)) (List.range 64)

theorem cacheFlushDone_ends (hf : s.flag F.grnCacheStat_FLUSH 0 = true) :
    completes .cacheFlushDone s fun t =>
      t.flag F.grnCacheStat_FLUSH 0 = false ∧ t.lines = [] ∧ t.mem = s.mem ∧
      t.fget F.grnCacheStat_BINS 0 = ((List.range 64).filter fun k => s.fget F.grnBinCfg_MODE k = 1).length := by
  have hle := s.cacheBins_le
  have hne : (!s.flag F.grnCacheStat_FLUSH 0) ≠ true := by rw [hf]; decide
  refine ⟨_, (if_neg hne : execCacheFlushDone s = _), ?_, rfl, rfl, ?_⟩
  · rw [State.flag_eq_false, State.fget_fset_of_id _ (by decide)]
    simp
  · rw [State.fget_fset_same]
    exact Nat.mod_eq_of_lt (Nat.lt_of_le_of_lt hle (by decide))

end

/-! ## Accesses of the seedstore (R255, R276, R437) -/

section
variable {s : State} {addr : Nat}

theorem State.region_seedstore (hl : 0x8000000000 ≤ addr) (hu : addr < 0x8000000000 + s.partNo.capacity) :
    s.region addr = .seedstore (addr - 0x8000000000) := by
  have hcap : s.partNo.capacity ≤ 0x2000000000 := by cases s.partNo <;> decide
  rw [s.region_seedstore_window hl (by omega), if_pos (by omega)]

theorem State.region_beyond_seedstore (hl : s.partNo.capacity + 0x8000000000 ≤ addr) (hu : addr < 0xF000000000) :
    s.region addr = .unmapped := by
  rw [State.region, if_neg (by omega), if_neg (by omega), if_neg (by omega), if_neg (by omega)]

theorem seedstoreAccess_unmapped (src : Src) (len run : Nat) (h : s.region addr = .unmapped) :
    completes (.seedstoreAccess src addr len none run .clean 0) s fun t => t = s.emit (.answer src 2 []) := by
  refine ⟨_, ?_, rfl⟩
  simp [exec, execSeedstoreAccess, h]

variable {bs : List Byte} (hbs : bs ≠ []) (hl : 0x8000000000 ≤ addr) (hu : addr + bs.length ≤ 0x8000000000 + s.partNo.capacity)
include hbs hl hu

/-- The first and the last byte of an access within the populated seedstore lie in it. -/
theorem State.regions_seedstore : (∃ o, s.region addr = .seedstore o) ∧ ∃ o, s.region (addr + (max bs.length 1 - 1)) = .seedstore o := by
  have hpos := List.length_pos_iff.mpr hbs
  exact ⟨⟨_, s.region_seedstore hl (by omega)⟩, ⟨_, s.region_seedstore (by omega) (by omega)⟩⟩

theorem seedstoreAccess_writes (src : Src) (run : Nat) (hch : s.ssChaff ≤ 65536) (hgone : s.goneAt addr = false) :
    completes (.seedstoreAccess src addr bs.length (some bs) run .clean 0) s fun t =>
      s.partNo = t.partNo ∧ (∀ i, i < bs.length → memGet t.mem (addr + i) = bs.getD i 0) ∧
      (∀ a, a < addr ∨ addr + bs.length ≤ a → memGet t.mem a = memGet s.mem a) ∧ ∃ l, t.out = s.out ++ l ++ [.answer src 0 []] := by
  obtain ⟨⟨_, h₁⟩, ⟨_, h₂⟩⟩ := s.regions_seedstore hbs hl hu
  obtain ⟨x, y, l, hreach⟩ := s.reach_frame addr bs.length true run
  have hexec : exec (.seedstoreAccess src addr bs.length (some bs) run .clean 0) s =
      .next (((s.reach addr bs.length true run).wr addr bs).emit (.answer src 0 [])) := by
    simp [exec, execSeedstoreAccess, h₁, h₂, State.crcRetries, sliceB]
  have hmem : ((s.reach addr bs.length true run).wr addr bs).mem = memSetN s.mem addr bs := by
    rw [hreach]
    exact State.wr_mem _ bs hch hgone
  refine ⟨_, hexec, ?_, fun i hi => ?_, fun a ha => ?_, l, ?_⟩
  · exact (by rw [State.wr_partNo, hreach] : ((s.reach addr bs.length true run).wr addr bs).partNo = s.partNo).symm
  · rw [State.emit_mem, hmem, memGet_memSetN_inside bs s.mem addr i hi]
  · rw [State.emit_mem, hmem, memGet_memSetN_outside s.mem addr a ha]
  · simp only [State.emit, State.wr_out, hreach]

theorem seedstoreAccess_reads (src : Src) (run : Nat) :
    completes (.seedstoreAccess src addr bs.length none run .clean 0) s fun t =>
      t.mem = s.mem ∧ ∃ l x, t.out = s.out ++ l ++ [.answer src x (s.rdN addr bs.length)] := by
  obtain ⟨⟨_, h₁⟩, ⟨_, h₂⟩⟩ := s.regions_seedstore hbs hl hu
  obtain ⟨x, y, l, hreach⟩ := s.reach_frame addr bs.length false run
  have hdata : (s.reach addr bs.length false run).rdN addr bs.length = s.rdN addr bs.length :=
    State.rdN_congr (by rw [hreach]) (by rw [hreach]) ..
  have hexec : ∃ z, exec (.seedstoreAccess src addr bs.length none run .clean 0) s =
      .next ((s.reach addr bs.length false run).emit (.answer src z (s.rdN addr bs.length))) := by
    by_cases hline : (s.lines.any fun l => l.addr = addr / 256 * 256) = true
    · refine ⟨one ((List.range bs.length).any fun i => (s.reach addr bs.length false run).isChaff (addr + i)), ?_⟩
      simp [exec, execSeedstoreAccess, h₁, h₂, hline, hdata]
    · refine ⟨one (s.isChaff addr || (List.range bs.length).any fun i => (s.reach addr bs.length false run).isChaff (addr + i)), ?_⟩
      simp [exec, execSeedstoreAccess, h₁, h₂, hline, hdata, State.crcRetries, State.ssRead]
  obtain ⟨z, hexec⟩ := hexec
  refine ⟨_, hexec, by simp, l, z, ?_⟩
  simp only [State.emit, hreach]

end

/-! ## Collective windows (R265) -/

/-- The scratchpad of a partition does not depend on a field of another register than GRN_BIN_CFG. -/
theorem State.spHas_fset (s : State) {f : Fld} (h : f.id % 1024 ∉ [F.grnBinCfg_MODE.id, F.grnBinCfg_OWNER.id]) (i v p off n : Nat) :
    (s.fset f i v).spHas p off n = s.spHas p off n := by
  have hmode : ∀ k, (s.fset f i v).fget F.grnBinCfg_MODE k = s.fget F.grnBinCfg_MODE k := fun k =>
    s.fget_fset_of_id (fun e => h (by rw [← e]; decide)) ..
  have howner : ∀ k, (s.fset f i v).fget F.grnBinCfg_OWNER k = s.fget F.grnBinCfg_OWNER k := fun k =>
    s.fget_fset_of_id (fun e => h (by rw [← e]; decide)) ..
  unfold State.spHas State.binsOf
  simp only [hmode, howner]

/-- What a write to CWIN[i] does to ERR before its window is looked at (R8). -/
def State.cwinClear (s : State) (v i : Nat) : State := if bitAt v 62 then s.fset F.cwin_ERR i 0 else s

theorem State.cwinClear_regsOnly (s : State) (v i : Nat) {l : List (Fld × Nat)} (h : (F.cwin_ERR, i) ∈ l) : regsOnly s (s.cwinClear v i) l := by
  unfold State.cwinClear
  split
  · exact s.regsOnly_fset 0 h
  · exact regsOnly_refl s l

theorem State.cwinClear_spHas (s : State) (v i p off n : Nat) : (s.cwinClear v i).spHas p off n = s.spHas p off n := by
  unfold State.cwinClear
  split
  · exact s.spHas_fset (by decide) ..
  · rfl

section
variable {s : State} (p : PartId) (j : Fin 16) (val : W64)

theorem exec_cwinWrite_within (h : s.spHas p (bitsOf val.toNat 12 18 * 4096) (bitsOf val.toNat 30 18 * 4096) = true) :
    exec (.cwinWrite p j val) s =
      .next ((((s.cwinClear val.toNat (p.val * 16 + j.val)).fset F.cwin_VALID (p.val * 16 + j.val) (bitsOf val.toNat 63 1)).fset
        F.cwin_SIZE (p.val * 16 + j.val) (bitsOf val.toNat 30 18)).fset F.cwin_OFFSET (p.val * 16 + j.val) (bitsOf val.toNat 12 18)) := by
  rw [← s.cwinClear_spHas val.toNat (p.val * 16 + j.val)] at h
  exact if_neg (by rw [State.cwinClear] at h; simp [h])

theorem exec_cwinWrite_beyond (h : s.spHas p (bitsOf val.toNat 12 18 * 4096) (bitsOf val.toNat 30 18 * 4096) = false) :
    exec (.cwinWrite p j val) s =
      .next ((s.cwinClear val.toNat (p.val * 16 + j.val)).fset F.cwin_ERR (p.val * 16 + j.val) 1) := by
  rw [← s.cwinClear_spHas val.toNat (p.val * 16 + j.val)] at h
  exact if_pos (by rw [State.cwinClear] at h; simp [h])

theorem cwinWrite_within (h : s.spHas p (bitsOf val.toNat 12 18 * 4096) (bitsOf val.toNat 30 18 * 4096) = true) :
    completes (.cwinWrite p j val) s fun t =>
      t.fget F.cwin_OFFSET (p.val * 16 + j.val) = bitsOf val.toNat 12 18 ∧ t.fget F.cwin_SIZE (p.val * 16 + j.val) = bitsOf val.toNat 30 18 ∧
      t.fget F.cwin_VALID (p.val * 16 + j.val) = bitsOf val.toNat 63 1 ∧
      regsOnly s t [(F.cwin_OFFSET, p.val * 16 + j.val), (F.cwin_SIZE, p.val * 16 + j.val), (F.cwin_VALID, p.val * 16 + j.val),
        (F.cwin_ERR, p.val * 16 + j.val)] := by
  refine ⟨_, exec_cwinWrite_within p j val h, ?_, ?_, ?_, ?_⟩
  · rw [State.fget_fset_same]
    exact Nat.mod_mod _ _
  · rw [State.fget_fset_of_id _ (by decide), State.fget_fset_same]
    exact Nat.mod_mod _ _
  · rw [State.fget_fset_of_id _ (by decide), State.fget_fset_of_id _ (by decide), State.fget_fset_same]
    exact Nat.mod_mod _ _
  · exact (((s.cwinClear_regsOnly _ _ (by simp)).trans (State.regsOnly_fset _ _ (by simp))).trans
      (State.regsOnly_fset _ _ (by simp))).trans (State.regsOnly_fset _ _ (by simp))

theorem cwinWrite_beyond (h : s.spHas p (bitsOf val.toNat 12 18 * 4096) (bitsOf val.toNat 30 18 * 4096) = false) :
    completes (.cwinWrite p j val) s fun t =>
      t.flag F.cwin_ERR (p.val * 16 + j.val) = true ∧ regsOnly s t [(F.cwin_ERR, p.val * 16 + j.val)] := by
  refine ⟨_, exec_cwinWrite_beyond p j val h, ?_, ?_⟩
  · simp [F.cwin_ERR]
  · exact (s.cwinClear_regsOnly _ _ (by simp)).trans (State.regsOnly_fset _ _ (by simp))

end

/-- Settles O27: each clause by the lemma about its command. -/
theorem binsAndSeedstore : Obligations.BinsAndSeedstore := by
  intro s k o j val
  exact ⟨fun hm hb hp _ => binFreeToScratch_begins k o hm hb hp, binScratchToFree_begins k, binFreeToCache_begins k, binCacheToFree_begins k,
    binFreeToScratch_refused_of_busy k o, binTransitionDone_ends k, cacheFlushDone_ends,
    fun src _ run _ hbs hl hu hch hgone => ⟨seedstoreAccess_writes hbs hl hu src run hch hgone, seedstoreAccess_reads hbs hl hu src run⟩,
    fun src _ len run hl hu => seedstoreAccess_unmapped src len run (s.region_beyond_seedstore hl hu),
    cwinWrite_within o j val, cwinWrite_beyond o j val⟩

end Sys2Proof.Machine

namespace Sys2Proof.Machine
open Host (Outcome)

/-! ## Fences and waits of the front end (R54, R57, R135) -/

theorem State.onStep_frame (s : State) (ring : Option Nat) (step : Nat) (f : OpenStep → OpenStep) :
    ∃ x, s.onStep ring step f = { s with rings := x } := by
  cases ring with
  | none => exact ⟨_, rfl⟩
  | some r => exact ⟨_, rfl⟩

theorem State.consumeChaff_frame (s : State) (ring : Option Nat) (step : Nat) : ∃ x, s.consumeChaff ring step = { s with rings := x } :=
  s.onStep_frame ring step _

theorem State.ringState_frame (s : State) (r : Nat) : ∃ x y, s.ringState r = { s with regs := x, rings := y } := by
  unfold State.ringState
  dsimp only
  split
  · exact ⟨_, _, rfl⟩
  · exact ⟨_, _, rfl⟩

@[simp] theorem State.ringState_hold (s : State) (r : Nat) : ((s.ringState r).ring r).hold = (s.ring r).hold := by
  unfold State.ringState
  dsimp only
  split
  · simp
  · simp

/-- A ring whose fence or wait has ended goes on. -/
@[simp] theorem State.endHold_hold (s : State) (r step : Nat) : ((s.endHold r step).ring r).hold = none := by
  simp [State.endHold, State.onStep, Ring.onStep]

theorem State.endHold_frame (s : State) (r step : Nat) : ∃ x y, s.endHold r step = { s with regs := x, rings := y } := by
  obtain ⟨x, y, h⟩ := (((s.onRing r fun x => { x with hold := none }).onStep (some r) step fun o => { o with entries := o.entries - 1 })).ringState_frame r
  exact ⟨x, y, h⟩

theorem ringWait_ends {s : State} {r : RingId} {w : SemWait} (hw : s.waitOf (.ring r) = some w) (hm : s.waitMet w = true) :
    completes (.semWaitComplete (.ring r)) s fun t =>
      t.waits = s.waits.erase w ∧ (t.ring r).hold = none ∧ t.mem = s.mem ∧ t.errQ = s.errQ := by
  let ch := w.met.getD (s.semValue w.sem = poison || s.isChaff w.sem)
  let gone : State := { s with waits := s.waits.erase w }
  obtain ⟨x, hx⟩ : ∃ x, (if ch then gone.consumeChaff (some r.val) w.step else gone) = { gone with rings := x } := by
    split
    · exact gone.consumeChaff_frame _ _
    · exact ⟨_, rfl⟩
  obtain ⟨y, z, hy⟩ := State.endHold_frame { gone with rings := x } r w.step
  have he : exec (.semWaitComplete (.ring r)) s = .next (State.endHold { gone with rings := x } r w.step) := by
    rw [← hx]
    show execSemWaitComplete (.ring r) s = _
    simp only [execSemWaitComplete, hw, hm]
    rfl
  refine ⟨_, he, ?_, State.endHold_hold _ _ _, ?_, ?_⟩
  all_goals rw [hy]

theorem ringWait_times_out {s : State} {r : RingId} {w : SemWait} {k : Nat} (hw : s.waitOf (.ring r) = some w) (hd : w.deadline = some k)
    (hk : k ≤ s.time.elapsed) (hm : s.waitMet w = false) :
    completes (.semTimeout (.ring r)) s fun t =>
      t.waits = s.waits.erase w ∧ (t.ring r).hold = none ∧ t.mem = s.mem ∧
      t.errQ = s.errQ ++ [{ ring := r, step := w.step, status := 0x0902, core := 0xFFFF, soft := 0, entry := w.entry, item := false }] := by
  have he : exec (.semTimeout (.ring r)) s = .next ((State.endHold { s with waits := s.waits.erase w } r w.step).stepError
      { ring := r, step := w.step, status := 0x0902, core := 0xFFFF, soft := 0, entry := w.entry, item := false }) := by
    show execSemTimeout (.ring r) s = _
    simp only [execSemTimeout, hw, hd, hm]
    rw [if_neg (by simp; omega)]
  obtain ⟨x, y, hy⟩ := State.endHold_frame { s with waits := s.waits.erase w } r w.step
  refine ⟨_, he, ?_, State.endHold_hold _ _ _, ?_, ?_⟩
  all_goals
    simp only [State.stepError_waits, State.stepError_mem, State.stepError_errQ]
    rw [hy]

theorem ringFence_ends {s : State} {p : PartId} {k type mask step at_ : Nat}
    (hf : ((List.range 4).find? fun k => match (s.ring (p * 4 + k)).hold with
        | some (.fence type mask _ at_) => !s.feOpen p at_ (bitAt mask 0) (bitAt mask 2) (bitAt mask 3) (type = 2)
        | _ => false) = some k) (hh : (s.ring (p * 4 + k)).hold = some (.fence type mask step at_)) :
    completes (.fenceComplete (.frontEnd p)) s fun t => (t.ring (p * 4 + k)).hold = none ∧ t.mem = s.mem := by
  refine ⟨s.endHold (p * 4 + k) step, ?_, State.endHold_hold _ _ _, State.endHold_mem _ _ _⟩
  show execFenceComplete (.frontEnd p) s = _
  unfold execFenceComplete
  dsimp only
  split
  · rename_i j hj
    obtain rfl : j = k := Option.some.inj (hj.symm.trans hf)
    simp only [hh]
  · rename_i hnone
    exact absurd (hnone.symm.trans hf) (by simp)

/-- Settles O20: each clause by the lemma about its command. -/
theorem ringWaits : Obligations.RingWaits := by
  intro s r p w
  exact ⟨ringWait_ends, fun _ => ringWait_times_out, fun _ _ _ _ _ => ringFence_ends⟩

end Sys2Proof.Machine

namespace Sys2Proof.Machine
open Host (Outcome)

/-! ## Taking a command off its queue, and failing it (R171, R628) -/

theorem State.take_atHead {s : State} {n q op len opMax : Nat} {mine : Cmd → Bool} {d : Cmd} {rest : List Cmd} {f : List Byte}
    (h : atHead s n q op len d rest f) (hop : op ≤ opMax) (hm : mine d = true) (hl : len ≠ 0) :
    s.take n q opMax op mine len = .ok (s.setCore n ((s.core n).setQueue q rest)) d f := by
  obtain ⟨hq, hs, rfl, hc, hf, hle, hfree, rfl, hk⟩ := h
  have hmin : min scratchEnd (d.frame + len) = d.frame + len := Nat.min_eq_right hle
  have hread : s.readFrame n d len = .ok ((s.core n).sread n d.frame len) := by
    have hend : ¬ scratchEnd < d.frame + len := Nat.not_lt.mpr hle
    rw [State.readFrame, if_neg (by omega), if_neg hend]
    exact if_pos hk
  unfold State.take
  simp only [hq, hs, hm, hc, hmin, hfree, hread, hl, Nat.not_lt.mpr hop]
  simp

/-- The status a core keeps is that of its work item's first failing command (R157). -/
def Core.failed (c : Core) (status : Nat) : Core := { c with status := if c.status = 0 then status else c.status }

theorem State.itemError_frame (s : State) (n status soft : Nat) :
    ∃ x y, s.itemError n status soft = { s.onCore n fun c => c.failed status with errQ := x, rings := y } := by
  have hset : s.setCore n { s.core n with status := if decide ((s.core n).status = 0) = true then status else (s.core n).status } =
      s.onCore n fun c => c.failed status := by
    simp [State.onCore, Core.failed]
  unfold State.itemError
  dsimp only
  rw [hset]
  repeat' split
  all_goals exact ⟨_, _, rfl⟩

@[simp] theorem State.core_failCmd_same (s : State) (n status : Nat) : (s.failCmd n status).core n = (s.core n).failed status := by
  obtain ⟨x, y, h⟩ := s.itemError_frame n status 0
  rw [State.failCmd, h]
  exact s.core_onCore_same n fun c => c.failed status

theorem State.core_onCore_other (s : State) {n m : Nat} (f : Core → Core) (h : m ≠ n) : (s.onCore n f).core m = s.core m :=
  s.core_setCore_other _ _ _ h

theorem State.core_failCmd_other (s : State) {n m : Nat} (status : Nat) (h : m ≠ n) : (s.failCmd n status).core m = s.core m := by
  obtain ⟨x, y, e⟩ := s.itemError_frame n status 0
  rw [State.failCmd, e]
  exact s.core_onCore_other (fun c => c.failed status) h

@[simp] theorem State.failCmd_waits (s : State) (n status : Nat) : (s.failCmd n status).waits = s.waits := by
  obtain ⟨x, y, e⟩ := s.itemError_frame n status 0
  rw [State.failCmd, e]
  rfl

/-- The front end is told of a failure in the work item of a ring that is not cancelled (R171). -/
theorem State.failCmd_errQ {s : State} {n r : Nat} (status : Nat) {w : WorkItem} (hw : (s.core n).wi = some w) (hr : w.ring = some r)
    (hd : w.dead = false) :
    (s.failCmd n status).errQ = s.errQ ++ [{ ring := r, step := w.step, status := status, core := n, soft := 0, entry := some w.place,
                                             item := decide ((s.core n).status = 0) }] := by
  simp [State.failCmd, State.itemError, hw, hr, hd]

/-! ## The sync unit (R54, R57, R167) -/

/-- Core `c` with the commands that wait for its sync unit, what stands in the unit and since when, and the work item's status. -/
def Core.syncWith (c : Core) (qs : List Cmd) (sync : Option Cmd) (since status : Nat) : Core :=
  { c with qs := qs, sync := sync, since := since, status := status }

section
variable {s t : State} {n : Nat} {qs : List Cmd} {sync : Option Cmd} {since status : Nat}

theorem sync_of_syncWith (hc : t.core n = (s.core n).syncWith qs sync since status) : (t.core n).sync = sync := by
  rw [hc]
  rfl

theorem queue_of_syncWith (hc : t.core n = (s.core n).syncWith qs sync since status) : (t.core n).queueOf 4 = qs := by
  rw [hc]
  rfl

theorem scratch_of_syncWith (hc : t.core n = (s.core n).syncWith qs sync since status) : (t.core n).scratch = (s.core n).scratch := by
  rw [hc]
  rfl

theorem unitFrame_of_syncWith {q : Nat} (hc : t.core n = (s.core n).syncWith qs sync since status) (ho : ∀ m, m ≠ n → t.core m = s.core m)
    (hm : t.mem = s.mem) (hq : q = 4 ∨ qs = (s.core n).qs) : unitFrame s t n q := by
  refine ⟨?_, ?_, ?_, ?_, ho, hm⟩
  · intro r
    rw [hc]
    rfl
  · rw [hc]
    rfl
  · rw [hc]
    rfl
  · intro p hp hne
    rw [hc]
    obtain rfl | hq := hq
    · have hlt : p < 4 := by omega
      interval_cases p <;> rfl
    · rw [hq]
      rfl

end

/-- A command of the sync queue fails with a status (R162, R171). -/
theorem failsWith_of_failCmd {c : Instr} {s : State} {n status : Nat} {rest : List Cmd}
    (h : exec c s = .next ((s.setCore n ((s.core n).setQueue 4 rest)).failCmd n status)) : failsWith c s n 4 status rest := by
  let took : State := s.setCore n ((s.core n).setQueue 4 rest)
  have hcore : took.core n = (s.core n).setQueue 4 rest := s.core_setCore_same _ _
  have hc : (took.failCmd n status).core n = (s.core n).syncWith rest (s.core n).sync (s.core n).since
      (if (s.core n).status = 0 then status else (s.core n).status) := by
    rw [State.core_failCmd_same, hcore]
    rfl
  refine ⟨_, h, ?_, ?_, unitFrame_of_syncWith hc (fun m hm => ?_) (State.failCmd_mem _ _ _) (.inl rfl), fun w r hw hr hd => ?_⟩
  · exact queue_of_syncWith hc
  · exact scratch_of_syncWith hc
  · rw [State.core_failCmd_other _ _ hm, State.core_setCore_other _ _ _ _ hm]
  · rw [State.failCmd_errQ status (s := took) (by rw [hcore]; exact hw) hr hd, hcore]
    rfl

theorem State.itemChaff_frame (s : State) (n : Nat) : ∃ x, s.itemChaff n = { s with rings := x } := by
  unfold State.itemChaff
  split
  · exact s.consumeChaff_frame _ _
  · exact ⟨_, rfl⟩

theorem State.ite_itemChaff_frame (s : State) (n : Nat) (ch : Bool) : ∃ x, (if ch then s.itemChaff n else s) = { s with rings := x } := by
  cases ch with
  | false => exact ⟨_, rfl⟩
  | true => exact s.itemChaff_frame n

/-! ### Fences -/

section
variable {s : State} {n type k : Nat} {d : Cmd} {rest : List Cmd}

theorem State.take_fence (h : fenceReady s n k d rest) (hk : k = type ∨ k = 0) :
    s.take n 4 2 0 (fun d => bitsOf d.body.toNat 0 2 = type || bitsOf d.body.toNat 0 2 = 0) 0 =
      .ok (s.setCore n ((s.core n).setQueue 4 rest)) d [] := by
  obtain ⟨hq, _, hs, hop, hc, _, _, hb⟩ := h
  have hmine : (decide (bitsOf d.body.toNat 0 2 = type) || decide (bitsOf d.body.toNat 0 2 = 0)) = true := by simpa [hb] using hk
  unfold State.take
  simp only [hq, hs, hop, hc, hmine]
  simp

theorem State.fenceCmd_took (h : fenceReady s n type d rest) (ht : type ≠ 0) : fenceTook s (s.fenceCmd n type) n d rest := by
  have htake := State.take_fence h (.inl rfl)
  obtain ⟨hq, hsync, hs, hop, hc, h2, h8, hb⟩ := h
  let took : State := s.setCore n ((s.core n).setQueue 4 rest)
  obtain ⟨x, hx⟩ := took.ite_itemChaff_frame n d.chaff
  have hcore : State.core { took with rings := x } n = (s.core n).setQueue 4 rest := s.core_setCore_same _ _
  have hother : ∀ m, m ≠ n → State.core { took with rings := x } m = s.core m := fun m hm => s.core_setCore_other _ _ _ hm
  have he : s.fenceCmd n type = if bitAt d.body.toNat 4 || bitAt d.body.toNat 6 then
      State.onCore { took with rings := x } n fun c => { c with sync := some d, since := s.time.elapsed } else { took with rings := x } := by
    unfold State.fenceCmd
    simp only [hsync, htake, h2, h8, hb, ht]
    rw [← hx]
    rfl
  rw [he]
  by_cases hcov : (bitAt d.body.toNat 4 || bitAt d.body.toNat 6) = true
  · have hc' : (State.onCore { took with rings := x } n fun c => { c with sync := some d, since := s.time.elapsed }).core n =
        (s.core n).syncWith rest (some d) s.time.elapsed (s.core n).status := by
      rw [State.core_onCore_same, hcore]
      rfl
    rw [if_pos hcov]
    refine ⟨?_, queue_of_syncWith hc', scratch_of_syncWith hc', unitFrame_of_syncWith hc' (fun m hm => ?_) rfl (.inl rfl)⟩
    · rw [if_pos hcov]
      exact sync_of_syncWith hc'
    · rw [State.core_onCore_other _ _ hm, hother m hm]
  · have hc' : State.core { took with rings := x } n = (s.core n).syncWith rest none (s.core n).since (s.core n).status := by
      rw [hcore, ← hsync]
      rfl
    rw [if_neg hcov]
    refine ⟨?_, queue_of_syncWith hc', scratch_of_syncWith hc', unitFrame_of_syncWith hc' hother rfl (.inl rfl)⟩
    rw [if_neg hcov]
    exact sync_of_syncWith hc'

theorem State.fenceCmd_of_no_type (h : fenceReady s n 0 d rest) (type : Nat) :
    s.fenceCmd n type = (s.setCore n ((s.core n).setQueue 4 rest)).failCmd n 0x0903 := by
  have htake := State.take_fence (type := type) h (.inr rfl)
  obtain ⟨hq, hsync, hs, hop, hc, h2, h8, hb⟩ := h
  unfold State.fenceCmd
  simp only [hsync, htake, h2, h8, hb]
  rfl

end

theorem fence_of_no_type_fails {s : State} {n : CoreId} {d : Cmd} {rest : List Cmd} (h : fenceReady s n 0 d rest) :
    ∀ c ∈ ([.fenceRel n, .fenceAcq n, .fenceFull n] : List Instr), failsWith c s n 4 0x0903 rest := by
  intro c hc
  simp only [List.mem_cons, List.not_mem_nil, or_false] at hc
  rcases hc with rfl | rfl | rfl
  · exact failsWith_of_failCmd (congrArg Outcome.next (State.fenceCmd_of_no_type h 1))
  · exact failsWith_of_failCmd (congrArg Outcome.next (State.fenceCmd_of_no_type h 2))
  · exact failsWith_of_failCmd (congrArg Outcome.next (State.fenceCmd_of_no_type h 3))

theorem coreFence_ends {s : State} {n : CoreId} {d : Cmd} (hd : (s.core n).sync = some d) (hop : d.op = 0)
    (ho : s.coreOpen n d.seq (bitAt d.body.toNat 4) (bitAt d.body.toNat 6) (bitsOf d.body.toNat 0 2 = 2) = false) :
    completes (.fenceComplete (.core n)) s fun t =>
      (t.core n).sync = none ∧ (t.core n).queueOf 4 = (s.core n).queueOf 4 ∧ (t.core n).scratch = (s.core n).scratch ∧ unitFrame s t n 4 := by
  have hc : (s.onCore n fun c => { c with sync := none }).core n =
      (s.core n).syncWith (s.core n).qs none (s.core n).since (s.core n).status := s.core_onCore_same _ _
  refine ⟨s.onCore n fun c => { c with sync := none }, ?_, sync_of_syncWith hc, queue_of_syncWith hc, scratch_of_syncWith hc,
    unitFrame_of_syncWith hc (fun m hm => s.core_onCore_other _ hm) rfl (.inl rfl)⟩
  show execFenceComplete (.core n) s = _
  simp only [execFenceComplete, hd, hop, ho]
  rfl

/-! ### Waits -/

section
variable {s : State} {n sub : Nat} {d : Cmd} {rest : List Cmd} {f : List Byte} {eq : Bool}

theorem State.take_sem {op : Nat} (h : semReady s n op sub d rest f) (hop : op ≤ 2) (b : Bool) (hs : sub = one b) :
    s.take n 4 2 op (fun d => d.sub = one b || 1 < d.sub) 32 = .ok (s.setCore n ((s.core n).setQueue 4 rest)) d f := by
  obtain ⟨_, hh, hsub, _, _⟩ := h
  exact State.take_atHead hh hop (by simp [hsub, hs]) (by decide)

theorem State.waitCmd_fails (h : semReady s n 2 sub d rest f) (hs : sub = one eq)
    (hk : s.semCheck (s.itemPart n) (fieldB f 0 7) sub true ≠ 0) :
    s.waitCmd n eq = (s.setCore n ((s.core n).setQueue 4 rest)).failCmd n (s.semCheck (s.itemPart n) (fieldB f 0 7) sub true) := by
  have htake := State.take_sem h (by decide) eq hs
  obtain ⟨hsync, hh, hsub, hb, hr⟩ := h
  have hr' : semRsvd f true = false := hr
  unfold State.waitCmd
  simp only [hsync, htake, hb, hr', hsub]
  simp [hk]

theorem State.waitCmd_took (h : semReady s n 2 sub d rest f) (hs : sub = one eq)
    (hk : s.semCheck (s.itemPart n) (fieldB f 0 7) sub true = 0) : waitTook s (s.waitCmd n eq) n d rest f eq := by
  have htake := State.take_sem h (by decide) eq hs
  obtain ⟨hsync, hh, hsub, hb, hr⟩ := h
  have hr' : semRsvd f true = false := hr
  let took : State := s.setCore n ((s.core n).setQueue 4 rest)
  obtain ⟨x, hx⟩ := took.ite_itemChaff_frame n (d.chaff || (took.core n).schaffIn d.frame 32)
  let w : SemWait :=
    { since := s.time.elapsed, core := some n, ring := (match (took.core n).wi with | some w => w.ring | none => none), step := d.step,
      sem := localOf (fieldB f 0 7), value := fieldB f 8 8, eq := eq,
      deadline := if fieldB f 16 4 = 0 then none else some (s.time.elapsed + fieldB f 16 4 * 1000), met := none, entry := none }
  have he : s.waitCmd n eq = State.onCore { took with rings := x, waits := took.waits ++ [w] } n fun c =>
      { c with sync := some d, since := s.time.elapsed } := by
    unfold State.waitCmd
    simp only [hsync, htake, hb, hr', hsub, hk]
    simp only [Option.isSome_none, Bool.false_eq_true, if_false, ne_eq, not_true_eq_false, decide_false, Bool.or_self]
    rw [show (if (d.chaff || (took.core n).schaffIn d.frame 32) = true then took.itemChaff n else took) = _ from hx] <;> rfl
  have hc : (s.waitCmd n eq).core n = (s.core n).syncWith rest (some d) s.time.elapsed (s.core n).status := by
    rw [he, State.core_onCore_same, show State.core { took with rings := x, waits := took.waits ++ [w] } n = _ from s.core_setCore_same _ _]
    rfl
  refine ⟨⟨w, by rw [he]; rfl, rfl, rfl, rfl, rfl, rfl, rfl⟩, sync_of_syncWith hc, queue_of_syncWith hc, scratch_of_syncWith hc,
    unitFrame_of_syncWith hc (fun m hm => ?_) (State.waitCmd_mem _ _ _) (.inl rfl)⟩
  rw [he, State.core_onCore_other _ _ hm]
  exact s.core_setCore_other _ _ _ hm

end

theorem coreWait_ends {s : State} {n : CoreId} {w : SemWait} (hw : s.waitOf (.core n) = some w) (hm : s.waitMet w = true) :
    completes (.semWaitComplete (.core n)) s fun t =>
      t.waits = s.waits.erase w ∧ (t.core n).sync = none ∧ (t.core n).scratch = (s.core n).scratch ∧ t.errQ = s.errQ ∧ unitFrame s t n 9 := by
  let gone : State := { s with waits := s.waits.erase w }
  obtain ⟨x, hx⟩ := gone.ite_itemChaff_frame n (w.met.getD (s.semValue w.sem = poison || s.isChaff w.sem))
  have he : exec (.semWaitComplete (.core n)) s = .next (State.onCore { gone with rings := x } n fun c => { c with sync := none }) := by
    rw [← hx]
    show execSemWaitComplete (.core n) s = _
    simp only [execSemWaitComplete, hw, hm]
    rfl
  have hc : (State.onCore { gone with rings := x } n fun c => { c with sync := none }).core n =
      (s.core n).syncWith (s.core n).qs none (s.core n).since (s.core n).status := State.core_onCore_same _ _ _
  exact ⟨_, he, rfl, sync_of_syncWith hc, scratch_of_syncWith hc, rfl,
    unitFrame_of_syncWith hc (fun m hm => State.core_onCore_other _ _ hm) rfl (.inr rfl)⟩

theorem coreWait_times_out {s : State} {n : CoreId} {w : SemWait} {k : Nat} (hw : s.waitOf (.core n) = some w) (hd : w.deadline = some k)
    (hk : k ≤ s.time.elapsed) (hm : s.waitMet w = false) :
    completes (.semTimeout (.core n)) s fun t =>
      t.waits = s.waits.erase w ∧ (t.core n).sync = none ∧ t.mem = s.mem ∧
      ∀ v r, (s.core n).wi = some v → v.ring = some r → v.dead = false →
        t.errQ = s.errQ ++
          [{ ring := r, step := v.step, status := 0x0902, core := n, soft := 0, entry := some v.place, item := (s.core n).status = 0 }] := by
  let gone : State := State.onCore { s with waits := s.waits.erase w } n fun c => { c with sync := none }
  have hc : gone.core n = { s.core n with sync := none } := State.core_onCore_same _ _ _
  have he : exec (.semTimeout (.core n)) s = .next (gone.failCmd n 0x0902) := by
    show execSemTimeout (.core n) s = _
    simp only [execSemTimeout, hw, hd, hm]
    rw [if_neg (by simp; omega)]
  refine ⟨_, he, State.failCmd_waits _ _ _, ?_, State.failCmd_mem _ _ _, fun v r hv hr hdead => ?_⟩
  · rw [State.core_failCmd_same, hc]
    rfl
  · rw [State.failCmd_errQ _ (by rw [hc]; exact hv) hr hdead, hc]
    rfl

/-- A wait sees every write that reaches its semaphore: once the awaited value has stood there, the wait is over (R57). -/
theorem wrMarked_seen {s : State} {w : SemWait} {a : Nat} {bs : List (Byte × Bool)} (hw : w ∈ s.waits) (hm : w.met = none)
    (ha : a < 0x8000000000) (hg : s.goneAt a = false) (hlo : w.sem < a + bs.length) (hhi : a < w.sem + 8) :
    ∃ x ∈ (s.wrMarked a bs).waits, x.sem = w.sem ∧ x.value = w.value ∧ x.eq = w.eq ∧
      (w.reached (leNat ((List.range 8).map fun i => memGet (s.wrMarked a bs).mem (w.sem + i))) = true → x.met.isSome = true) := by
  have he : ∃ ch, (s.wrMarked a bs).waits = s.waits.map (fun w => w.see (s.wrMarked a bs).mem ch a bs.length) := by
    refine ⟨chaffAfter s.chaff a (bs.map Prod.snd), ?_⟩
    unfold State.wrMarked
    dsimp only
    rw [if_neg (by omega), hg]
    rfl
  obtain ⟨ch, he⟩ := he
  refine ⟨w.see (s.wrMarked a bs).mem ch a bs.length, ?_, ?_⟩
  · rw [he]
    exact List.mem_map_of_mem hw
  · unfold SemWait.see
    rw [if_pos (by simp [hm]; omega)]
    dsimp only
    split
    · exact ⟨rfl, rfl, rfl, fun _ => rfl⟩
    · rename_i h
      exact ⟨rfl, rfl, rfl, fun h' => absurd h' h⟩

/-- Settles O18: each clause by the lemma about its command. -/
theorem syncFencesAndWaits : Obligations.SyncFencesAndWaits := by
  intro s n d rest f
  exact ⟨fun h => ⟨_, rfl, State.fenceCmd_took h (by decide)⟩, fun h => ⟨_, rfl, State.fenceCmd_took h (by decide)⟩,
    fun h => ⟨_, rfl, State.fenceCmd_took h (by decide)⟩, fun c hc h => fence_of_no_type_fails h c hc, coreFence_ends,
    fun h hk => ⟨_, rfl, State.waitCmd_took h rfl hk⟩, fun h hk => failsWith_of_failCmd (congrArg Outcome.next (State.waitCmd_fails h rfl hk)),
    fun h hk => ⟨_, rfl, State.waitCmd_took h rfl hk⟩, fun h hk => failsWith_of_failCmd (congrArg Outcome.next (State.waitCmd_fails h rfl hk)),
    fun _ => coreWait_ends, fun _ _ => coreWait_times_out, fun _ _ _ => wrMarked_seen⟩

end Sys2Proof.Machine

namespace Sys2Proof.Machine
open Host (Outcome)

/-! ## Signals (R57, R167, R397) -/

theorem leNat_lt : ∀ l : List Byte, leNat l < 256 ^ l.length
  | [] => by decide
  | b :: t => by
    have ih := leNat_lt t
    have hb := b.isLt
    rw [leNat, List.length_cons, pow_succ]
    omega

@[simp] theorem sliceB_length (l : List Byte) (i n : Nat) : (sliceB l i n).length = n := by
  simp [sliceB]

theorem fieldB_lt (l : List Byte) (i n : Nat) : fieldB l i n < 256 ^ n := by
  have h := leNat_lt (sliceB l i n)
  rwa [sliceB_length] at h

/-- `s` with the rings `x`. -/
def State.withRings (s : State) (x : List (Nat × Ring)) : State := { s with rings := x }

theorem State.ledger_withRings (s : State) (x : List (Nat × Ring)) (ring : Option Nat) (step : Nat) (e : LedgerEnt) :
    ∃ y, (s.withRings x).ledger ring step e = s.withRings y :=
  (s.withRings x).onStep_frame ring step _

/-- Of a request nothing but the links changes; it has one transaction more, with the packet as it was but for its numbers. -/
theorem State.signalRemote_frame (s : State) (src : Src) (core ring : Option Nat) (step addr : Nat) (set : Bool) (v : Nat) (ch : Bool) :
    ∃ x y, s.signalRemote src core ring step addr set v ch = { s with link := x, rings := y } ∧
      ∃ k : Txn, x.txns = s.link.txns ++ [k] ∧ k.pkt.type = 3 ∧ k.pkt.dst = addr / 0x10000000000 ∧ k.pkt.addr = localOf addr ∧
        k.pkt.op = one set ∧ k.pkt.payload = toLE 8 v := by
  unfold State.signalRemote
  dsimp only
  cases set with
  | false => exact ⟨_, _, rfl, _, rfl, rfl, rfl, rfl, rfl, rfl⟩
  | true =>
    rw [if_pos rfl]
    obtain ⟨y, hy⟩ := State.onStep_frame (s.request src (s.newPacket 3 0 (one true) (addr / 0x10000000000) (localOf addr) 8 (toLE 8 v) (one ch))
      none core ring step none) ring step fun o => { o with exported := true }
    exact ⟨_, y, hy, _, rfl, rfl, rfl, rfl, rfl, rfl⟩

theorem State.semValue_congr {s t : State} (a : Nat) (hm : t.mem = s.mem) (hr : t.ret = s.ret) : t.semValue a = s.semValue a :=
  congrArg leNat (State.rdN_congr hm hr _ _)

/-- The eight bytes of an aligned semaphore lie in one bank or bin. -/
theorem State.goneAt_semaphore (s : State) {a i : Nat} (h8 : a % 8 = 0) (hi : i < 8) : s.goneAt (a + i) = s.goneAt a := by
  have hu : unitOf (a + i) = unitOf a := by
    unfold unitOf
    split_ifs <;> omega
  rw [State.goneAt, hu]
  rfl

/-- The bytes of memory that no retirement hides are read as they stand. -/
theorem State.rdN_eq_map {s : State} {a : Nat} : ∀ n, (∀ i, i < n → s.goneAt (a + i) = false) →
    s.rdN a n = (List.range n).map fun i => memGet s.mem (a + i) := by
  intro n
  induction n generalizing a with
  | zero => exact fun _ => rfl
  | succ n ih =>
    intro h
    have h0 : s.goneAt a = false := h 0 (Nat.succ_pos n)
    rw [State.rdN, ih fun i hi => by rw [Nat.add_assoc, Nat.add_comm 1 i]; exact h (i + 1) (by omega), List.range_succ_eq_map]
    simp [State.rd8, h0, Function.comp_def, Nat.add_assoc, Nat.add_comm 1]

theorem map_range_memSetN (bs : List Byte) (m : List Host.Cell) (a : Nat) :
    (List.range bs.length).map (fun i => memGet (memSetN m a bs) (a + i)) = bs := by
  refine List.ext_getElem (by simp) fun i h₁ h₂ => ?_
  simp [memGet_memSetN_inside bs m a i h₂, h₂]

theorem State.signalLocal_core (s : State) (a : Nat) (set : Bool) (v : Nat) (ch : Bool) (m : Nat) : (s.signalLocal a set v ch).core m = s.core m := by
  unfold State.signalLocal State.wrMarked
  dsimp only
  repeat' split
  all_goals rfl

section
variable {s : State} {a : Nat} (h8 : a % 8 = 0) (ha : a < 0x8000000000) (hg : s.goneAt a = false)
include h8 ha hg

/-- A signal writes its semaphore and no other byte. -/
theorem State.signalLocal_writes (set : Bool) (v : Nat) (ch : Bool) :
    (s.signalLocal a set v ch).semValue a = (if set then v else (s.semValue a + v) % 2 ^ 64) % 2 ^ 64 ∧
    ∀ x, x < a ∨ a + 8 ≤ x → memGet (s.signalLocal a set v ch).mem x = memGet s.mem x := by
  let new := if set then v else (s.semValue a + v) % 2 ^ 64
  have hlen : (((toLE 8 new).map fun b => (b, ch || (!set && s.isChaff a)))).length = 8 := by simp
  have hmem : (s.signalLocal a set v ch).mem = memSetN s.mem a (toLE 8 new) := by
    unfold State.signalLocal State.wrMarked
    dsimp only
    rw [if_neg (by omega), hg, List.map_map]
    simp [Function.comp_def, new]
  have hret : (s.signalLocal a set v ch).ret = s.ret := by
    unfold State.signalLocal State.wrMarked
    dsimp only
    rw [if_neg (by omega), hg]
    rfl
  constructor
  · have hgone : ∀ i, i < 8 → (s.signalLocal a set v ch).goneAt (a + i) = false := fun i hi => by
      rw [State.goneAt_semaphore _ h8 hi, State.goneAt, hret]
      exact hg
    have hmap := map_range_memSetN (toLE 8 new) s.mem a
    rw [toLE_length] at hmap
    rw [State.semValue, State.rdN_eq_map 8 hgone, hmem, hmap, leNat_toLE]
    rfl
  · intro x hx
    rw [hmem]
    exact memGet_memSetN_outside _ _ _ (by simpa using hx)

end

/-! ### The checks of R167 -/

theorem State.semOk_place {s : State} {p a : Nat} (h : s.semOk p a = true) : a % 8 = 0 ∧ a < 0x8000000000 := by
  simp only [State.semOk, Bool.and_eq_true, decide_eq_true_eq] at h
  obtain ⟨⟨h8, _⟩, hbin⟩ := h
  refine ⟨h8, ?_⟩
  by_contra hge
  have hr : ∀ k o, s.region a ≠ .bin k o := by
    intro k o
    unfold State.region
    rw [if_neg (by omega), if_neg (by omega)]
    split_ifs <;> simp
  split at hbin
  · exact hr _ _ ‹_›
  · contradiction

theorem State.semOk_of_semCheck {s : State} {p addr sub : Nat} {wait : Bool} (h : s.semCheck p addr sub wait = 0)
    (hh : addr / 0x10000000000 = s.selfId) : s.semOk p (localOf addr) = true := by
  unfold State.semCheck at h
  dsimp only at h
  by_contra hno
  rw [if_pos (.inr (.inr (by simp [hh, hno])))] at h
  contradiction

theorem State.coreFault_congr {s t : State} {n : Nat} (cause : Nat) (d : Cmd) (hm : t.mem = s.mem) (hr : t.ret = s.ret)
    (hw : (t.core n).wi = (s.core n).wi) : t.coreFault n cause d = s.coreFault n cause d := by
  have htag : t.itemTag n = s.itemTag n := by simp [State.itemTag, State.mdlTag, hw, State.rdN_congr hm hr]
  simp [State.coreFault, hw, htag]

/-! ### SIGNAL commands -/

section
variable {s : State} {n sub : Nat} {d : Cmd} {rest : List Cmd} {f : List Byte} {set : Bool} (mm : Nat)

/-- The state with the command at the head of the sync queue taken off. -/
def State.syncTaken (s : State) (n : Nat) (rest : List Cmd) : State := s.setCore n ((s.core n).setQueue 4 rest)

theorem State.signalCmd_fails (h : semReady s n 1 sub d rest f) (hs : sub = one set)
    (hk : s.semCheck (s.itemPart n) (fieldB f 0 7) sub false ≠ 0) :
    s.signalCmd n set mm = (s.syncTaken n rest).failCmd n (s.semCheck (s.itemPart n) (fieldB f 0 7) sub false) := by
  have htake := State.take_sem h (by decide) set hs
  obtain ⟨hsync, hh, hsub, hb, hr⟩ := h
  have hr' : semRsvd f false = false := hr
  unfold State.signalCmd
  simp only [hsync, htake, hb, hr', hsub]
  simp [hk, State.syncTaken]

variable (h : semReady s n 1 sub d rest f) (hs : sub = one set) (hk : s.semCheck (s.itemPart n) (fieldB f 0 7) sub false = 0)
  (halone : s.coreOpen n d.seq true true false = false ∧ (s.core n).verify = [])
include h hs hk halone

/-- A SIGNAL that passes its checks and finds no access of its core outstanding. -/
theorem State.signalCmd_eq :
    ∃ u x ch ring step e, u = (s.syncTaken n rest).withRings x ∧ s.signalCmd n set mm =
      if fieldB f 0 7 / 0x10000000000 = s.selfId ∧ 2 ≤ mm then u.confirm { u.coreFault n 9 d with addr := fieldB f 0 7 }
      else if fieldB f 0 7 / 0x10000000000 = s.selfId then (u.ledger ring step e).signalLocal (localOf (fieldB f 0 7)) set (fieldB f 8 8) ch
      else ((u.ledger ring step e).signalRemote (.core n) (some n) ring step (fieldB f 0 7) set (fieldB f 8 8) ch).onCore n fun c =>
        { c with sync := some d, since := s.time.elapsed } := by
  have htake := State.take_sem h (by decide) set hs
  obtain ⟨hsync, hh, hsub, hb, hr⟩ := h
  obtain ⟨hopen, hver⟩ := halone
  have hr' : semRsvd f false = false := hr
  obtain ⟨x, hx⟩ := (s.syncTaken n rest).ite_itemChaff_frame n (d.chaff || ((s.syncTaken n rest).core n).schaffIn d.frame 32)
  obtain ⟨u, hu⟩ : ∃ u : State, u = (s.syncTaken n rest).withRings x := ⟨_, rfl⟩
  replace hx := hx.trans hu.symm
  unfold State.signalCmd
  simp only [hsync, htake, hb, hr', hsub, hk, hopen, hver]
  simp only [Option.isSome_none, Bool.false_eq_true, if_false, ne_eq, not_true_eq_false, decide_false, Bool.or_self, List.isEmpty_nil, Bool.not_true,
    ← State.syncTaken.eq_1, hx, decide_eq_true_eq, Bool.and_eq_true]
  exact ⟨u, x, _, _, _, _, hu, rfl⟩

theorem State.signalCmd_faults (hh : fieldB f 0 7 / 0x10000000000 = s.selfId) (hm : 2 ≤ mm) :
    let t := s.signalCmd n set mm
    t.mem = s.mem ∧ (t.core n).queueOf 4 = rest ∧ t.faultQ = s.faultQ ++ [{ s.coreFault n 9 d with addr := fieldB f 0 7 }] := by
  obtain ⟨u, x, ch, ring, step, e, rfl, he⟩ := State.signalCmd_eq mm h hs hk halone
  have hcore : ((s.syncTaken n rest).withRings x).core n = (s.core n).setQueue 4 rest := s.core_setCore_same _ _
  have hfault : ((s.syncTaken n rest).withRings x).coreFault n 9 d = s.coreFault n 9 d :=
    State.coreFault_congr 9 d rfl rfl (by rw [hcore]; rfl)
  rw [if_pos ⟨hh, hm⟩, hfault] at he
  rw [he]
  exact ⟨rfl, congrArg (fun c => c.queueOf 4) hcore, rfl⟩

theorem State.signalCmd_here (hh : fieldB f 0 7 / 0x10000000000 = s.selfId) (hm : mm < 2) (hg : s.goneAt (localOf (fieldB f 0 7)) = false) :
    let a := localOf (fieldB f 0 7)
    let t := s.signalCmd n set mm
    t.semValue a = (if set then fieldB f 8 8 else (s.semValue a + fieldB f 8 8) % 2 ^ 64) ∧
    (∀ x, x < a ∨ a + 8 ≤ x → memGet t.mem x = memGet s.mem x) ∧
    (t.core n).queueOf 4 = rest ∧ (t.core n).sync = none ∧ (t.core n).scratch = (s.core n).scratch ∧ ∀ m, m ≠ n → t.core m = s.core m := by
  obtain ⟨u, x, ch, ring, step, e, rfl, he⟩ := State.signalCmd_eq mm h hs hk halone
  obtain ⟨h8, hlt⟩ := State.semOk_place (State.semOk_of_semCheck hk hh)
  obtain ⟨y, hy⟩ := (s.syncTaken n rest).ledger_withRings x ring step e
  obtain ⟨hsync, _⟩ := h
  dsimp only
  rw [if_neg (by omega), if_pos hh, hy] at he
  rw [he]
  obtain ⟨hval, hother⟩ := State.signalLocal_writes (s := (s.syncTaken n rest).withRings y) h8 hlt hg set (fieldB f 8 8) ch
  have hcores : ∀ m, (((s.syncTaken n rest).withRings y).signalLocal (localOf (fieldB f 0 7)) set (fieldB f 8 8) ch).core m = (s.syncTaken n rest).core m :=
    fun m => State.signalLocal_core _ _ _ _ _ m
  have hcore : (s.syncTaken n rest).core n = (s.core n).setQueue 4 rest := s.core_setCore_same _ _
  have hv : fieldB f 8 8 < 2 ^ 64 := fieldB_lt f 8 8
  refine ⟨?_, hother, ?_, ?_, ?_, fun m hm => ?_⟩
  · rw [hval, State.semValue_congr (s := s) _ rfl rfl]
    cases set with
    | false => exact Nat.mod_mod _ _
    | true => exact Nat.mod_eq_of_lt hv
  · rw [hcores, hcore]
    rfl
  · rw [hcores, hcore]
    exact hsync
  · rw [hcores, hcore]
    rfl
  · rw [hcores]
    exact s.core_setCore_other _ _ _ hm

theorem State.signalCmd_away (hh : ¬ fieldB f 0 7 / 0x10000000000 = s.selfId) :
    let t := s.signalCmd n set mm
    t.mem = s.mem ∧ (t.core n).queueOf 4 = rest ∧ (t.core n).sync = some d ∧
    ∃ x : Txn, t.link.txns = s.link.txns ++ [x] ∧ x.pkt.type = 3 ∧ x.pkt.dst = fieldB f 0 7 / 0x10000000000 % 65536 ∧
      x.pkt.addr = localOf (fieldB f 0 7) ∧ x.pkt.op = one set ∧ x.pkt.payload = toLE 8 (fieldB f 8 8) := by
  obtain ⟨u, x, ch, ring, step, e, rfl, he⟩ := State.signalCmd_eq mm h hs hk halone
  obtain ⟨y, hy⟩ := (s.syncTaken n rest).ledger_withRings x ring step e
  obtain ⟨l, z, hz, k, htx, htype, hdst, haddr, hop, hpay⟩ :=
    State.signalRemote_frame ((s.syncTaken n rest).withRings y) (.core n) (some n) ring step (fieldB f 0 7) set (fieldB f 8 8) ch
  dsimp only
  rw [if_neg (by tauto), if_neg hh, hy, hz] at he
  have hcore : State.core { (s.syncTaken n rest).withRings y with link := l, rings := z } n = (s.core n).setQueue 4 rest := s.core_setCore_same _ _
  have haddr' : fieldB f 0 7 < 256 ^ 7 := fieldB_lt f 0 7
  rw [he, State.core_onCore_same, hcore]
  refine ⟨rfl, rfl, rfl, k, htx, htype, ?_, haddr, hop, hpay⟩
  rw [hdst]
  omega

end

/-- Settles O19: each clause by the lemma about `signalCmd`, once for ADD and once for SET. -/
theorem signals : Obligations.Signals := by
  intro s n d rest f mm
  refine ⟨fun h hk => failsWith_of_failCmd (congrArg Outcome.next (State.signalCmd_fails (set := false) mm h rfl hk)),
    fun h hk ha => ⟨fun hh hm hg => ⟨_, rfl, State.signalCmd_here (set := false) mm h rfl hk ha hh hm hg⟩,
      fun hh hm => ⟨_, rfl, State.signalCmd_faults (set := false) mm h rfl hk ha hh hm⟩,
      fun hh => ⟨_, rfl, State.signalCmd_away (set := false) mm h rfl hk ha hh⟩⟩,
    fun h hk => failsWith_of_failCmd (congrArg Outcome.next (State.signalCmd_fails (set := true) mm h rfl hk)),
    fun h hk ha => ⟨fun hh hm hg => ⟨_, rfl, State.signalCmd_here (set := true) mm h rfl hk ha hh hm hg⟩,
      fun hh hm => ⟨_, rfl, State.signalCmd_faults (set := true) mm h rfl hk ha hh hm⟩,
      fun hh => ⟨_, rfl, State.signalCmd_away (set := true) mm h rfl hk ha hh⟩⟩⟩

end Sys2Proof.Machine

namespace Sys2Proof.Machine
open Host (Outcome)

/-! ## One nanosecond of module time (R60, R68) -/

/-- Time, management, the queue of commands, the host's waiting requests and the descriptor commands are as before. -/
def keepsClock (s t : State) : Prop :=
  t.time = s.time ∧ t.mgmt = s.mgmt ∧ t.pending = s.pending ∧ t.host.held = s.host.held ∧ t.descJobs = s.descJobs

theorem keepsClock.refl (s : State) : keepsClock s s := ⟨rfl, rfl, rfl, rfl, rfl⟩

theorem keepsClock.trans {s t u : State} (h₁ : keepsClock s t) (h₂ : keepsClock t u) : keepsClock s u := by
  obtain ⟨ht, hm, hp, hh, hd⟩ := h₁
  obtain ⟨ht', hm', hp', hh', hd'⟩ := h₂
  exact ⟨ht'.trans ht, hm'.trans hm, hp'.trans hp, hh'.trans hh, hd'.trans hd⟩

theorem keepsClock.foldl {α : Type} {f : State → α → State} (hf : ∀ s x, keepsClock s (f s x)) (l : List α) (s : State) :
    keepsClock s (l.foldl f s) := by
  induction l generalizing s with
  | nil => exact .refl s
  | cons x l ih => exact (hf s x).trans (ih (f s x))

theorem State.wrMarked_keepsClock (s : State) (a : Nat) (bs : List (Byte × Bool)) : keepsClock s (s.wrMarked a bs) := by
  unfold State.wrMarked
  dsimp only
  repeat' split
  all_goals exact .refl s

theorem State.spWrite_keepsClock (s : State) (p off : Nat) (bs : List Byte) : keepsClock s (s.spWrite p off bs) := by
  unfold State.spWrite
  split
  · exact s.wrMarked_keepsClock _ _
  · exact .refl s

theorem State.raiseVector_keepsClock (s : State) (fn v : Nat) : keepsClock s (s.raiseVector fn v) := by
  unfold State.raiseVector State.msix
  dsimp only
  repeat' split
  all_goals exact .refl s

theorem State.putCpl_keepsClock (s : State) (r : Nat) (c : CplRec) : keepsClock s (s.putCpl r c) := by
  have hput : ∀ t : State, keepsClock s t → keepsClock s
      (let t' := t.fset F.cplTail_TAIL r ((s.fget F.cplTail_TAIL r + 1) % (2 * s.cplSize r))
       if t'.flag F.ringCfg_IRQ r && (c.irq || c.status ≠ 0) then t'.raiseVector (t'.ringFn r) (t'.fget F.ringCfg_VECTOR r) else t') := by
    intro t h
    dsimp only
    split
    · exact (h.trans (.refl t)).trans (State.raiseVector_keepsClock _ _ _)
    · exact h
  unfold State.putCpl
  dsimp only
  split
  · exact hput _ (s.spWrite_keepsClock _ _ _)
  · exact hput _ (.refl s)

theorem State.writeCpl_keepsClock (s : State) (r : Nat) (c : CplRec) : keepsClock s (s.writeCpl r c) := by
  unfold State.writeCpl
  dsimp only
  split
  · exact .refl s
  · exact s.putCpl_keepsClock r c

theorem State.flushLate_keepsClock (s : State) (r : Nat) (now : Bool) : keepsClock s (s.flushLate r now) := by
  have hclear : keepsClock s (s.onRing r fun x => { x with late := none }) := .refl s
  unfold State.flushLate
  dsimp only
  split
  · exact .refl s
  · split
    · exact .refl s
    · split
      · exact hclear
      · exact (hclear.trans (State.writeCpl_keepsClock _ _ _)).trans (keepsClock.foldl (fun s c => s.writeCpl_keepsClock r c) _ _)

theorem State.countCore_keepsClock (s : State) (n : Nat) : keepsClock s (s.countCore n) := by
  unfold State.countCore
  dsimp only
  refine keepsClock.trans ?_ (keepsClock.foldl (f := fun (s : State) i => s.coreCount n i 1) (fun s i => .refl s) _ _)
  split <;> exact .refl s

/-- The descriptor commands that finish leave only their register fields and those still under way. -/
theorem State.descDone_frame (s : State) (mine : Nat → Bool) :
    ∃ x, s.descDone mine = { s with regs := x, descJobs := s.descJobs.filter fun j => !mine j.part } := by
  have hfold : ∀ (l : List DescJob) (t : State),
      ∃ x, l.foldl (fun (s : State) j => (s.fset F.descStatus_BUSY j.part 0).fset F.descStatus_CODE j.part j.code) t = { t with regs := x } := by
    intro l
    induction l with
    | nil => exact fun t => ⟨_, rfl⟩
    | cons j l ih =>
      intro t
      obtain ⟨x, hx⟩ := ih ((t.fset F.descStatus_BUSY j.part 0).fset F.descStatus_CODE j.part j.code)
      exact ⟨x, hx⟩
  obtain ⟨x, hx⟩ := hfold (s.descJobs.filter fun j => mine j.part) { s with descJobs := s.descJobs.filter fun j => !mine j.part }
  refine ⟨x, ?_⟩
  rw [← hx]
  simp [State.descDone, List.partition_eq_filter_filter]
  rfl

/-- With no request of the host waiting nothing of it is performed. -/
theorem State.hostStep_of_none {s : State} (h : s.host.held = []) : s.hostStep = s := by
  simp [State.hostStep, h, State.hostPick]

/-- Without a slew a nanosecond adds one to the counter (R60). -/
theorem State.tick_of_no_slew {s : State} (h : s.time.slew = 0) :
    s.tick = { s with time := { s.time with elapsed := s.time.elapsed + 1, counter := s.time.counter + 1, tick := 0 } } := if_pos h

theorem State.tick_frame (s : State) : ∃ x, s.tick = { s with time := x } := by
  unfold State.tick
  dsimp only
  repeat' split
  all_goals exact ⟨_, rfl⟩

/-- What runs before the clock in an idle step. -/
theorem State.idle_before_tick (s : State) :
    ∃ u : State, s.idle = u.tick.hostStep ∧ u.time = s.time ∧ u.mgmt = s.mgmt ∧ u.pending = s.pending ∧ u.host.held = s.host.held ∧ u.descJobs = [] := by
  let flushed : State := s.rings.foldl (fun (s : State) x => s.flushLate x.1 false) { s with ready := s.readyNow }
  have hflush : keepsClock s flushed := keepsClock.trans (t := { s with ready := s.readyNow }) (.refl s)
    (keepsClock.foldl (fun s (x : Nat × Ring) => s.flushLate_keepsClock x.1 false) _ _)
  obtain ⟨y, hy⟩ := flushed.descDone_frame fun _ => true
  have hcount : keepsClock (flushed.descDone fun _ => true) (flushed.descDone fun _ => true).countWaits :=
    keepsClock.foldl (fun s (x : Nat × Core) => s.countCore_keepsClock x.1) _ _
  obtain ⟨ht, hm, hp, hh, _⟩ := hflush
  obtain ⟨ht', hm', hp', hh', hd'⟩ := hcount
  refine ⟨(flushed.descDone fun _ => true).countWaits, rfl, ?_, ?_, ?_, ?_, ?_⟩
  · rw [ht', hy]
    exact ht
  · rw [hm', hy]
    exact hm
  · rw [hp', hy]
    exact hp
  · rw [hh', hy]
    exact hh
  · rw [hd', hy]
    simp

theorem step_of_pending_nil {s : State} (hp : s.pending = []) : step s = .next s.idle := by
  rw [step, hp]

theorem step_of_empty {s : State} (hp : s.pending = []) (hh : s.host.held = []) :
    ∃ t, step s = .next t ∧ t.descJobs = [] ∧ t.pending = [] ∧ t.mgmt = s.mgmt ∧
      (s.time.slew = 0 → t.time.elapsed = s.time.elapsed + 1 ∧ t.time.counter = s.time.counter + 1) := by
  obtain ⟨u, hu, ht, hm, hpu, hhu, hd⟩ := s.idle_before_tick
  obtain ⟨x, hx⟩ := u.tick_frame
  have hheld : u.tick.host.held = [] := by
    rw [hx]
    exact hhu.trans hh
  refine ⟨s.idle, step_of_pending_nil hp, ?_⟩
  rw [hu, State.hostStep_of_none hheld]
  refine ⟨?_, ?_, ?_, fun hs => ?_⟩
  · rw [hx]
    exact hd
  · rw [hx]
    exact hpu.trans hp
  · rw [hx]
    exact hm
  · rw [State.tick_of_no_slew (by rw [ht]; exact hs)]
    exact ⟨by rw [ht], by rw [ht]⟩

theorem State.flushLate_of_none {s : State} {r : Nat} (now : Bool) (h : (s.ring r).late = none) : s.flushLate r now = s := by
  simp [State.flushLate, h]

theorem step_of_empty_and_quiet {s : State} (hp : s.pending = []) (hh : s.host.held = []) (hs : s.time.slew = 0) (hc : s.cores = [])
    (hd : s.descJobs = []) (hl : ∀ r, (s.ring r).late = none) :
    step s = .next { s with ready := s.readyNow, time := { s.time with
      elapsed := s.time.elapsed + 1, counter := s.time.counter + 1, tick := 0 } } := by
  let now : State := { s with ready := s.readyNow }
  have hflush : s.rings.foldl (fun (s : State) x => s.flushLate x.1 false) now = now := by
    induction s.rings with
    | nil => rfl
    | cons x l ih =>
      rw [List.foldl_cons, State.flushLate_of_none (s := now) false (hl x.1)]
      exact ih
  have hdesc : now.descDone (fun _ => true) = now := by
    have hj : now.descJobs = [] := hd
    simp [State.descDone, hj]
    rw [← hj]
  have hcount : now.countWaits = now := by
    have hn : now.cores = [] := hc
    simp [State.countWaits, hn]
  have hidle : s.idle = now.tick.hostStep := by
    show ((s.rings.foldl (fun (s : State) x => s.flushLate x.1 false) now).descDone fun _ => true).countWaits.tick.hostStep = _
    rw [hflush, hdesc, hcount]
  have htick := State.tick_of_no_slew (s := now) hs
  have hheld : now.tick.host.held = [] := by
    rw [htick]
    exact hh
  rw [step_of_pending_nil hp, hidle, State.hostStep_of_none hheld, htick]

/-- Settles O54: `step` by its two cases; the idle step leaves the clock to `tick` and the host's queue empty. -/
theorem stepRunsTheFrontCommand : Obligations.StepRunsTheFrontCommand := by
  intro s c rest
  exact ⟨fun h => by rw [step, h], step_of_empty, step_of_empty_and_quiet⟩

end Sys2Proof.Machine

namespace Sys2Proof.Machine
open Host (Outcome)

/-! ## Recalibration and droop (R30, R31) -/

theorem vaultRecalibration_due {s : State} {m : Nat} (hm : s.power.recal = some m) (hle : m ≤ s.time.elapsed) :
    completes .vaultRecalibration s fun t =>
      t.power = { s.power with falls := [], recal := some (m + 1000000) } ∧
      (∀ n b, s.power.falls = [(n, b)] → t.fget F.vaultBand_BAND n = b % 2 ^ F.vaultBand_BAND.width) ∧
      t = { s with regs := t.regs, power := t.power } := by
  have he : exec .vaultRecalibration s = .next (s.recalibrate m) := by
    show execVaultRecalibration s = _
    simp only [execVaultRecalibration, hm]
    rw [if_neg (by omega)]
  have hfold : ∀ (l : List (Nat × Nat)) (t : State),
      ∃ x, l.foldl (fun (s : State) (x : Nat × Nat) => s.fset F.vaultBand_BAND x.1 x.2) t = { t with regs := x } := by
    intro l
    induction l with
    | nil => exact fun t => ⟨_, rfl⟩
    | cons y l ih => exact fun t => (ih (t.fset F.vaultBand_BAND y.1 y.2)).imp fun x hx => hx
  obtain ⟨x, hx⟩ := hfold s.power.falls s
  have hr : s.recalibrate m = { s with regs := x, power := { s.power with falls := [], recal := some (m + 1000000) } } := by
    rw [State.recalibrate, hx]
    rfl
  refine ⟨_, he, ?_, fun n b hf => ?_, ?_⟩
  · rw [hr]
  · show (s.recalibrate m).fget _ _ = _
    rw [State.recalibrate, hf]
    exact State.fget_fset_same _ _ _ _
  · rw [hr]

theorem vaultRecalibration_early {s : State} (h : ∀ m, s.power.recal = some m → s.time.elapsed < m) :
    completes .vaultRecalibration s fun t => t = s := by
  refine ⟨s, ?_, rfl⟩
  show execVaultRecalibration s = _
  unfold execVaultRecalibration
  split
  · exact if_pos (h _ ‹_›)
  · rfl

/-- A change of one field of cores: the field is the new one, nothing else of the state differs. -/
theorem completes_setField {c : Instr} {s : State} {n : Nat} {x : Field} (h : exec c s = .next (s.setField n x)) :
    completes c s fun t => t.field n = x ∧ t = { s with fields := t.fields } :=
  ⟨_, h, State.field_setField_same _ _ _, rfl⟩

/-! ## Rate windows (R36, R37) -/

theorem rateWindowEnd_due {s : State} {fid : FieldId} {w : Nat} (a c : BitVec 16) (hw : s.windowFrom fid = some w)
    (hle : w + 10000 ≤ s.time.elapsed) :
    completes (.rateWindowEnd fid a c) s fun t =>
      t.flag F.fieldRate_VALID fid = true ∧ t.fget F.fieldRate_WINDOW_SEQ fid = (s.fget F.fieldRate_WINDOW_SEQ fid + 1) % 2 ^ 16 ∧
      t.fget F.fieldRate_ACTUAL fid = a.toNat ∧ t.fget F.fieldRate_CAPABLE fid = c.toNat ∧ (t.field fid).window = s.time.elapsed ∧
      (∀ x y, s.expectedRate fid = some (x, y) →
        (t.field fid).slow = if c.toNat * y * 100 < 90 * x then (s.field fid).slow + 1 else 0) ∧ keepsData s t := by
  have ha : a.toNat < 2 ^ 16 := a.isLt
  have hc : c.toNat < 2 ^ 16 := c.isLt
  show ∃ t, execRateWindowEnd fid a c s = .next t ∧ _
  simp only [execRateWindowEnd, hw]
  rw [if_neg (by omega)]
  refine ⟨_, rfl, ?_, ?_, ?_, ?_, ?_, fun x y hx => ?_, rfl, rfl, rfl, rfl, rfl, rfl⟩
  · simp (disch := decide) [State.fadd, State.fget_fset_of_id]
  · simp (disch := decide) [State.fadd, State.fget_fset_of_id]
    rfl
  · simp (disch := decide) [State.fadd, State.fget_fset_of_id]
    exact Nat.mod_eq_of_lt ha
  · simp (disch := decide) [State.fadd, State.fget_fset_of_id]
    exact Nat.mod_eq_of_lt hc
  · simp
  · simp [hx]

theorem rateWindowEnd_early {s : State} {fid : FieldId} (a c : BitVec 16)
    (h : ∀ w, s.windowFrom fid = some w → s.time.elapsed < w + 10000) : completes (.rateWindowEnd fid a c) s fun t => t = s := by
  refine ⟨s, ?_, rfl⟩
  show execRateWindowEnd fid a c s = _
  unfold execRateWindowEnd
  dsimp only
  split
  · rfl
  · exact if_pos (h _ ‹_›)

@[simp] theorem State.event_evSeq (s : State) (kind : Nat) (body : List Nat) : (s.event kind body).mgmt.evSeq = s.mgmt.evSeq + 1 := by
  unfold State.event
  dsimp only
  split <;> rfl

theorem State.event_frame (s : State) (kind : Nat) (body : List Nat) : ∃ x y, s.event kind body = { s with regs := x, mgmt := y } := by
  unfold State.event
  dsimp only
  split <;> exact ⟨_, _, rfl⟩

theorem State.almanac_frame (s : State) (kind : Nat) (body : List Nat) : ∃ x y, s.almanac kind body = { s with regs := x, alm := y } := by
  unfold State.almanac
  dsimp only
  split
  · exact ⟨_, _, rfl⟩
  · split <;> exact ⟨_, _, rfl⟩

theorem slowFieldReport_due {s : State} {fid : FieldId} (h : 100 ≤ (s.field fid).slow) :
    completes (.slowFieldReport fid) s fun t => (t.field fid).slow = 0 ∧ t.mgmt.evSeq = s.mgmt.evSeq + 1 ∧ keepsData s t := by
  show ∃ t, execSlowFieldReport fid s = .next t ∧ _
  simp only [execSlowFieldReport]
  rw [if_neg (by omega)]
  refine ⟨_, rfl, ?_⟩
  generalize [fid.val / 288, _, _, _] = body
  let u : State := s.setField fid { s.field fid with slow := 0 }
  obtain ⟨x, y, hev⟩ := u.event_frame 5 body
  obtain ⟨x', y', hal⟩ := (u.event 5 body).almanac_frame 6 body
  have hseq : (u.event 5 body).mgmt.evSeq = s.mgmt.evSeq + 1 := u.event_evSeq 5 body
  have hslow : (State.field { u with regs := x, mgmt := y } fid).slow = 0 := congrArg Field.slow (s.field_setField_same _ _)
  rw [hal]
  refine ⟨?_, hseq, ?_⟩
  · rw [hev]
    exact hslow
  · rw [hev]
    exact ⟨rfl, rfl, rfl, rfl, rfl, rfl⟩

/-! ## The stall bound (R39, R40) -/

/-- The state after STALL_CTL's W1C bit has been written. -/
def State.stallCtlClear (s : State) (val : Nat) : State := if bitAt val 16 then s.fset F.stallCtl_BOUND_ERR 0 0 else s

theorem State.stallCtlClear_err (s : State) (val : Nat) :
    (s.stallCtlClear val).flag F.stallCtl_BOUND_ERR 0 = (s.flag F.stallCtl_BOUND_ERR 0 && !bitAt val 16) := by
  unfold State.stallCtlClear
  by_cases h : bitAt val 16 = true <;> simp [h, State.flag]

theorem State.stallCtlClear_frame (s : State) (val : Nat) :
    (s.stallCtlClear val).bounds = s.bounds ∧ (s.stallCtlClear val).time = s.time ∧
    regsOnly s (s.stallCtlClear val) [(F.stallCtl_BOUND_US, 0), (F.stallCtl_BOUND_ERR, 0)] := by
  unfold State.stallCtlClear
  split
  · exact ⟨rfl, rfl, s.regsOnly_fset _ (by simp)⟩
  · exact ⟨rfl, rfl, regsOnly_refl _ _⟩

theorem State.stallCtlClear_bound (s : State) (val : Nat) :
    (s.stallCtlClear val).fget F.stallCtl_BOUND_US 0 = s.fget F.stallCtl_BOUND_US 0 := by
  unfold State.stallCtlClear
  split
  · exact s.fget_fset_of_id (by decide) _ _ _
  · rfl

theorem stallCtlWrite_done (s : State) (val : W32) :
    let v := bitsOf val.toNat 0 16
    completes (.stallCtlWrite val) s fun t =>
      t.fget F.stallCtl_BOUND_US 0 = (if 10 ≤ v ∧ v ≤ 1000 then v else s.fget F.stallCtl_BOUND_US 0) ∧
      t.flag F.stallCtl_BOUND_ERR 0 = ((v ≠ 0 && !(10 ≤ v && v ≤ 1000)) || (s.flag F.stallCtl_BOUND_ERR 0 && !bitAt val.toNat 16)) ∧
      t.bounds = (if 10 ≤ v ∧ v ≤ 1000 then (s.time.elapsed, v) :: s.bounds else s.bounds) ∧
      regsOnly s { t with bounds := s.bounds } [(F.stallCtl_BOUND_US, 0), (F.stallCtl_BOUND_ERR, 0)] := by
  intro v
  obtain ⟨hb, ht, hframe⟩ := s.stallCtlClear_frame val.toNat
  have herr := s.stallCtlClear_err val.toNat
  have hbound := s.stallCtlClear_bound val.toNat
  let u := s.stallCtlClear val.toNat
  have he : exec (.stallCtlWrite val) s =
      if v = 0 then .next u else if 10 ≤ v ∧ v ≤ 1000 then .next (u.setBound v) else .next (u.fset F.stallCtl_BOUND_ERR 0 1) := rfl
  rcases Nat.eq_zero_or_pos v with h0 | h0
  · rw [if_pos h0] at he
    have hno : ¬ (10 ≤ v ∧ v ≤ 1000) := by omega
    refine ⟨_, he, ?_, ?_, ?_, ?_⟩
    · rw [if_neg hno, hbound]
    · rw [herr]
      simp [h0]
    · rw [if_neg hno, hb]
    · rw [← hb]
      exact hframe
  · rw [if_neg (by omega)] at he
    by_cases hv : 10 ≤ v ∧ v ≤ 1000
    · rw [if_pos hv] at he
      refine ⟨_, he, ?_, ?_, ?_, ?_⟩
      · rw [if_pos hv]
        show (u.fset F.stallCtl_BOUND_US 0 v).fget _ _ = v
        rw [State.fget_fset_same]
        exact Nat.mod_eq_of_lt (by show v < 65536; omega)
      · show (u.fset F.stallCtl_BOUND_US 0 v).flag _ _ = _
        rw [State.flag, State.fget_fset_of_id _ (by decide), ← State.flag, herr]
        simp [hv.1, hv.2]
      · rw [if_pos hv, ← hb, ← ht]
        rfl
      · have hset := hframe.trans (u.regsOnly_fset (f := F.stallCtl_BOUND_US) (i := 0) v
          (l := [(F.stallCtl_BOUND_US, 0), (F.stallCtl_BOUND_ERR, 0)]) (by simp))
        rw [← hb]
        exact hset
    · rw [if_neg hv] at he
      refine ⟨_, he, ?_, ?_, ?_, ?_⟩
      · rw [if_neg hv, State.fget_fset_of_id _ (by decide), hbound]
      · rw [State.flag, State.fget_fset_same]
        have hv' : (decide (v ≠ 0) && !(decide (10 ≤ v) && decide (v ≤ 1000))) = true := by simp; omega
        rw [hv']
        rfl
      · rw [if_neg hv]
        exact hb
      · have hset := hframe.trans (u.regsOnly_fset (f := F.stallCtl_BOUND_ERR) (i := 0) 1
          (l := [(F.stallCtl_BOUND_US, 0), (F.stallCtl_BOUND_ERR, 0)]) (by simp))
        rw [← hb]
        exact hset

/-! ## Stalls (R41 to R45) -/

theorem stall_due {s : State} {hs : Handshake} (ht : s.timed hs = true) (hb : s.boundAt hs.raised * 1000 < s.openNs hs) :
    completes (.stall hs) s fun t =>
      t = { s with fields := t.fields, stalls := t.stalls } ∧ (∀ f, watchOf hs.port = .field f → (t.field f).held = true) ∧
      ∃ x : StallRep, t.stalls = s.stalls ++ [x] ∧ x.hs = hs ∧ x.at_ = s.time.elapsed ∧
        x.secondary = (match hs.faces with | some b => s.stalls.any fun y => watchOf y.hs.port = b | none => false) := by
  have hgo : (!s.timed hs || decide (s.openNs hs ≤ s.boundAt hs.raised * 1000)) = false := by simp [ht]; omega
  have he : exec (.stall hs) s = execStall hs s := rfl
  unfold execStall at he
  dsimp only at he
  rw [hgo] at he
  cases hw : watchOf hs.port with
  | field f =>
    rw [hw] at he
    refine ⟨_, he, rfl, fun g hg => ?_, _, rfl, rfl, rfl, rfl⟩
    cases hg
    rw [State.field_setField_same]
  | granary b =>
    rw [hw] at he
    exact ⟨_, he, rfl, fun g hg => (nomatch hg), _, rfl, rfl, rfl, rfl⟩

theorem stall_not_due {s : State} {hs : Handshake} (h : s.timed hs = false ∨ s.openNs hs ≤ s.boundAt hs.raised * 1000) :
    completes (.stall hs) s fun t => t = s := by
  refine ⟨s, ?_, rfl⟩
  show execStall hs s = _
  unfold execStall
  exact if_pos (by simpa using h)

theorem fieldResetDone_ends {s : State} {fid : FieldId} (h : (s.field fid).resetting = true) :
    completes (.fieldResetDone fid) s fun t =>
      (t.field fid).resetting = false ∧ (t.field fid).since = s.time.elapsed ∧
      (t.field fid).held = (s.subst.any fun n => fieldOfCore n.1 = fid.val) ∧ t = { s with fields := t.fields } := by
  show ∃ t, execFieldResetDone fid s = .next t ∧ _
  simp only [execFieldResetDone, h]
  refine ⟨_, rfl, ?_, ?_, ?_, rfl⟩
  all_goals rw [State.field_setField_same]

/-! ### Steps that consume chaff -/

/-- Every open step of number `k` of ring `r` carries chaff. -/
def stepChaffed (s : State) (r k : Nat) : Prop := ∀ o ∈ (s.ring r).steps, o.step = k → o.chaff = true

theorem stepChaffed.openStep {s : State} {r k : Nat} (h : stepChaffed s r k) {o : OpenStep} (ho : (s.ring r).openStep k = some o) :
    o.chaff = true :=
  h o (List.mem_of_find?_eq_some ho) (by simpa using List.find?_some ho)

theorem State.ring_onStep (s : State) (ring : Option Nat) (step : Nat) (f : OpenStep → OpenStep) (r : Nat) :
    (s.onStep ring step f).ring r = if ring = some r then (s.ring r).onStep step f else s.ring r := by
  cases ring with
  | none => rfl
  | some q =>
    by_cases h : q = r
    · subst h
      rw [if_pos rfl]
      exact s.ring_onRing_same q _
    · rw [if_neg (by simpa using h)]
      exact s.ring_setRing_other q r _ (Ne.symm h)

theorem stepChaffed.onStep {s : State} {r k : Nat} (h : stepChaffed s r k) (ring : Option Nat) (step : Nat) {f : OpenStep → OpenStep}
    (hs : ∀ o, (f o).step = o.step) (hc : ∀ o, o.chaff = true → (f o).chaff = true) : stepChaffed (s.onStep ring step f) r k := by
  intro o ho hk
  rw [State.ring_onStep] at ho
  split at ho
  · obtain ⟨p, hp, rfl⟩ := List.mem_map.mp ho
    by_cases hpk : p.step = step
    · rw [if_pos hpk] at hk ⊢
      exact hc p (h p hp ((hs p).symm.trans hk))
    · rw [if_neg hpk] at hk ⊢
      exact h p hp hk
  · exact h o ho hk

theorem State.consumeChaff_chaffed (s : State) (r k : Nat) : stepChaffed (s.consumeChaff (some r) k) r k := by
  intro o ho hk
  rw [State.consumeChaff, State.ring_onStep, if_pos rfl] at ho
  obtain ⟨p, _, rfl⟩ := List.mem_map.mp ho
  by_cases hpk : p.step = k
  · rw [if_pos hpk]
  · rw [if_neg hpk] at hk
    contradiction

/-- The numbers of a ring's open steps. -/
def State.stepNums (s : State) (r : Nat) : List Nat := (s.ring r).steps.map OpenStep.step

@[simp] theorem State.consumeChaff_stepNums (s : State) (ring : Option Nat) (k r : Nat) :
    (s.consumeChaff ring k).stepNums r = s.stepNums r := by
  unfold State.stepNums
  rw [State.consumeChaff, State.ring_onStep]
  split
  · simp only [Ring.onStep, List.map_map]
    refine List.map_congr_left fun o _ => ?_
    simp only [Function.comp_apply]
    split <;> rfl
  · rfl

/-- The step a stall is charged to depends on the numbers of its ring's open steps (R45). -/
theorem State.stallStep_congr {s t : State} (h : ∀ r, t.stepNums r = s.stepNums r) (hs : Handshake) : t.stallStep hs = s.stallStep hs := by
  have hval : ∀ u : State, u.stallStep hs = hs.ring.bind fun r =>
      if hs.step ∈ u.stepNums r then some (r, hs.step) else (u.stepNums r).head?.map fun k => (r, k) := by
    intro u
    unfold State.stallStep
    cases hs.ring with
    | none => rfl
    | some r =>
      dsimp only [Option.bind_some]
      cases ho : (u.ring r).openStep hs.step with
      | some o =>
        have hnum : o.step = hs.step := by simpa using List.find?_some ho
        have hin : hs.step ∈ u.stepNums r := List.mem_map.mpr ⟨o, List.mem_of_find?_eq_some ho, hnum⟩
        rw [if_pos hin]
        exact congrArg (fun k => some (r, k)) hnum
      | none =>
        have hno : hs.step ∉ u.stepNums r := by
          intro hm
          obtain ⟨o, hmem, hk⟩ := List.mem_map.mp hm
          simpa [hk] using List.find?_eq_none.mp ho o hmem
        rw [if_neg hno, State.stepNums]
        cases (u.ring r).steps <;> rfl
  rw [hval, hval]
  simp [h]

/-! ### The reset of a field (step 3 of Table 2-5) -/

/-- One core of a field that is reset: the step of its work item consumes chaff and the core starts anew. -/
def State.resetCore (s : State) (n : Nat) : State :=
  State.setCore (match (s.core n).wi with
    | some w => if w.dead then s else s.onStep w.ring w.step fun o => { o with items := o.items - 1, chaff := true }
    | none => s) n (s.core n).fieldReset

theorem State.resetCore_frame (s : State) (n : Nat) : ∃ x, s.resetCore n = { s with rings := x, cores := alPut s.cores n (s.core n).fieldReset } := by
  unfold State.resetCore
  split
  · split
    · exact ⟨_, rfl⟩
    · obtain ⟨x, hx⟩ := s.onStep_frame (‹WorkItem›).ring (‹WorkItem›).step fun o => { o with items := o.items - 1, chaff := true }
      exact ⟨x, by rw [hx]; rfl⟩
  · exact ⟨_, rfl⟩

theorem State.core_resetCore_same (s : State) (n : Nat) : (s.resetCore n).core n = (s.core n).fieldReset := by
  obtain ⟨x, hx⟩ := s.resetCore_frame n
  rw [hx]
  exact s.core_setCore_same n _

theorem State.core_resetCore_other (s : State) {n m : Nat} (h : m ≠ n) : (s.resetCore n).core m = s.core m := by
  obtain ⟨x, hx⟩ := s.resetCore_frame n
  rw [hx]
  exact s.core_setCore_other n m _ h

theorem State.resetCore_keeps_queue (s : State) (n m : Nat) : ((s.resetCore n).core m).queue = (s.core m).queue := by
  by_cases h : m = n
  · rw [h, State.core_resetCore_same]
    rfl
  · rw [State.core_resetCore_other _ h]

theorem State.resetCore_keeps_idle (s : State) (n : Nat) {m : Nat} (hm : (s.core m).wi = none) : ((s.resetCore n).core m).wi = none := by
  by_cases h : m = n
  · rw [h, State.core_resetCore_same]
    rfl
  · rw [State.core_resetCore_other _ h, hm]

theorem stepChaffed.resetCore {s : State} {r k : Nat} (h : stepChaffed s r k) (n : Nat) : stepChaffed (s.resetCore n) r k := by
  unfold State.resetCore
  split
  · split
    · exact h
    · exact h.onStep _ _ (fun _ => rfl) fun _ _ => rfl
  · exact h

section
variable (l : List Nat) (s : State)

theorem State.resetCores_frame : ∃ x y, l.foldl State.resetCore s = { s with rings := x, cores := y } := by
  induction l generalizing s with
  | nil => exact ⟨_, _, rfl⟩
  | cons n l ih =>
    obtain ⟨x, y, h⟩ := ih (s.resetCore n)
    obtain ⟨z, hz⟩ := s.resetCore_frame n
    exact ⟨x, y, by rw [List.foldl_cons, h, hz]⟩

theorem State.resetCores_queue (m : Nat) : ((l.foldl State.resetCore s).core m).queue = (s.core m).queue := by
  induction l generalizing s with
  | nil => rfl
  | cons n l ih => rw [List.foldl_cons, ih, State.resetCore_keeps_queue]

theorem State.resetCores_keep_idle {m : Nat} (h : (s.core m).wi = none) : ((l.foldl State.resetCore s).core m).wi = none := by
  induction l generalizing s with
  | nil => exact h
  | cons n l ih => exact ih _ (s.resetCore_keeps_idle n h)

theorem State.resetCores_idle {m : Nat} (hm : m ∈ l) : ((l.foldl State.resetCore s).core m).wi = none := by
  induction l generalizing s with
  | nil => simp at hm
  | cons n l ih =>
    rcases List.mem_cons.mp hm with rfl | hm
    · exact State.resetCores_keep_idle l _ (by rw [State.core_resetCore_same]; rfl)
    · exact ih _ hm

theorem stepChaffed.resetCores {r k : Nat} (h : stepChaffed s r k) : stepChaffed (l.foldl State.resetCore s) r k := by
  induction l generalizing s with
  | nil => exact h
  | cons n l ih => exact ih _ (h.resetCore n)

end

theorem State.endReleases_frame (s : State) : ∃ x y z, s.endReleases = { s with regs := x, allocs := y, rel := z } := by
  unfold State.endReleases
  refine List.foldlRecOn (motive := fun t : State => ∃ x y z, t = { s with regs := x, allocs := y, rel := z }) _ _ ⟨_, _, _, rfl⟩ ?_
  rintro _ ⟨x, y, z, rfl⟩ a _
  dsimp only
  repeat' split
  all_goals exact ⟨_, _, _, rfl⟩

/-- What the reset of a field does once its cores are reset: their moves, waits and releases end, and the field is held. -/
def State.resetUnits (s : State) (fid : Nat) (cores : List Nat) : State :=
  let inF (c : Option Nat) : Bool := match c with | some n => cores.contains n | none => false
  let s := { s with moves := s.moves.filter (fun m => !inF m.core), waits := s.waits.filter (fun w => !inF w.core) }.endReleases
  ((s.fset F.fieldRate_VALID fid 0).unpause (.field fid)).setField fid
    { s.field fid with resetting := true, held := true, halted := false, slow := 0, hot := none }

theorem mem_coresOf {n fid : Nat} (h : fieldOfCore n = fid) : n ∈ coresOf fid := by
  refine List.mem_map.mpr ⟨n % 24, List.mem_range.mpr (Nat.mod_lt _ (by decide)), ?_⟩
  unfold fieldOfCore at h
  omega

theorem State.resetField_eq (s : State) (fid : Nat) : s.resetField fid = ((coresOf fid).foldl State.resetCore s).resetUnits fid (coresOf fid) := rfl

theorem State.resetUnits_frame (s : State) (fid : Nat) (cores : List Nat) :
    ∃ regs pauses moves waits allocs rel x, s.resetUnits fid cores =
      State.setField { s with regs := regs, pauses := pauses, moves := moves, waits := waits, allocs := allocs, rel := rel } fid x ∧
      x.resetting = true ∧ x.held = true := by
  unfold State.resetUnits
  dsimp only
  generalize (s.moves.filter _) = moves
  generalize (s.waits.filter _) = waits
  obtain ⟨x, y, z, he⟩ := State.endReleases_frame { s with moves := moves, waits := waits }
  rw [he]
  exact ⟨_, _, _, _, _, _, _, rfl, rfl, rfl⟩

section
variable (s : State) (fid : Nat)

theorem State.resetField_field : ((s.resetField fid).field fid).resetting = true ∧ ((s.resetField fid).field fid).held = true := by
  obtain ⟨_, _, _, _, _, _, x, h, hr, hh⟩ := ((coresOf fid).foldl State.resetCore s).resetUnits_frame fid (coresOf fid)
  rw [State.resetField_eq, h, State.field_setField_same]
  exact ⟨hr, hh⟩

theorem State.resetField_leaves :
    (s.resetField fid).stalls = s.stalls ∧ (s.resetField fid).mem = s.mem ∧ (s.resetField fid).faultQ = s.faultQ := by
  obtain ⟨_, _, _, _, _, _, _, h, _⟩ := ((coresOf fid).foldl State.resetCore s).resetUnits_frame fid (coresOf fid)
  obtain ⟨x, y, hu⟩ := State.resetCores_frame (coresOf fid) s
  rw [State.resetField_eq, h, hu]
  exact ⟨rfl, rfl, rfl⟩

theorem State.resetField_cores {n : Nat} (hn : fieldOfCore n = fid) :
    ((s.resetField fid).core n).wi = none ∧ ((s.resetField fid).core n).queue = (s.core n).queue := by
  have hidle := State.resetCores_idle _ s (mem_coresOf hn)
  have hqueue := State.resetCores_queue (coresOf fid) s n
  rw [State.resetField_eq]
  generalize (coresOf fid).foldl State.resetCore s = u at hidle hqueue ⊢
  obtain ⟨_, _, _, _, _, _, _, h, _⟩ := u.resetUnits_frame fid (coresOf fid)
  rw [h]
  exact ⟨hidle, hqueue⟩

theorem stepChaffed.resetField {r k : Nat} (h : stepChaffed s r k) : stepChaffed (s.resetField fid) r k := by
  have hall := stepChaffed.resetCores (coresOf fid) s h
  rw [State.resetField_eq]
  generalize (coresOf fid).foldl State.resetCore s = u at hall ⊢
  obtain ⟨_, _, _, _, _, _, _, hf, _⟩ := u.resetUnits_frame fid (coresOf fid)
  rw [hf]
  exact hall

end

/-! ### The collection window (Table 2-5, R44) -/

theorem stallCollectionClose_open {s : State} {x : StallRep} (others : List Handshake) (hx : s.stalls = [x])
    (h : s.time.elapsed < x.at_ + 2000) : completes (.stallCollectionClose others) s fun t => t = s := by
  refine ⟨s, ?_, rfl⟩
  show execStallCollectionClose others s = _
  unfold execStallCollectionClose
  rw [hx]
  exact if_pos h

theorem stallFault_cause (h : Handshake) : (stallFault h).cause = 2 := by
  unfold stallFault
  dsimp only
  split <;> rfl

/-- Does a handshake face a field. -/
def facesField (f : Nat) (h : Handshake) : Bool := h.faces = some (.field f)

/-- The handshakes that face a field complete, their steps consuming chaff. -/
def State.facingDone (s : State) (f : Nat) (others : List Handshake) : State :=
  (others.filter (facesField f)).foldl (fun (s : State) h => s.consumeChaff h.ring h.step) s

theorem State.facingDone_frame (s : State) (f : Nat) (others : List Handshake) : ∃ x, s.facingDone f others = { s with rings := x } := by
  unfold State.facingDone
  refine List.foldlRecOn (motive := fun t : State => ∃ x, t = { s with rings := x }) _ _ ⟨_, rfl⟩ ?_
  rintro _ ⟨x, rfl⟩ h _
  obtain ⟨y, hy⟩ := State.consumeChaff_frame { s with rings := x } h.ring h.step
  exact ⟨y, hy⟩

theorem State.facingDone_stepNums (s : State) (f : Nat) (others : List Handshake) (r : Nat) :
    (s.facingDone f others).stepNums r = s.stepNums r := by
  unfold State.facingDone
  refine List.foldlRecOn (motive := fun t : State => t.stepNums r = s.stepNums r) _ _ rfl fun t ht h _ => ?_
  rw [State.consumeChaff_stepNums, ht]

theorem State.facingDone_chaffed (s : State) {f : Nat} {others : List Handshake} {h : Handshake} (hm : h ∈ others)
    (hf : h.faces = some (.field f)) {r : Nat} (hr : h.ring = some r) : stepChaffed (s.facingDone f others) r h.step := by
  have hkeep : ∀ (l : List Handshake) (u : State), stepChaffed u r h.step →
      stepChaffed (l.foldl (fun (s : State) h => s.consumeChaff h.ring h.step) u) r h.step := by
    intro l
    induction l with
    | nil => exact fun u hu => hu
    | cons a l ih => exact fun u hu => ih _ (hu.onStep _ _ (fun _ => rfl) fun _ _ => rfl)
  have hin : h ∈ others.filter (facesField f) := List.mem_filter.mpr ⟨hm, by simp [facesField, hf]⟩
  unfold State.facingDone
  obtain ⟨l₁, l₂, hl⟩ := List.append_of_mem hin
  rw [hl, List.foldl_append, List.foldl_cons, hr]
  exact hkeep _ _ (State.consumeChaff_chaffed _ r h.step)

/-- The confirmed fault of a primary stall (R45). -/
def State.stallRecord (s : State) (h : Handshake) : FaultRec :=
  match s.stallStep h with
  | some (r, st) => { stallFault h with part := partOfRing r, ring := r, step := st }
  | none => { stallFault h with ring := h.ring.getD 0xFF, step := h.step }

theorem State.stallRecord_of_step {s : State} {h : Handshake} {r st : Nat} (hs : s.stallStep h = some (r, st)) :
    (s.stallRecord h).ring = r ∧ (s.stallRecord h).step = st := by
  unfold State.stallRecord
  rw [hs]
  exact ⟨rfl, rfl⟩

theorem State.stallRecord_cause (s : State) (h : Handshake) : (s.stallRecord h).cause = 2 := by
  unfold State.stallRecord
  split <;> exact stallFault_cause h

theorem State.endEntry_frame (s : State) : ∃ x y, s.endEntry = { s with regs := x, power := y } := by
  unfold State.endEntry
  split
  · exact ⟨_, _, rfl⟩
  · exact ⟨_, _, rfl⟩

section
variable {s : State} {x : StallRep} {f : Nat} (others : List Handshake) (hx : s.stalls = [x]) (hw : watchOf x.hs.port = .field f)
  (hle : x.at_ + 2000 ≤ s.time.elapsed)
include hx hw hle

theorem stallCollectionClose_primary_eq (hp : x.secondary = false) :
    let u := State.facingDone { s with stalls := [] } f others
    exec (.stallCollectionClose others) s = .next ((u.confirm (u.stallRecord x.hs)).endEntry.resetField f) := by
  intro u
  have hfields : stallFields [x] = [f] := by simp [stallFields, hp, hw, setIns]
  have hfacing : (fun h : Handshake => match h.faces.bind fidOf with | some g => [f].contains g | none => false) = facesField f := by
    funext h
    unfold facesField
    match h.faces with
    | none => rfl
    | some (.granary b) => simp [fidOf]
    | some (.field g) => simp [fidOf]
  show execStallCollectionClose others s = _
  unfold execStallCollectionClose
  rw [hx]
  dsimp only
  rw [if_neg (by omega), hfields]
  simp only [List.foldl_cons, List.foldl_nil, hp, List.filter_cons, List.filter_nil, Bool.not_false, if_true, Bool.false_eq_true, if_false,
    List.isEmpty_cons]
  have hu : (others.filter fun h : Handshake => match h.faces.bind fidOf with | some g => [f].contains g | none => false).foldl
      (fun (s : State) h => s.consumeChaff h.ring h.step) { s with stalls := [] } = u := by rw [hfacing]; rfl
  have hc : (match u.stallStep x.hs with
      | some (r, st) => u.confirm { stallFault x.hs with part := partOfRing r, ring := r, step := st }
      | none => u.confirm { stallFault x.hs with ring := x.hs.ring.getD 0xFF, step := x.hs.step }) = u.confirm (u.stallRecord x.hs) := by
    unfold State.stallRecord
    split <;> rfl
  rw [← hc, ← hu] <;> rfl

theorem stallCollectionClose_primary (hp : x.secondary = false) :
    completes (.stallCollectionClose others) s fun t =>
      t.stalls = [] ∧ (t.field f).resetting = true ∧ (t.field f).held = true ∧ t.mem = s.mem ∧
      (∃ k : FaultRec, t.faultQ = s.faultQ ++ [k] ∧ k.cause = 2 ∧ (∀ r st, s.stallStep x.hs = some (r, st) → k.ring = r ∧ k.step = st)) ∧
      (∀ h ∈ others, h.faces = some (.field f) → ∀ r o, h.ring = some r → (t.ring r).openStep h.step = some o → o.chaff = true) ∧
      ∀ n, fieldOfCore n = f → (t.core n).wi = none ∧ (t.core n).queue = (s.core n).queue := by
  let u := State.facingDone { s with stalls := [] } f others
  obtain ⟨y, hu⟩ := State.facingDone_frame { s with stalls := [] } f others
  obtain ⟨z, p, he⟩ := (u.confirm (u.stallRecord x.hs)).endEntry_frame
  obtain ⟨hres, hheld⟩ := (u.confirm (u.stallRecord x.hs)).endEntry.resetField_field f
  obtain ⟨hst, hmem, hfq⟩ := (u.confirm (u.stallRecord x.hs)).endEntry.resetField_leaves f
  have hstep : u.stallStep x.hs = s.stallStep x.hs :=
    State.stallStep_congr (fun r => State.facingDone_stepNums { s with stalls := [] } f others r) x.hs
  refine ⟨_, stallCollectionClose_primary_eq others hx hw hle hp, ?_, hres, hheld, ?_, ⟨u.stallRecord x.hs, ?_, ?_, fun r st hr => ?_⟩, ?_, ?_⟩
  · rw [hst, he]
    exact (congrArg State.stalls hu).trans rfl
  · rw [hmem, he]
    exact (congrArg State.mem hu).trans rfl
  · rw [hfq, he]
    exact (congrArg (fun t : State => t.faultQ ++ [u.stallRecord x.hs]) hu).trans rfl
  · exact u.stallRecord_cause x.hs
  · exact State.stallRecord_of_step (hstep.trans hr)
  · intro h hm hf r o hr ho
    have hch : stepChaffed u r h.step := State.facingDone_chaffed _ hm hf hr
    have hch' : stepChaffed (u.confirm (u.stallRecord x.hs)).endEntry r h.step := by
      rw [he]
      exact hch
    exact (stepChaffed.resetField _ f hch').openStep ho
  · intro n hn
    obtain ⟨hwi, hq⟩ := (u.confirm (u.stallRecord x.hs)).endEntry.resetField_cores f hn
    refine ⟨hwi, hq.trans ?_⟩
    rw [he]
    exact (congrArg (fun t : State => (t.core n).queue) hu).trans rfl

theorem stallCollectionClose_secondary (hp : x.secondary = true) :
    completes (.stallCollectionClose others) s fun t =>
      t.stalls = [] ∧ (t.field f).held = false ∧ t.faultQ = s.faultQ ∧ t.mem = s.mem ∧ t.cores = s.cores ∧
      ∀ r o, x.hs.ring = some r → (t.ring r).openStep x.hs.step = some o → o.chaff = true := by
  let u := State.consumeChaff { s with stalls := [] } x.hs.ring x.hs.step
  have hfields : stallFields [x] = [] := by simp [stallFields, hp]
  have he : exec (.stallCollectionClose others) s = .next (u.setField f { u.field f with held := false }) := by
    show execStallCollectionClose others s = _
    unfold execStallCollectionClose
    rw [hx]
    dsimp only
    rw [if_neg (by omega), hfields]
    simp only [List.foldl_cons, List.foldl_nil, hp, List.filter_cons, List.filter_nil, Bool.not_true, if_true, Bool.false_eq_true, if_false,
      List.isEmpty_nil, hw]
    rw [List.filter_eq_nil_iff.mpr]
    · rfl
    · intro h _
      split <;> simp
  obtain ⟨y, hu⟩ := State.consumeChaff_frame { s with stalls := [] } x.hs.ring x.hs.step
  refine ⟨_, he, ?_, ?_, ?_, ?_, ?_, fun r o hr ho => ?_⟩
  · exact (congrArg State.stalls hu).trans rfl
  · rw [State.field_setField_same]
  · exact (congrArg State.faultQ hu).trans rfl
  · exact (congrArg State.mem hu).trans rfl
  · exact (congrArg State.cores hu).trans rfl
  · have hch : stepChaffed u r x.hs.step := by
      show stepChaffed (State.consumeChaff _ x.hs.ring x.hs.step) r x.hs.step
      rw [hr]
      exact State.consumeChaff_chaffed _ r x.hs.step
    exact hch.openStep ho

end

/-- Settles O39: each clause by the lemma about its command. -/
theorem holdsRatesAndStalls : Obligations.HoldsRatesAndStalls := by
  intro s fid mv a c val hs
  exact ⟨fun m => vaultRecalibration_due, vaultRecalibration_early, fun h => completes_setField (if_pos h),
    fun h => ⟨s, if_neg (Nat.not_lt.mpr h), rfl⟩, fun h => completes_setField (if_pos h), fun h => ⟨s, if_neg (Nat.not_le.mpr h), rfl⟩,
    fun w => rateWindowEnd_due a c, rateWindowEnd_early a c, slowFieldReport_due, stallCtlWrite_done s val, stall_due, stall_not_due,
    fun x f others hx hw => ⟨stallCollectionClose_open others hx, fun hle hp _ => stallCollectionClose_primary others hx hw hle hp,
      stallCollectionClose_secondary others hx hw⟩,
    fieldResetDone_ends⟩

end Sys2Proof.Machine

namespace Sys2Proof.Machine
open Host (Outcome)

/-! ## A Function Level Reset over a table of rings out of order (R141, R598)

The reset of a ring takes back its completion records. The reset of a later ring can meet a stream context whose CHECK fails; the Reeve then fails safe
and writes every listed ring back without its steps. In a table with rising numbers each ring stands once and keeps what its own reset left. In a table
out of order a ring's reset enters the ring a second time, in front, and the fail-safe writes the older of the two back, with its records. -/

/-- A partition of VF 0 with no core. -/
def flrPart : Part :=
  { owner := 1, first := 0, count := 0, layout := 0, quota := 0, pasidEn := false, pasid := 0, model := none, feSeq := 0 }

/-- A completion record that its ring keeps back. -/
def flrRecord : CplRec := { step := 0, status := 0, type := 0, warn := false, irq := false, entry := 0, core := 0, detail := 0 }

/-- An open step that holds the stream of context 0. -/
def flrStep : OpenStep := { OpenStep.fresh 0 { type := 1, entry := 0, irq := false } with live := [0] }

/-- VF 0's ring 0 keeps a record back and its ring 1 has an open step whose stream's context is damaged; ring 1 is listed before ring 0. -/
def flrState : State :=
  { State.reset with
    parts := [(0, flrPart)], strmOn := true, mem := [(ctxAddr 0, 1)],
    rings := [(1, { Ring.fresh with steps := [flrStep] }), (0, { Ring.fresh with held := [(0, flrRecord)] })] }

set_option maxRecDepth 100000 in
/-- The reset of VF 0 runs to its end and leaves ring 0 a record. -/
theorem vfFlr_leaves_record : completes (.vfFlr 0) flrState fun t => (t.ring 0).held ≠ [] := ⟨_, rfl, by decide +kernel⟩

/-- Refutes O53: the clause that a VF's reset leaves its rings no completion record fails in `flrState`, a state whose table of rings is out of order, which
no hypothesis of the statement excludes. -/
theorem not_hostLinkAndFunctions : ¬ Obligations.HostLinkAndFunctions := by
  intro h
  obtain ⟨_, _, hfunctions, _⟩ := h
  obtain ⟨_, _, _, _, hflr, _⟩ := hfunctions flrState 0 0 0 0
  obtain ⟨t, ht, _, _, _, _, _, hrings⟩ := hflr
  obtain ⟨u, hu, hleft⟩ := vfFlr_leaves_record
  obtain ⟨_, hheld⟩ := hrings 0 flrPart List.mem_cons_self rfl 0 (by decide)
  have htu : t = u := Outcome.next.inj (ht.symm.trans hu)
  rw [← htu] at hleft
  exact hleft hheld

end Sys2Proof.Machine

namespace Sys2Proof.Machine
open Host (Outcome)

/-! ## What the units of a core leave as it was: frames of the shared operations -/

/-- Core `c` goes on with the work of core `b`: its registers, program counter and work item, and its queues but `q`. -/
def Core.worksAs (q : Nat) (b c : Core) : Prop :=
  c.regs = b.regs ∧ c.pc = b.pc ∧ c.wi = b.wi ∧ ∀ p, p < 5 → p ≠ q → c.queueOf p = b.queueOf p

theorem unitFrame_of_worksAs {s t : State} {n q : Nat} (hw : (s.core n).worksAs q (t.core n)) (ho : ∀ m, m ≠ n → t.core m = s.core m)
    (hm : t.mem = s.mem) : unitFrame s t n q := by
  obtain ⟨hregs, hpc, hwi, hqueue⟩ := hw
  refine ⟨fun r => ?_, hpc, hwi, hqueue, ho, hm⟩
  rw [Core.reg, Core.reg, hregs]

@[simp] theorem Core.queueOf_setQueue_same (c : Core) (q : Nat) (l : List Cmd) (hq : q < 5) : (c.setQueue q l).queueOf q = l := by
  interval_cases q <;> rfl

theorem Core.queueOf_setQueue_other (c : Core) {p q : Nat} (l : List Cmd) (hp : p < 5) (hq : q < 5) (h : p ≠ q) :
    (c.setQueue q l).queueOf p = c.queueOf p := by
  interval_cases q <;> interval_cases p <;> simp [Core.setQueue, Core.queueOf] at h ⊢


theorem Core.worksAs_setQueue (c : Core) (q : Nat) (l : List Cmd) (hq : q < 5) : c.worksAs q (c.setQueue q l) := by
  refine ⟨?_, ?_, ?_, fun p hp hne => c.queueOf_setQueue_other l hp hq hne⟩
  all_goals interval_cases q <;> rfl

theorem Core.scratch_setQueue (c : Core) (q : Nat) (l : List Cmd) (hq : q < 5) : (c.setQueue q l).scratch = c.scratch := by
  interval_cases q <;> rfl

theorem Core.status_setQueue (c : Core) (q : Nat) (l : List Cmd) (hq : q < 5) : (c.setQueue q l).status = c.status := by
  interval_cases q <;> rfl

/-- The command at the head of queue `q` fails with a status (R162, R171). -/
theorem failsWith_of_failCmd_queue {c : Instr} {s : State} {n q status : Nat} {rest : List Cmd} (hq : q < 5)
    (h : exec c s = .next ((s.setCore n ((s.core n).setQueue q rest)).failCmd n status)) : failsWith c s n q status rest := by
  let took : State := s.setCore n ((s.core n).setQueue q rest)
  have hcore : took.core n = (s.core n).setQueue q rest := s.core_setCore_same _ _
  have hother : ∀ m, m ≠ n → (took.failCmd n status).core m = s.core m := fun m hm => by
    rw [State.core_failCmd_other _ _ hm, State.core_setCore_other _ _ _ _ hm]
  obtain ⟨hregs, hpc, hwi, hqueue⟩ := (s.core n).worksAs_setQueue q rest hq
  have hc : (took.failCmd n status).core n = ((s.core n).setQueue q rest).failed status := by
    rw [State.core_failCmd_same, hcore]
  refine ⟨_, h, ?_, ?_, unitFrame_of_worksAs ?_ hother (State.failCmd_mem _ _ _), fun w r hw hr hd => ?_⟩
  · rw [hc]
    exact Core.queueOf_setQueue_same _ _ _ hq
  · rw [hc]
    exact Core.scratch_setQueue _ _ _ hq
  · rw [hc]
    exact ⟨hregs, hpc, hwi, hqueue⟩
  · rw [State.failCmd_errQ status (s := took) (by rw [hcore, hwi, hw]) hr hd, hcore, Core.status_setQueue _ _ _ hq]
    rfl

/-- The envelope of a command depends on registers and memory only. -/
theorem State.envOf_setCore (s : State) (n : Nat) (c : Core) (p op : Nat) : (s.setCore n c).envOf p op = s.envOf p op := by
  have hread : (s.setCore n c).spRead = s.spRead := rfl
  have hchaff : (s.setCore n c).spChaff = s.spChaff := rfl
  simp only [State.envOf, State.fget_setCore, hread, hchaff]

@[simp] theorem State.core_ite_fadd (s : State) (b : Bool) (f : Fld) (i k m : Nat) : (if b then s.fadd f i k else s).core m = s.core m := by
  cases b <;> rfl

theorem State.takeEnv_fst (s : State) (n : Nat) (d : Cmd) : (s.takeEnv n d).1 = envFor s n d := by
  unfold State.takeEnv envFor
  cases (s.core n).wi <;> rfl

/-- A core whose command reads its envelope keeps which entries it has read (R400). -/
theorem State.core_takeEnv_same (s : State) (n : Nat) (d : Cmd) : ∃ l, (s.takeEnv n d).2.core n = { s.core n with envs := l } := by
  simp only [State.takeEnv, State.core_onCore_same, State.core_ite_fadd]
  exact ⟨_, rfl⟩

theorem State.core_takeEnv_other (s : State) {n m : Nat} (d : Cmd) (h : m ≠ n) : (s.takeEnv n d).2.core m = s.core m := by
  simp only [State.takeEnv, State.core_onCore_other _ _ h, State.core_ite_fadd]

@[simp] theorem State.core_coreCount (s : State) (n i k m : Nat) : (s.coreCount n i k).core m = s.core m := rfl

@[simp] theorem State.core_onStep (s : State) (ring : Option Nat) (step : Nat) (f : OpenStep → OpenStep) (m : Nat) :
    (s.onStep ring step f).core m = s.core m := by
  obtain ⟨x, h⟩ := s.onStep_frame ring step f
  rw [h]
  rfl

/-- A warning stays with the core whose work item it is of (R169). -/
theorem State.core_warning_same (s : State) (n status : Nat) : ∃ w, (s.warning n status).core n = { s.core n with warn := w } := by
  have hset : ∃ w, (if (s.core n).warn = 0 then s.setCore n { s.core n with warn := status } else s).core n = { s.core n with warn := w } := by
    split
    · exact ⟨status, s.core_setCore_same _ _⟩
    · exact ⟨(s.core n).warn, rfl⟩
  unfold State.warning
  dsimp only
  split
  · simpa only [State.core_onStep] using hset
  · exact hset

theorem State.core_warning_other (s : State) {n m : Nat} (status : Nat) (h : m ≠ n) : (s.warning n status).core m = s.core m := by
  have hset : (if (s.core n).warn = 0 then s.setCore n { s.core n with warn := status } else s).core m = s.core m := by
    split
    · exact s.core_setCore_other _ _ _ h
    · rfl
  unfold State.warning
  dsimp only
  split
  · rw [State.core_onStep, hset]
  · exact hset

/-- A slice that lies within a list is a part of it. -/
theorem sliceB_eq_take_drop {l : List Byte} {i n : Nat} (h : i + n ≤ l.length) : sliceB l i n = (l.drop i).take n := by
  have hn : n - ((l.drop i).take n).length = 0 := by simp; omega
  rw [sliceB, hn, List.replicate_zero, List.append_nil]

theorem Core.sread_eq_take_drop (c : Core) (n a : Nat) {k x m : Nat} (h : x + m ≤ k) : ((c.sread n a k).drop x).take m = c.sread n (a + x) m := by
  refine List.ext_getElem (by simp; omega) fun i _ _ => ?_
  simp [Core.sread, Nat.add_assoc]

/-- A field of bytes read from scratch is read where it lies. -/
theorem fieldB_sread (c : Core) (n a : Nat) {k x m : Nat} (h : x + m ≤ k) : fieldB (c.sread n a k) x m = leNat (c.sread n (a + x) m) := by
  rw [fieldB, sliceB_eq_take_drop (by simpa using h), c.sread_eq_take_drop n a h]

end Sys2Proof.Machine

namespace Sys2Proof.Machine
open Host (Outcome)

/-! ## MMA and its shadow tile (R76, R77, R81, R82, R163) -/

section
variable {s : State} {n : CoreId} {d : Cmd} {rest : List Cmd} {f : List Byte} (h : atHead s n 0 0 32 d rest f) (hs : (s.core n).shadow = none)
  (hr : mtxRsvd d f = false)
include h hs hr

theorem execMma_fails (hc : mtxCheck (mtxParse d f) ≠ 0) :
    execMma n s = .next ((s.setCore n ((s.core n).setQueue 0 rest)).failCmd n (mtxCheck (mtxParse d f))) := by
  have htake := State.take_atHead (opMax := 0) (mine := fun _ => true) h (Nat.le_refl 0) rfl (by decide)
  simp [execMma, hs, htake, hr, hc]

theorem execMma_passes (hc : mtxCheck (mtxParse d f) = 0) :
    let took := s.setCore n ((s.core n).setQueue 0 rest)
    execMma n s = .next ((took.takeEnv n d).2.onCore n fun c =>
      { c with shadow := some { mtxParse d f with env := envFor took n d, chaff := d.chaff || c.schaffIn d.frame 32 } }) := by
  have htake := State.take_atHead (opMax := 0) (mine := fun _ => true) h (Nat.le_refl 0) rfl (by decide)
  simp [execMma, hs, htake, hr, hc, State.takeEnv_fst]

theorem mma_enters_shadow (hc : mtxCheck (mtxParse d f) = 0) : completes (.mma n) s fun t =>
      (t.core n).shadow = some { mtxParse d f with env := envFor s n d, chaff := d.chaff || (s.core n).schaffIn d.frame 32 } ∧
      (t.core n).queueOf 0 = rest ∧ (t.core n).active = (s.core n).active ∧ (t.core n).scratch = (s.core n).scratch ∧ unitFrame s t n 0 := by
  let took : State := s.setCore n ((s.core n).setQueue 0 rest)
  have htook : took.core n = (s.core n).setQueue 0 rest := s.core_setCore_same _ _
  have henv : envFor took n d = envFor s n d := by
    simp only [envFor, htook, took, State.envOf_setCore]
    rfl
  obtain ⟨l, hl⟩ := took.core_takeEnv_same n d
  obtain ⟨t, ht⟩ : ∃ t, t = (took.takeEnv n d).2.onCore n fun c =>
      { c with shadow := some { mtxParse d f with env := envFor took n d, chaff := d.chaff || c.schaffIn d.frame 32 } } := ⟨_, rfl⟩
  have hcore : t.core n = { (s.core n).setQueue 0 rest with
      envs := l, shadow := some { mtxParse d f with env := envFor s n d, chaff := d.chaff || (s.core n).schaffIn d.frame 32 } } := by
    rw [ht, State.core_onCore_same, hl, htook, henv]
    rfl
  have hother : ∀ m, m ≠ (n : Nat) → t.core m = s.core m := fun m hm => by
    rw [ht, State.core_onCore_other _ _ hm, State.core_takeEnv_other _ _ hm]
    exact s.core_setCore_other _ _ _ hm
  refine ⟨t, (execMma_passes h hs hr hc).trans (congrArg Outcome.next ht.symm), ?_, ?_, ?_, ?_, unitFrame_of_worksAs ?_ hother (by simp [ht, took])⟩
  all_goals rw [hcore]
  · rfl
  · rfl
  · rfl
  · exact (s.core n).worksAs_setQueue 0 rest (by decide)
end

/-- The instruction with what the load of its shadow tile reads in the scratch of core `c` (R77, R81). -/
def MtxInst.loadedFrom (i : MtxInst) (c : Core) (n : Nat) : MtxInst :=
  let prior := if i.mode ≠ 2 then [] else if i.acc then c.sread n i.oA 1024 else List.replicate 1024 0
  { i with
    loaded := true, tile := if i.mode = 2 then [] else c.sread n i.sA i.sLen,
    tileSc := if etScaled i.fmtS && i.mode ≠ 2 then c.sread n i.scA 64 else [],
    tileChaff := i.statChaff c || (i.mode = 2 && i.acc && c.schaffIn i.oA 1024),
    prior := prior,
    cells := (List.range (if i.mode = 2 then 256 else 0)).map fun x => BitVec.ofNat 32 (fieldB prior (4 * x) 4) }

/-- The instruction streams when the array is free, else it waits in the shadow (R77). -/
def Core.takeLoaded (c : Core) (j : MtxInst) : Core :=
  if c.active.isNone then { c with tileLate := false, shadow := none, active := some j } else { c with tileLate := false, shadow := some j }

theorem Core.takeLoaded_active (c : Core) (j : MtxInst) :
    if c.active = none then (c.takeLoaded j).active = some j ∧ (c.takeLoaded j).shadow = none
    else (c.takeLoaded j).shadow = some j ∧ (c.takeLoaded j).active = c.active := by
  cases h : c.active with
  | none => simp [Core.takeLoaded, h]
  | some a => simp [Core.takeLoaded, h]

theorem Core.scratch_takeLoaded (c : Core) (j : MtxInst) : (c.takeLoaded j).scratch = c.scratch := by
  unfold Core.takeLoaded
  split <;> rfl

theorem Core.worksAs_takeLoaded (c : Core) (j : MtxInst) (q : Nat) : c.worksAs q (c.takeLoaded j) := by
  unfold Core.takeLoaded
  split <;> exact ⟨rfl, rfl, rfl, fun _ _ _ => rfl⟩

theorem execShadowTileLoaded_loads {s : State} {n : CoreId} {i : MtxInst} (hs : (s.core n).shadow = some i) (hl : i.loaded = false)
    (hf : s.scratchFree n i.cmd.seq i.loadNeed = true) :
    ∃ k, execShadowTileLoaded n s = .next ((if k = 0 then s else (s.coreCount n 8 k).warning n 0x0101).onCore n fun c =>
      c.takeLoaded (i.loadedFrom (s.core n) n)) := by
  unfold execShadowTileLoaded
  simp only [hs, hl, hf]
  exact ⟨_, rfl⟩

theorem leNat_replicate_zero : ∀ k, leNat (List.replicate k (0 : Byte)) = 0
  | 0 => rfl
  | k + 1 => by rw [List.replicate_succ, leNat, leNat_replicate_zero k]; rfl

theorem fieldB_replicate_zero {x m k : Nat} (h : x + m ≤ k) : fieldB (List.replicate k 0) x m = 0 := by
  rw [fieldB, sliceB_eq_take_drop (by rwa [List.length_replicate]), List.drop_replicate, List.take_replicate, leNat_replicate_zero]

theorem MtxInst.prior_loadedFrom (i : MtxInst) (c : Core) (n : Nat) (hm : i.mode = 2) :
    (i.loadedFrom c n).prior = if i.acc then c.sread n i.oA 1024 else List.replicate 1024 0 :=
  if_neg (not_not.mpr hm)

theorem MtxInst.cells_loadedFrom (i : MtxInst) (c : Core) (n : Nat) (hm : i.mode = 2) :
    (i.loadedFrom c n).cells = (List.range 256).map fun x =>
      if i.acc then BitVec.ofNat 32 (leNat (c.sread n (i.oA + 4 * x) 4)) else 0 := by
  have hcells : (i.loadedFrom c n).cells = (List.range (if i.mode = 2 then 256 else 0)).map fun x =>
      BitVec.ofNat 32 (fieldB (i.loadedFrom c n).prior (4 * x) 4) := rfl
  rw [hcells, if_pos hm, i.prior_loadedFrom c n hm]
  refine List.map_congr_left fun x hx => ?_
  have hlt : 4 * x + 4 ≤ 1024 := by
    have := List.mem_range.mp hx
    omega
  cases i.acc with
  | true => exact congrArg (BitVec.ofNat 32) (fieldB_sread c n i.oA hlt)
  | false => exact congrArg (BitVec.ofNat 32) (fieldB_replicate_zero hlt)

theorem tile_loads {s : State} {n : CoreId} {i : MtxInst} (hs : (s.core n).shadow = some i) (hl : i.loaded = false)
    (hf : s.scratchFree n i.cmd.seq i.loadNeed = true) : completes (.shadowTileLoaded n) s fun t =>
      (∃ j : MtxInst, (if (s.core n).active = none then (t.core n).active = some j ∧ (t.core n).shadow = none
                       else (t.core n).shadow = some j ∧ (t.core n).active = (s.core n).active) ∧
        j.cmd = i.cmd ∧ j.loaded = true ∧ j.done = i.done ∧ j.env = i.env ∧
        (i.mode ≠ 2 → j.tile = (s.core n).sread n i.sA i.sLen ∧ j.cells = []) ∧
        (i.mode = 2 → j.cells = (List.range 256).map fun x =>
          if i.acc then BitVec.ofNat 32 (leNat ((s.core n).sread n (i.oA + 4 * x) 4)) else 0)) ∧
      (t.core n).scratch = (s.core n).scratch ∧ unitFrame s t n 9 := by
  obtain ⟨k, he⟩ := execShadowTileLoaded_loads hs hl hf
  obtain ⟨u, hu⟩ : ∃ u, u = if k = 0 then s else (s.coreCount n 8 k).warning n 0x0101 := ⟨_, rfl⟩
  obtain ⟨w, hw⟩ : ∃ w, u.core n = { s.core n with warn := w } := by
    rw [hu]
    split
    · exact ⟨(s.core n).warn, rfl⟩
    · exact State.core_warning_same _ _ _
  have hother : ∀ m, m ≠ (n : Nat) → u.core m = s.core m := fun m hm => by
    rw [hu]
    split
    · rfl
    · exact State.core_warning_other _ _ hm
  rw [← hu] at he
  let j := i.loadedFrom (s.core n) n
  have hcore : (u.onCore n fun c => c.takeLoaded j).core n = Core.takeLoaded { s.core n with warn := w } j := by
    rw [State.core_onCore_same, hw]
  refine ⟨_, he, ⟨j, ?_, rfl, rfl, rfl, rfl, fun hm => ?_, i.cells_loadedFrom _ _⟩, ?_, unitFrame_of_worksAs ?_ (fun m hm => ?_) ?_⟩
  · rw [hcore]
    exact Core.takeLoaded_active { s.core n with warn := w } j
  · simp [j, MtxInst.loadedFrom, hm]
  · rw [hcore, Core.scratch_takeLoaded]
  · rw [hcore]
    exact Core.worksAs_takeLoaded { s.core n with warn := w } j 9
  · rw [State.core_onCore_other _ _ hm, hother m hm]
  · rw [State.onCore_mem, hu]
    split <;> simp

/-- Settles O9: an MMA by `mma_enters_shadow` or `execMma_fails`, its tile by `tile_loads`. -/
theorem matrixInstructions : Obligations.MatrixInstructions := by
  intro s n
  refine ⟨fun d rest f h hs hr => ⟨mma_enters_shadow h hs hr, fun hc => ?_⟩, fun i => tile_loads⟩
  exact failsWith_of_failCmd_queue (by decide) (execMma_fails h hs hr hc)

end Sys2Proof.Machine

namespace Sys2Proof.Machine
open Host (Outcome)

/-! ## What a unit reports about its core, and what it writes in its scratch -/

@[simp] theorem State.core_noteItem (s : State) (n : Nat) (scratch : Bool) (a k m : Nat) : (s.noteItem n scratch a k).core m = s.core m := by
  unfold State.noteItem State.noteStep
  dsimp only
  repeat' split
  all_goals rfl

@[simp] theorem State.core_itemChaff (s : State) (n m : Nat) : (s.itemChaff n).core m = s.core m := by
  obtain ⟨x, h⟩ := s.itemChaff_frame n
  rw [h]
  rfl

theorem State.core_suspect_same (s : State) (n : Nat) (v : Verify) : (s.suspect n v).core n = { s.core n with verify := (s.core n).verify ++ [v] } := by
  unfold State.suspect
  dsimp only
  rw [State.core_onCore_same]
  split <;> rfl

theorem State.core_suspect_other (s : State) {n m : Nat} (v : Verify) (h : m ≠ n) : (s.suspect n v).core m = s.core m := by
  unfold State.suspect
  dsimp only
  rw [State.core_onCore_other _ _ h]
  split <;> rfl

/-- Of core `n` no more than its warning and the commands kept for verification differ, of the other cores nothing. -/
def reportsOn (n : Nat) (s t : State) : Prop :=
  (∃ w v, t.core n = { s.core n with warn := w, verify := v }) ∧ ∀ m, m ≠ n → t.core m = s.core m

section
variable {n : Nat} {s t : State}

theorem reportsOn.refl (n : Nat) (s : State) : reportsOn n s s := ⟨⟨_, _, rfl⟩, fun _ _ => rfl⟩

theorem reportsOn.of_core {u : State} (h : reportsOn n s t) (hu : ∀ m, u.core m = t.core m) : reportsOn n s u := by
  obtain ⟨⟨w, v, hw⟩, ho⟩ := h
  exact ⟨⟨w, v, (hu n).trans hw⟩, fun m hm => (hu m).trans (ho m hm)⟩

theorem reportsOn.noteItem (h : reportsOn n s t) (scratch : Bool) (a k : Nat) : reportsOn n s (t.noteItem n scratch a k) :=
  h.of_core fun _ => State.core_noteItem _ _ _ _ _ _

theorem reportsOn.itemChaff (h : reportsOn n s t) : reportsOn n s (t.itemChaff n) := h.of_core fun _ => State.core_itemChaff _ _ _

theorem reportsOn.coreCount (h : reportsOn n s t) (i k : Nat) : reportsOn n s (t.coreCount n i k) := h.of_core fun _ => rfl

theorem reportsOn.warning (h : reportsOn n s t) (status : Nat) : reportsOn n s (t.warning n status) := by
  obtain ⟨⟨w, v, hw⟩, ho⟩ := h
  obtain ⟨w', hw'⟩ := t.core_warning_same n status
  exact ⟨⟨w', v, by rw [hw', hw]⟩, fun m hm => by rw [t.core_warning_other status hm, ho m hm]⟩

theorem reportsOn.suspect (h : reportsOn n s t) (x : Verify) : reportsOn n s (t.suspect n x) := by
  obtain ⟨⟨w, v, hw⟩, ho⟩ := h
  exact ⟨⟨w, v ++ [x], by rw [t.core_suspect_same, hw]⟩, fun m hm => by rw [t.core_suspect_other x hm, ho m hm]⟩

theorem reportsOn.ite {u : State} (c : Prop) [Decidable c] (ht : reportsOn n s t) (hu : reportsOn n s u) : reportsOn n s (if c then t else u) := by
  split
  · exact ht
  · exact hu

end

theorem Core.sputN_frame (c : Core) (a : Nat) (bs : List Byte) : ∃ x, c.sputN a bs = { c with scratch := x } := by
  induction bs generalizing c a with
  | nil => exact ⟨_, rfl⟩
  | cons b t ih => exact ih { c with scratch := c.sput1 a b } (a + 1)

/-- A write of scratch changes bytes of scratch and chaff marks, and nothing else of the core. -/
theorem Core.swrite_frame (c : Core) (a : Nat) (bs : List Byte) (ch : Bool) : ∃ x y, c.swrite a bs ch = { c with scratch := x, schaff := y } := by
  obtain ⟨x, h⟩ := c.sputN_frame a bs
  exact ⟨x, _, by rw [Core.swrite, h]⟩

theorem Core.worksAs_swrite (c : Core) (a : Nat) (bs : List Byte) (ch : Bool) (q : Nat) : c.worksAs q (c.swrite a bs ch) := by
  obtain ⟨x, y, h⟩ := c.swrite_frame a bs ch
  rw [h]
  exact ⟨rfl, rfl, rfl, fun _ _ _ => rfl⟩

theorem Core.worksAs.trans {q : Nat} {a b c : Core} (h₁ : a.worksAs q b) (h₂ : b.worksAs q c) : a.worksAs q c := by
  obtain ⟨hr₁, hp₁, hw₁, hq₁⟩ := h₁
  obtain ⟨hr₂, hp₂, hw₂, hq₂⟩ := h₂
  exact ⟨hr₂.trans hr₁, hp₂.trans hp₁, hw₂.trans hw₁, fun p hp hne => (hq₂ p hp hne).trans (hq₁ p hp hne)⟩

end Sys2Proof.Machine

namespace Sys2Proof.Machine
open Host (Outcome)
section
variable {s : State} {n op sub : Nat} {d : Cmd} {rest : List Cmd} {f : List Byte}

theorem State.vec_writes (h : vecReady s n op sub d rest f) (hop : op ≤ 5) (flips : List (Nat × Nat)) :
    let v := vecParse d f
    let t := ((s.setCore n ((s.core n).setQueue 1 rest)).takeEnv n d).2
    let c := t.core n
    let o := v.compute d.step (if v.aVault then t.rd8 else c.sget n) (c.sget n)
    ∃ ch, reportsOn n (t.setCore n ((c.swrite v.dA (v.dBytes (c.sget n) (strike flips o.d)) ch).swrite v.dsA o.ds ch)) (s.vec n op sub flips) := by
  obtain ⟨hh, hsub, hr, hc, hfree, hvault⟩ := h
  have htake := State.take_atHead (opMax := 5) (mine := fun d => d.sub = sub || vecSubMax op < d.sub) hh hop (by simp [hsub]) (by decide)
  have hbusy : (!s.scratchFree n d.seq (vecParse d f).spans || ((vecParse d f).aVault &&
      (s.orderHeld n d.seq false false || !s.memFree n d.seq (s.cmdMem n d)))) = false := by
    cases hv : (vecParse d f).aVault with
    | false => simp [hfree]
    | true => simp [hfree, hvault hv]
  intro v t c o
  unfold State.vec
  rw [htake]
  dsimp -zeta only
  rw [if_neg (by simp [hr])]
  extract_lets _ _ _ _ _ _ _ _ ch bytes _ _ s₀ s₁ cnt s₂ s₃ s₄
  rw [if_neg (not_not.mpr hc), if_neg (Bool.eq_false_iff.mp hbusy)]
  let w := t.setCore n ((c.swrite v.dA (v.dBytes (c.sget n) (strike flips o.d)) ch).swrite v.dsA o.ds ch)
  have hcnt : ∀ {u : State} {i k : Nat}, reportsOn n w u → reportsOn n w (cnt u i k) := fun hu => .ite _ hu (hu.coreCount _ _)
  have h₀ : reportsOn n w s₀ := ((reportsOn.refl n w).noteItem true v.dA bytes.length).noteItem true v.dsA o.ds.length
  have h₁ : reportsOn n w s₁ := .ite _ h₀.itemChaff h₀
  have h₂ : reportsOn n w s₂ := hcnt (hcnt (hcnt (hcnt (hcnt h₁))))
  have h₃ : reportsOn n w s₃ := .ite _ (hcnt h₂) h₂
  have h₄ : reportsOn n w s₄ := .ite _ h₃ (h₃.warning _)
  exact ⟨ch, .ite _ (h₄.suspect _) h₄⟩


theorem State.takeEnv_ret (s : State) (n : Nat) (d : Cmd) : (s.takeEnv n d).2.ret = s.ret := by
  have hcount : ∀ p (bad : Bool), (if bad then s.fadd F.envBad_COUNT p 1 else s).ret = s.ret := fun p bad => by
    cases bad <;> rfl
  exact hcount _ _

theorem State.rd8_congr {s t : State} (hm : t.mem = s.mem) (hr : t.ret = s.ret) : t.rd8 = s.rd8 := by
  funext a
  have hg : t.goneAt a = s.goneAt a := by rw [State.goneAt, State.goneAt, hr]
  rw [State.rd8, State.rd8, hm, hg]

/-- Two writes of scratch leave the bytes of the second, else those of the first, else what stood there. -/
theorem Core.sget_swrite_swrite (c : Core) (n x a b : Nat) (as bs : List Byte) (ch : Bool) :
    ((c.swrite a as ch).swrite b bs ch).sget n x = if b ≤ x ∧ x < b + bs.length then bs.getD (x - b) 0
      else if a ≤ x ∧ x < a + as.length then as.getD (x - a) 0 else c.sget n x := by
  rw [Core.sget_swrite, Core.sget_swrite]

/-- A vector command whose checks pass writes what it computes, in the words a transient has struck (R164, R631). -/
theorem State.vec_wroteD (h : vecReady s n op sub d rest f) (hop : op ≤ 5) (flips : List (Nat × Nat)) :
    let v := vecParse d f
    let o := v.compute d.step (vecA s n v) ((s.core n).sget n)
    wroteD s (s.vec n op sub flips) n v rest (v.dBytes ((s.core n).sget n) (strike flips o.d)) o.ds := by
  intro v o
  obtain ⟨ch, ⟨w, ver, hw⟩, ho⟩ := State.vec_writes h hop flips
  let took := s.setCore n ((s.core n).setQueue 1 rest)
  obtain ⟨l, hl⟩ := took.core_takeEnv_same n d
  let c₀ : Core := { (s.core n).setQueue 1 rest with envs := l }
  have hc : (took.takeEnv n d).2.core n = c₀ := by rw [hl, s.core_setCore_same]
  have hrd : c₀.sget n = (s.core n).sget n := rfl
  have hrd8 : (took.takeEnv n d).2.rd8 = s.rd8 := State.rd8_congr (State.takeEnv_mem ..) (State.takeEnv_ret ..)
  let c₁ := (c₀.swrite v.dA (v.dBytes ((s.core n).sget n) (strike flips o.d)) ch).swrite v.dsA o.ds ch
  have hcore : (s.vec n op sub flips).core n = { c₁ with warn := w, verify := ver } := by
    rw [hw, State.core_setCore_same, hc, hrd, hrd8]
    rfl
  have hother : ∀ m, m ≠ n → (s.vec n op sub flips).core m = s.core m := fun m hm => by
    rw [ho m hm, State.core_setCore_other _ _ _ _ hm, State.core_takeEnv_other _ _ hm, State.core_setCore_other _ _ _ _ hm]
  have hwrite : ∀ q, c₀.worksAs q c₁ := fun q => (c₀.worksAs_swrite _ _ ch q).trans (Core.worksAs_swrite _ _ _ ch q)
  refine ⟨?_, unitFrame_of_worksAs ?_ hother (State.vec_mem ..), fun a => ?_⟩
  · obtain ⟨_, _, _, hq⟩ := hwrite 9
    rw [hcore]
    exact hq 1 (by decide) (by decide)
  · rw [hcore]
    exact ((s.core n).worksAs_setQueue 1 rest (by decide)).trans (hwrite 1)
  · rw [hcore]
    exact c₀.sget_swrite_swrite n a v.dA v.dsA _ o.ds ch

end

/-- Settles O11: each command by `vec_wroteD`. -/
theorem vectorCommandsWriteTheirResult : Obligations.VectorCommandsWriteTheirResult := by
  intro s n d rest f flips
  have hdone : ∀ op sub, op ≤ 5 → vecReady s n op sub d rest f → ∀ c : Instr, exec c s = .next (s.vec n op sub flips) → completes c s fun t =>
      wroteD s t n (vecParse d f) rest ((vecParse d f).dBytes ((s.core n).sget n) (strike flips
        ((vecParse d f).compute d.step (vecA s n (vecParse d f)) ((s.core n).sget n)).d))
        ((vecParse d f).compute d.step (vecA s n (vecParse d f)) ((s.core n).sget n)).ds :=
    fun op sub hop h c he => ⟨_, he, State.vec_wroteD h hop flips⟩
  refine ⟨fun h => hdone 0 0 ?_ h _ rfl, fun h => hdone 1 0 ?_ h _ rfl, fun h => hdone 1 1 ?_ h _ rfl, fun h => hdone 1 2 ?_ h _ rfl,
    fun h => hdone 1 3 ?_ h _ rfl, fun h => hdone 1 4 ?_ h _ rfl, fun h => hdone 1 5 ?_ h _ rfl, fun h => hdone 1 6 ?_ h _ rfl,
    fun h => hdone 1 7 ?_ h _ rfl, fun h => hdone 2 0 ?_ h _ rfl, fun h => hdone 2 1 ?_ h _ rfl, fun h => hdone 2 2 ?_ h _ rfl,
    fun h => hdone 2 3 ?_ h _ rfl, fun h => hdone 2 4 ?_ h _ rfl, fun h => hdone 2 5 ?_ h _ rfl, fun h => hdone 2 6 ?_ h _ rfl,
    fun h => hdone 3 0 ?_ h _ rfl, fun h => hdone 4 0 ?_ h _ rfl, fun h => hdone 4 1 ?_ h _ rfl, fun h => hdone 4 2 ?_ h _ rfl,
    fun h => hdone 5 0 ?_ h _ rfl⟩
  all_goals decide

end Sys2Proof.Machine

namespace Sys2Proof.Machine
open Host (Outcome)

/-! ## One array step (R78 to R81, R112 to R117) -/

/-- Array steps of core `n` counted so far (Table 17-12). -/
abbrev State.arraySteps (s : State) (n : Nat) : Nat := s.fget F.coreCtr_COUNT (n * 64)

/-! ### Counters -/

section
variable (s : State) (n : Nat)

theorem State.arraySteps_coreCount (k : Nat) : (s.coreCount n 0 k).arraySteps n = (s.arraySteps n + k) % 2 ^ 64 :=
  State.fget_fset_same s F.coreCtr_COUNT (n * 64) _

theorem State.arraySteps_coreCount_other {i : Nat} (k : Nat) (hi : i ≠ 0) : (s.coreCount n i k).arraySteps n = s.arraySteps n := by
  refine State.fget_fset_other s _ _ _ _ _ fun h => hi ?_
  simp only [Fld.key] at h
  omega

theorem State.arraySteps_itemChaff (m : Nat) : (s.itemChaff m).arraySteps n = s.arraySteps n := by
  obtain ⟨x, h⟩ := s.itemChaff_frame m
  rw [h]
  rfl

theorem State.arraySteps_noteItem (m : Nat) (scratch : Bool) (a k : Nat) : (s.noteItem m scratch a k).arraySteps n = s.arraySteps n := by
  unfold State.noteItem State.noteStep
  dsimp only
  repeat' split
  all_goals rfl

theorem State.arraySteps_suspect (m : Nat) (v : Verify) : (s.suspect m v).arraySteps n = s.arraySteps n := by
  have hfail : ∀ p, (s.fadd F.envFail_COUNT p 1).arraySteps n = s.arraySteps n := fun p =>
    State.fget_fset_other s _ _ _ _ _ fun h => by
      simp only [Fld.key, F.coreCtr_COUNT, F.envFail_COUNT] at h
      omega
  unfold State.suspect
  dsimp only
  rw [State.arraySteps, State.fget_onCore]
  split
  · exact hfail _
  · rfl

/-- One step is counted. -/
theorem State.arraySteps_arrayCount (sat nan : Nat) (ch : Bool) : (s.arrayCount n sat nan ch).arraySteps n = (s.arraySteps n + 1) % 2 ^ 64 := by
  have h₀ := s.arraySteps_coreCount n 1
  have hother : ∀ (u : State) (i k : Nat), i ≠ 0 → (if k = 0 then u else u.coreCount n i k).arraySteps n = u.arraySteps n := fun u i k hi => by
    split
    · rfl
    · exact u.arraySteps_coreCount_other n k hi
  unfold State.arrayCount
  cases ch with
  | false => exact (hother _ 10 nan (by decide)).trans ((hother _ 9 sat (by decide)).trans h₀)
  | true => exact (State.arraySteps_itemChaff _ _ _).trans ((hother _ 10 nan (by decide)).trans ((hother _ 9 sat (by decide)).trans h₀))

@[simp] theorem State.core_arrayCount (sat nan : Nat) (ch : Bool) (m : Nat) : (s.arrayCount n sat nan ch).core m = s.core m := by
  have hcount : ∀ (u : State) (i k : Nat), (if k = 0 then u else u.coreCount n i k).core m = u.core m := fun u i k => by
    split <;> rfl
  unfold State.arrayCount
  cases ch with
  | false => exact (hcount _ 10 nan).trans (hcount _ 9 sat)
  | true => exact (State.core_itemChaff _ _ _).trans ((hcount _ 10 nan).trans (hcount _ 9 sat))

end

/-! ### What streams next -/

/-- Core `c` with the instruction its array streams next: any shadow, late mark and commands kept for verification. -/
def streamsNext (c c' : Core) (active : Option MtxInst) : Prop :=
  ∃ sh late ver, c' = { c with active := active, shadow := sh, tileLate := late, verify := ver }

theorem streamsNext_active (c : Core) (active : Option MtxInst) : streamsNext c { c with active := active } active := ⟨_, _, _, rfl⟩

/-- Core `c` once its array has finished an instruction: the loaded shadow streams (R77, R91). -/
def Core.arrayFreed (c : Core) (short : Bool) : Core :=
  match c.shadow with
  | some j => if j.loaded then { c with active := some j, shadow := none } else { c with active := none, tileLate := short }
  | none => { c with active := none }

theorem Core.arrayFreed_frame (c : Core) (short : Bool) :
    ∃ sh late, c.arrayFreed short = { c with active := c.shadow.filter MtxInst.loaded, shadow := sh, tileLate := late } := by
  unfold Core.arrayFreed
  split
  · next j hj =>
    rw [hj, Option.filter]
    split
    · exact ⟨_, _, rfl⟩
    · exact ⟨_, _, rfl⟩
  · next hn =>
    rw [hn]
    exact ⟨_, _, rfl⟩

section
variable (s : State) (n : Nat) (i : MtxInst)

theorem State.arrayDone_eq : s.arrayDone n i =
    if i.envFail then (s.onCore n fun c => c.arrayFreed (i.n < 16)).suspect n (.mtx i) else s.onCore n fun c => c.arrayFreed (i.n < 16) := rfl

theorem State.core_arrayDone_same : streamsNext (s.core n) ((s.arrayDone n i).core n) ((s.core n).shadow.filter MtxInst.loaded) := by
  obtain ⟨sh, late, h⟩ := (s.core n).arrayFreed_frame (i.n < 16)
  rw [State.arrayDone_eq]
  split
  · exact ⟨sh, late, _, by rw [State.core_suspect_same, State.core_onCore_same, h]⟩
  · exact ⟨sh, late, (s.core n).verify, by rw [State.core_onCore_same, h]⟩

theorem State.core_arrayDone_other {m : Nat} (h : m ≠ n) : (s.arrayDone n i).core m = s.core m := by
  rw [State.arrayDone_eq]
  split
  · rw [State.core_suspect_other _ _ h, State.core_onCore_other _ _ h]
  · rw [State.core_onCore_other _ _ h]

theorem State.arraySteps_arrayDone : (s.arrayDone n i).arraySteps n = s.arraySteps n := by
  rw [State.arrayDone_eq]
  split
  · exact State.arraySteps_suspect _ _ _ _
  · rfl
/-- What follows a step: the instruction goes on, or the array has finished it. -/
def State.arrayNext : State := if i.done < i.n then s.onCore n fun c => { c with active := some i } else s.arrayDone n i

theorem State.core_arrayNext_same : streamsNext (s.core n) ((s.arrayNext n i).core n)
    (if i.done < i.n then some i else (s.core n).shadow.filter MtxInst.loaded) := by
  unfold State.arrayNext
  split
  · rw [State.core_onCore_same]
    exact streamsNext_active _ _
  · exact s.core_arrayDone_same n i

theorem State.core_arrayNext_other {m : Nat} (h : m ≠ n) : (s.arrayNext n i).core m = s.core m := by
  unfold State.arrayNext
  split
  · exact State.core_onCore_other _ _ h
  · exact s.core_arrayDone_other n i h

theorem State.arraySteps_arrayNext : (s.arrayNext n i).arraySteps n = s.arraySteps n := by
  unfold State.arrayNext
  split
  · rfl
  · exact s.arraySteps_arrayDone n i

end

/-! ### Output words in scratch -/

theorem flatMap_toLE_length (k : Nat) (ws : List Nat) : (ws.flatMap (toLE k)).length = k * ws.length := by
  simp [List.length_flatMap, Nat.mul_comm]

/-- Word `r` of a run of words lies at `k * r`. -/
theorem take_drop_flatMap_toLE (k : Nat) : ∀ (ws : List Nat) (r : Nat), r < ws.length →
    ((ws.flatMap (toLE k)).drop (k * r)).take k = toLE k (ws.getD r 0)
  | [], _, h => absurd h (Nat.not_lt_zero _)
  | w :: ws, 0, _ => by simp [List.take_left' (toLE_length k w)]
  | w :: ws, r + 1, h => by
    have ih := take_drop_flatMap_toLE k ws r (Nat.lt_of_succ_lt_succ h)
    have hk : k * (r + 1) = (toLE k w).length + k * r := by rw [toLE_length]; ring
    rw [List.flatMap_cons, hk, List.drop_length_add_append, ih]
    rfl

/-- A word reads as it was written. -/
theorem Core.sread_swrite_word (c : Core) (n a : Nat) (ws : List Nat) (ch : Bool) {r : Nat} (hr : r < ws.length) :
    leNat ((c.swrite a (ws.flatMap (toLE 4)) ch).sread n (a + 4 * r) 4) = ws.getD r 0 % 2 ^ 32 := by
  have hall : (c.swrite a (ws.flatMap (toLE 4)) ch).sread n a (4 * ws.length) = ws.flatMap (toLE 4) := by
    rw [← flatMap_toLE_length]
    exact Core.sread_sputN _ c n a
  rw [← Core.sread_eq_take_drop _ n a (show 4 * r + 4 ≤ 4 * ws.length by omega), hall, take_drop_flatMap_toLE 4 ws r hr, leNat_toLE,
    show (256 : Nat) ^ 4 = 2 ^ 32 by norm_num]

theorem strike_length (flips : List (Nat × Nat)) (ws : List Nat) : (strike flips ws).length = ws.length := by
  simp [strike]

/-! ### The words of a step -/

/-- Whether its terms are finite decides what a sum counts, not what it is. -/
theorem MtxInst.update_fst (i : MtxInst) (old : Option Nat) (ps : List Num) (a b : Bool) : (i.update old ps a).1 = (i.update old ps b).1 := by
  unfold MtxInst.update
  dsimp only
  split_ifs <;> rfl

/-- The products of two rows of operands, taken in pairs. -/
theorem MtxInst.update_zip (i : MtxInst) (old : Option Nat) (ks : List Nat) (w x : Nat → Num) (fin : Bool) :
    (i.update old (((ks.map w).zip (ks.map x)).map fun (a, b) => i.prod a b) fin).1 =
      (i.update old (ks.map fun k => i.prod (w k) (x k)) (ks.all fun k => (w k).isFin && (x k).isFin)).1 := by
  rw [List.zip_map', List.map_map, i.update_fst old _ fin]
  rfl

/-- The output words of one step in WS and IS on core `c`, as a transient has struck them (R112, R114). -/
def MtxInst.rowWords (i : MtxInst) (c : Core) (n : Nat) (flips : List (Nat × Nat)) : List Nat :=
  strike flips ((List.range 16).map fun r =>
    if r < i.mAct then
      (i.update (if i.acc then some (leNat (c.sread n (i.oA + 64 * i.done + 4 * r) 4)) else none)
        ((List.range i.kAct).map fun k => i.prod (i.stat r k) (i.strm (c.sget n) i.done k))
        ((List.range i.kAct).all fun k => (i.stat r k).isFin && (i.strm (c.sget n) i.done k).isFin)).1
    else 0)

/-- The cells after one step in OS. -/
def MtxInst.cellWords (i : MtxInst) (c : Core) (n : Nat) (flips : List (Nat × Nat)) : List Nat :=
  strike flips ((List.range 256).map fun x =>
    if x / 16 < i.mAct ∧ x % 16 < i.cAct then
      (i.update (some (i.cells.getD x 0).toNat)
        ((List.range i.d).map fun j => i.prod (i.elA (c.sget n) i.done (x / 16) j) (i.elB (c.sget n) i.done j (x % 16)))
        ((List.range i.d).all fun j => (i.elA (c.sget n) i.done (x / 16) j).isFin && (i.elB (c.sget n) i.done j (x % 16)).isFin)).1
    else 0)

section
variable {s : State} {n : Nat} {i : MtxInst} (hd : s.workDead n = false) (flips : List (Nat × Nat))
include hd

theorem State.arrayWs_eq : ∃ j sat nan ch, j.done = i.done + 1 ∧ j.n = i.n ∧ j.cmd = i.cmd ∧ j.tile = i.tile ∧
    s.arrayWs n i flips = (((s.setCore n ((s.core n).swrite (i.oA + 64 * i.done) ((i.rowWords (s.core n) n flips).flatMap (toLE 4)) ch)).noteItem n true
      (i.oA + 64 * i.done) 64).arrayCount n sat nan ch).arrayNext n j := by
  unfold State.arrayWs
  extract_lets c rd v oa ks xs old res words ch satRows act j s₁ s₂
  have hres : res.map Prod.fst = (List.range 16).map fun r => if r < i.mAct then
      (i.update (old r) (ks.map fun k => i.prod (i.stat r k) (i.strm rd v k))
        (ks.all fun k => (i.stat r k).isFin && (i.strm rd v k).isFin)).1 else 0 := by
    rw [List.map_map]
    refine List.map_congr_left fun r _ => ?_
    dsimp only [Function.comp]
    split
    · exact i.update_zip (old r) ks (i.stat r) (i.strm rd v) _
    · rfl
  have hwords : words = i.rowWords (s.core n) n flips := by
    have hlive : words = strike flips (res.map Prod.fst) := if_neg (by simp [hd])
    rw [hlive, hres]
    rfl
  rw [← hwords]
  refine ⟨j, satRows.length, (res.filter fun x => x.2.2).length, ch, rfl, rfl, rfl, rfl, ?_⟩
  have h2 : s₂ = (((s.setCore n ((s.core n).swrite (i.oA + 64 * i.done) (words.flatMap (toLE 4)) ch)).noteItem n true
      (i.oA + 64 * i.done) 64).arrayCount n satRows.length (res.filter fun x => x.2.2).length ch) := rfl
  rw [← h2]
  rfl

theorem State.arrayOs_eq : ∃ j sat nan ch bad, j.done = i.done + 1 ∧ j.cmd = i.cmd ∧
    j.cells = (i.cellWords (s.core n) n flips).map (BitVec.ofNat 32) ∧
    s.arrayOs n i flips = if i.done + 1 < i.n then (s.arrayCount n sat nan ch).onCore n fun c => { c with active := some j }
      else (((s.arrayCount n sat nan ch).onCore n fun c => c.swrite i.oA ((i.cellWords (s.core n) n flips).flatMap (toLE 4)) ch).noteItem n true
        i.oA 1024).arrayDone n { j with envFail := bad } := by
  unfold State.arrayOs
  extract_lets c rd v js res cells g ch satC act j s₁ bad out s₂
  have hres : res.map Prod.fst = (List.range 256).map fun x => if x / 16 < i.mAct ∧ x % 16 < i.cAct then
      (i.update (some (i.cells.getD x 0).toNat) (js.map fun k => i.prod (i.elA rd v (x / 16) k) (i.elB rd v k (x % 16)))
        (js.all fun k => (i.elA rd v (x / 16) k).isFin && (i.elB rd v k (x % 16)).isFin)).1 else 0 := by
    rw [List.map_map]
    refine List.map_congr_left fun x _ => ?_
    dsimp only [Function.comp]
    split
    · exact i.update_zip _ js (i.elA rd v (x / 16)) (fun k => i.elB rd v k (x % 16)) _
    · rfl
  have hcells : cells = i.cellWords (s.core n) n flips := by
    show strike flips (res.map Prod.fst) = _
    rw [hres]
    rfl
  have hlive : s₁.workDead n = false := by
    rw [← hd]
    simp only [State.workDead, s₁, State.core_arrayCount]
  have hout : out = i.cellWords (s.core n) n flips := (if_neg (by simp [hlive])).trans hcells
  refine ⟨j, satC.length, (res.filter fun x => x.2.2).length, ch, bad, rfl, rfl, ?_, ?_⟩
  · rw [← hcells]
  · rw [← hout]

end

/-! ### The step -/

/-- After a step of core `n`: its core is as `c`, with what streams next; the step is counted, and no other core differs. -/
def arrayStepped (s t : State) (n : Nat) (c : Core) (active : Option MtxInst) : Prop :=
  streamsNext c (t.core n) active ∧ (∀ m, m ≠ n → t.core m = s.core m) ∧ t.arraySteps n = (s.arraySteps n + 1) % 2 ^ 64

section
variable {s t : State} {n : Nat} {c : Core} {active : Option MtxInst} (h : arrayStepped s t n c active)
include h

theorem arrayStepped.active_eq : (t.core n).active = active := by
  obtain ⟨⟨_, _, _, hc⟩, _⟩ := h
  rw [hc]

theorem arrayStepped.scratch_eq : (t.core n).scratch = c.scratch := by
  obtain ⟨⟨_, _, _, hc⟩, _⟩ := h
  rw [hc]

theorem arrayStepped.sget_eq : (t.core n).sget n = c.sget n := by
  obtain ⟨⟨_, _, _, hc⟩, _⟩ := h
  rw [hc]
  rfl

theorem arrayStepped.frame (hw : (s.core n).worksAs 9 c) (hm : t.mem = s.mem) : unitFrame s t n 9 := by
  obtain ⟨⟨_, _, _, hc⟩, ho, _⟩ := h
  refine unitFrame_of_worksAs ?_ ho hm
  rw [hc]
  exact hw

theorem arrayStepped.counted : t.arraySteps n = (s.arraySteps n + 1) % 2 ^ 64 := h.2.2

end

/-- An array that was gated is awake from its step on (R91). -/
def Core.awake (c : Core) : Core := { c with gated := false, wake := 0 }

/-- Core `c` once a step has written words of outputs. -/
def Core.wroteWords (c : Core) (a : Nat) (ws : List Nat) (ch : Bool) : Core := c.awake.swrite a (ws.flatMap (toLE 4)) ch

section
variable (c : Core) (a : Nat) (ws : List Nat) (ch : Bool)

theorem Core.worksAs_wroteWords (q : Nat) : c.worksAs q (c.wroteWords a ws ch) := c.awake.worksAs_swrite a _ ch q

theorem Core.shadow_wroteWords : (c.wroteWords a ws ch).shadow = c.shadow := by
  obtain ⟨x, y, h⟩ := c.awake.swrite_frame a (ws.flatMap (toLE 4)) ch
  rw [Core.wroteWords, h]
  rfl

theorem Core.sread_wroteWords (n : Nat) {r : Nat} (hr : r < ws.length) :
    leNat ((c.wroteWords a ws ch).sread n (a + 4 * r) 4) = ws.getD r 0 % 2 ^ 32 :=
  c.awake.sread_swrite_word n a ws ch hr

theorem Core.sget_wroteWords_outside (n : Nat) {x : Nat} (hx : x < a ∨ a + 4 * ws.length ≤ x) : (c.wroteWords a ws ch).sget n x = c.sget n x := by
  rw [Core.wroteWords, Core.sget_swrite, if_neg (by rw [flatMap_toLE_length]; omega)]
  rfl

end

section
variable {s : State} {n : CoreId} {i : MtxInst} (ha : (s.core n).active = some i) (hh : s.stepHeld n = false) (hd : s.workDead n = false)
  (hf : s.scratchFree n i.cmd.seq i.stepNeed = true) (flips : List (Nat × Nat))

include ha hh hf in
theorem exec_arrayStep : exec (.arrayStep n flips) s =
    .next (if i.mode = 2 then (s.onCore n Core.awake).arrayOs n i flips else (s.onCore n Core.awake).arrayWs n i flips) := by
  show execArrayStep n flips s = _
  simp only [execArrayStep, ha, hh, hf, Bool.not_true, Bool.or_self, Bool.false_eq_true, if_false]
  exact (apply_ite Outcome.next _ _ _).symm

include hd in
theorem State.workDead_awake : (s.onCore n Core.awake).workDead n = false := by
  rw [← hd]
  simp only [State.workDead, State.core_onCore_same]
  rfl

include hd in
/-- In WS and IS a step writes its output row, and goes on to the next vector or instruction. -/
theorem State.arrayWs_steps : ∃ j ch, j.done = i.done + 1 ∧ j.n = i.n ∧ j.cmd = i.cmd ∧ j.tile = i.tile ∧
    arrayStepped s ((s.onCore n Core.awake).arrayWs n i flips) n ((s.core n).wroteWords (i.oA + 64 * i.done) (i.rowWords (s.core n) n flips) ch)
      (if j.done < j.n then some j else (s.core n).shadow.filter MtxInst.loaded) := by
  obtain ⟨j, sat, nan, ch, hdone, hn, hcmd, htile, he⟩ := State.arrayWs_eq (State.workDead_awake hd) (i := i) flips
  rw [State.core_onCore_same] at he
  obtain ⟨u, hu⟩ : ∃ u, u = (((s.onCore n Core.awake).setCore n ((s.core n).wroteWords (i.oA + 64 * i.done) (i.rowWords (s.core n) n flips)
      ch)).noteItem n true (i.oA + 64 * i.done) 64).arrayCount n sat nan ch := ⟨_, rfl⟩
  replace he : (s.onCore n Core.awake).arrayWs n i flips = u.arrayNext n j := he.trans (by rw [hu]; rfl)
  have hcore : u.core n = (s.core n).wroteWords (i.oA + 64 * i.done) (i.rowWords (s.core n) n flips) ch := by
    rw [hu, State.core_arrayCount, State.core_noteItem, State.core_setCore_same]
  refine ⟨j, ch, hdone, hn, hcmd, htile, ?_, fun m hm => ?_, ?_⟩
  · have hnext := u.core_arrayNext_same n j
    rwa [hcore, Core.shadow_wroteWords, ← he] at hnext
  · rw [he, State.core_arrayNext_other _ _ _ hm, hu, State.core_arrayCount, State.core_noteItem, State.core_setCore_other _ _ _ _ hm,
      State.core_onCore_other _ _ hm]
  · rw [he, State.arraySteps_arrayNext, hu, State.arraySteps_arrayCount, State.arraySteps_noteItem]
    rfl

include hd in
/-- In OS a step before the last updates the cells. -/
theorem State.arrayOs_steps (hlt : i.done + 1 < i.n) : ∃ j, j.done = i.done + 1 ∧ j.cmd = i.cmd ∧
    j.cells = (i.cellWords (s.core n) n flips).map (BitVec.ofNat 32) ∧
    arrayStepped s ((s.onCore n Core.awake).arrayOs n i flips) n (s.core n).awake (some j) := by
  obtain ⟨j, sat, nan, ch, bad, hdone, hcmd, hcells, he⟩ := State.arrayOs_eq (State.workDead_awake hd) (i := i) flips
  rw [State.core_onCore_same] at hcells
  rw [if_pos hlt] at he
  refine ⟨j, hdone, hcmd, hcells, ?_, fun m hm => ?_, ?_⟩
  · rw [he, State.core_onCore_same, State.core_arrayCount, State.core_onCore_same]
    exact streamsNext_active _ _
  · rw [he, State.core_onCore_other _ _ hm, State.core_arrayCount, State.core_onCore_other _ _ hm]
  · rw [he, State.arraySteps, State.fget_onCore]
    exact State.arraySteps_arrayCount _ _ _ _ _

include hd in
/-- In OS the last step drains the cells, and the loaded shadow streams. -/
theorem State.arrayOs_drains (hle : i.n ≤ i.done + 1) : ∃ ch,
    arrayStepped s ((s.onCore n Core.awake).arrayOs n i flips) n ((s.core n).wroteWords i.oA (i.cellWords (s.core n) n flips) ch)
      ((s.core n).shadow.filter MtxInst.loaded) := by
  obtain ⟨j, sat, nan, ch, bad, _, _, _, he⟩ := State.arrayOs_eq (State.workDead_awake hd) (i := i) flips
  rw [if_neg (by omega), State.core_onCore_same] at he
  obtain ⟨u, hu⟩ : ∃ u, u = (((s.onCore n Core.awake).arrayCount n sat nan ch).onCore n fun c =>
      c.swrite i.oA ((i.cellWords (s.core n) n flips).flatMap (toLE 4)) ch).noteItem n true i.oA 1024 := ⟨_, rfl⟩
  replace he : (s.onCore n Core.awake).arrayOs n i flips = u.arrayDone n { j with envFail := bad } := he.trans (by rw [hu]; rfl)
  have hcore : u.core n = (s.core n).wroteWords i.oA (i.cellWords (s.core n) n flips) ch := by
    rw [hu, State.core_noteItem, State.core_onCore_same, State.core_arrayCount, State.core_onCore_same]
    rfl
  refine ⟨ch, ?_, fun m hm => ?_, ?_⟩
  · have hnext := u.core_arrayDone_same n { j with envFail := bad }
    rwa [hcore, Core.shadow_wroteWords, ← he] at hnext
  · rw [he, State.core_arrayDone_other _ _ _ hm, hu, State.core_noteItem, State.core_onCore_other _ _ hm, State.core_arrayCount,
      State.core_onCore_other _ _ hm]
  · rw [he, State.arraySteps_arrayDone, hu, State.arraySteps_noteItem, State.arraySteps, State.fget_onCore]
    exact State.arraySteps_arrayCount _ _ _ _ _

end

theorem MtxInst.rowWords_length (i : MtxInst) (c : Core) (n : Nat) (flips : List (Nat × Nat)) : (i.rowWords c n flips).length = 16 := by
  rw [MtxInst.rowWords, strike_length, List.length_map, List.length_range]

theorem MtxInst.cellWords_length (i : MtxInst) (c : Core) (n : Nat) (flips : List (Nat × Nat)) : (i.cellWords c n flips).length = 256 := by
  rw [MtxInst.cellWords, strike_length, List.length_map, List.length_range]

/-- What a step that has written words of outputs leaves in scratch. -/
theorem arrayStepped.words {s t : State} {n a : Nat} {ws : List Nat} {ch : Bool} {active : Option MtxInst}
    (h : arrayStepped s t n ((s.core n).wroteWords a ws ch) active) :
    (∀ r, r < ws.length → leNat ((t.core n).sread n (a + 4 * r) 4) = ws.getD r 0 % 2 ^ 32) ∧
    ∀ x, x < a ∨ a + 4 * ws.length ≤ x → (t.core n).sget n x = (s.core n).sget n x := by
  have hread : ∀ x k, (t.core n).sread n x k = ((s.core n).wroteWords a ws ch).sread n x k := fun x k => by
    rw [Core.sread, h.sget_eq]
    rfl
  refine ⟨fun r hr => ?_, fun x hx => ?_⟩
  · rw [hread]
    exact (s.core n).sread_wroteWords a ws ch n hr
  · rw [h.sget_eq]
    exact (s.core n).sget_wroteWords_outside a ws ch n hx

/-- Settles O10: WS and IS by `arrayWs_steps`, OS by `arrayOs_steps` and `arrayOs_drains`. -/
theorem arrayStep : Obligations.ArrayStep := by
  intro s n i flips ha hh hd hf
  have hexec := exec_arrayStep ha hh hf flips
  refine ⟨fun hm => ?_, fun hm hlt => ?_, fun hm hle => ?_⟩
  · obtain ⟨j, ch, hdone, hn, hcmd, htile, h⟩ := State.arrayWs_steps (i := i) hd flips
    have hw := h.words
    rw [i.rowWords_length] at hw
    obtain ⟨hwords, hframe⟩ := hw
    rw [hdone, hn] at h
    refine ⟨_, hexec.trans (by rw [if_neg hm]), hwords, hframe, h.counted, fun hlt => ⟨j, ?_, hdone, hcmd, htile⟩, fun hle => ?_,
      h.frame (Core.worksAs_wroteWords ..) (State.arrayWs_mem ..)⟩
    · rw [h.active_eq, if_pos hlt]
    · rw [h.active_eq, if_neg (by omega)]
  · obtain ⟨j, hdone, hcmd, hcells, h⟩ := State.arrayOs_steps (i := i) hd flips hlt
    exact ⟨_, hexec.trans (by rw [if_pos hm]), ⟨j, h.active_eq, hdone, hcmd, hcells⟩, h.scratch_eq, h.counted,
      h.frame ⟨rfl, rfl, rfl, fun _ _ _ => rfl⟩ (State.arrayOs_mem ..)⟩
  · obtain ⟨ch, h⟩ := State.arrayOs_drains (i := i) hd flips hle
    have hw := h.words
    rw [i.cellWords_length] at hw
    obtain ⟨hwords, hframe⟩ := hw
    exact ⟨_, hexec.trans (by rw [if_pos hm]), hwords, hframe, h.counted, h.active_eq,
      h.frame (Core.worksAs_wroteWords ..) (State.arrayOs_mem ..)⟩

end Sys2Proof.Machine

namespace Sys2Proof.Machine
open Host (Outcome)

/-! ## The vault interface (R90, R263, R269, R270) -/

/-! ### Whose turn it is -/

theorem Core.turn_first {c : Core} {busy : BitVec 32} {reads : List VaultRead} {turn : Nat} {x : Burst}
    (h : c.turn busy reads = some (turn, x)) : ∃ i, i < 6 ∧ turn = (c.rot + 1 + i) % 6 ∧ c.nextBurst reads turn = some x ∧
      busy.getLsbD x.bank = false ∧ ∀ k y, k < i → c.nextBurst reads ((c.rot + 1 + k) % 6) = some y → busy.getLsbD y.bank = true := by
  obtain ⟨before, t, after, hl, ht, hbefore⟩ := List.findSome?_eq_some_iff.mp h
  have hat : ∀ k, k < 6 → ((List.range 6).map fun i => (c.rot + 1 + i) % 6)[k]? = some ((c.rot + 1 + k) % 6) := fun k hk => by
    simp [hk]
  have hlen : before.length < 6 := by
    have := congrArg List.length hl
    simp at this
    omega
  have hturn : t = (c.rot + 1 + before.length) % 6 := by
    have := hat before.length hlen
    rw [hl] at this
    simpa using this
  cases hb : c.nextBurst reads t with
  | none => simp [hb] at ht
  | some b =>
    simp only [hb] at ht
    split at ht
    · contradiction
    · next hfree =>
      obtain ⟨rfl, rfl⟩ : t = turn ∧ b = x := by simpa using ht
      refine ⟨before.length, hlen, hturn, hb, by simpa using hfree, fun k y hk hy => ?_⟩
      have hmem : (c.rot + 1 + k) % 6 ∈ before := by
        have := hat k (by omega)
        rw [hl, List.getElem?_append_left hk] at this
        exact List.mem_of_getElem? this
      have hnone := hbefore _ hmem
      simp only [hy] at hnone
      by_contra hfree
      simp [hfree] at hnone

/-! ### Reads -/

@[simp] theorem State.cores_event (s : State) (kind : Nat) (body : List Nat) : (s.event kind body).cores = s.cores := by
  obtain ⟨x, y, h⟩ := s.event_frame kind body
  rw [h]

@[simp] theorem State.cores_almanac (s : State) (kind : Nat) (body : List Nat) : (s.almanac kind body).cores = s.cores := by
  obtain ⟨x, y, h⟩ := s.almanac_frame kind body
  rw [h]

@[simp] theorem State.cores_faultRecord (s : State) (f : FaultRec) : (s.faultRecord f).cores = s.cores := by
  unfold State.faultRecord
  dsimp only
  split <;> split <;> simp

theorem State.countEcc_frame (s : State) (a : Nat) (uncorr : Bool) : ∃ x, s.countEcc a uncorr = { s with regs := x } := by
  unfold State.countEcc
  repeat' split
  all_goals exact ⟨_, rfl⟩

theorem State.eccWorse_frame (s : State) (w place : Nat) : ∃ x y, s.eccWorse w place = { s with regs := x, ecc := y } := by
  unfold State.eccWorse
  split
  · exact ⟨s.regs, _, rfl⟩
  · split
    · exact ⟨_, s.ecc, rfl⟩
    · exact ⟨s.regs, s.ecc, rfl⟩

theorem State.eccEvent_frame (s : State) (w : Nat) (uncorr : Bool) (place src : Nat) :
    ∃ x y, s.eccEvent w uncorr place src = { s with regs := x, ecc := y } := by
  unfold State.eccEvent
  split
  · split
    · exact s.eccWorse_frame w place
    · exact ⟨s.regs, s.ecc, rfl⟩
  · exact ⟨s.regs, _, rfl⟩

/-- An error that is found is counted and becomes an event. -/
theorem State.eccFound_frame (s : State) (a w : Nat) (uncorr : Bool) (place src : Nat) :
    ∃ x y, (s.countEcc a uncorr).eccEvent w uncorr place src = { s with regs := x, ecc := y } := by
  obtain ⟨x, hx⟩ := s.countEcc_frame a uncorr
  obtain ⟨y, z, hy⟩ := (s.countEcc a uncorr).eccEvent_frame w uncorr place src
  exact ⟨y, z, by rw [hy, hx]⟩

@[simp] theorem State.cores_eccRead (s : State) (a : Nat) (e : Ecc) (src part : Nat) : (s.eccRead a e src part).cores = s.cores := by
  have hfound : ∀ (u : State) (uncorr : Bool) (place : Nat), ((u.countEcc a uncorr).eccEvent (granuleOf a) uncorr place src).cores = u.cores := by
    intro u uncorr place
    obtain ⟨x, y, h⟩ := u.eccFound_frame a (granuleOf a) uncorr place src
    rw [h]
  unfold State.eccRead
  dsimp only
  split
  · rfl
  · cases e with
    | clean => rfl
    | corrected p => exact hfound s false p
    | uncorrectable =>
      rw [State.chaffMade, State.cores_faultRecord]
      exact hfound (s.goneBad a) true _

/-- A read that finds no uncorrectable error changes no byte and marks none (R434 to R436). -/
theorem State.eccRead_keeps (s : State) (a : Nat) {e : Ecc} (he : e ≠ .uncorrectable) (src part : Nat) :
    (s.eccRead a e src part).mem = s.mem ∧ (s.eccRead a e src part).chaff = s.chaff := by
  unfold State.eccRead
  dsimp only
  split
  · exact ⟨rfl, rfl⟩
  · cases e with
    | clean => exact ⟨rfl, rfl⟩
    | corrected p =>
      obtain ⟨x, y, h⟩ := s.eccFound_frame a (granuleOf a) false p src
      have hmem := congrArg State.mem h
      have hchaff := congrArg State.chaff h
      exact ⟨hmem, hchaff⟩
    | uncorrectable => contradiction

theorem vault_reads {s : State} {n : CoreId} {busy : BitVec 32} {reads : List VaultRead} {turn : Nat} {x : VaultRead}
    (h : (s.core n).turn (busy ||| s.retBanks n) reads = some (turn, .read x)) : completes (.vaultBurst n busy 0 reads) s fun t =>
      (t.core n).rot = turn ∧ (t.core n).vqMesh = (s.core n).vqMesh ∧ (t.core n).vqGran = (s.core n).vqGran ∧
      (x.ecc ≠ .uncorrectable → t.mem = s.mem ∧ t.chaff = s.chaff) := by
  let u : State := s.setCore n { s.core n with rot := turn }
  have he : exec (.vaultBurst n busy 0 reads) s = .next (u.eccRead (vaultBase n + x.off.toNat) x.ecc n (s.itemPart n)) := by
    show execVaultBurst n busy 0 reads s = _
    simp only [execVaultBurst, h]
    rfl
  have hcore : (u.eccRead (vaultBase n + x.off.toNat) x.ecc n (s.itemPart n)).core n = { s.core n with rot := turn } := by
    rw [State.core, State.cores_eccRead]
    exact alGet_alPut_same _ _ _ _
  exact ⟨_, he, by rw [hcore], by rw [hcore], by rw [hcore], fun hx => u.eccRead_keeps _ hx _ _⟩

/-! ### Writing cells -/

/-- Memory after cells are written one by one. -/
def memSetCells (m : List Host.Cell) (cells : List (Nat × Byte × Bool)) : List Host.Cell := cells.foldl (fun m c => memSet m c.1 c.2.1) m

theorem memGet_memSetCells_outside {cells : List (Nat × Byte × Bool)} {a : Nat} (h : ∀ c ∈ cells, a ≠ c.1) (m : List Host.Cell) :
    memGet (memSetCells m cells) a = memGet m a := by
  induction cells generalizing m with
  | nil => rfl
  | cons c t ih =>
    obtain ⟨hc, ht⟩ := List.forall_mem_cons.mp h
    exact (ih ht _).trans (memGet_memSet_other m c.1 a c.2.1 hc)

/-- Of cells at different addresses each is read as it was written. -/
theorem memGet_memSetCells_mem {cells : List (Nat × Byte × Bool)} (hn : (cells.map Prod.fst).Nodup) {c : Nat × Byte × Bool} (hc : c ∈ cells)
    (m : List Host.Cell) : memGet (memSetCells m cells) c.1 = c.2.1 := by
  induction cells generalizing m with
  | nil => contradiction
  | cons d t ih =>
    obtain ⟨hd, ht⟩ := List.nodup_cons.mp hn
    rcases List.mem_cons.mp hc with rfl | hc
    · have hout : ∀ e ∈ t, c.1 ≠ e.1 := fun e he h => hd (h ▸ List.mem_map_of_mem he)
      exact (memGet_memSetCells_outside hout (memSet m c.1 c.2.1)).trans (memGet_memSet_same m c.1 c.2.1)
    · exact ih ht hc _

/-- Memory after runs of cells are written one by one. -/
def memSetRuns (m : List Host.Cell) (runs : List (Nat × List (Byte × Bool))) : List Host.Cell :=
  runs.foldl (fun m r => memSetN m r.1 (r.2.map Prod.fst)) m

/-- Written run by run, cells leave what they leave written one by one. -/
theorem memSetRuns_runsOf (cut : Nat) (cells : List (Nat × Byte × Bool)) (m : List Host.Cell) :
    memSetRuns m (runsOf cut cells) = memSetCells m cells := by
  induction cells generalizing m with
  | nil => rfl
  | cons c t ih =>
    obtain ⟨a, b⟩ := c
    have hcons : memSetRuns m (runsOf cut ((a, b) :: t)) = memSetRuns (memSet m a b.1) (runsOf cut t) := by
      rw [runsOf]
      split
      · next a' l r hr =>
        rw [hr]
        split
        · next hnext =>
          obtain ⟨rfl, _⟩ := hnext
          rfl
        · rfl
      · next hr =>
        rw [hr]
        rfl
    rw [hcons, ih]
    rfl

/-- A run begins at one of its cells. -/
theorem exists_mem_of_mem_runsOf {cut : Nat} {cells : List (Nat × Byte × Bool)} {r : Nat × List (Byte × Bool)} (h : r ∈ runsOf cut cells) :
    ∃ c ∈ cells, c.1 = r.1 := by
  induction cells generalizing r with
  | nil => contradiction
  | cons c t ih =>
    obtain ⟨a, b⟩ := c
    rw [runsOf] at h
    split at h
    · next a' l rs hr =>
      split at h
      · rcases List.mem_cons.mp h with rfl | h
        · exact ⟨_, List.mem_cons_self, rfl⟩
        · obtain ⟨c, hc, e⟩ := ih (hr ▸ List.mem_cons_of_mem _ h)
          exact ⟨c, List.mem_cons_of_mem _ hc, e⟩
      · rcases List.mem_cons.mp h with rfl | h
        · exact ⟨_, List.mem_cons_self, rfl⟩
        · obtain ⟨c, hc, e⟩ := ih (hr ▸ h)
          exact ⟨c, List.mem_cons_of_mem _ hc, e⟩
    · rw [List.mem_singleton] at h
      subst h
      exact ⟨_, List.mem_cons_self, rfl⟩

/-- Is a state as `s` but for bytes of memory and what is kept of them. -/
def writesOnly (s t : State) : Prop :=
  ∃ m ch e v w h, t = { s with mem := m, chaff := ch, ecc := e, valid := v, waits := w, hits := h }

theorem State.wrMarked_writes {s : State} {a : Nat} (ha : a < 0x8000000000) (hg : s.goneAt a = false) (bs : List (Byte × Bool)) :
    writesOnly s (s.wrMarked a bs) ∧ (s.wrMarked a bs).mem = memSetN s.mem a (bs.map Prod.fst) := by
  unfold State.wrMarked
  dsimp only
  rw [if_neg (by omega), hg]
  exact ⟨⟨_, _, _, _, _, _, rfl⟩, rfl⟩

theorem State.wrRuns_write : ∀ (runs : List (Nat × List (Byte × Bool))) (s : State), (∀ r ∈ runs, r.1 < 0x8000000000 ∧ s.goneAt r.1 = false) →
    writesOnly s (runs.foldl (fun s r => s.wrMarked r.1 r.2) s) ∧ (runs.foldl (fun s r => s.wrMarked r.1 r.2) s).mem = memSetRuns s.mem runs
  | [], s, _ => ⟨⟨_, _, _, _, _, _, rfl⟩, rfl⟩
  | r :: runs, s, h => by
    obtain ⟨⟨ha, hg⟩, hrest⟩ := List.forall_mem_cons.mp h
    obtain ⟨hw, hmem⟩ := State.wrMarked_writes ha hg r.2
    obtain ⟨m, ch, e, v, w, x, hx⟩ := hw
    have ih := State.wrRuns_write runs (s.wrMarked r.1 r.2) (by rw [hx]; exact hrest)
    obtain ⟨⟨m', ch', e', v', w', x', hx'⟩, hmem'⟩ := ih
    refine ⟨⟨m', ch', e', v', w', x', ?_⟩, ?_⟩
    · rw [List.foldl_cons, hx', hx]
    · rw [List.foldl_cons, hmem', hmem]
      rfl

/-- Cells in memory that no retirement hides are all written (R452). -/
theorem State.wrCells_writes {s : State} {cells : List (Nat × Byte × Bool)} (h : ∀ c ∈ cells, c.1 < 0x8000000000 ∧ s.goneAt c.1 = false) :
    writesOnly s (s.wrCells cells) ∧ (s.wrCells cells).mem = memSetCells s.mem cells := by
  obtain ⟨hw, hmem⟩ := State.wrRuns_write (runsOf 0x10000000000000 cells) s fun r hr => by
    obtain ⟨c, hc, e⟩ := exists_mem_of_mem_runsOf hr
    exact e ▸ h c hc
  exact ⟨hw, hmem.trans (memSetRuns_runsOf _ _ _)⟩

/-! ### Performing a message -/

theorem State.noteCells_frame (s : State) (ring : Option Nat) (step : Nat) (cells : List (Nat × Byte × Bool)) :
    ∃ x, s.noteCells ring step cells = { s with wrote := x } := by
  refine List.foldlRecOn (motive := fun t : State => ∃ x, t = { s with wrote := x }) _ _ ⟨s.wrote, rfl⟩ ?_
  rintro _ ⟨x, rfl⟩ r _
  unfold State.noteStep
  dsimp only
  repeat' split
  all_goals exact ⟨_, rfl⟩

theorem State.replyContrib_frame (s : State) (c : Contrib) (done : Bool) : ∃ x, s.replyContrib c done = { s with link := x } := by
  unfold State.replyContrib
  split
  · exact ⟨_, rfl⟩
  · exact ⟨s.link, rfl⟩

/-- A message performed or logged changes its moves, and the links its answer leaves by (R272). -/
theorem State.msgDone_frame (s : State) (m : Msg) : ∃ x y, s.msgDone m = { s with moves := x, link := y } := by
  obtain ⟨x, hx⟩ : ∃ x, m.moves.foldl (fun s i => s.onMove i fun x => { x with msgs := x.msgs - 1 }) s = { s with moves := x } := by
    refine List.foldlRecOn (motive := fun t : State => ∃ x, t = { s with moves := x }) _ _ ⟨s.moves, rfl⟩ ?_
    rintro _ ⟨x, rfl⟩ i _
    exact ⟨_, rfl⟩
  obtain ⟨y, hy⟩ : ∃ y, m.comb.foldl (fun s x => s.replyContrib x.con) { s with moves := x } = { s with moves := x, link := y } := by
    refine List.foldlRecOn (motive := fun t : State => ∃ y, t = { s with moves := x, link := y }) _ _ ⟨s.link, rfl⟩ ?_
    rintro _ ⟨y, rfl⟩ i _
    obtain ⟨z, hz⟩ := State.replyContrib_frame { s with moves := x, link := y } i.con true
    exact ⟨z, hz⟩
  unfold State.msgDone
  dsimp only
  rw [hx, hy]
  split
  · exact ⟨_, _, rfl⟩
  · exact ⟨_, _, rfl⟩

theorem State.combined_frame (s : State) (sats : Nat) (ch l : List DetItem) (cells : List (Nat × Byte × Bool)) :
    ∃ x y, s.combined sats ch l cells = { s with scatterSat := s.scatterSat + sats, rings := x, wrote := y } := by
  let u : State := { s with scatterSat := s.scatterSat + sats }
  obtain ⟨x, hx⟩ : ∃ x, ch.foldl (fun (s : State) x => s.consumeChaff x.con.ring x.con.step) u = { u with rings := x } := by
    refine List.foldlRecOn (motive := fun t : State => ∃ x, t = { u with rings := x }) _ _ ⟨u.rings, rfl⟩ ?_
    rintro _ ⟨x, rfl⟩ i _
    obtain ⟨z, hz⟩ := State.consumeChaff_frame { u with rings := x } i.con.ring i.con.step
    exact ⟨z, hz⟩
  unfold State.combined
  dsimp only
  rw [hx]
  refine List.foldlRecOn (motive := fun t : State => ∃ x y, t = { s with scatterSat := s.scatterSat + sats, rings := x, wrote := y }) _ _
    ⟨x, s.wrote, rfl⟩ ?_
  rintro _ ⟨x, y, rfl⟩ i _
  obtain ⟨z, hz⟩ := State.noteCells_frame { s with scatterSat := s.scatterSat + sats, rings := x, wrote := y } i.con.ring i.con.step
    (cells.filter fun c => i.touches.contains c.1)
  exact ⟨x, z, hz⟩

/-- What the vault interface leaves in state `t` when it has served a message of core `n`: memory `m`, the message off its queue, and the turn
taken; the misdelivery queue and retired units stand. -/
def msgServed (s t : State) (n turn : Nat) (pop : Core → Core) (m : List Host.Cell) (sats : Nat) : Prop :=
  t.core n = { pop (s.core n) with rot := turn } ∧ t.mem = m ∧ t.ret = s.ret ∧ t.mdq = s.mdq ∧ t.scatterSat = s.scatterSat + sats

section
variable {s : State} {n : Nat} {m : Msg} (he : m.stamp.epoch = (s.core n).epoch) (pop : Core → Core) (turn : Nat)
include he

theorem State.serveMsg_writes (hcomb : m.comb = [])
    (hd : ∀ x ∈ m.data, vaultBase n + x.1 < 0x8000000000 ∧ s.goneAt (vaultBase n + x.1) = false) :
    msgServed s (s.serveMsg n m pop turn) n turn pop (memSetCells s.mem (m.data.map fun d => (vaultBase n + d.1, d.2))) 0 := by
  let u : State := s.setCore n { pop (s.core n) with rot := turn }
  let cells := m.data.map fun d => (vaultBase n + d.1, d.2)
  have hcells : ∀ c ∈ cells, c.1 < 0x8000000000 ∧ u.goneAt c.1 = false := fun c hc => by
    obtain ⟨x, hx, rfl⟩ := List.mem_map.mp hc
    exact hd x hx
  obtain ⟨⟨mm, ch, e, v, w, x, hx⟩, hmem⟩ := State.wrCells_writes hcells
  obtain ⟨y, hy⟩ := (u.wrCells cells).noteCells_frame m.ring m.step cells
  obtain ⟨a, b, hab⟩ := (((u.wrCells cells).noteCells m.ring m.step cells).coreCount n 5 (u.wrSlots cells)).msgDone_frame m
  have hserve : s.serveMsg n m pop turn = (((u.wrCells cells).noteCells m.ring m.step cells).coreCount n 5 (u.wrSlots cells)).msgDone m := by
    unfold State.serveMsg State.performMsg
    dsimp only
    rw [if_pos he, if_pos (by simp [hcomb])]
  rw [hserve, hab, hy]
  refine ⟨?_, hmem, ?_, ?_, ?_⟩
  all_goals rw [hx]
  · exact s.core_setCore_same _ _
  · rfl
  · rfl
  · rfl

theorem State.serveMsg_combines {cells : List (Nat × Byte × Bool)} {sats : Nat} {ch : List DetItem} (hcomb : m.comb ≠ [])
    (hc : (s.setCore n { pop (s.core n) with rot := turn }).combCells n m = (cells, sats, ch))
    (hd : ∀ c ∈ cells, c.1 < 0x8000000000 ∧ s.goneAt c.1 = false) :
    msgServed s (s.serveMsg n m pop turn) n turn pop (memSetCells s.mem cells) sats := by
  let u : State := s.setCore n { pop (s.core n) with rot := turn }
  obtain ⟨⟨mm, ch', e, v, w, x, hx⟩, hmem⟩ := State.wrCells_writes (s := u) hd
  let back := cells.map fun c => (m.lo / 0x800000 * 0x800000 + c.1 % 0x800000, c.2)
  obtain ⟨y, z, hyz⟩ := (u.wrCells cells).combined_frame sats ch m.comb back
  obtain ⟨a, b, hab⟩ := ((((u.wrCells cells).combined sats ch m.comb back).coreCount n 4 1).coreCount n 5 1).msgDone_frame m
  have hserve : s.serveMsg n m pop turn = ((((u.wrCells cells).combined sats ch m.comb back).coreCount n 4 1).coreCount n 5 1).msgDone m := by
    unfold State.serveMsg State.performMsg
    dsimp only
    rw [if_pos he, if_neg (by simp [hcomb]), hc]
  rw [hserve, hab, hyz]
  refine ⟨?_, hmem, ?_, ?_, ?_⟩
  all_goals rw [hx]
  · exact s.core_setCore_same _ _
  · rfl
  · rfl
  · rfl

end

/-! ### Combining one element (R203, R263) -/

/-- Bytes as cells at successive addresses, with one chaff mark. -/
def cellsAt (ch : Bool) : Nat → List Byte → List (Nat × Byte × Bool)
  | _, [] => []
  | a, b :: t => (a, b, ch) :: cellsAt ch (a + 1) t

theorem zip_range_eq_cellsAt (ch : Bool) (bs : List Byte) (a : Nat) :
    ((bs.zip (List.range bs.length)).map fun (b, i) => (a + i, b, ch)) = cellsAt ch a bs := by
  induction bs generalizing a with
  | nil => rfl
  | cons b t ih =>
    have hsucc : (fun x : Byte × Nat => (a + (x.2 + 1), x.1, ch)) = fun x => (a + 1 + x.2, x.1, ch) := by
      funext x
      rw [Nat.add_assoc, Nat.add_comm 1]
    rw [cellsAt, ← ih (a + 1), List.length_cons, List.range_succ_eq_map, List.zip_cons_cons, List.map_cons, List.zip_map_right, List.map_map]
    exact congrArg _ (congrArg (fun f => (t.zip (List.range t.length)).map f) hsucc)

theorem mem_cellsAt {ch : Bool} {bs : List Byte} {a : Nat} {c : Nat × Byte × Bool} (h : c ∈ cellsAt ch a bs) :
    ∃ i, i < bs.length ∧ c.1 = a + i := by
  induction bs generalizing a with
  | nil => contradiction
  | cons b t ih =>
    rcases List.mem_cons.mp h with rfl | h
    · exact ⟨0, by simp, rfl⟩
    · obtain ⟨i, hi, e⟩ := ih h
      exact ⟨i + 1, by simpa using hi, by omega⟩

theorem memSetCells_cellsAt (ch : Bool) (bs : List Byte) (m : List Host.Cell) (a : Nat) : memSetCells m (cellsAt ch a bs) = memSetN m a bs := by
  induction bs generalizing m a with
  | nil => rfl
  | cons b t ih => exact ih (memSet m a b) (a + 1)

theorem alPut_append_last {α : Type} {l : List (Nat × α)} {k : Nat} (h : ∀ x ∈ l, x.1 < k) (v : α) : alPut l k v = l ++ [(k, v)] := by
  induction l with
  | nil => rfl
  | cons x t ih =>
    obtain ⟨a, w⟩ := x
    obtain ⟨ha, ht⟩ := List.forall_mem_cons.mp h
    have ha : a < k := ha
    rw [alPut, if_neg (by omega), if_neg (by omega), ih ht, List.cons_append]

/-- Cells at rising addresses are put one behind the other. -/
theorem foldl_alPut_cellsAt (ch : Bool) (bs : List Byte) (a : Nat) {l : List (Nat × Byte × Bool)} (h : ∀ x ∈ l, x.1 < a) :
    (cellsAt ch a bs).foldl (fun v x => alPut v x.1 x.2) l = l ++ cellsAt ch a bs := by
  induction bs generalizing a l with
  | nil => simp [cellsAt]
  | cons b t ih =>
    have hnext : ∀ x ∈ l ++ [(a, b, ch)], x.1 < a + 1 := fun x hx => by
      rcases List.mem_append.mp hx with hx | hx
      · exact Nat.lt_succ_of_lt (h x hx)
      · rw [List.mem_singleton.mp hx]
        exact Nat.lt_succ_self a
    rw [cellsAt, List.foldl_cons, alPut_append_last h, ih (a + 1) hnext, List.append_assoc, List.singleton_append]

theorem map_cellsAt {ch : Bool} (f : Nat → Nat) (bs : List Byte) (a a' : Nat) (h : ∀ i, i < bs.length → f (a + i) = a' + i) :
    (cellsAt ch a bs).map (fun c => (f c.1, c.2)) = cellsAt ch a' bs := by
  induction bs generalizing a a' with
  | nil => rfl
  | cons b t ih =>
    have h₀ : f a = a' := h 0 (by simp)
    have ht := ih (a + 1) (a' + 1) fun i hi => by
      rw [Nat.add_assoc, Nat.add_comm 1 i, h (i + 1) (by simpa using hi), Nat.add_assoc, Nat.add_comm 1 i]
    rw [cellsAt, List.map_cons, ht, cellsAt, h₀]

section
variable {k : Contrib} (hp : k.pads = []) (hop : 1 ≤ k.op) (rd : Nat → Byte × Bool)

/-- The bits an element holds before it is combined. -/
def Contrib.oldBits (k : Contrib) (rd : Nat → Byte × Bool) : Nat :=
  leNat ((List.range (etBits k.etype / 8)).map fun i => (rd (localOf k.addr + i)).1)

/-- What the element is after it is combined, and whether it was clamped. -/
def Contrib.result (k : Contrib) (rd : Nat → Byte × Bool) : Nat × Bool := combineBits k.etype k.stype k.op (k.oldBits rd) k.bits

include hp in
theorem Contrib.cells_of_no_pads : ∃ ch, k.cells rd =
    (cellsAt ch (localOf k.addr) (toLE (etBits k.etype / 8) (k.result rd).1), (k.result rd).2) := by
  let w := etBits k.etype / 8
  let a := localOf k.addr
  let old := (List.range w).map fun i => rd (a + i)
  let ch := k.chaff || old.any Prod.snd
  have hold : leNat (old.map Prod.fst) = k.oldBits rd := by
    rw [List.map_map]
    rfl
  have hcells : ((toLE w (k.result rd).1).zip (List.range w)).map (fun (b, i) => (a + i, b, ch)) = cellsAt ch a (toLE w (k.result rd).1) := by
    have h := zip_range_eq_cellsAt ch (toLE w (k.result rd).1) a
    rwa [toLE_length] at h
  have hput := foldl_alPut_cellsAt ch (toLE w (k.result rd).1) a (l := []) (by simp)
  refine ⟨ch, ?_⟩
  unfold Contrib.cells
  dsimp only
  rw [hp, hold]
  refine Prod.ext ?_ rfl
  exact (congrArg (fun l => l.foldl (fun v x => alPut v x.1 x.2) []) hcells).trans hput

include hp hop in
theorem combineAll_single {mine : Nat → Bool} (hm : ∀ i, i < etBits k.etype / 8 → mine (localOf k.addr + i) = true) : ∃ ch l,
    combineAll rd mine [k.item] = (cellsAt ch (localOf k.addr) (toLE (etBits k.etype / 8) (k.result rd).1), one (k.result rd).2, l) := by
  obtain ⟨ch, hc⟩ := Contrib.cells_of_no_pads hp rd
  have hitem : k.item.cells (ovr rd []) = (cellsAt ch (localOf k.addr) (toLE (etBits k.etype / 8) (k.result rd).1), (k.result rd).2) := by
    have hne : ¬ k.item.op = 0 := by
      have : k.item.op = k.op := rfl
      omega
    rw [DetItem.cells, if_neg hne]
    exact hc
  have hmine : (cellsAt ch (localOf k.addr) (toLE (etBits k.etype / 8) (k.result rd).1)).filter (fun y => mine y.1) =
      cellsAt ch (localOf k.addr) (toLE (etBits k.etype / 8) (k.result rd).1) := by
    refine List.filter_eq_self.mpr fun c hc => ?_
    obtain ⟨i, hi, e⟩ := mem_cellsAt hc
    rw [e]
    exact hm i (by simpa using hi)
  have hput := foldl_alPut_cellsAt ch (toLE (etBits k.etype / 8) (k.result rd).1) (localOf k.addr) (l := []) (by simp)
  refine ⟨ch, (combineAll rd mine [k.item]).2.2, Prod.ext ?_ (Prod.ext ?_ rfl)⟩
  · simp only [combineAll, List.foldl_cons, List.foldl_nil, hitem, hmine, hput, List.nil_append]
  · simp only [combineAll, List.foldl_cons, List.foldl_nil, hitem, Nat.zero_add]
end

/-- An element that is summed fills at most four bytes. -/
theorem etBits_sum_le {t : Nat} (h : t ∈ [1, 2, 3, 0x12]) : etBits t / 8 ≤ 4 := by
  simp only [List.mem_cons, List.not_mem_nil, or_false] at h
  rcases h with rfl | rfl | rfl | rfl <;> decide

/-- The four bytes of an aligned element lie in one bank or bin. -/
theorem State.goneAt_element (s : State) {a i : Nat} (h4 : a % 4 = 0) (hi : i < 4) : s.goneAt (a + i) = s.goneAt a := by
  have hu : unitOf (a + i) = unitOf a := by
    unfold unitOf
    split_ifs <;> omega
  rw [State.goneAt, hu]
  rfl

/-- A message of one aligned element changes the cells of that element at its vault. -/
theorem State.combCells_single (s : State) {n : Nat} {m : Msg} {k : Contrib} (hp : k.pads = []) (hop : 1 ≤ k.op) (hc : m.comb = [k.item])
    (hw : etBits k.etype / 8 ≤ 4) (h4 : localOf k.addr % 4 = 0) (hb : localOf k.addr / 256 = m.lo / 256) :
    let r := k.result fun x => (s.rd8 (vaultBase n + x % 0x800000), s.isChaff (vaultBase n + x % 0x800000))
    ∃ ch l, s.combCells n m = (cellsAt ch (vaultBase n + localOf k.addr % 0x800000) (toLE (etBits k.etype / 8) r.1), one r.2, l) := by
  intro r
  obtain ⟨ch, l, hall⟩ := combineAll_single hp hop
    (fun x => (s.rd8 (vaultBase n + x % 0x800000), s.isChaff (vaultBase n + x % 0x800000))) (mine := fun a => a / 256 = m.lo / 256)
    fun i hi => decide_eq_true (by omega)
  have hmap := map_cellsAt (ch := ch) (fun x => vaultBase n + x % 0x800000) (toLE (etBits k.etype / 8) r.1) (localOf k.addr)
    (vaultBase n + localOf k.addr % 0x800000) fun i hi => by
      rw [toLE_length] at hi
      omega
  refine ⟨ch, l, ?_⟩
  unfold State.combCells
  dsimp only
  rw [hc, hall]
  exact congrArg (·, one r.2, l) hmap

/-! ### The commands of the interface -/

/-- The message at the head of the queue of requester `turn` taken off: 3 the mesh, 4 the Granary (R90). -/
def Core.popMsg (turn : Nat) (c : Core) : Core :=
  if turn = 3 then { c with vqMesh := c.vqMesh.drop 1 } else { c with vqGran := c.vqGran.drop 1 }

/-- Core `c'` is `c` after turn `turn` of its interface: the message it served is off its queue, and the other queue stands. -/
def Core.tookTurn (c : Core) (turn : Nat) (c' : Core) : Prop :=
  c'.rot = turn ∧ (turn = 3 → c'.vqMesh = c.vqMesh.drop 1 ∧ c'.vqGran = c.vqGran) ∧
    (turn ≠ 3 → c'.vqGran = c.vqGran.drop 1 ∧ c'.vqMesh = c.vqMesh)

theorem Core.tookTurn_popMsg {c c' : Core} {turn : Nat} (h : c' = { c.popMsg turn with rot := turn }) : c.tookTurn turn c' := by
  rw [h]
  refine ⟨rfl, fun ht => ?_, fun ht => ?_⟩
  · simp [Core.popMsg, ht]
  · simp [Core.popMsg, ht]

section
variable {s : State} {n : CoreId} {busy : BitVec 32} {reads : List VaultRead} {turn : Nat} {m : Msg}
  (h : (s.core n).turn (busy ||| s.retBanks n) reads = some (turn, .write m))
include h

theorem exec_vaultBurst_write : exec (.vaultBurst n busy 0 reads) s = .next (s.serveMsg n m (Core.popMsg turn) turn) := by
  show execVaultBurst n busy 0 reads s = _
  simp only [execVaultBurst, h]
  rfl

theorem vault_writes (he : m.stamp.epoch = (s.core n).epoch) (hc : m.comb = []) (hn : (m.data.map Prod.fst).Nodup)
    (hd : ∀ x ∈ m.data, x.1 < 0x800000 ∧ s.goneAt (vaultBase n + x.1) = false) :
    completes (.vaultBurst n busy 0 reads) s fun t =>
      (∀ x ∈ m.data, t.rd8 (vaultBase n + x.1) = x.2.1) ∧
      (∀ a, (∀ x ∈ m.data, a ≠ vaultBase n + x.1) → memGet t.mem a = memGet s.mem a) ∧
      (s.core n).tookTurn turn (t.core n) ∧ t.mdq = s.mdq := by
  have hlow : ∀ x ∈ m.data, vaultBase n + x.1 < 0x8000000000 ∧ s.goneAt (vaultBase n + x.1) = false := fun x hx => by
    obtain ⟨hlt, hg⟩ := hd x hx
    have := n.isLt
    exact ⟨by unfold vaultBase; omega, hg⟩
  obtain ⟨hcore, hmem, hret, hmdq, _⟩ := State.serveMsg_writes he (Core.popMsg turn) turn hc hlow
  let cells := m.data.map fun d => (vaultBase n + d.1, d.2)
  have hnodup : (cells.map Prod.fst).Nodup := by
    have : cells.map Prod.fst = (m.data.map Prod.fst).map (vaultBase n + ·) := by simp [cells]
    rw [this]
    exact hn.map (add_right_injective _)
  refine ⟨_, exec_vaultBurst_write h, fun x hx => ?_, fun a ha => ?_, Core.tookTurn_popMsg hcore, hmdq⟩
  · have hg : (s.serveMsg n m (Core.popMsg turn) turn).goneAt (vaultBase n + x.1) = false := by
      rw [State.goneAt, hret]
      exact (hlow x hx).2
    rw [State.rd8, hg, hmem]
    exact memGet_memSetCells_mem hnodup (List.mem_map_of_mem hx) s.mem
  · rw [hmem]
    refine memGet_memSetCells_outside (fun c hc => ?_) s.mem
    obtain ⟨x, hx, rfl⟩ := List.mem_map.mp hc
    exact ha x hx

theorem vault_combines {k : Contrib} (he : m.stamp.epoch = (s.core n).epoch) (hc : m.comb = [k.item]) (hp : k.pads = [])
    (ht : k.etype ∈ [1, 2, 3, 0x12]) (hop : 1 ≤ k.op) (h4 : localOf k.addr % 4 = 0) (hb : localOf k.addr / 256 = m.lo / 256)
    (hg : s.goneAt (vaultBase n + localOf k.addr % 0x800000) = false) :
    let a := vaultBase n + localOf k.addr % 0x800000
    let w := etBits k.etype / 8
    let r := combineBits k.etype k.stype k.op (leNat (s.rdN a w)) k.bits
    completes (.vaultBurst n busy 0 reads) s fun t =>
      t.rdN a w = toLE w r.1 ∧ (∀ x, x < a ∨ a + w ≤ x → memGet t.mem x = memGet s.mem x) ∧
      (s.core n).tookTurn turn (t.core n) ∧
      t.scatterSat = s.scatterSat + (if r.2 then 1 else 0) := by
  intro a w r
  have hw : w ≤ 4 := etBits_sum_le ht
  have ha4 : a % 4 = 0 := by
    show (vaultBase n + localOf k.addr % 0x800000) % 4 = 0
    unfold vaultBase
    omega
  have hlow : a + 4 ≤ 0x8000000000 := by
    have := n.isLt
    show vaultBase n + localOf k.addr % 0x800000 + 4 ≤ _
    unfold vaultBase
    omega
  have hgone : ∀ i, i < w → s.goneAt (a + i) = false := fun i hi => (s.goneAt_element ha4 (Nat.lt_of_lt_of_le hi hw)).trans hg
  let u : State := s.setCore n { (s.core n).popMsg turn with rot := turn }
  obtain ⟨ch, l, hcells⟩ := u.combCells_single (n := n) hp hop hc hw h4 hb
  have hr : k.result (fun x => (u.rd8 (vaultBase n + x % 0x800000), u.isChaff (vaultBase n + x % 0x800000))) = r := by
    have hold : k.oldBits (fun x => (u.rd8 (vaultBase n + x % 0x800000), u.isChaff (vaultBase n + x % 0x800000))) = leNat (s.rdN a w) := by
      rw [State.rdN_eq_map w hgone]
      refine congrArg leNat (List.map_congr_left fun i hi => ?_)
      have hi : i < w := List.mem_range.mp hi
      have hat : vaultBase n + (localOf k.addr + i) % 0x800000 = a + i := by
        have : i < 4 := Nat.lt_of_lt_of_le hi hw
        show _ = vaultBase n + localOf k.addr % 0x800000 + i
        omega
      dsimp only
      have hrd : s.rd8 (a + i) = memGet s.mem (a + i) := by
        rw [State.rd8, hgone i hi]
        rfl
      rw [hat]
      exact (congrFun (State.rd8_congr (s := s) (t := u) rfl rfl) (a + i)).trans hrd
    rw [Contrib.result, hold]
  rw [hr] at hcells
  obtain ⟨hcore, hmem, hret, _, hsat⟩ := State.serveMsg_combines he (Core.popMsg turn) turn (by simp [hc]) hcells fun c hc => by
    obtain ⟨i, hi, e⟩ := mem_cellsAt hc
    rw [toLE_length] at hi
    rw [e]
    have : i < 4 := Nat.lt_of_lt_of_le hi hw
    exact ⟨by omega, hgone i hi⟩
  rw [memSetCells_cellsAt] at hmem
  refine ⟨_, exec_vaultBurst_write h, ?_, fun x hx => ?_, Core.tookTurn_popMsg hcore, hsat⟩
  · have hgone' : ∀ i, i < w → (s.serveMsg n m (Core.popMsg turn) turn).goneAt (a + i) = false := fun i hi => by
      rw [State.goneAt, hret]
      exact hgone i hi
    have hmap := map_range_memSetN (toLE w r.1) s.mem a
    rw [toLE_length] at hmap
    rw [State.rdN_eq_map w hgone', hmem, hmap]
  · rw [hmem]
    exact memGet_memSetN_outside s.mem a x (by rwa [toLE_length])

theorem vault_bounces (he : m.stamp.epoch ≠ (s.core n).epoch) (hl : s.mdq.length < 7168) : completes (.vaultBurst n busy 0 reads) s fun t =>
      t.mem = s.mem ∧ t.mdq = s.mdq ++ [{ msg := m, since := s.time.elapsed, seen := none }] ∧
      (s.core n).tookTurn turn (t.core n) ∧
      t.fget F.mdqBounced_BOUNCED 0 = (s.fget F.mdqBounced_BOUNCED 0 + 1) % 2 ^ 64 := by
  let u : State := s.setCore n { (s.core n).popMsg turn with rot := turn }
  let v : State := { (u.fadd F.mdqBounced_BOUNCED 0 1).coreCount n 24 1 with mdq := s.mdq ++ [{ msg := m, since := s.time.elapsed, seen := none }] }
  have hserve : s.serveMsg n m (Core.popMsg turn) turn = v.mdqCount := by
    unfold State.serveMsg
    dsimp only
    rw [if_neg he, if_pos hl]
    rfl
  refine ⟨v.mdqCount, (exec_vaultBurst_write h).trans (congrArg Outcome.next hserve), rfl, rfl, Core.tookTurn_popMsg (s.core_setCore_same _ _), ?_⟩
  rw [State.mdqCount, State.fget_fset_of_id _ (by decide)]
  show ((u.fadd F.mdqBounced_BOUNCED 0 1).fset F.coreCtr_COUNT _ _).fget F.mdqBounced_BOUNCED 0 = _
  rw [State.fget_fset_of_id _ (by decide)]
  exact u.fget_fset_same F.mdqBounced_BOUNCED 0 _

end

/-- While huller records are pending the rotation takes no turn. -/
theorem vault_records (s : State) (n : CoreId) (busy : BitVec 32) (reads : List VaultRead) {records : Nat} (h : 0 < records) :
    completes (.vaultBurst n busy records reads) s fun t => t = s := by
  refine ⟨s, ?_, rfl⟩
  show execVaultBurst n busy records reads s = _
  unfold execVaultBurst
  dsimp only
  rw [if_pos h]

/-! ### The misdelivery queue (R271, R273) -/

/-- The queue looks for a core while HOLD_US runs and an epoch has changed since it last looked. -/
theorem misdelivery_open {s : State} {b : Bounced} (hhold : s.time.elapsed < b.since + s.holdNs)
    (hseen : b.seen ≠ some (s.epochsOf b.msg.stamp.part)) :
    (decide (b.since + s.holdNs ≤ s.time.elapsed) || decide (b.seen = some (s.epochsOf b.msg.stamp.part))) = false := by
  simp [hhold, hseen]

section
variable {s : State} {idx : Nat} {b : Bounced} (hb : s.mdq[idx]? = some b)
include hb

section
variable (hhold : s.time.elapsed < b.since + s.holdNs) (hseen : b.seen ≠ some (s.epochsOf b.msg.stamp.part))
include hhold hseen

theorem misdelivery_resends {k : Nat} (hk : s.roleHolder b.msg.stamp = some k) : completes (.misdeliveryResend idx) s fun t =>
    t.mdq = s.mdq.eraseIdx idx ∧ t.mem = s.mem ∧ t.fget F.mdqResent_RESENT 0 = (s.fget F.mdqResent_RESENT 0 + 1) % 2 ^ 64 ∧
    (t.core k).vqGran = (s.core k).vqGran ++ [{ b.msg with core := k, stamp := { b.msg.stamp with epoch := (s.core k).epoch } }] := by
  let msg : Msg := { b.msg with core := k, stamp := { b.msg.stamp with epoch := (s.core k).epoch } }
  let u : State := (s.mdqTake idx).fadd F.mdqResent_RESENT 0 1
  have he : exec (.misdeliveryResend idx) s = .next (u.sendMsg msg false) := by
    show execMisdeliveryResend idx s = _
    simp only [execMisdeliveryResend, hb, hk, misdelivery_open hhold hseen, Bool.false_eq_true, if_false]
    rfl
  have hcount : u.fget F.mdqResent_RESENT 0 = (s.fget F.mdqResent_RESENT 0 + 1) % 2 ^ 64 := by
    have htake : (s.mdqTake idx).fget F.mdqResent_RESENT 0 = s.fget F.mdqResent_RESENT 0 := State.fget_fset_of_id _ (by decide) 0 0 _
    exact ((s.mdqTake idx).fget_fset_same F.mdqResent_RESENT 0 _).trans (by rw [htake]; rfl)
  have hcore : (u.sendMsg msg false).core k = { u.core k with vqGran := (u.core k).vqGran ++ [msg] } := u.core_onCore_same k _
  exact ⟨_, he, rfl, rfl, hcount, by rw [hcore]; rfl⟩

theorem misdelivery_looks (hk : s.roleHolder b.msg.stamp = none) : completes (.misdeliveryResend idx) s fun t =>
    t = { s with mdq := s.mdq.set idx { b with seen := some (s.epochsOf b.msg.stamp.part) } } := by
  refine ⟨_, ?_, rfl⟩
  show execMisdeliveryResend idx s = _
  simp only [execMisdeliveryResend, hb, hk, misdelivery_open hhold hseen, Bool.false_eq_true, if_false]

end

theorem misdelivery_expires (hhold : b.since + s.holdNs ≤ s.time.elapsed) (hc : b.msg.comb = []) (hr : b.msg.ring.isSome = true) :
    completes (.misdeliveryHoldExpire idx) s fun t =>
      t.mdq = s.mdq.eraseIdx idx ∧ t.mem = s.mem ∧ t.fget F.mdqLogged_LOGGED 0 = (s.fget F.mdqLogged_LOGGED 0 + 1) % 2 ^ 64 ∧
      ∃ f : FaultRec, t.faultQ = s.faultQ ++ [f] ∧ f.cause = 0xA ∧ f.step = b.msg.step ∧ f.tag = b.msg.stamp.epoch := by
  obtain ⟨ring, hring⟩ := Option.isSome_iff_exists.mp hr
  let u : State := (s.mdqTake idx).fadd F.mdqLogged_LOGGED 0 1
  let v : State := u.msgDone b.msg
  let f : FaultRec := { (FaultRec.blank 0xA).atCore b.msg.core with
    part := b.msg.stamp.part, tag := b.msg.stamp.epoch, row := b.msg.stamp.role, col := b.msg.stamp.rank,
    addr := v.glob (vaultBase b.msg.core + b.msg.off), ring := ring, step := b.msg.step }
  have hsteps : b.msg.steps = [(some ring, b.msg.step)] := by
    rw [Msg.steps, hc, hring]
    rfl
  have he : exec (.misdeliveryHoldExpire idx) s = .next (v.confirm f) := by
    show execMisdeliveryHoldExpire idx s = _
    simp only [execMisdeliveryHoldExpire, hb, if_neg (Nat.not_lt.mpr hhold), hsteps]
    rfl
  have hcount : u.fget F.mdqLogged_LOGGED 0 = (s.fget F.mdqLogged_LOGGED 0 + 1) % 2 ^ 64 := by
    have htake : (s.mdqTake idx).fget F.mdqLogged_LOGGED 0 = s.fget F.mdqLogged_LOGGED 0 := State.fget_fset_of_id _ (by decide) 0 0 _
    exact ((s.mdqTake idx).fget_fset_same F.mdqLogged_LOGGED 0 _).trans (by rw [htake]; rfl)
  obtain ⟨x, y, hv⟩ := u.msgDone_frame b.msg
  have hv : v = { u with moves := x, link := y } := hv
  have hmdq : v.mdq = s.mdq.eraseIdx idx := by rw [hv]; rfl
  have hmem : v.mem = s.mem := by rw [hv]; rfl
  have hlogged : v.fget F.mdqLogged_LOGGED 0 = (s.fget F.mdqLogged_LOGGED 0 + 1) % 2 ^ 64 := by rw [hv]; exact hcount
  have hqueue : v.faultQ = s.faultQ := by rw [hv]; rfl
  exact ⟨v.confirm f, he, hmdq, hmem, hlogged, f, congrArg (· ++ [f]) hqueue, rfl, rfl, rfl⟩

end

/-- Settles O21: the turn, the three kinds of burst it serves, and the two commands of the misdelivery queue, one lemma each. -/
theorem vaultInterface : Obligations.VaultInterface := by
  intro s n busy reads turn idx m b c held
  refine ⟨fun x hx => Core.turn_first hx, fun records hr => vault_records s n busy reads hr, fun x hx => vault_reads hx, fun h _ => ?_, fun hb => ?_⟩
  · refine ⟨fun he hc hn hd => vault_writes h he hc hn hd, fun k he hc _ hp ht hop h4 hlo => ?_, fun he hl => vault_bounces h he hl⟩
    exact fun hg => vault_combines h he hc hp ht hop h4 hlo hg
  · refine ⟨fun k hk hhold hseen => misdelivery_resends hb hhold hseen hk, fun hk hhold hseen => misdelivery_looks hb hhold hseen hk, ?_⟩
    exact fun hhold hc hr => misdelivery_expires hb hhold hc hr

end Sys2Proof.Machine

namespace Sys2Proof.Machine

/-! ## Packed integers and BT2 weights (R99, R104) -/

/-- A number within the range of `w` bits is what its low `w` bits spell in two's complement. -/
theorem signed_emod {w : Nat} (hw : 0 < w) {v : Int} (hl : -(2 ^ (w - 1) : Int) ≤ v) (hu : v < 2 ^ (w - 1)) :
    signed (v % 2 ^ w).toNat w = v := by
  obtain ⟨k, rfl⟩ := Nat.exists_eq_succ_of_ne_zero hw.ne'
  simp only [Nat.succ_eq_add_one, Nat.add_sub_cancel] at hl hu ⊢
  have hm : (2 : Int) ^ (k + 1) = 2 * 2 ^ k := pow_succ' 2 k
  have hhalf : ((2 ^ k : Nat) : Int) = 2 ^ k := by norm_cast
  have hx : (((v % 2 ^ (k + 1)).toNat % 2 ^ (k + 1) : Nat) : Int) = if 0 ≤ v then v else v + 2 ^ (k + 1) := by
    rw [Int.natCast_mod, Int.toNat_of_nonneg (Int.emod_nonneg v (by positivity)), Nat.cast_pow, Nat.cast_ofNat, Int.emod_emod]
    split
    · exact Int.emod_eq_of_lt ‹_› (by omega)
    · rw [← Int.add_emod_right]
      exact Int.emod_eq_of_lt (by omega) (by omega)
  unfold signed
  generalize (v % 2 ^ (k + 1)).toNat % 2 ^ (k + 1) = x at hx
  simp only [Nat.add_sub_cancel]
  split_ifs at hx ⊢ <;> omega

/-- `w` bits in two's complement spell a number within their range. -/
theorem signed_range (raw : Nat) {w : Nat} (hw : 0 < w) : -(2 ^ (w - 1) : Int) ≤ signed raw w ∧ signed raw w < 2 ^ (w - 1) := by
  obtain ⟨k, rfl⟩ := Nat.exists_eq_succ_of_ne_zero hw.ne'
  have hx : raw % 2 ^ (k + 1) < 2 * 2 ^ k := pow_succ' 2 k ▸ Nat.mod_lt raw (by positivity)
  have hm : (2 : Int) ^ (k + 1) = 2 * 2 ^ k := pow_succ' 2 k
  have hhalf : ((2 ^ k : Nat) : Int) = 2 ^ k := by norm_cast
  simp only [signed, Nat.succ_eq_add_one, Nat.add_sub_cancel]
  split <;> omega

/-- An integer element without scale stands for its bits in two's complement (Table 4-1, R99). -/
theorem elemValue_int {t w : Nat} (h : (t, w) ∈ ([(0x10, 8), (0x11, 4), (0x12, 32)] : List (Nat × Nat))) (raw : Nat) :
    0 < w ∧ elemValue t raw = Num.ofInt (signed raw w) 0 := by
  simp only [List.mem_cons, Prod.mk.injEq, List.not_mem_nil, or_false] at h
  obtain ⟨rfl, rfl⟩ | ⟨rfl, rfl⟩ | ⟨rfl, rfl⟩ := h <;> exact ⟨by decide, rfl⟩

/-- Two INT4 elements share a byte, the even one in its low half (R99). -/
theorem elemRaw_int4 (rd : Nat → Byte) (p : Nat) : elemRaw 0x11 rd p = (rd (p / 2)).toNat / 2 ^ (4 * (p % 2)) % 16 := rfl

/-- The digit in base 3 of a BT2 weight (R104). -/
abbrev bt2Digit (t : Int) : Nat := if t = 0 then 0 else if t = 1 then 1 else 2

/-- The BT2 weight of a digit in base 3 (R104). -/
abbrev bt2Weight (x : Nat) : Int := if x = 1 then 1 else if x = 2 then -1 else 0

theorem bt2Digit_lt (t : Int) : bt2Digit t < 3 := by
  unfold bt2Digit
  split_ifs <;> decide

theorem bt2Weight_bt2Digit {t : Int} (h : t ∈ ([0, 1, -1] : List Int)) : bt2Weight (bt2Digit t) = t := by
  revert t
  decide

theorem bt2Valid_inner (b : Byte) : bt2Valid b false = decide (b.toNat ≤ 0xF2) := by
  simp [bt2Valid]

theorem bt2Trit_inner {b : Nat} (h : b ≤ 0xF2) (k : Nat) : bt2Trit (BitVec.ofNat 8 b) false k = bt2Weight (b / 3 ^ k % 3) := by
  have hb : (BitVec.ofNat 8 b).toNat = b := Nat.mod_eq_of_lt (by omega)
  rw [bt2Trit, if_pos (by simpa [bt2Valid_inner, hb] using h), hb]

/-- The weights of the byte of five digits in base 3, the first the least significant, are those of the digits. -/
theorem bt2Trit_digits {d0 d1 d2 d3 d4 : Nat} (h0 : d0 < 3) (h1 : d1 < 3) (h2 : d2 < 3) (h3 : d3 < 3) (h4 : d4 < 3) :
    let b := d0 + 3 * d1 + 9 * d2 + 27 * d3 + 81 * d4
    b ≤ 0xF2 ∧ (List.range 5).map (bt2Trit (BitVec.ofNat 8 b) false) = [d0, d1, d2, d3, d4].map bt2Weight := by
  intro b
  have hb : b ≤ 0xF2 := by omega
  have e0 : b / 3 ^ 0 % 3 = d0 := by omega
  have e1 : b / 3 ^ 1 % 3 = d1 := by omega
  have e2 : b / 3 ^ 2 % 3 = d2 := by omega
  have e3 : b / 3 ^ 3 % 3 = d3 := by omega
  have e4 : b / 3 ^ 4 % 3 = d4 := by omega
  refine ⟨hb, ?_⟩
  rw [funext (bt2Trit_inner hb), show List.range 5 = [0, 1, 2, 3, 4] from rfl]
  simp only [List.map_cons, List.map_nil, e0, e1, e2, e3, e4]

/-- Settles O60: integers by `signed_emod` and `signed_range`, INT4 by `elemRaw_int4`, BT2 by `bt2Trit_digits`. -/
theorem packedIntegersAndWeights : Obligations.PackedIntegersAndWeights := by
  refine ⟨?_, fun rd i => ⟨?_, ?_⟩, ?_, bt2Valid_inner⟩
  · rintro ⟨t, w⟩ hx
    refine ⟨fun v hl hu => ?_, fun raw _ => ?_⟩
    · obtain ⟨hw, he⟩ := elemValue_int hx (v % 2 ^ w).toNat
      rw [he, signed_emod hw hl hu]
    · obtain ⟨hw, he⟩ := elemValue_int hx raw
      obtain ⟨hl, hu⟩ := signed_range raw hw
      exact ⟨signed raw w, hl, hu, he⟩
  · rw [elemRaw_int4, Nat.mul_div_cancel_left i two_pos, Nat.mul_mod_right]
    simp
  · have hb := (rd i).isLt
    rw [elemRaw_int4, show (2 * i + 1) / 2 = i by omega, show (2 * i + 1) % 2 = 1 by omega]
    omega
  · intro t0 h0 t1 h1 t2 h2 t3 h3 t4 h4
    obtain ⟨hb, hw⟩ := bt2Trit_digits (bt2Digit_lt t0) (bt2Digit_lt t1) (bt2Digit_lt t2) (bt2Digit_lt t3) (bt2Digit_lt t4)
    refine ⟨hb, hw.trans ?_⟩
    simp only [List.map_cons, List.map_nil, bt2Weight_bt2Digit h0, bt2Weight_bt2Digit h1, bt2Weight_bt2Digit h2, bt2Weight_bt2Digit h3,
      bt2Weight_bt2Digit h4]

end Sys2Proof.Machine

namespace Sys2Proof.Machine

/-! ## FP32 elements in storage (Table 6-8) -/

/-- Four bytes spell an FP32 element. -/
theorem elemRaw_fp32 (rd : Nat → Byte) (i : Nat) : elemRaw 1 rd i = leNat ((List.range 4).map fun o => rd (4 * i + o)) := by
  have hlt : leNat ((List.range 4).map fun o => rd (i * 4 + o)) < 2 ^ 32 := by
    have h := leNat_lt ((List.range 4).map fun o => rd (i * 4 + o))
    simpa using h
  rw [Nat.mul_comm 4 i]
  show leNat ((List.range 4).map fun o => rd (i * 4 + o)) / 2 ^ 0 % 2 ^ 32 = _
  rw [pow_zero, Nat.div_one, Nat.mod_eq_of_lt hlt]

theorem elemRaw_fp32_lt (rd : Nat → Byte) (i : Nat) : elemRaw 1 rd i < 2 ^ 32 := Nat.mod_lt _ (by norm_num)

theorem toLE_add (k m v : Nat) : toLE (k + m) v = toLE k v ++ toLE m (v / 256 ^ k) := by
  induction k generalizing v with
  | zero => simp [toLE]
  | succ k ih => rw [Nat.succ_add, toLE, toLE, ih, Nat.div_div_eq_div_mul, List.cons_append, pow_succ']

/-- Little-endian bytes beyond the width asked for do not matter. -/
theorem toLE_mod_add (k x a : Nat) : toLE k (x % 256 ^ k + 256 ^ k * a) = toLE k x := by
  induction k generalizing x a with
  | zero => rfl
  | succ k ih =>
    have hp : 256 ^ (k + 1) = 256 * 256 ^ k := pow_succ' 256 k
    have hbyte : BitVec.ofNat 8 (x % 256 ^ (k + 1) + 256 ^ (k + 1) * a) = BitVec.ofNat 8 x := by
      apply BitVec.eq_of_toNat_eq
      rw [BitVec.toNat_ofNat, BitVec.toNat_ofNat, hp, Nat.mul_assoc, Nat.add_mul_mod_self_left, Nat.mod_mul_right_mod]
    have hrest : (x % 256 ^ (k + 1) + 256 ^ (k + 1) * a) / 256 = x / 256 % 256 ^ k + 256 ^ k * a := by
      rw [hp, Nat.mul_assoc, Nat.add_mul_div_left _ _ (by norm_num), Nat.mod_mul_right_div_self]
    rw [toLE, toLE, hbyte, hrest, ih]

/-- FP32 encodings are packed as words of four bytes. -/
theorem packElems_fp32 (ws : List Nat) : packElems 1 ws = ws.flatMap (toLE 4) := by
  have hbits : 2 ^ etBits 1 = 256 ^ 4 := rfl
  have hlen : (ws.length * etBits 1 + 7) / 8 = 4 * ws.length := by
    show (ws.length * 32 + 7) / 8 = _
    omega
  rw [packElems, hbits, hlen]
  clear hlen
  induction ws with
  | nil => rfl
  | cons w ws ih =>
    rw [List.length_cons, Nat.mul_succ, Nat.add_comm, toLE_add, List.foldr_cons, List.flatMap_cons, toLE_mod_add,
      Nat.add_mul_div_left _ _ (by norm_num), Nat.div_eq_of_lt (Nat.mod_lt _ (by norm_num)), Nat.zero_add, ih]

theorem strike_nil (ws : List Nat) : strike [] ws = ws := by
  simp only [strike, List.foldl_nil]
  exact List.map_fst_zip (by simp)

/-! ## What the vector unit computes (R119 to R123) -/

/-- FP32 results lie in scratch as words of four bytes. -/
theorem VecFrame.dBytes_fp32 {v : VecFrame} (hop : v.op ≠ 5) (hD : v.fD = 1) (rd : Nat → Byte) (ws : List Nat) :
    v.dBytes rd ws = ws.flatMap (toLE 4) := by
  rw [VecFrame.dBytes, if_neg hop, hD]
  exact packElems_fp32 ws

/-- Consecutive bytes of a list, one by one. -/
theorem map_getD_range {l : List Byte} {x k : Nat} (h : x + k ≤ l.length) :
    ((List.range k).map fun o => l.getD (x + o) 0) = (l.drop x).take k := by
  apply List.ext_getElem
  · simp
    omega
  · intro o ho _
    have hx : x + o < l.length := by simp at ho; omega
    simp [List.getElem?_eq_getElem hx]

/-- An FP32 element of D reads as the word written there, where no scales are written. -/
theorem wroteD.elem_fp32 {s t : State} {n : Nat} {v : VecFrame} {rest : List Cmd} {ws : List Nat}
    (h : wroteD s t n v rest (ws.flatMap (toLE 4)) []) {j : Nat} (hj : j < ws.length) :
    elemRaw 1 (fun o => (t.core n).sget n (v.dA + o)) j = ws.getD j 0 % 2 ^ 32 := by
  obtain ⟨_, _, hget⟩ := h
  have hlen : (ws.flatMap (toLE 4)).length = 4 * ws.length := flatMap_toLE_length 4 ws
  have hbyte : ∀ o ∈ List.range 4, (t.core n).sget n (v.dA + (4 * j + o)) = (ws.flatMap (toLE 4)).getD (4 * j + o) 0 := by
    intro o ho
    have ho4 : o < 4 := List.mem_range.mp ho
    rw [hget, if_neg (by simp), if_pos (by omega), Nat.add_sub_cancel_left]
  rw [elemRaw_fp32, List.map_congr_left hbyte, map_getD_range (by omega), take_drop_flatMap_toLE 4 ws j hj, leNat_toLE]
  norm_num

/-- What the command computes from the operands that stand in state `s`. -/
abbrev vecOut (s : State) (n : Nat) (d : Cmd) (f : List Byte) : VecOut :=
  (vecParse d f).compute d.step (vecA s n (vecParse d f)) ((s.core n).sget n)

section
variable {s : State} {n op sub : Nat} {d : Cmd} {rest : List Cmd} {f : List Byte}

theorem vecReady.op_eq (h : vecReady s n op sub d rest f) : (vecParse d f).op = op := by
  obtain ⟨⟨_, _, hop, _⟩, _⟩ := h
  exact hop

theorem vecReady.sub_eq (h : vecReady s n op sub d rest f) : (vecParse d f).sub = sub := by
  obtain ⟨_, hsub, _⟩ := h
  exact hsub

theorem fmtOk_of_vecCheck {v : VecFrame} (h : vecCheck n v = 0) : v.fmtOk = true := by
  by_contra hf
  have hbad : v.fmtOk = false := Bool.eq_false_iff.mpr hf
  simp [vecCheck, hbad] at h

theorem vecReady.fmtOk (h : vecReady s n op sub d rest f) : (vecParse d f).fmtOk = true := by
  obtain ⟨_, _, _, hc, _⟩ := h
  exact fmtOk_of_vecCheck hc

/-- DOT and STAT give FP32 (R119, R122). -/
theorem vecReady.fD_eq (h : vecReady s n op sub d rest f) (hop : op = 0 ∨ op = 4) : (vecParse d f).fD = 1 := by
  have hf := h.fmtOk
  rw [VecFrame.fmtOk, h.op_eq] at hf
  obtain rfl | rfl := hop <;> simp at hf
  · exact hf.2
  · exact hf.2

/-- A vector command to FP32 without transients: element `j` of D reads as the result `r` at place `j`. -/
theorem vec_elem_fp32 (h : vecReady s n op sub d rest f) (hop : op ≤ 4) (hD : (vecParse d f).fD = 1) (hds : (vecOut s n d f).ds = [])
    {j r : Nat} (hr : (vecOut s n d f).d[j]? = some r) {c : Instr} (hc : exec c s = .next (s.vec n op sub [])) :
    completes c s fun t => BitVec.ofNat 32 (elemRaw 1 (fun o => (t.core n).sget n ((vecParse d f).dA + o)) j) = BitVec.ofNat 32 r := by
  have hw := State.vec_wroteD h (by omega) []
  have hop5 : (vecParse d f).op ≠ 5 := by rw [h.op_eq]; omega
  dsimp only at hw
  rw [strike_nil, VecFrame.dBytes_fp32 hop5 hD, hds] at hw
  obtain ⟨hj, hget⟩ := List.getElem?_eq_some_iff.mp hr
  refine ⟨_, hc, BitVec.eq_of_toNat_eq ?_⟩
  rw [hw.elem_fp32 hj, List.getD_eq_getElem _ _ hj, hget, BitVec.toNat_ofNat, BitVec.toNat_ofNat, Nat.mod_mod]

/-! ### Elements of D, operation by operation -/

section
variable (v : VecFrame) (rdA rd : Nat → Byte) {i : Nat} (hi : i < v.count)
include hi

theorem VecFrame.ew_elem : (v.ew rdA rd).d[i]? = some (ewOp v.fA v.sub v.pred (elemRaw v.fA (fun o => rdA (v.aA + o)) i)
    (if v.bcast then (convElem v.fA .rne false (f32 v.scalar)).bits else elemRaw v.fA (fun o => rd (v.bA + o)) i)
    (elemRaw v.fA (fun o => rd (v.dA + o)) i)) := by
  simp [VecFrame.ew, hi]

theorem VecFrame.fn_elem : (v.fn rdA).d[i]? =
    some (fpFn v.sub (BitVec.ofNat 32 (elemRaw 1 (fun o => rdA (v.aA + o)) i))).toNat := by
  simp [VecFrame.fn, hi]

/-- Row `r` of a STAT. -/
abbrev VecFrame.row (v : VecFrame) (rdA : Nat → Byte) (r : Nat) : List Num :=
  (List.range v.k).map fun k => rowElem v.fA rdA (v.aA + r * rowBytes v.fA v.k) (v.asA + r * ((v.k + 31) / 32)) k

theorem VecFrame.stat_elem : (v.stat rdA).d[i]? = some (if v.sub = 2 then round32 (rowMax (v.row rdA i))
    else (sumGroups 64 (v.k + 1) none ((v.row rdA i).map fun x => (if v.sub = 0 then x else x.mul x, x.isFin))).1) := by
  by_cases h2 : v.sub = 2 <;> simp [VecFrame.stat, hi, h2]

end

/-- Of results in rows of `m`, the one at place `x * m + i` is the `i`-th of row `x`. -/
theorem getElem?_flatMap_range {α : Type} (g : Nat → Nat → α) {m i : Nat} (hi : i < m) {k x : Nat} (hx : x < k) :
    ((List.range k).flatMap fun x => (List.range m).map (g x))[x * m + i]? = some (g x i) := by
  induction k with
  | zero => exact absurd hx (Nat.not_lt_zero x)
  | succ k ih =>
    have hlen : ((List.range k).flatMap fun x => (List.range m).map (g x)).length = k * m := by simp
    rw [List.range_succ, List.flatMap_append, List.flatMap_singleton]
    obtain hlt | rfl := Nat.lt_succ_iff_lt_or_eq.mp hx
    · have hrow : (x + 1) * m ≤ k * m := Nat.mul_le_mul_right m hlt
      rw [List.getElem?_append_left (by rw [hlen]; linarith), ih hlt]
    · rw [List.getElem?_append_right (by omega), hlen, Nat.add_sub_cancel_left]
      simp [hi]

section
variable (v : VecFrame) (rdA rd : Nat → Byte) {i : Nat} (hi : i < v.count)
include hi

/-- The product of weight (`r`, `k`) with element `k` of activation vector `x`, and whether both are finite. -/
abbrev VecFrame.dotTerm (v : VecFrame) (rdA rd : Nat → Byte) (x r k : Nat) : Num × Bool :=
  (elProd v.fA v.fB (v.weight rdA r k) (v.actv rd x k), (v.weight rdA r k).isFin && (v.actv rd x k).isFin)

theorem VecFrame.dot_elem {x : Nat} (hx : x < v.bCount) : (v.dot rdA rd).d[x * v.count + i]? =
    some (sumGroups v.lane (v.k + 1) none ((List.range v.k).map (v.dotTerm rdA rd x i))).1 := by
  have hterms : ∀ x r, (((List.range v.k).zip ((List.range v.k).map (v.actv rd x))).map fun (k, y) =>
      (elProd v.fA v.fB (v.weight rdA r k) y, (v.weight rdA r k).isFin && y.isFin)) = (List.range v.k).map (v.dotTerm rdA rd x r) := by
    intro x r
    rw [← List.map_prod_left_eq_zip, List.map_map]
    rfl
  simp only [VecFrame.dot, hterms, List.getElem?_map, getElem?_flatMap_range _ hi hx, Option.map_some]

theorem VecFrame.cvt_elem_fp32 (hD : v.fD = 1) (hA : v.fA ≠ 0x12) (step : Nat) : (v.cvt step rdA rd).d[i]? =
    some (convElem 1 ((rmodeOf v.rmode v.seed step i).getD .rne) v.sat (rowElem v.fA rdA v.aA v.asA i)).bits := by
  simp [VecFrame.cvt, VecFrame.cvtSrc, hD, hA, hi, etMx]

end

theorem VecFrame.cvt_ds_fp32 (v : VecFrame) (rdA rd : Nat → Byte) (hD : v.fD = 1) (step : Nat) : (v.cvt step rdA rd).ds = [] := by
  simp [VecFrame.cvt, hD, etMx]

/-! ### Each operation, run -/

/-- CMP answers the encodings of 1 and 0 (R120). -/
theorem ewOp_cmp_fp32 (pred a b d : Nat) : ewOp 1 6 pred a b d = if numCmp pred (f32 a) (f32 b) then 0x3F800000 else 0 := by
  show roundArith 1 (if numCmp pred (f32 a) (f32 b) then .fin false 1 0 else .fin false 0 0) = _
  split <;> decide

section
variable {c : Instr} {i : Nat} (hi : i < (vecParse d f).count)
include hi

/-- EW on FP32 elements writes `r` where `ewOp` gives it (R120). -/
theorem ew_elem_fp32 (h : vecReady s n 1 sub d rest f) (hA : (vecParse d f).fA = 1) (hD : (vecParse d f).fD = 1)
    (hc : exec c s = .next (s.vec n 1 sub [])) {r : Nat} :
    let v := vecParse d f
    let a := BitVec.ofNat 32 (elemRaw 1 (fun o => vecA s n v (v.aA + o)) i)
    let b := if v.bcast then (convElem 1 .rne false (f32 v.scalar)).bits else elemRaw 1 (fun o => (s.core n).sget n (v.bA + o)) i
    let old := elemRaw 1 (fun o => (s.core n).sget n (v.dA + o)) i
    ewOp 1 sub v.pred a.toNat b old = r →
      completes c s fun t => BitVec.ofNat 32 (elemRaw 1 (fun o => (t.core n).sget n (v.dA + o)) i) = BitVec.ofNat 32 r := by
  intro v a b old hr
  have ha : a.toNat = elemRaw 1 (fun o => vecA s n v (v.aA + o)) i := Nat.mod_eq_of_lt (elemRaw_fp32_lt _ _)
  have ho : vecOut s n d f = v.ew (vecA s n v) ((s.core n).sget n) := by simp [vecOut, VecFrame.compute, h.op_eq, v]
  refine vec_elem_fp32 h (by decide) hD (by rw [ho]; rfl) ?_ hc
  rw [ho, VecFrame.ew_elem _ _ _ hi, ← hr, ha, hA, h.sub_eq]

theorem fn_elem_fp32 (h : vecReady s n 2 sub d rest f) (hD : (vecParse d f).fD = 1) (hc : exec c s = .next (s.vec n 2 sub [])) :
    let v := vecParse d f
    completes c s fun t => BitVec.ofNat 32 (elemRaw 1 (fun o => (t.core n).sget n (v.dA + o)) i) =
      BitVec.ofNat 32 (fpFn sub (BitVec.ofNat 32 (elemRaw 1 (fun o => vecA s n v (v.aA + o)) i))).toNat := by
  intro v
  have ho : vecOut s n d f = v.fn (vecA s n v) := by simp [vecOut, VecFrame.compute, h.op_eq, v]
  refine vec_elem_fp32 h (by decide) hD (by rw [ho]; rfl) ?_ hc
  rw [ho, VecFrame.fn_elem _ _ hi, h.sub_eq]

theorem stat_elem_fp32 (h : vecReady s n 4 sub d rest f) (hc : exec c s = .next (s.vec n 4 sub [])) :
    let v := vecParse d f
    let row := v.row (vecA s n v) i
    completes c s fun t => BitVec.ofNat 32 (elemRaw 1 (fun o => (t.core n).sget n (v.dA + o)) i) =
      BitVec.ofNat 32 (if sub = 2 then round32 (rowMax row)
        else (sumGroups 64 (v.k + 1) none (row.map fun x => (if sub = 0 then x else x.mul x, x.isFin))).1) := by
  intro v row
  have ho : vecOut s n d f = v.stat (vecA s n v) := by simp [vecOut, VecFrame.compute, h.op_eq, v]
  refine vec_elem_fp32 h (by decide) (h.fD_eq (.inr rfl)) (by rw [ho]; rfl) ?_ hc
  rw [ho, VecFrame.stat_elem _ _ hi, h.sub_eq]

theorem dot_elem_fp32 (h : vecReady s n 0 sub d rest f) (hc : exec c s = .next (s.vec n 0 sub [])) {x : Nat}
    (hx : x < (vecParse d f).bCount) :
    let v := vecParse d f
    completes c s fun t => BitVec.ofNat 32 (elemRaw 1 (fun o => (t.core n).sget n (v.dA + o)) (x * v.count + i)) =
      BitVec.ofNat 32 (sumGroups v.lane (v.k + 1) none
        ((List.range v.k).map (v.dotTerm (vecA s n v) ((s.core n).sget n) x i))).1 := by
  intro v
  have ho : vecOut s n d f = v.dot (vecA s n v) ((s.core n).sget n) := by simp [vecOut, VecFrame.compute, h.op_eq, v]
  refine vec_elem_fp32 h (by decide) (h.fD_eq (.inl rfl)) (by rw [ho]; rfl) ?_ hc
  rw [ho, VecFrame.dot_elem _ _ _ hi hx]

theorem cvt_elem_fp32 (h : vecReady s n 3 sub d rest f) (hA : (vecParse d f).fA ≠ 0x12) (hD : (vecParse d f).fD = 1)
    (hc : exec c s = .next (s.vec n 3 sub [])) :
    let v := vecParse d f
    completes c s fun t => BitVec.ofNat 32 (elemRaw 1 (fun o => (t.core n).sget n (v.dA + o)) i) = BitVec.ofNat 32
      (convElem 1 ((rmodeOf v.rmode v.seed d.step i).getD .rne) v.sat (rowElem v.fA (vecA s n v) v.aA v.asA i)).bits := by
  intro v
  have ho : vecOut s n d f = v.cvt d.step (vecA s n v) ((s.core n).sget n) := by simp [vecOut, VecFrame.compute, h.op_eq, v]
  refine vec_elem_fp32 h (by decide) hD (by rw [ho, VecFrame.cvt_ds_fp32 _ _ _ hD]) ?_ hc
  rw [ho, VecFrame.cvt_elem_fp32 _ _ _ hi hD hA]

end

end

/-- Settles O12: EW by `ew_elem_fp32` and `ewOp_cmp_fp32`, FN, STAT, DOT and CVT by their lemmas `…_elem_fp32`. -/
theorem vectorResults : Obligations.VectorResults := by
  constructor
  · intro s n d rest f i v a b old fa fb is
    and_intros <;> intro h hA hD hi
    iterate 6 exact ew_elem_fp32 hi h hA hD rfl rfl
    · exact ew_elem_fp32 hi h hA hD rfl (ewOp_cmp_fp32 _ _ _ _)
    iterate 7 exact fn_elem_fp32 hi h hD rfl
  · intro s n d rest f i v rd rdA row is
    refine ⟨?sum, ?sumsq, ?max, ?dot, ?cvt⟩
    case sum | sumsq | max => exact fun h hi => stat_elem_fp32 hi h rfl
    case dot => exact fun x hx h hi => dot_elem_fp32 hi h rfl hx
    case cvt => exact fun hD hA h hi => cvt_elem_fp32 hi h hA hD rfl

end Sys2Proof.Machine

namespace Sys2Proof.Machine

/-! ## The words of DCI instructions (R152 to R155, Tables 5-9 and 5-10) -/

section
variable {opc : Nat} (ho : opc < 256)
include ho

/-- The fields of a word of format R (Table 5-9). -/
theorem bitsOf_dciR (rd ra rb : Reg) :
    bitsOf (dciR opc rd ra rb).toNat 56 8 = opc ∧ bitsOf (dciR opc rd ra rb).toNat 51 5 = rd.toNat ∧
    bitsOf (dciR opc rd ra rb).toNat 46 5 = ra.toNat ∧ bitsOf (dciR opc rd ra rb).toNat 41 5 = rb.toNat ∧
    bitsOf (dciR opc rd ra rb).toNat 0 41 = 0 := by
  have := rd.isLt; have := ra.isLt; have := rb.isLt
  simp only [dciR, bitsOf, BitVec.toNat_ofNat]
  omega

/-- The fields of a word of format I or B. -/
theorem bitsOf_dciI (rd ra : Reg) (imm : Imm) :
    bitsOf (dciI opc rd ra imm).toNat 56 8 = opc ∧ bitsOf (dciI opc rd ra imm).toNat 51 5 = rd.toNat ∧
    bitsOf (dciI opc rd ra imm).toNat 46 5 = ra.toNat ∧ bitsOf (dciI opc rd ra imm).toNat 40 6 = 0 ∧
    bitsOf (dciI opc rd ra imm).toNat 0 40 = imm.toNat := by
  have := rd.isLt; have := ra.isLt; have := imm.isLt
  simp only [dciI, bitsOf, BitVec.toNat_ofNat]
  omega

/-- The fields of a word of format W. -/
theorem bitsOf_dciW (ra : Reg) (q : BitVec 3) (imm : Imm) :
    bitsOf (dciW opc ra q imm).toNat 56 8 = opc ∧ bitsOf (dciW opc ra q imm).toNat 46 5 = ra.toNat ∧
    bitsOf (dciW opc ra q imm).toNat 43 3 = q.toNat ∧ bitsOf (dciW opc ra q imm).toNat 40 3 = 0 ∧
    bitsOf (dciW opc ra q imm).toNat 0 40 = imm.toNat := by
  have := ra.isLt; have := q.isLt; have := imm.isLt
  simp only [dciW, bitsOf, BitVec.toNat_ofNat]
  omega

/-- The fields of a word of format C. -/
theorem bitsOf_dciC (kind op : BitVec 4) (ra : Reg) (body : Imm) :
    bitsOf (dciC opc kind op ra body).toNat 56 8 = opc ∧ bitsOf (dciC opc kind op ra body).toNat 52 4 = kind.toNat ∧
    bitsOf (dciC opc kind op ra body).toNat 48 4 = op.toNat ∧ bitsOf (dciC opc kind op ra body).toNat 43 5 = ra.toNat ∧
    bitsOf (dciC opc kind op ra body).toNat 40 3 = 0 ∧ bitsOf (dciC opc kind op ra body).toNat 0 40 = body.toNat := by
  have := kind.isLt; have := op.isLt; have := ra.isLt; have := body.isLt
  simp only [dciC, bitsOf, BitVec.toNat_ofNat]
  omega

end

/-- Exactly the illegal words stand for the row DCI_ILLEGAL_INSTRUCTION (R152). -/
theorem decodeDci_illegal_iff (n : CoreId) (w : W64) : decodeDci n w = .dciIllegalInstruction n w ↔ dciLegal w = false := by
  refine ⟨fun h => ?_, fun h => by simp [decodeDci, h]⟩
  by_contra hl
  unfold decodeDci at h
  rw [if_neg hl] at h
  split at h
  case h_52 =>
    simp only [imp_false] at *
    refine hl ?_
    unfold dciLegal
    dsimp only
    repeat rw [if_neg (by omega)]
  all_goals cases h

/-- The little-endian word at the program counter of a core is the one whose row is fetched (R152, R629). -/
theorem State.fetchDci_eq {s : State} {n : CoreId} {r : Nat} {w : W64} (hr : (s.core n).image = some r)
    (hw : leNat (s.rdN (s.roleCode r + 8 * (s.core n).pc) 8) = w.toNat) : s.fetchDci n = some (decodeDci n w) := by
  simp [State.fetchDci, hr, hw]

/-- Settles O4: row by row through the fields of the four formats. -/
theorem dciWordsDecode : Obligations.DciWordsDecode := by
  refine ⟨fun n rd ra rb imm q kind op => ?rows, decodeDci_illegal_iff, fun n => ⟨rfl, (decodeDci_illegal_iff n 0).2 (by decide)⟩, fun s n r w => State.fetchDci_eq⟩
  refine ⟨?formatR, ?formatI, ?shifts, ?lih, ?jal, ?cmd, ?waitq, ?fchk, ?csrr, ?csrw, ?err, ?endItem⟩
  case formatR =>
    simp only [List.forall_mem_cons, List.not_mem_nil, false_imp_iff, implies_true, and_true]
    and_intros
    all_goals exact ⟨_, rfl, by simp [dciLegal, bitsOf_dciR], by simp [decodeDci, dciLegal, bitsOf_dciR]⟩
  case formatI =>
    simp only [List.forall_mem_cons, List.not_mem_nil, false_imp_iff, implies_true, and_true]
    and_intros
    all_goals exact ⟨_, rfl, by simp [dciLegal, bitsOf_dciI], by simp [decodeDci, dciLegal, bitsOf_dciI]⟩
  case shifts =>
    intro hk
    simp only [List.forall_mem_cons, List.not_mem_nil, false_imp_iff, implies_true, and_true]
    and_intros
    all_goals exact ⟨_, rfl, by simp [dciLegal, bitsOf_dciI, hk], by simp [decodeDci, dciLegal, bitsOf_dciI, hk]⟩
  case lih =>
    intro hk
    have hl : dciLegal (dciI 0x1F rd ra imm) = true := by simpa [dciLegal, bitsOf_dciI] using hk
    exact ⟨_, rfl, hl, by simp [decodeDci, hl, bitsOf_dciI]⟩
  case jal => exact ⟨_, rfl, by simp [dciLegal, bitsOf_dciI], by simp [decodeDci, dciLegal, bitsOf_dciI]⟩
  case cmd => exact ⟨_, rfl, by simp [dciLegal, bitsOf_dciC], by simp [decodeDci, dciLegal, bitsOf_dciC]⟩
  case waitq =>
    intro h5 h6
    have h5' : q.toNat ≠ 5 := fun h => h5 (BitVec.eq_of_toNat_eq h)
    have h6' : q.toNat ≠ 6 := fun h => h6 (BitVec.eq_of_toNat_eq h)
    exact ⟨_, rfl, by simp [dciLegal, bitsOf_dciW, h5', h6'], by simp [decodeDci, dciLegal, bitsOf_dciW, h5', h6']⟩
  case fchk => exact ⟨_, rfl, by simp [dciLegal, bitsOf_dciW], by simp [decodeDci, dciLegal, bitsOf_dciW]⟩
  case csrr =>
    intro hk
    have hl : dciLegal (dciI 0x4A rd 0#5 imm) = true := by
      simp only [List.mem_cons, List.not_mem_nil, or_false] at hk
      simp [dciLegal, bitsOf_dciI]
      omega
    exact ⟨_, rfl, hl, by simp [decodeDci, hl, bitsOf_dciI]⟩
  case csrw =>
    intro hk
    exact ⟨_, rfl, by simp [dciLegal, bitsOf_dciI]; omega, by simp [decodeDci, dciLegal, bitsOf_dciI]; omega⟩
  case err => exact ⟨_, rfl, by simp [dciLegal, bitsOf_dciI], by simp [decodeDci, dciLegal, bitsOf_dciI]⟩
  case endItem => exact ⟨_, rfl, by simp [dciLegal, bitsOf_dciI], by simp [decodeDci, dciLegal, bitsOf_dciI]⟩

end Sys2Proof.Machine

namespace Sys2Proof.Machine
open Host (Outcome)

/-! ## What the instructions of a control processor do (R152 to R155) -/

/-! ### The end of a work item -/

theorem State.endItem_errQ {s : State} {n r : Nat} (status soft : Nat) {w : WorkItem} (hw : (s.core n).wi = some w) (hr : w.ring = some r)
    (hd : w.dead = false) :
    (s.endItem n status soft).errQ = s.errQ ++ [{ ring := r, step := w.step, status := status, core := n, soft := soft, entry := some w.place,
                                                  item := decide ((s.core n).status = 0) }] := by
  simp [State.endItem, State.itemError, hw, hr, hd]

theorem State.endItem_onlyCore (s : State) (n status soft : Nat) : onlyCore s (s.endItem n status soft) n := by
  obtain ⟨x, y, e⟩ := s.itemError_frame n status soft
  unfold State.endItem
  rw [e]
  refine ⟨fun m h => ?_, rfl, rfl, rfl, rfl, rfl⟩
  rw [State.core_onCore_other _ _ h]
  exact s.core_onCore_other (fun c => c.failed status) h

/-- Ending the work item of a core (R153, R154, R171), after a change of the core that leaves the work item and its status. -/
theorem State.endItem_onCore_ended (s : State) (n status soft : Nat) {f : Core → Core} (hw : (f (s.core n)).wi = (s.core n).wi)
    (hst : (f (s.core n)).status = (s.core n).status) : itemEnded s ((s.onCore n f).endItem n status soft) n status soft := by
  obtain ⟨hwait, hqm, hqv, hqh, hqmv, hqs⟩ := (s.onCore n f).endItem_ends n status soft
  have ho := (s.onCore n f).endItem_onlyCore n status soft
  refine ⟨hwait, hqm, hqv, hqh, hqmv, hqs, fun w r h hr hd => ?_, fun m h => ?_, ho.2⟩
  · rw [(s.onCore n f).endItem_errQ status soft (by simpa [hw] using h) hr hd]
    simp [hst]
  · rw [ho.1 m h, s.core_onCore_other f h]

/-- Ending the work item of a core (R153, R154, R171). -/
theorem State.endItem_ended (s : State) (n status soft : Nat) : itemEnded s (s.endItem n status soft) n status soft := by
  obtain ⟨hwait, hqm, hqv, hqh, hqmv, hqs⟩ := s.endItem_ends n status soft
  exact ⟨hwait, hqm, hqv, hqh, hqmv, hqs, fun w r h hr hd => s.endItem_errQ status soft h hr hd, s.endItem_onlyCore n status soft⟩

/-! ### Instructions that compute (Table 5-10) -/

section
variable {s : State} {n : Nat} {c : Instr} {v : W64} {rd ra rb : Reg} {imm : Imm}

theorem dciAt.runs (h : dciAt s n) : s.cpRuns n = true := h.1
theorem dciAt.next (h : dciAt s n) : (s.core n).pc + 1 < (s.core n).instrCount := h.2

theorem endsItem_of_endItem {status soft : Nat} (hc : exec c s = .next (s.endItem n status soft)) : endsItem c s n status soft :=
  ⟨_, hc, s.endItem_ended n status soft⟩

variable (h : dciAt s n)
include h

theorem gives_of_result {ch : Bool} (hc : exec c s = .next (s.result n rd v ch)) : gives c s n rd v :=
  ⟨_, hc, s.result_wrote n rd v ch h.next⟩

theorem gives_of_alu {f : W64 → W64 → W64} (hc : exec c s = s.dci n false fun s => s.alu n rd ra rb f)
    (hv : f ((s.core n).reg ra) ((s.core n).reg rb) = v) : gives c s n rd v := by
  rw [s.dci_eq n _ h.runs, State.alu, hv] at hc
  exact gives_of_result h hc

theorem gives_of_alui {f : W64 → W64 → W64} (hc : exec c s = s.dci n false fun s => s.alui n rd ra imm f)
    (hv : f ((s.core n).reg ra) (imm.signExtend 64) = v) : gives c s n rd v := by
  rw [s.dci_eq n _ h.runs, State.alui, hv] at hc
  exact gives_of_result h hc

theorem gives_of_shifti {f : W64 → Nat → W64} (hc : exec c s = s.dci n false fun s => s.shifti n rd ra imm f) (hk : imm.toNat < 64)
    (hv : f ((s.core n).reg ra) imm.toNat = v) : gives c s n rd v := by
  refine gives_of_alui (imm := imm) (f := fun a _ => f a imm.toNat) h (hc.trans ?_) hv
  simp only [State.shifti, if_pos hk]

theorem endsItem_of_shifti {f : W64 → Nat → W64} (hc : exec c s = s.dci n false fun s => s.shifti n rd ra imm f) (hk : 64 ≤ imm.toNat) :
    endsItem c s n 0x0301 0 := by
  refine endsItem_of_endItem (hc.trans ?_)
  rw [s.dci_eq n _ h.runs, State.shifti, if_neg (Nat.not_lt.mpr hk), State.illegal]

end

/-! ### Their results as numbers -/

section
variable (a b : W64)

theorem shiftLeft_eq_ofNat (k : Nat) : a <<< k = BitVec.ofNat 64 (a.toNat * 2 ^ k) := by
  apply BitVec.eq_of_toNat_eq
  simp [Nat.shiftLeft_eq]

theorem ushiftRight_eq_ofNat (k : Nat) : a >>> k = BitVec.ofNat 64 (a.toNat / 2 ^ k) := by
  apply BitVec.eq_of_toNat_eq
  have hle : a.toNat / 2 ^ k ≤ a.toNat := Nat.div_le_self _ _
  rw [BitVec.toNat_ushiftRight, BitVec.toNat_ofNat, Nat.shiftRight_eq_div_pow, Nat.mod_eq_of_lt (hle.trans_lt a.isLt)]

theorem sshiftRight_eq_ofInt (k : Nat) : a.sshiftRight k = BitVec.ofInt 64 (a.toInt / 2 ^ k) := by
  rw [BitVec.sshiftRight, Int.shiftRight_eq_div_pow]
  norm_cast

theorem boolW_slt : boolW (a.slt b) = if a.toInt < b.toInt then 1 else 0 := by simp [boolW, BitVec.slt_eq_decide]
theorem boolW_ult : boolW (a.ult b) = if a.toNat < b.toNat then 1 else 0 := by simp [boolW, BitVec.ult_eq_decide]

theorem minS_eq : minS a b = if a.toInt ≤ b.toInt then a else b := by
  obtain hlt | heq | hgt := lt_trichotomy a.toInt b.toInt
  · simp [minS, BitVec.slt_eq_decide, hlt, hlt.le]
  · simp [minS, BitVec.eq_of_toInt_eq heq]
  · simp [minS, BitVec.slt_eq_decide, hgt.not_gt, hgt.not_ge]

theorem maxS_eq : maxS a b = if a.toInt ≤ b.toInt then b else a := by
  obtain hlt | heq | hgt := lt_trichotomy a.toInt b.toInt
  · simp [maxS, BitVec.slt_eq_decide, hlt, hlt.le]
  · simp [maxS, BitVec.eq_of_toInt_eq heq]
  · simp [maxS, BitVec.slt_eq_decide, hgt.not_gt, hgt.not_ge]

/-- LIH puts 24 bits above the low 40 (Table 5-10). -/
theorem lih_eq_ofNat {k : Nat} (hk : k < 2 ^ 24) :
    (a &&& 0xFFFFFFFFFF) ||| (BitVec.ofNat 64 k <<< 40) = BitVec.ofNat 64 (a.toNat % 2 ^ 40 + k * 2 ^ 40) := by
  apply BitVec.eq_of_toNat_eq
  have hlow : a.toNat &&& 0xFFFFFFFFFF = a.toNat % 2 ^ 40 := Nat.and_two_pow_sub_one_eq_mod _ 40
  have hor : a.toNat % 2 ^ 40 ||| k <<< 40 = a.toNat % 2 ^ 40 + k * 2 ^ 40 := by
    rw [Nat.or_comm, ← Nat.shiftLeft_add_eq_or_of_lt (Nat.mod_lt _ (by decide)), Nat.shiftLeft_eq, Nat.add_comm]
  have hhigh : (BitVec.ofNat 64 k <<< 40).toNat = k <<< 40 := by
    simp only [BitVec.toNat_shiftLeft, BitVec.toNat_ofNat, Nat.shiftLeft_eq]
    omega
  rw [BitVec.toNat_or, BitVec.toNat_and, hhigh, BitVec.toNat_ofNat, ← hor, ← hlow, Nat.mod_eq_of_lt]
  · rfl
  · rw [hlow, hor]
    omega

end

/-- Settles O1: each instruction by its form, its result by the lemma above that gives it as a number. -/
theorem dciResults : Obligations.DciResults := by
  constructor
  · intro s n rd ra rb h a b k
    and_intros
    · exact gives_of_alu h rfl rfl
    · exact gives_of_alu h rfl rfl
    · exact gives_of_alu h rfl rfl
    · exact gives_of_alu h rfl rfl
    · exact gives_of_alu h rfl rfl
    · exact gives_of_alu h rfl (shiftLeft_eq_ofNat a k)
    · exact gives_of_alu h rfl (ushiftRight_eq_ofNat a k)
    · exact gives_of_alu h rfl (sshiftRight_eq_ofInt a k)
    · exact gives_of_alu h rfl (BitVec.eq_of_toNat_eq (BitVec.toNat_mul a b))
    · exact gives_of_alu h rfl rfl
    · exact gives_of_alu h rfl rfl
    · exact gives_of_alu h rfl (boolW_slt a b)
    · exact gives_of_alu h rfl (boolW_ult a b)
    · exact gives_of_alu h rfl (minS_eq a b)
    · exact gives_of_alu h rfl (maxS_eq a b)
  · intro s n rd ra imm h a b k
    and_intros
    · exact gives_of_alui h rfl rfl
    · exact gives_of_alui h rfl rfl
    · exact gives_of_alui h rfl rfl
    · exact gives_of_alui h rfl rfl
    · exact gives_of_alui h rfl ((boolW_slt a b).trans (by rw [BitVec.toInt_signExtend_of_le (by decide)]))
    · exact gives_of_alui h rfl (boolW_ult a b)
    · exact fun hk => gives_of_shifti h rfl hk (shiftLeft_eq_ofNat a k)
    · exact fun hk => endsItem_of_shifti h rfl hk
    · exact fun hk => gives_of_shifti h rfl hk (ushiftRight_eq_ofNat a k)
    · exact fun hk => endsItem_of_shifti h rfl hk
    · exact fun hk => gives_of_shifti h rfl hk (sshiftRight_eq_ofInt a k)
    · exact fun hk => endsItem_of_shifti h rfl hk
    · intro hk
      have hk' : imm.toNat < 0x1000000 := hk
      refine gives_of_alui (imm := imm) (f := fun (a _ : W64) => (a &&& 0xFFFFFFFFFF) ||| (BitVec.ofNat 64 imm.toNat <<< 40)) h ?_ (lih_eq_ofNat a hk)
      show execLih n rd ra imm false s = _
      simp only [execLih, if_pos hk']
    · intro hk
      have hk' : ¬ imm.toNat < 0x1000000 := Nat.not_lt.mpr hk
      refine endsItem_of_endItem (c := .lih n rd ra imm false) ?_
      show execLih n rd ra imm false s = _
      rw [execLih, s.dci_eq n _ h.runs, if_neg hk', State.illegal]

end Sys2Proof.Machine

namespace Sys2Proof.Machine
open Host (Outcome)

/-! ### Loads and stores (R154, R69) -/

/-- A byte of a number in little-endian order. -/
theorem getD_toLE {k i : Nat} (v : Nat) (hi : i < k) : (toLE k v).getD i 0 = BitVec.ofNat 8 (v / 256 ^ i) := by
  induction k generalizing i v with
  | zero => omega
  | succ k ih =>
    cases i with
    | zero => simp [toLE]
    | succ i =>
      have hpow : v / 256 / 256 ^ i = v / 256 ^ (i + 1) := by rw [Nat.div_div_eq_div_mul, pow_succ']
      rw [toLE, List.getD_cons_succ, ih (v / 256) (Nat.lt_of_succ_lt_succ hi), hpow]

theorem signed_eq_toInt {v w : Nat} (hw : 0 < w) : signed v w = (BitVec.ofNat w v).toInt := by
  have hdouble : 2 ^ w = 2 * 2 ^ (w - 1) := by rw [← pow_succ', Nat.sub_add_cancel hw]
  have hhalf : 2 * (v % 2 ^ w) < 2 ^ w ↔ v % 2 ^ w < 2 ^ (w - 1) := by rw [hdouble, Nat.mul_lt_mul_left Nat.two_pos]
  rw [signed, BitVec.toInt_eq_toNat_cond, BitVec.toNat_ofNat]
  simp only [hhalf]
  norm_cast

theorem sext_eq {w : Nat} (v : Nat) (hw : 0 < w) : sext w v = BitVec.signExtend 64 (BitVec.ofNat w v) := by
  rw [sext, signed_eq_toInt hw]
  rfl

/-- Bytes `bs` have been written at `a` in the scratch of core `n`, and the next instruction follows. -/
def wroteScratch (s t : State) (n a : Nat) (bs : List Byte) : Prop :=
  (∀ b, (t.core n).sget n b = if a ≤ b ∧ b < a + bs.length then bs.getD (b - a) 0 else (s.core n).sget n b) ∧
  (∀ r, (t.core n).reg r = (s.core n).reg r) ∧ (t.core n).pc = (s.core n).pc + 1 ∧ onlyCore s t n

theorem State.noteItem_frame (s : State) (n : Nat) (scratch : Bool) (a k : Nat) : ∃ x, s.noteItem n scratch a k = { s with wrote := x } := by
  unfold State.noteItem State.noteStep
  repeat' split
  all_goals exact ⟨_, rfl⟩

/-- Operations at one core, one after another, change only this core. -/
theorem onlyCore.trans {s t u : State} {n : Nat} (h₁ : onlyCore s t n) (h₂ : onlyCore t u n) : onlyCore s u n := by
  obtain ⟨c₁, m₁, r₁, f₁, l₁, v₁⟩ := h₁
  obtain ⟨c₂, m₂, r₂, f₂, l₂, v₂⟩ := h₂
  exact ⟨fun m h => (c₂ m h).trans (c₁ m h), m₂.trans m₁, r₂.trans r₁, f₂.trans f₁, l₂.trans l₁, v₂.trans v₁⟩

theorem onlyCore_setCore (s : State) (n : Nat) (c : Core) : onlyCore s (s.setCore n c) n :=
  ⟨fun m h => s.core_setCore_other n m c h, rfl, rfl, rfl, rfl, rfl⟩

theorem onlyCore_withRings (s : State) (n : Nat) (x : List (Nat × Ring)) : onlyCore s (s.withRings x) n :=
  ⟨fun _ _ => rfl, rfl, rfl, rfl, rfl, rfl⟩

theorem onlyCore_noteItem (s : State) (n : Nat) (scratch : Bool) (a k : Nat) : onlyCore s (s.noteItem n scratch a k) n := by
  obtain ⟨x, h⟩ := s.noteItem_frame n scratch a k
  rw [h]
  exact ⟨fun _ _ => rfl, rfl, rfl, rfl, rfl, rfl⟩

/-- A write of the control processor into scratch (R154, R161), its step's record kept. -/
theorem State.swrite_wroteScratch {s : State} {n : Nat} (h : (s.core n).pc + 1 < (s.core n).instrCount) (x : List (Nat × Ring)) (a : Nat)
    (bs : List Byte) (ch : Bool) (b k : Nat) :
    wroteScratch s ((((s.withRings x).setCore n ((s.core n).swrite a bs ch)).noteItem n true b k).advance n) n a bs := by
  let t := ((s.withRings x).setCore n ((s.core n).swrite a bs ch)).noteItem n true b k
  have ht : t.core n = (s.core n).swrite a bs ch := by simp [t]
  have ho : onlyCore s t n := ((onlyCore_withRings s n x).trans (onlyCore_setCore _ n _)).trans (onlyCore_noteItem _ n true b k)
  obtain ⟨y, z, hw⟩ := (s.core n).swrite_frame a bs ch
  have hnext : (t.core n).pc + 1 < (t.core n).instrCount := by rw [ht, hw]; exact h
  show wroteScratch s (t.advance n) n a bs
  rw [t.advance_eq n hnext]
  refine ⟨fun i => ?_, fun r => ?_, ?_, ho.trans (onlyCore_onCore t n _)⟩ <;> rw [State.core_onCore_same, ht]
  · exact (s.core n).sget_swrite n a i bs ch
  · rw [hw]
    rfl
  · rw [hw]

theorem scratchStatus_misaligned {a k : Nat} (h : a % k ≠ 0) : scratchStatus a k = some 0x0302 := if_pos h

theorem scratchStatus_beyond {a k : Nat} (h : a % k = 0) (hk : 0x18000 < a + k) : scratchStatus a k = some 0x0303 := by
  rw [scratchStatus, if_neg (not_not.mpr h)]
  exact if_pos hk

theorem scratchOk.status {s : State} {n a k : Nat} {write : Bool} (h : scratchOk s n a k write) : scratchStatus a k = none := by
  obtain ⟨hmod, hle, -⟩ := h
  rw [scratchStatus, if_neg (not_not.mpr hmod)]
  exact if_neg (Nat.not_lt.mpr hle)

section
variable {s : State} {n : Nat} {c : Instr} {rd ra : Reg} {imm : Imm} {k : Nat} {ext : Nat → W64} (h : dciAt s n)
include h

theorem gives_of_load (hc : exec c s = s.dci n false fun s => s.load n rd ra imm k ext) (hok : scratchOk s n ((s.core n).addr ra imm) k false) :
    gives c s n rd (ext (leNat ((s.core n).sread n ((s.core n).addr ra imm) k))) := by
  rw [s.dci_eq n _ h.runs, State.load] at hc
  simp only [hok.status, hok.2.2, if_true] at hc
  obtain ⟨x, hx⟩ := s.ite_itemChaff_frame n ((s.core n).schaffIn ((s.core n).addr ra imm) k)
  rw [hx] at hc
  exact ⟨_, hc, (s.withRings x).result_wrote n rd _ _ h.next⟩

theorem endsItem_of_load {status : Nat} (hc : exec c s = s.dci n false fun s => s.load n rd ra imm k ext)
    (hs : scratchStatus ((s.core n).addr ra imm) k = some status) : endsItem c s n status 0 := by
  rw [s.dci_eq n _ h.runs, State.load] at hc
  simp only [hs] at hc
  exact endsItem_of_endItem hc

/-- The bytes of scratch that a store of `k` bytes of `v` at `a` leaves. -/
theorem completes_of_store (hc : exec c s = s.dci n false fun s => s.store n rd ra imm k) (hok : scratchOk s n ((s.core n).addr ra imm) k true) :
    completes c s fun t =>
      let a := (s.core n).addr ra imm
      (∀ b, (t.core n).sget n b = if a ≤ b ∧ b < a + k then ((s.core n).reg rd).extractLsb' (8 * (b - a)) 8 else (s.core n).sget n b) ∧
      (∀ r, (t.core n).reg r = (s.core n).reg r) ∧ (t.core n).pc = (s.core n).pc + 1 ∧ onlyCore s t n := by
  rw [s.dci_eq n _ h.runs, State.store] at hc
  simp only [hok.status, hok.2.2, if_true] at hc
  obtain ⟨hget, hreg, hpc, ho⟩ := s.swrite_wroteScratch h.next s.rings ((s.core n).addr ra imm) (toLE k ((s.core n).reg rd).toNat)
    ((s.core n).tag rd || (s.core n).tag ra) ((s.core n).addr ra imm) k
  refine ⟨_, hc, fun b => ?_, hreg, hpc, ho⟩
  refine (hget b).trans ?_
  rw [toLE_length]
  split
  case isFalse => rfl
  case isTrue hb =>
    rw [getD_toLE _ (by omega), BitVec.extractLsb']
    have hpow : (256 : Nat) ^ (b - (s.core n).addr ra imm) = 2 ^ (8 * (b - (s.core n).addr ra imm)) := by rw [pow_mul]; norm_num
    rw [hpow, Nat.shiftRight_eq_div_pow]

theorem endsItem_of_store {status : Nat} (hc : exec c s = s.dci n false fun s => s.store n rd ra imm k)
    (hs : scratchStatus ((s.core n).addr ra imm) k = some status) : endsItem c s n status 0 := by
  rw [s.dci_eq n _ h.runs, State.store] at hc
  simp only [hs] at hc
  exact endsItem_of_endItem hc

end

/-- Settles O2: every load and store by the two operations they are instances of. -/
theorem dciLoadsAndStores : Obligations.DciLoadsAndStores := by
  constructor
  · intro s n rd ra imm h a v
    refine ⟨?_, ?_, ?_, fun hok => gives_of_load h rfl hok, fun hok => gives_of_load h rfl hok, fun hok => gives_of_load h rfl hok,
      fun hok => gives_of_load h rfl hok, ?_⟩
    iterate 3
      · intro hok
        rw [← sext_eq _ (by decide)]
        exact gives_of_load h rfl hok
    and_intros
    iterate 7
      · exact fun hm => endsItem_of_load h rfl (scratchStatus_misaligned hm)
      · exact fun hm hle => endsItem_of_load h rfl (scratchStatus_beyond hm hle)
  · intro s n rd ra imm h a v
    and_intros
    iterate 4
      · exact fun hok => completes_of_store h rfl hok
      · exact fun hm => endsItem_of_store h rfl (scratchStatus_misaligned hm)
      · exact fun hm hle => endsItem_of_store h rfl (scratchStatus_beyond hm hle)

end Sys2Proof.Machine

namespace Sys2Proof.Machine
open Host (Outcome)

/-! ### Branches and jumps (R153, R154) -/

/-- Nothing is written, and the core goes on at `pc`. -/
theorem State.setPc_wrote (s : State) (n pc : Nat) : wroteReg s (s.onCore n fun c => { c with pc := pc }) n 0 0 pc := by
  refine ⟨fun r => ?_, ?_, ?_, ?_, ?_, ?_, ?_, ?_, onlyCore_onCore s n _⟩ <;> rw [State.core_onCore_same]
  rw [if_neg fun h : r = 0 ∧ r ≠ 0 => h.2 h.1]
  rfl

section
variable {s : State} {n : Nat} {c : Instr} {rd ra rb : Reg} {off : Imm} {p : W64 → W64 → Bool} (h : dciAt s n)
include h

theorem branch_falls_through (hc : exec c s = s.dci n false fun s => s.branch n ra rb off p)
    (hp : p ((s.core n).reg ra) ((s.core n).reg rb) = false) :
    completes c s fun t => wroteReg s t n 0 0 ((s.core n).pc + 1) := by
  rw [s.dci_eq n _ h.runs, State.branch] at hc
  simp only [hp, Bool.false_eq_true, if_false, s.advance_eq n h.next] at hc
  exact ⟨_, hc, s.setPc_wrote n _⟩

theorem branch_goes (hc : exec c s = s.dci n false fun s => s.branch n ra rb off p)
    (hp : p ((s.core n).reg ra) ((s.core n).reg rb) = true) (hx : 0 ≤ ((s.core n).pc : Int) + off.toInt ∧
      ((s.core n).pc : Int) + off.toInt < (s.core n).instrCount) :
    completes c s fun t => wroteReg s t n 0 0 (((s.core n).pc : Int) + off.toInt).toNat := by
  rw [s.dci_eq n _ h.runs, State.branch] at hc
  simp only [hp, if_true, s.jump_eq n _ hx.1 hx.2] at hc
  exact ⟨_, hc, s.setPc_wrote n _⟩

theorem branch_leaves_image (hc : exec c s = s.dci n false fun s => s.branch n ra rb off p)
    (hp : p ((s.core n).reg ra) ((s.core n).reg rb) = true) (hx : ¬ (0 ≤ ((s.core n).pc : Int) + off.toInt ∧
      ((s.core n).pc : Int) + off.toInt < (s.core n).instrCount)) : endsItem c s n 0x0304 0 := by
  rw [s.dci_eq n _ h.runs, State.branch] at hc
  simp only [hp, if_true, State.jump, if_neg hx] at hc
  exact endsItem_of_endItem hc

end

section
variable {s : State} {n : Nat} {c : Instr} {rd : Reg} {ch : Bool} {x : Int}

theorem linkJump_goes (hc : exec c s = .next (s.linkJump n rd ch x)) (hx : 0 ≤ x ∧ x < (s.core n).instrCount) :
    completes c s fun t => wroteReg s t n rd (BitVec.ofNat 64 ((s.core n).pc + 1)) x.toNat := by
  rw [State.linkJump, State.jump_eq _ n x hx.1 (by simpa using hx.2)] at hc
  obtain ⟨hcore, ho⟩ := s.onCore_onCore n (fun c => c.setReg rd (BitVec.ofNat 64 (c.pc + 1)) ch) fun c => { c with pc := x.toNat }
  refine ⟨_, hc, fun r => ?_, ?_, ?_, ?_, ?_, ?_, ?_, ?_, ho⟩ <;> rw [hcore]
  · exact Core.reg_setReg _ r rd _ ch
  all_goals simp

theorem linkJump_leaves_image (hc : exec c s = .next (s.linkJump n rd ch x)) (hx : ¬ (0 ≤ x ∧ x < (s.core n).instrCount)) :
    endsItem c s n 0x0304 0 := by
  rw [State.linkJump, State.jump, if_neg (by simpa using hx)] at hc
  refine ⟨_, hc, s.endItem_onCore_ended n _ _ ?_ ?_⟩ <;> unfold Core.setReg <;> split <;> rfl

end

/-- An instruction whose checks failed writes nothing and confirms a fault CP_CHECK (R396, Table 12-1). -/
theorem cpFault_confirmed {s : State} {n : Nat} {w : WorkItem} (hw : (s.core n).wi = some w) : s.cpFault n =
    { s with faultQ := s.faultQ ++ [{ (FaultRec.blank 8).atCore n with
        part := w.part, ring := w.ring.getD 0xFF, step := w.step, layer := (s.core n).layer, oper := (s.core n).oper, tag := s.itemTag n }] } := by
  simp [State.cpFault, hw, State.confirm]

theorem exec_of_faulting {s : State} {n : Nat} {c : Instr} (hr : s.cpRuns n = true)
    (hc : exec c s = if s.cpRuns n then .next (s.cpFault n) else .next s) : exec c s = .next (s.cpFault n) := by
  rw [hc, if_pos hr]

/-- Settles O3: the branches by what `State.branch` does, JAL and JALR by `State.linkJump`, the failed checks by `State.cpFault`. -/
theorem dciBranchesAndJumps : Obligations.DciBranchesAndJumps := by
  refine ⟨?branches, ?jumps, ?checks⟩
  case branches =>
    intro s n ra rb off h a b pc x inImage
    refine ⟨?_, ?_, ?_, ?_, ?_, ?_, ?_, ?_, ?_, ?_, ?_, ?_, ?_, ?_, ?_, ?_, ?_, ?_⟩
    iterate 6
      · exact fun hp => branch_falls_through h rfl (by simpa [BitVec.slt_eq_decide, BitVec.ult_eq_decide] using hp)
      · exact fun hp hx => branch_goes h rfl (by simpa [BitVec.slt_eq_decide, BitVec.ult_eq_decide] using hp) hx
      · exact fun hp hx => branch_leaves_image h rfl (by simpa [BitVec.slt_eq_decide, BitVec.ult_eq_decide] using hp) hx
  case jumps =>
    intro s n rd ra imm h pc link inImage x y
    have hj : exec (.jal n rd imm false) s = .next (s.linkJump n rd false x) :=
      s.dci_eq n (fun s => s.linkJump n rd false (((s.core n).pc : Int) + imm.toInt)) h.runs
    have hjr : exec (.jalr n rd ra imm false) s = .next (s.linkJump n rd ((s.core n).tag ra) y) :=
      s.dci_eq n (fun s => s.linkJump n rd ((s.core n).tag ra) ((s.core n).reg ra + imm.signExtend 64).toInt) h.runs
    exact ⟨linkJump_goes hj, linkJump_leaves_image hj, linkJump_goes hjr, linkJump_leaves_image hjr⟩
  case checks =>
    intro s n rd ra rb imm kind op q w hr hw f c hc
    suffices h : exec c s = .next (s.cpFault n) from ⟨_, h, cpFault_confirmed hw⟩
    revert c
    simp only [List.forall_mem_cons, List.not_mem_nil, false_imp_iff, implies_true, and_true]
    and_intros
    iterate 44 exact exec_of_faulting hr rfl
    · show execCmd n kind op ra imm true s = _
      simp [execCmd, hr]
    · show execFchk n ra q imm true s = _
      simp [execFchk, hr]
    iterate 3 exact exec_of_faulting hr rfl

end Sys2Proof.Machine

namespace Sys2Proof.Machine
open Host (Outcome)

/-! ## Completion records and ring registers: what the operations of a ring leave as it was (R138, R140, R141, R170) -/

/-- The register fields that writing a completion record may change: CPL_TAIL, and the counts of what could not be written or sent. -/
def cplFields : List Nat := [F.cplTail_TAIL.id % 1024, F.hostErrCnt_COUNT.id % 1024, F.chaffRefused_COUNT.id % 1024]

/-- Only completion records were written or held back: of the rings only the records held, and those that wait for a cancelled step, differ; of the
register fields only `cplFields`. -/
def recordsOnly (s t : State) : Prop :=
  (∃ regs mem chaff ecc valid waits hits out host rings, t = { s with
      regs := regs, mem := mem, chaff := chaff, ecc := ecc, valid := valid, waits := waits, hits := hits, out := out, host := host, rings := rings }) ∧
  (∀ f i, f.id % 1024 ∉ cplFields → t.fget f i = s.fget f i) ∧
  ∀ q, ∃ held since lost late, t.ring q = { s.ring q with held := held, since := since, lost := lost, late := late }

theorem recordsOnly.refl (s : State) : recordsOnly s s := ⟨⟨_, _, _, _, _, _, _, _, _, _, rfl⟩, fun _ _ _ => rfl, fun _ => ⟨_, _, _, _, rfl⟩⟩

theorem recordsOnly.trans {s t u : State} (h₁ : recordsOnly s t) (h₂ : recordsOnly t u) : recordsOnly s u := by
  obtain ⟨⟨_, _, _, _, _, _, _, _, _, _, rfl⟩, f₁, r₁⟩ := h₁
  obtain ⟨⟨_, _, _, _, _, _, _, _, _, _, rfl⟩, f₂, r₂⟩ := h₂
  refine ⟨⟨_, _, _, _, _, _, _, _, _, _, rfl⟩, fun f i hf => (f₂ f i hf).trans (f₁ f i hf), fun q => ?_⟩
  obtain ⟨_, _, _, _, e₁⟩ := r₁ q
  obtain ⟨_, _, _, _, e₂⟩ := r₂ q
  exact ⟨_, _, _, _, by rw [e₂, e₁]⟩

theorem recordsOnly.foldl {α : Type} {f : State → α → State} (hf : ∀ s x, recordsOnly s (f s x)) (l : List α) (s : State) :
    recordsOnly s (l.foldl f s) := by
  induction l generalizing s with
  | nil => exact .refl s
  | cons x l ih => exact (hf s x).trans (ih (f s x))

section
variable (s : State) (r : Nat)

theorem State.fset_recordsOnly {f : Fld} (hf : f.id % 1024 ∈ cplFields) (i v : Nat) : recordsOnly s (s.fset f i v) :=
  ⟨⟨_, _, _, _, _, _, _, _, _, _, rfl⟩, fun _ _ hg => s.fget_fset_of_id (fun e => hg (by rw [e]; exact hf)) i _ v, fun _ => ⟨_, _, _, _, rfl⟩⟩

theorem State.wrMarked_recordsOnly (a : Nat) (bs : List (Byte × Bool)) : recordsOnly s (s.wrMarked a bs) := by
  unfold State.wrMarked
  dsimp only
  split
  · exact s.fset_recordsOnly (by decide) _ _
  · split
    · exact .refl s
    · exact ⟨⟨_, _, _, _, _, _, _, _, _, _, rfl⟩, fun _ _ _ => rfl, fun _ => ⟨_, _, _, _, rfl⟩⟩

theorem State.spWrite_recordsOnly (p off : Nat) (bs : List Byte) : recordsOnly s (s.spWrite p off bs) := by
  unfold State.spWrite
  split
  · exact s.wrMarked_recordsOnly _ _
  · exact .refl s

theorem State.msix_recordsOnly (fn v : Nat) : recordsOnly s (s.msix fn v) := by
  unfold State.msix
  split
  · exact ⟨⟨_, _, _, _, _, _, _, _, _, _, rfl⟩, fun _ _ _ => rfl, fun _ => ⟨_, _, _, _, rfl⟩⟩
  · exact s.fset_recordsOnly (by decide) _ _

theorem State.raiseVector_recordsOnly (fn v : Nat) : recordsOnly s (s.raiseVector fn v) := by
  unfold State.raiseVector
  extract_lets w
  split
  · exact .refl s
  · split
    · exact s.msix_recordsOnly fn w
    · exact ⟨⟨_, _, _, _, _, _, _, _, _, _, rfl⟩, fun _ _ _ => rfl, fun _ => ⟨_, _, _, _, rfl⟩⟩

/-- Where a completion record goes: the scratchpad, or the host. -/
def State.cplSend (s : State) (r : Nat) (c : CplRec) : State :=
  let n := s.cplSize r
  let t := s.fget F.cplTail_TAIL r
  match s.cplOff r with
  | some o => s.spWrite (partOfRing r) (o + t % n * 16) (c.bytes (decide (t < n)))
  | none => s.emit (.cpl (s.ringFn r) r (t % n) (c.bytes (decide (t < n))))

/-- The vector of a ring for a record (R138). -/
def State.cplRaise (s : State) (r : Nat) (c : CplRec) : State :=
  if s.flag F.ringCfg_IRQ r && (c.irq || c.status ≠ 0) then s.raiseVector (s.ringFn r) (s.fget F.ringCfg_VECTOR r) else s

theorem State.putCpl_eq (c : CplRec) :
    s.putCpl r c = ((s.cplSend r c).fset F.cplTail_TAIL r ((s.fget F.cplTail_TAIL r + 1) % (2 * s.cplSize r))).cplRaise r c := rfl

theorem State.cplSend_recordsOnly (c : CplRec) : recordsOnly s (s.cplSend r c) := by
  unfold State.cplSend
  dsimp only
  split
  · exact s.spWrite_recordsOnly _ _ _
  · exact ⟨⟨_, _, _, _, _, _, _, _, _, _, rfl⟩, fun _ _ _ => rfl, fun _ => ⟨_, _, _, _, rfl⟩⟩

theorem State.cplRaise_recordsOnly (c : CplRec) : recordsOnly s (s.cplRaise r c) := by
  unfold State.cplRaise
  split
  · exact s.raiseVector_recordsOnly _ _
  · exact .refl s

theorem State.putCpl_recordsOnly (c : CplRec) : recordsOnly s (s.putCpl r c) := by
  rw [State.putCpl_eq]
  exact ((s.cplSend_recordsOnly r c).trans (State.fset_recordsOnly _ (by decide) _ _)).trans (State.cplRaise_recordsOnly _ r c)

theorem State.ring_onRing_other {q : Nat} (f : Ring → Ring) (h : q ≠ r) : (s.onRing r f).ring q = s.ring q :=
  s.ring_setRing_other _ _ _ h

/-- A change of the records a ring holds or keeps for a cancelled step. -/
theorem State.onRing_recordsOnly {f : Ring → Ring}
    (hf : ∃ held since lost late, f (s.ring r) = { s.ring r with held := held, since := since, lost := lost, late := late }) :
    recordsOnly s (s.onRing r f) := by
  refine ⟨⟨_, _, _, _, _, _, _, _, _, _, rfl⟩, fun _ _ _ => rfl, fun q => ?_⟩
  by_cases h : q = r
  · subst h
    rw [State.ring_onRing_same]
    exact hf
  · rw [State.ring_onRing_other _ _ _ h]
    exact ⟨_, _, _, _, rfl⟩

theorem State.writeCpl_recordsOnly (c : CplRec) : recordsOnly s (s.writeCpl r c) := by
  unfold State.writeCpl
  dsimp only
  split
  · exact s.onRing_recordsOnly r (f := fun _ => _) ⟨_, _, _, _, rfl⟩
  · exact s.putCpl_recordsOnly r c

theorem State.flushCpl_recordsOnly (k : Nat) : recordsOnly s (s.flushCpl r k) := by
  induction k generalizing s with
  | zero => exact .refl s
  | succ k ih =>
    unfold State.flushCpl
    split
    · exact .refl s
    · split
      · exact .refl s
      · split
        · exact s.onRing_recordsOnly r ⟨_, _, _, _, rfl⟩
        · exact ((s.onRing_recordsOnly r ⟨_, _, _, _, rfl⟩).trans (State.putCpl_recordsOnly _ r _)).trans (ih _)

theorem State.flushLate_recordsOnly (now : Bool) : recordsOnly s (s.flushLate r now) := by
  have hclear : recordsOnly s (s.onRing r fun x => { x with late := none }) := s.onRing_recordsOnly r ⟨_, _, _, _, rfl⟩
  unfold State.flushLate
  dsimp only
  split
  · exact .refl s
  · split
    · exact .refl s
    · split
      · exact hclear
      · exact (hclear.trans (State.writeCpl_recordsOnly _ _ _)).trans (recordsOnly.foldl (fun s c => s.writeCpl_recordsOnly r c) _ _)

end

section
variable {s t : State} (h : recordsOnly s t)
include h

theorem recordsOnly.core (n : Nat) : t.core n = s.core n := by
  obtain ⟨⟨_, _, _, _, _, _, _, _, _, _, rfl⟩, -⟩ := h
  rfl

theorem recordsOnly.fget {f : Fld} (hf : f.id % 1024 ∉ cplFields) (i : Nat) : t.fget f i = s.fget f i := h.2.1 f i hf

theorem recordsOnly.steps (q : Nat) : (t.ring q).steps = (s.ring q).steps := by
  obtain ⟨_, _, _, _, e⟩ := h.2.2 q
  rw [e]

end

/-- The register fields that `State.ringState` keeps: RING_STATE.OPEN and IDLE, RING_CFG.ENABLE. -/
theorem State.fget_ringState (s : State) (r : Nat) {f : Fld}
    (hf : f.id % 1024 ∉ [F.ringState_OPEN.id % 1024, F.ringState_IDLE.id % 1024, F.ringCfg_ENABLE.id % 1024]) (i : Nat) :
    (s.ringState r).fget f i = s.fget f i := by
  have h : ∀ (t : State) {g : Fld} (_ : g.id % 1024 ∈ [F.ringState_OPEN.id % 1024, F.ringState_IDLE.id % 1024, F.ringCfg_ENABLE.id % 1024]) (v : Nat),
      (t.fset g r v).fget f i = t.fget f i := fun t g hg v => t.fget_fset_of_id (fun e => hf (by rw [e]; exact hg)) r i v
  unfold State.ringState
  dsimp only
  split
  · rw [State.fget_setRing, h _ (by decide), h _ (by decide), h _ (by decide)]
  · rw [h _ (by decide), h _ (by decide)]

/-- Of a ring `State.ringState` ends at most a wait for IDLE. -/
theorem State.ring_ringState (s : State) (r q : Nat) : ∃ b, (s.ringState r).ring q = { s.ring q with disabling := b } := by
  unfold State.ringState
  dsimp only
  split
  · by_cases h : q = r
    · subst h
      exact ⟨_, State.ring_setRing_same _ _ _⟩
    · exact ⟨_, State.ring_setRing_other _ _ _ _ h⟩
  · exact ⟨_, rfl⟩

@[simp] theorem State.steps_ringState (s : State) (r q : Nat) : ((s.ringState r).ring q).steps = (s.ring q).steps := by
  obtain ⟨b, e⟩ := s.ring_ringState r q
  rw [e]

@[simp] theorem State.core_ringState (s : State) (r n : Nat) : (s.ringState r).core n = s.core n := by
  obtain ⟨x, y, e⟩ := s.ringState_frame r
  rw [e]
  rfl

end Sys2Proof.Machine

namespace Sys2Proof.Machine
open Host (Outcome)

/-! ## Work items (R149, R151, R157) -/

section
variable {s : State} {n : CoreId} {w : WorkItem}

theorem execWorkItemStart_starts {rest : List WorkItem} (hwi : (s.core n).wi = none) (hq : (s.core n).queue = w :: rest)
    (hr : (s.field (n.val / 24)).resetting = false) (hh : (s.field (n.val / 24)).halted = false) (hb : s.blk = none)
    (hrole : w.role < s.roles.length) (he : w.entry < s.roleEntries w.role) :
    execWorkItemStart n s = .next (s.setCore n
      (({ s.core n with queue := rest }.changeImage w.role (s.roleInstrs w.role)).begin n w (s.roleEntry w.role w.entry))) := by
  have hf : s.field (fieldOfCore n) = s.field (n.val / 24) := rfl
  simp [execWorkItemStart, hwi, hq, hf, hr, hh, hb, Nat.not_le.mpr hrole, Nat.not_le.mpr he]

/-- What a change of the code image leaves of a core (R73, R268). -/
theorem Core.changeImage_frame (c : Core) (role instrs : Nat) :
    ∃ lines, c.changeImage role instrs = { c with
      image := some role, instrCount := instrs, lines := lines, epoch := if c.image = some role then c.epoch else (c.epoch + 1) % 65536 } := by
  unfold Core.changeImage
  split
  · rename_i h
    exact ⟨c.lines, by rw [← h]⟩
  · exact ⟨_, rfl⟩

/-- The registers Table 5-8 gives, and zero in every other. -/
theorem Core.reg_begin (c : Core) (m : Nat) (w : WorkItem) (pc : Nat) {r : Reg} (h : 6 < r.toNat) : (c.begin m w pc).reg r = 0 := by
  have hr : r ≠ 0 := fun e => by simp [e] at h
  have hne : ∀ k, k ≤ 6 → k ≠ r.toNat := fun k hk => by omega
  rw [Core.reg, if_neg hr]
  simp [Core.begin, alGet, alFind, hne]

/-- The core that has ended its work item, and the state that counts it (R157, Table 17-12). -/
def State.itemOff (s : State) (n : Nat) : State := (s.setCore n { s.core n with wi := none, wait := none }).coreCount n 3 1

theorem execWorkItemEnd_ends (hwi : (s.core n).wi = some w) (hwait : (s.core n).wait = some .ending) (h0 : s.outstandingAll n = 0) :
    execWorkItemEnd n s = match w.ring with
      | some r => if w.dead then .next ((s.itemOff n).flushLate r false)
        else .next (((s.itemOff n).onStep (some r) w.step fun o => { o with items := o.items - 1 }).ringState r)
      | none => .next { s.itemOff n with bootEnd := s.bootEnd ++ [(n.val, (s.core n).status)] } := by
  simp only [execWorkItemEnd, hwi, hwait, h0, if_true]
  rfl

/-- Core `n` has ended its work item and WORK_ITEMS counts it; its queue of work items and the other cores stand. -/
def itemGone (s t : State) (n : Nat) : Prop :=
  (t.core n).wi = none ∧ (t.core n).wait = none ∧ (t.core n).queue = (s.core n).queue ∧
  t.fget F.coreCtr_COUNT (n * 64 + 3) = (s.fget F.coreCtr_COUNT (n * 64 + 3) + 1) % 2 ^ 64 ∧ ∀ m, m ≠ n → t.core m = s.core m

theorem itemGone_of_itemOff {s t : State} {n : Nat} (hc : ∀ m, t.core m = (s.itemOff n).core m)
    (hf : t.fget F.coreCtr_COUNT (n * 64 + 3) = (s.itemOff n).fget F.coreCtr_COUNT (n * 64 + 3)) : itemGone s t n := by
  have hn : (s.itemOff n).core n = { s.core n with wi := none, wait := none } := by simp [State.itemOff]
  refine ⟨by rw [hc, hn], by rw [hc, hn], by rw [hc, hn], ?_, fun m h => ?_⟩
  · rw [hf]
    exact State.fget_fset_same _ _ _ _
  · rw [hc]
    exact s.core_setCore_other n m _ h

theorem workItemEnd_ends (hwi : (s.core n).wi = some w) (hwait : (s.core n).wait = some .ending) (h0 : s.outstandingAll n = 0) :
    completes (.workItemEnd n) s fun t => itemGone s t n ∧
      (∀ r, w.ring = some r → w.dead = false →
        (t.ring r).steps = (s.ring r).steps.map fun o => if o.step = w.step then { o with items := o.items - 1 } else o) ∧
      (w.ring = none → w.dead = false → t.bootEnd = s.bootEnd ++ [(n.val, (s.core n).status)]) ∧ (w.dead = false → t.mem = s.mem) := by
  have he : exec (.workItemEnd n) s = _ := execWorkItemEnd_ends hwi hwait h0
  cases hring : w.ring with
  | none =>
    rw [hring] at he
    exact ⟨_, he, itemGone_of_itemOff (fun _ => rfl) rfl, nofun, fun _ _ => rfl, fun _ => rfl⟩
  | some r =>
    simp only [hring] at he
    cases hdead : w.dead with
    | true =>
      rw [hdead, if_pos rfl] at he
      have hl := (s.itemOff n).flushLate_recordsOnly r false
      exact ⟨_, he, itemGone_of_itemOff hl.core (hl.fget (by decide) _), nofun, nofun, nofun⟩
    | false =>
      rw [hdead, if_neg Bool.false_ne_true] at he
      refine ⟨_, he, itemGone_of_itemOff (fun m => ?_) ?_, ?_, nofun, fun _ => ?_⟩
      · rw [State.core_ringState, State.core_onStep]
      · rw [State.fget_ringState _ _ (by decide)]
        rfl
      · rintro r' hr' -
        obtain rfl := Option.some.inj hr'
        rw [State.steps_ringState, State.ring_onStep, if_pos rfl]
        rfl
      · rw [State.ringState_mem, State.onStep_mem]
        rfl

end

/-- Settles O5: the start by the core that Table 5-8 describes, the end by `workItemEnd_ends`. -/
theorem workItemsStartAndEnd : Obligations.WorkItemsStartAndEnd := by
  constructor
  · intro s n w rest f hwi hq hr hh hb hrole he
    refine ⟨_, execWorkItemStart_starts hwi hq hr hh hb hrole he, ?_⟩
    obtain ⟨lines, hc⟩ := { s.core n with queue := rest }.changeImage_frame w.role (s.roleInstrs w.role)
    rw [State.core_setCore_same, hc]
    exact ⟨rfl, rfl, rfl, rfl, rfl, rfl, rfl, rfl, rfl, rfl, rfl, rfl, rfl, rfl, rfl, fun r hr => Core.reg_begin _ _ _ _ hr, rfl, rfl, rfl,
      onlyCore_setCore s n _⟩
  · intro s n w hwi hwait h0
    obtain ⟨t, he, ⟨hwi', hwait', hq, hcount, ho⟩, hsteps, hboot, hmem⟩ := workItemEnd_ends hwi hwait h0
    exact ⟨t, he, hwi', hwait', hq, hcount, hsteps, hboot, hmem, ho⟩

end Sys2Proof.Machine

namespace Sys2Proof.Machine
open Host (Outcome)

/-! ## Issue (R67, R158, R160) -/

/-- Core `c` after a command joined queue `q` and the control processor went on. -/
def Core.issued (c : Core) (q : Nat) (d : Cmd) : Core := { c.setQueue q (c.queueOf q ++ [d]) with pc := c.pc + 1 }

section
variable (c : Core) (d : Cmd) {q : Nat} (hq : q < 5)

@[simp] theorem Core.pc_issued : (c.issued q d).pc = c.pc + 1 := rfl

@[simp] theorem Core.wait_issued : (c.issued q d).wait = c.wait := by
  simp only [Core.issued, Core.setQueue]
  repeat' split
  all_goals rfl

@[simp] theorem Core.reg_issued (r : Reg) : (c.issued q d).reg r = c.reg r := by
  simp only [Core.issued, Core.setQueue]
  repeat' split
  all_goals rfl

include hq

@[simp] theorem Core.queueOf_issued_same : (c.issued q d).queueOf q = c.queueOf q ++ [d] := c.queueOf_setQueue_same q _ hq

theorem Core.queueOf_issued_other {p : Nat} (hp : p < 5) (h : p ≠ q) : (c.issued q d).queueOf p = c.queueOf p :=
  c.queueOf_setQueue_other _ hp hq h

end

/-- A command placed in its queue, and the control processor past its CMD (R158, R67). -/
theorem State.place_advance {s : State} {n : Nat} {d : Cmd} (h : (s.core n).pc + 1 < (s.core n).instrCount) :
    let t := (s.place n d).advance n
    t.core n = (s.core n).issued (d.kind - 1) d ∧ (∀ m, m ≠ n → t.core m = s.core m) ∧ t.mem = s.mem ∧
    t.fget F.coreCtr_COUNT (n * 64 + 2) = (s.fget F.coreCtr_COUNT (n * 64 + 2) + 1) % 2 ^ 64 := by
  have hcore : (s.place n d).core n = (s.core n).setQueue (d.kind - 1) ((s.core n).queueOf (d.kind - 1) ++ [d]) := by simp [State.place]
  have hkeeps : ∀ q l, ((s.core n).setQueue q l).pc = (s.core n).pc ∧ ((s.core n).setQueue q l).instrCount = (s.core n).instrCount := by
    intro q l
    unfold Core.setQueue
    repeat' split
    all_goals exact ⟨rfl, rfl⟩
  obtain ⟨hpc, hcount⟩ := hkeeps (d.kind - 1) ((s.core n).queueOf (d.kind - 1) ++ [d])
  rw [State.advance_eq _ n (by rw [hcore, hpc, hcount]; exact h)]
  refine ⟨?_, fun m hm => ?_, rfl, ?_⟩
  · rw [State.core_onCore_same, hcore, hpc]
    rfl
  · rw [State.core_onCore_other _ _ hm]
    exact s.core_onCore_other (fun c => c.setQueue (d.kind - 1) (c.queueOf (d.kind - 1) ++ [d])) hm
  · exact State.fget_fset_same _ _ _ _

theorem Core.form_formed (c : Core) (kind op : BitVec 4) (ra : Reg) (body : Imm) : formed c kind op ra body (c.form kind op ra body) :=
  ⟨rfl, rfl, rfl, rfl, rfl, by simp [Core.form], rfl⟩

section
variable {s : State} {n : CoreId} {kind op : BitVec 4} {ra : Reg} {body : Imm} (h : issueAt s n)

/-- The state in which a formed command meets its queue: its step's chaff noted, the next place in program order taken. -/
def State.formedAt (s : State) (n : Nat) (x : List (Nat × Ring)) : State := (s.withRings x).onCore n fun c => { c with nextSeq := c.nextSeq + 1 }

@[simp] theorem State.core_formedAt (s : State) (n : Nat) (x : List (Nat × Ring)) :
    (s.formedAt n x).core n = { s.core n with nextSeq := (s.core n).nextSeq + 1 } :=
  State.core_onCore_same _ _ _

theorem State.hasRoom_formedAt (s : State) (n : Nat) (x : List (Nat × Ring)) (q : Nat) : (s.formedAt n x).hasRoom n q = s.hasRoom n q := by
  unfold State.hasRoom
  rw [State.core_formedAt]
  rfl

include h

theorem execCmd_forms (hk : ¬ (kind = 0 ∨ 5 < kind.toNat)) : ∃ x, execCmd n kind op ra body false s =
    if s.hasRoom n (kind.toNat - 1) then .next (((s.formedAt n x).place n ((s.core n).form kind op ra body)).advance n)
    else .next ((s.formedAt n x).onCore n fun c => { c with wait := some (.full ((s.core n).form kind op ra body)), since := s.time.elapsed }) := by
  obtain ⟨hd, hheld⟩ := h
  obtain ⟨x, hx⟩ := s.ite_itemChaff_frame n ((s.core n).form kind op ra body).chaff
  have hx' : (if ((s.core n).form kind op ra body).chaff = true then s.itemChaff n else s) = s.withRings x := hx
  refine ⟨x, ?_⟩
  have hroom : ((s.withRings x).onCore n fun c => { c with nextSeq := c.nextSeq + 1 }).hasRoom n (kind.toNat - 1) = s.hasRoom n (kind.toNat - 1) :=
    s.hasRoom_formedAt n x _
  have hkind : ((s.core n).form kind op ra body).kind = kind.toNat := rfl
  simp only [execCmd, hd.runs, Bool.not_true, Bool.false_eq_true, if_false, if_neg hk, hheld, hx', hkind, hroom]
  rfl

end

/-- Settles O6: a command is formed by `execCmd_forms` and placed by `State.place_advance`. -/
theorem commandIssue : Obligations.CommandIssue := by
  constructor
  · intro s n kind op ra body h q
    have hq : 1 ≤ kind.toNat ∧ kind.toNat ≤ 5 → ¬ (kind = 0 ∨ 5 < kind.toNat) := by
      rintro ⟨h1, h5⟩ (h0 | hlt)
      · simp [h0] at h1
      · omega
    refine ⟨fun hk hroom => ?placed, fun hk hroom => ?waits, fun hk => ?unlisted⟩
    case placed =>
      have hlt : q < 5 := by omega
      obtain ⟨x, hx⟩ := execCmd_forms (op := op) (ra := ra) (body := body) h (hq hk)
      rw [if_pos hroom] at hx
      obtain ⟨hcore, -, hmem, hcount⟩ := State.place_advance (s := s.formedAt n x) (d := (s.core n).form kind op ra body)
        (by rw [State.core_formedAt]; exact h.1.next)
      refine ⟨_, hx, ⟨_, Core.form_formed _ kind op ra body, ?_⟩, fun p hp hne => ?_, ?_, fun r => ?_, hcount, hmem⟩ <;>
        rw [hcore, State.core_formedAt]
      · exact Core.queueOf_issued_same _ _ hlt
      · exact Core.queueOf_issued_other _ _ hlt hp hne
      · rfl
      · exact Core.reg_issued _ _ r
    case waits =>
      obtain ⟨x, hx⟩ := execCmd_forms (op := op) (ra := ra) (body := body) h (hq hk)
      have hfull : s.hasRoom n (kind.toNat - 1) = false := hroom
      rw [hfull, if_neg Bool.false_ne_true] at hx
      refine ⟨_, hx, ⟨_, Core.form_formed _ kind op ra body, ?_⟩, ?_, fun p hp => ?_, rfl⟩ <;> rw [State.core_onCore_same]
      all_goals rw [State.core_formedAt]
      rfl
    case unlisted =>
      have hx : exec (.cmd n kind op ra body false) s = .next (s.endItem n 0x0203 0) := by
        show execCmd n kind op ra body false s = _
        simp only [execCmd, h.1.runs, Bool.not_true, Bool.false_eq_true, if_false, if_pos hk]
      exact endsItem_of_endItem hx
  · intro s n d hwait h1 h5 hroom hheld hnext
    have hx : exec (.queueSpaceIssue n) s = .next (((s.setCore n { s.core n with wait := none }).place n d).advance n) := by
      show execQueueSpaceIssue n s = _
      simp [execQueueSpaceIssue, hwait, hroom, hheld]
    obtain ⟨hcore, ho, hmem, -⟩ := State.place_advance (s := s.setCore n { s.core n with wait := none }) (d := d)
      (by rw [State.core_setCore_same]; exact hnext)
    refine ⟨_, hx, ?_, ?_, ?_, fun r => ?_, hmem, fun m hm => (ho m hm).trans (s.core_setCore_other n m _ hm)⟩ <;>
      rw [hcore, State.core_setCore_same]
    · exact Core.wait_issued _ _
    · exact Core.queueOf_issued_same _ _ (by omega)
    · rfl
    · exact Core.reg_issued _ _ r

end Sys2Proof.Machine

namespace Sys2Proof.Machine
open Host (Outcome)

/-! ## Waits, frame checks, gating, cache lines (R73, R91, R154, R161) -/

section
variable {s : State} {n : CoreId} {q : BitVec 3} {imm : Imm} {k : Nat}

theorem State.advance_wrote (s : State) (n : Nat) (h : (s.core n).pc + 1 < (s.core n).instrCount) :
    wroteReg s (s.advance n) n 0 0 ((s.core n).pc + 1) := by
  rw [s.advance_eq n h]
  exact s.setPc_wrote n _

theorem execWaitq_of_count (hr : s.cpRuns n = true) (hk : s.waitCount n q = some k) : execWaitq n q imm s =
    if k ≤ imm.toNat then .next (s.advance n) else .next (s.onCore n fun c => { c with wait := some (.waitq q.toNat imm.toNat) }) := by
  simp [execWaitq, hr, hk]

theorem execWaitq_of_no_queue (hr : s.cpRuns n = true) (hq : q = 5 ∨ q = 6) : execWaitq n q imm s = .next (s.endItem n 0x0301 0) := by
  have hk : s.waitCount n q = none := if_pos hq
  simp [execWaitq, hr, hk, State.illegal]

theorem waitqSatisfied_ends (hw : (s.core n).wait = some (.waitq q.toNat imm.toNat)) (hk : s.waitCount n q = some k) (hle : k ≤ imm.toNat)
    (hnext : (s.core n).pc + 1 < (s.core n).instrCount) : completes (.waitqSatisfied n) s fun t =>
      (t.core n).wait = none ∧ (t.core n).pc = (s.core n).pc + 1 ∧ (∀ r, (t.core n).reg r = (s.core n).reg r) ∧ onlyCore s t n := by
  have hx : exec (.waitqSatisfied n) s = .next ((s.setCore n { s.core n with wait := none }).advance n) := by
    show execWaitqSatisfied n s = _
    simp [execWaitqSatisfied, hw, hk, hle]
  rw [State.advance_eq _ n (by rw [State.core_setCore_same]; exact hnext)] at hx
  refine ⟨_, hx, ?_, ?_, fun r => ?_, (onlyCore_setCore s n _).trans (onlyCore_onCore _ n _)⟩ <;>
    rw [State.core_onCore_same, State.core_setCore_same]
  rfl

end

/-- Bytes just written are read. -/
theorem wroteScratch.sread {s t : State} {n a : Nat} {bs : List Byte} (h : wroteScratch s t n a bs) : (t.core n).sread n a bs.length = bs := by
  apply List.ext_getElem
  · simp
  · intro i h1 h2
    simp [Core.sread, h.1, h2]

section
variable {s : State} {n : CoreId} {ra : Reg} {q : BitVec 3} {imm : Imm} {k : Nat} (hk : (if q.getLsbD 0 then 64 else 32) = k) (h : dciAt s n)
include hk h

/-- FCHK ends the work item where its frame is misaligned or out of range (R154). -/
theorem execFchk_fails {status : Nat} (hs : scratchStatus ((s.core n).addr ra imm) k = some status) :
    execFchk n ra q imm false s = .next (s.endItem n status 0) := by
  simp only [execFchk, h.runs, Bool.not_true, Bool.false_eq_true, if_false, hk, hs]

/-- FCHK puts the module check of a frame into its last two bytes (R161). -/
theorem fchk_writes (hok : scratchOk s n ((s.core n).addr ra imm) k true) : completes (.fchk n ra q imm false) s fun t =>
    let a := (s.core n).addr ra imm
    wroteScratch s t n (a + k - 2) (toLE 2 (moduleCheck ((s.core n).sread n a (k - 2))).toNat) := by
  obtain ⟨x, hx⟩ := s.ite_itemChaff_frame n ((s.core n).schaffIn ((s.core n).addr ra imm) k)
  refine ⟨_, ?_, s.swrite_wroteScratch h.next x _ _ ((s.core n).schaffIn ((s.core n).addr ra imm) k || (s.core n).tag ra)
    ((s.core n).addr ra imm + k - 2) 2⟩
  show execFchk n ra q imm false s = _
  simp only [execFchk, h.runs, Bool.not_true, Bool.false_eq_true, if_false, hk, hok.status, hok.2.2, if_true, hx]
  rfl

end

/-- A missing line of the image enters, and of the lines that stood none is new (R73). -/
theorem execIcacheFill_fills {s : State} {n : CoreId} {line : Nat} (hi : (s.core n).image.isSome = true)
    (hl : line * 32 < (s.core n).instrCount) (hm : line ∉ (s.core n).lines) : ∃ ls, (∀ l ∈ ls, l ∈ (s.core n).lines) ∧
      execIcacheFill n line s = .next (s.setCore n { s.core n with lines := ls ++ [line] }) := by
  have hc : ((s.core n).image.isSome && decide (line * 32 < (s.core n).instrCount) && !(s.core n).lines.contains line) = true := by
    simp [hi, hl, hm]
  unfold execIcacheFill
  dsimp only
  rw [if_pos hc]
  refine ⟨_, fun l h => ?_, rfl⟩
  split at h
  · exact h
  · split at h
    · exact List.mem_of_mem_filter h
    · exact h

theorem icacheFill_fills {s : State} {n : CoreId} {line : Nat} (hi : (s.core n).image.isSome = true) (hl : line * 32 < (s.core n).instrCount)
    (hm : line ∉ (s.core n).lines) : completes (.icacheFill n line) s fun t =>
      line ∈ (t.core n).lines ∧ (∀ l ∈ (t.core n).lines, l = line ∨ l ∈ (s.core n).lines) ∧ (t.core n).pc = (s.core n).pc ∧ onlyCore s t n := by
  obtain ⟨ls, hsub, hx⟩ := execIcacheFill_fills hi hl hm
  refine ⟨_, hx, ?_, fun l h => ?_, ?_, onlyCore_setCore s n _⟩
  · simp
  · rw [State.core_setCore_same] at h
    obtain h | h := List.mem_append.mp h
    · exact .inr (hsub l h)
    · exact .inl (List.mem_singleton.mp h)
  · rw [State.core_setCore_same]

/-- Settles O7, each row by what it does above; FCHK writes as `wroteScratch` says. -/
theorem waitqFchkGateLine : Obligations.WaitqFchkGateLine := by
  intro s n q ra imm line
  refine ⟨fun h k hk hle => ?goesOn, fun h k hk hlt => ?waits, fun h hq => ?illegal, fun k => waitqSatisfied_ends, ?fchk, fun h0 => ?gates,
    icacheFill_fills⟩
  case goesOn =>
    have hx : exec (.waitq n q imm) s = _ := execWaitq_of_count h.runs hk
    rw [if_pos hle] at hx
    exact ⟨_, hx, s.advance_wrote n h.next⟩
  case waits =>
    have hx : exec (.waitq n q imm) s = _ := execWaitq_of_count h.runs hk
    rw [if_neg (Nat.not_le.mpr hlt)] at hx
    refine ⟨_, hx, ?_, ?_, onlyCore_onCore s n _⟩ <;> rw [State.core_onCore_same]
  case illegal => exact endsItem_of_endItem (execWaitq_of_no_queue h.runs hq)
  case fchk =>
    intro k a
    have h2 : 2 ≤ k := by simp only [k]; split <;> decide
    refine ⟨fun h hok => ?_, fun h hm => endsItem_of_endItem (execFchk_fails rfl h (scratchStatus_misaligned hm)),
      fun h hm hle => endsItem_of_endItem (execFchk_fails rfl h (scratchStatus_beyond hm hle))⟩
    obtain ⟨t, hx, hw⟩ := fchk_writes rfl h hok
    have hread := hw.sread
    obtain ⟨hget, hreg, hpc, ho⟩ := hw
    refine ⟨t, hx, hread, fun b hb => ?_, hpc, ho⟩
    refine (hget b).trans (if_neg ?_)
    rw [toLE_length]
    change ¬ (a + k - 2 ≤ b ∧ b < a + k - 2 + 2)
    omega
  case gates =>
    have hx : exec (.arrayGate n) s = .next (s.setCore n { s.core n with gated := true, wake := 0 }) := if_pos h0
    refine ⟨_, hx, ?_, ?_, onlyCore_setCore s n _⟩ <;> rw [State.core_setCore_same]

end Sys2Proof.Machine

namespace Sys2Proof.Machine
open Host (Outcome)

/-! ## CSRs, END, ERR and illegal words (R153, R155, R157) -/

section
variable {s : State} {n : CoreId} {rd ra : Reg} {imm : Imm} (h : dciAt s n)

theorem State.csr_unlisted {i : Nat} (hi : i ∉ ([0, 1, 2, 3, 4, 5, 6, 7, 0x10, 0x11, 0x12, 0x13, 0x14, 0x18, 0x20, 0x21] : List Nat)) (m : Nat) :
    s.csr m i = none := by
  simp only [List.mem_cons, List.not_mem_nil, or_false, not_or] at hi
  unfold State.csr
  dsimp only
  split
  · rfl
  · repeat rw [if_neg (by omega)]

include h

theorem csrr_gives {v : W64} (hi : imm.toNat ≠ 0x20) (hv : s.csr n imm.toNat = some v) : gives (.csrr n rd imm false) s n rd v := by
  have hx : execCsrr n rd imm false s = .next (s.result n rd v false) := by
    rw [execCsrr, s.dci_eq n _ h.runs]
    simp only [hv, if_neg hi]
  exact gives_of_result h hx

theorem csrr_unlisted (hi : s.csr n imm.toNat = none) : endsItem (.csrr n rd imm false) s n 0x0301 0 := by
  have hx : execCsrr n rd imm false s = .next (s.endItem n 0x0301 0) := by
    rw [execCsrr, s.dci_eq n _ h.runs]
    simp only [hi, State.illegal]
  exact endsItem_of_endItem hx

/-- A change of the core that leaves its place in the image, and on to the next instruction. -/
theorem State.onCore_advance {f : Core → Core} (hpc : (f (s.core n)).pc = (s.core n).pc) (hc : (f (s.core n)).instrCount = (s.core n).instrCount) :
    ((s.onCore n f).advance n).core n = { f (s.core n) with pc := (s.core n).pc + 1 } ∧ onlyCore s ((s.onCore n f).advance n) n := by
  rw [State.advance_eq _ n (by rw [State.core_onCore_same, hpc, hc]; exact h.next)]
  obtain ⟨hcore, ho⟩ := s.onCore_onCore n f fun c => { c with pc := c.pc + 1 }
  exact ⟨by rw [hcore, hpc], ho⟩

/-- A read of TIME_NS latches TIME_S (R155). -/
theorem csrr_time {v : W64} (hi : imm.toNat = 0x20) (hv : s.csr n imm.toNat = some v) : completes (.csrr n rd imm false) s fun t =>
    (t.core n).reg rd = (if rd = 0 then 0 else v) ∧ (t.core n).timeS = s.timeS ∧ onlyCore s t n := by
  let t := s.onCore n fun c => { c with timeS := s.timeS }
  have ht : t.core n = { s.core n with timeS := s.timeS } := s.core_onCore_same n _
  have hx : execCsrr n rd imm false s = .next ((t.onCore n fun c => c.setReg rd v false).advance n) := by
    rw [execCsrr, s.dci_eq n _ h.runs]
    simp only [hv, if_pos hi]
    rfl
  have hreg : (t.core n).timeS = s.timeS ∧ ((t.core n).setReg rd v false).timeS = (t.core n).timeS := by
    rw [ht]
    unfold Core.setReg
    exact ⟨rfl, by split <;> rfl⟩
  rw [State.advance_eq _ n (by rw [State.core_onCore_same, Core.setReg_pc, Core.setReg_instrCount, ht]; exact h.next)] at hx
  obtain ⟨hcore, ho⟩ := t.onCore_onCore n (fun c => c.setReg rd v false) fun c => { c with pc := c.pc + 1 }
  refine ⟨_, hx, ?_, ?_, (onlyCore_onCore s n _).trans ho⟩ <;> rw [hcore]
  · refine (Core.reg_setReg (t.core n) rd rd v false).trans ?_
    by_cases h0 : rd = 0
    · rw [if_neg (by simp [h0]), if_pos h0, h0]
      rfl
    · rw [if_pos ⟨rfl, h0⟩, if_neg h0]
  · exact hreg.2.trans hreg.1

end

/-- Settles O8: the CSRs by `State.csr`, the ends by `State.endItem_ended`. -/
theorem csrEndErrIllegal : Obligations.CsrEndErrIllegal := by
  intro s n rd ra imm word w h hw c v
  refine ⟨?reads, fun hi => ?time, fun hi => csrr_unlisted h (State.csr_unlisted hi _), fun hi => ?layer, fun hi => ?oper, fun hi => ?readOnly,
    ?err, ?endItem, fun hl => ?illegal⟩
  case reads =>
    have hring : (w.ring.map (· % 4)).getD 0 = w.ring.getD 0 % 4 := by cases w.ring <;> rfl
    simp only [List.forall_mem_cons, List.not_mem_nil, false_imp_iff, implies_true, and_true]
    and_intros
    all_goals exact fun hi => csrr_gives h (by rw [hi]; decide) (by rw [hi]; simp [State.csr, hw, hring, c])
  case time => exact csrr_time h hi (by rw [hi]; simp [State.csr, hw, State.timeNs])
  case layer =>
    have hx : exec (.csrw n ra imm false) s = .next ((s.onCore n fun c => { c with layer := v }).advance n) := by
      show execCsrw n ra imm false s = _
      rw [execCsrw, s.dci_eq n _ h.runs]
      simp only [if_pos hi]
      rfl
    obtain ⟨hcore, ho⟩ := State.onCore_advance (f := fun c => { c with layer := v }) h rfl rfl
    refine ⟨_, hx, ?_, ?_, ?_, fun r => ?_, ho⟩ <;> rw [hcore]
    rfl
  case oper =>
    have hx : exec (.csrw n ra imm false) s = .next ((s.onCore n fun c => { c with oper := v }).advance n) := by
      show execCsrw n ra imm false s = _
      rw [execCsrw, s.dci_eq n _ h.runs]
      simp only [hi, one_ne_zero, if_false, if_true]
      rfl
    obtain ⟨hcore, ho⟩ := State.onCore_advance (f := fun c => { c with oper := v }) h rfl rfl
    refine ⟨_, hx, ?_, ?_, ?_, fun r => ?_, ho⟩ <;> rw [hcore]
    rfl
  case readOnly =>
    have hx : execCsrw n ra imm false s = .next (s.endItem n 0x0301 0) := by
      rw [execCsrw, s.dci_eq n _ h.runs, if_neg (by omega), if_neg (by omega), State.illegal]
    exact endsItem_of_endItem hx
  case err => exact ⟨_, s.dci_eq n (fun s => s.endItem n 0x0305 (((s.core n).reg ra).toNat % 65536)) h.runs, s.endItem_ended n _ _⟩
  case endItem =>
    have hx : exec (.endItem n) s = .next (s.onCore n fun c => { c with wait := some .ending }) := if_pos h.runs
    refine ⟨_, hx, ?_, ?_, ?_, rfl, onlyCore_onCore s n _⟩ <;> rw [State.core_onCore_same]
  case illegal =>
    have hx : exec (.dciIllegalInstruction n word) s = .next (s.endItem n 0x0301 0) := by
      show execDciIllegalInstruction n word s = _
      simp only [execDciIllegalInstruction, h.runs, hl, Bool.not_false, Bool.and_self, if_true, State.illegal]
    exact ⟨_, hx, s.endItem_ended n _ _⟩

end Sys2Proof.Machine

namespace Sys2Proof.Machine
open Host (Outcome)

/-! ## O22: the registers of a submission ring (R136 to R141, R172, R178) -/

section
variable (s : State) (r : RingId)

theorem bitsOf_lt (v lo w : Nat) : bitsOf v lo w < 2 ^ w := Nat.mod_lt _ (by positivity)

theorem logOf_lt (v : Nat) : logOf v < 2 ^ 5 := by
  unfold logOf
  split <;> omega

/-- What an address register of a ring holds after a write that is neither ignored nor out of range. -/
theorem State.setBase_spec {addr loc : Fld} (hid : addr.id % 1024 ≠ loc.id % 1024) (ha : addr.width = 52) (hl : loc.width = 1) (val : W64) :
    let t := (s.fset addr r (val.toNat / 4096)).fset loc r (val.toNat % 2)
    t.fget addr r = val.toNat / 4096 ∧ t.fget loc r = val.toNat % 2 ∧ regsOnly s t [(addr, r.val), (loc, r.val)] := by
  have hv : val.toNat / 4096 < 2 ^ 52 := by have := val.isLt; omega
  refine ⟨?_, ?_, (s.regsOnly_fset _ (by simp)).trans (State.regsOnly_fset _ _ (by simp))⟩
  · rw [State.fget_fset_of_id _ hid, State.fget_fset_same, ha, Nat.mod_eq_of_lt hv]
  · rw [State.fget_fset_same, hl]
    omega

theorem ringBaseWrite_written (val : W64) (he : s.flag F.ringCfg_ENABLE r = false) (hv : bitAt val.toNat 0 = false ∨ bitsOf val.toNat 30 34 = 0) :
    (completes (.ringBaseWrite r false val) s fun t =>
      t.fget F.ringBase_ADDR r = val.toNat / 4096 ∧ t.fget F.ringBase_LOC r = val.toNat % 2 ∧
        regsOnly s t [(F.ringBase_ADDR, r.val), (F.ringBase_LOC, r.val)]) ∧
    (completes (.ringBaseWrite r true val) s fun t =>
      t.fget F.cplBase_ADDR r = val.toNat / 4096 ∧ t.fget F.cplBase_LOC r = val.toNat % 2 ∧
        regsOnly s t [(F.cplBase_ADDR, r.val), (F.cplBase_LOC, r.val)]) := by
  have hok : (bitAt val.toNat 0 && bitsOf val.toNat 30 34 ≠ 0) = false := by
    rcases hv with h | h <;> simp [h]
  have hrun : ∀ cpl, exec (.ringBaseWrite r cpl val) s =
      .next (if cpl then (s.fset F.cplBase_ADDR r (val.toNat / 4096)).fset F.cplBase_LOC r (val.toNat % 2)
        else (s.fset F.ringBase_ADDR r (val.toNat / 4096)).fset F.ringBase_LOC r (val.toNat % 2)) := by
    intro cpl
    show execRingBaseWrite r cpl val s = _
    unfold execRingBaseWrite
    dsimp only
    rw [he, hok]
    cases cpl <;> rfl
  exact ⟨⟨_, hrun false, s.setBase_spec r (by decide) rfl rfl val⟩, ⟨_, hrun true, s.setBase_spec r (by decide) rfl rfl val⟩⟩

theorem ringBaseWrite_outOfRange (val : W64) (he : s.flag F.ringCfg_ENABLE r = false) (hl : bitAt val.toNat 0 = true)
    (hv : bitsOf val.toNat 30 34 ≠ 0) (cpl : Bool) :
    completes (.ringBaseWrite r cpl val) s fun t => t.flag F.ringCtl_BASE_ERR r = true ∧ regsOnly s t [(F.ringCtl_BASE_ERR, r.val)] := by
  refine ⟨s.fset F.ringCtl_BASE_ERR r 1, ?_, ?_, s.regsOnly_fset _ (by simp)⟩
  · show execRingBaseWrite r cpl val s = _
    simp [execRingBaseWrite, he, hl, hv]
  · rw [State.flag_eq_true, State.fget_fset_same]
    decide

theorem ringBaseWrite_ignored (val : W64) (cpl : Bool) (he : s.flag F.ringCfg_ENABLE r = true) :
    completes (.ringBaseWrite r cpl val) s fun t => t = s := by
  refine ⟨s, ?_, rfl⟩
  show execRingBaseWrite r cpl val s = _
  simp only [execRingBaseWrite, he, if_true]

/-- RING_CFG with new sizes, while the ring may take them (Table 5-3). -/
def State.cfgSizes (s : State) (r v : Nat) : State :=
  let cl := logOf (bitsOf v 24 5)
  let rl := logOf (bitsOf v 16 5)
  if !s.flag F.ringCfg_ENABLE r && s.flag F.ringState_IDLE r && (cl ≠ s.fget F.ringCfg_CPL_LOG2 r || rl ≠ s.fget F.ringCfg_RING_LOG2 r) then
    ((s.fset F.ringCfg_CPL_LOG2 r cl).fset F.ringCfg_RING_LOG2 r rl).zeroIndices r
  else s

/-- RING_CFG with a new vector and interrupt bit as well. -/
def State.cfgSet (s : State) (r v : Nat) : State :=
  ((s.cfgSizes r v).fset F.ringCfg_VECTOR r (bitsOf v 8 8)).fset F.ringCfg_IRQ r (bitsOf v 1 1)

theorem execRingCfgWrite_eq (v : W32) : exec (.ringCfgWrite r v) s =
    (let on := s.flag F.ringCfg_ENABLE r
     let t := s.cfgSet r v.toNat
     if bitAt v.toNat 0 && !on && !t.isReady then .next t
     else if bitAt v.toNat 0 then
       .next ((t.fset F.ringCfg_ENABLE r 1).onRing r fun x =>
         { x with disabling := false, next := if on then x.next else none, fetched := if on then x.fetched else none })
     else if on then .next ((t.onRing r fun x => { x with disabling := true }).ringState r)
     else .next t) := rfl

end

section
variable (s : State) (r v : Nat)

/-- Fields that a write of RING_CFG does not change before it takes ENABLE. -/
theorem State.fget_cfgSet {f : Fld} (hf : f.id % 1024 ∉ [F.ringCfg_CPL_LOG2.id % 1024, F.ringCfg_RING_LOG2.id % 1024, F.ringCfg_VECTOR.id % 1024,
      F.ringCfg_IRQ.id % 1024, F.ringHead_HEAD.id % 1024, F.cplTail_TAIL.id % 1024, F.cplHead_HEAD.id % 1024]) (i : Nat) :
    (s.cfgSet r v).fget f i = s.fget f i := by
  simp only [List.mem_cons, List.not_mem_nil, or_false, not_or] at hf
  obtain ⟨h1, h2, h3, h4, h5, h6, h7⟩ := hf
  unfold State.cfgSet State.cfgSizes State.zeroIndices
  rw [State.fget_fset_of_id _ h4, State.fget_fset_of_id _ h3]
  dsimp only
  split
  · rw [State.fget_onRing, State.fget_fset_of_id _ h7, State.fget_fset_of_id _ h6, State.fget_fset_of_id _ h5, State.fget_fset_of_id _ h2,
      State.fget_fset_of_id _ h1]
  · rfl

theorem State.ring_cfgSet : ∃ tail, (s.cfgSet r v).ring r = { s.ring r with tail := tail } := by
  unfold State.cfgSet State.cfgSizes State.zeroIndices
  simp only [State.ring_fset]
  split
  · exact ⟨0, State.ring_onRing_same _ _ _⟩
  · exact ⟨_, rfl⟩

theorem State.cfgSet_mem : (s.cfgSet r v).mem = s.mem := by
  unfold State.cfgSet State.cfgSizes
  rw [State.fset_mem, State.fset_mem]
  dsimp only
  split
  · rw [State.zeroIndices_mem, State.fset_mem, State.fset_mem]
  · rfl

theorem State.cfgSizes_logs (he : s.flag F.ringCfg_ENABLE r = false) (hi : s.flag F.ringState_IDLE r = true) :
    (s.cfgSizes r v).fget F.ringCfg_RING_LOG2 r = logOf (bitsOf v 16 5) ∧ (s.cfgSizes r v).fget F.ringCfg_CPL_LOG2 r = logOf (bitsOf v 24 5) := by
  have hw : ∀ w, logOf w % 2 ^ 5 = logOf w := fun w => Nat.mod_eq_of_lt (logOf_lt w)
  unfold State.cfgSizes
  simp only [he, hi, Bool.not_false, Bool.true_and]
  split
  next hne =>
    unfold State.zeroIndices
    constructor
    · rw [State.fget_onRing, State.fget_fset_of_id _ (by decide), State.fget_fset_of_id _ (by decide), State.fget_fset_of_id _ (by decide),
        State.fget_fset_same]
      exact hw _
    · rw [State.fget_onRing, State.fget_fset_of_id _ (by decide), State.fget_fset_of_id _ (by decide), State.fget_fset_of_id _ (by decide),
        State.fget_fset_of_id _ (by decide), State.fget_fset_same]
      exact hw _
  next heq =>
    simp only [ne_eq, Bool.or_eq_true, decide_eq_true_eq, not_or, Decidable.not_not] at heq
    exact ⟨heq.2.symm, heq.1.symm⟩

/-- What RING_CFG holds once its fields are taken. -/
theorem State.cfgSet_fields (he : s.flag F.ringCfg_ENABLE r = false) (hi : s.flag F.ringState_IDLE r = true) :
    (s.cfgSet r v).fget F.ringCfg_VECTOR r = bitsOf v 8 8 ∧ (s.cfgSet r v).fget F.ringCfg_IRQ r = bitsOf v 1 1 ∧
    (s.cfgSet r v).fget F.ringCfg_RING_LOG2 r = logOf (bitsOf v 16 5) ∧ (s.cfgSet r v).fget F.ringCfg_CPL_LOG2 r = logOf (bitsOf v 24 5) := by
  obtain ⟨hr, hc⟩ := s.cfgSizes_logs r v he hi
  unfold State.cfgSet
  refine ⟨?_, ?_, ?_, ?_⟩
  · rw [State.fget_fset_of_id _ (by decide), State.fget_fset_same]
    exact Nat.mod_eq_of_lt (bitsOf_lt _ _ _)
  · rw [State.fget_fset_same]
    exact Nat.mod_eq_of_lt (bitsOf_lt _ _ _)
  · rw [State.fget_fset_of_id _ (by decide), State.fget_fset_of_id _ (by decide), hr]
  · rw [State.fget_fset_of_id _ (by decide), State.fget_fset_of_id _ (by decide), hc]

end

section
variable (s : State) (r : RingId) (v : W32)

theorem ringCfgWrite_enables (he : s.flag F.ringCfg_ENABLE r = false) (hi : s.flag F.ringState_IDLE r = true) (hb : bitAt v.toNat 0 = true)
    (hr : s.isReady = true) : completes (.ringCfgWrite r v) s fun t =>
      t.flag F.ringCfg_ENABLE r = true ∧ t.fget F.ringCfg_VECTOR r = bitsOf v.toNat 8 8 ∧ t.fget F.ringCfg_IRQ r = bitsOf v.toNat 1 1 ∧
      t.fget F.ringCfg_RING_LOG2 r = logOf (bitsOf v.toNat 16 5) ∧ t.fget F.ringCfg_CPL_LOG2 r = logOf (bitsOf v.toNat 24 5) ∧
      (t.ring r).next = none ∧ (t.ring r).steps = (s.ring r).steps ∧ t.mem = s.mem := by
  have hready : (s.cfgSet r v.toNat).isReady = true := by
    have hst : (s.cfgSet r v.toNat).bringState = s.bringState := s.fget_cfgSet _ _ (by decide) _
    unfold State.isReady at hr ⊢
    rw [hst]
    exact hr
  obtain ⟨hV, hI, hR, hC⟩ := s.cfgSet_fields r v.toNat he hi
  obtain ⟨_, hring⟩ := s.ring_cfgSet r v.toNat
  refine ⟨_, by rw [execRingCfgWrite_eq]; simp only [he, hb, hready, Bool.not_true, Bool.and_false, Bool.false_eq_true, if_false, if_true]; rfl, ?_⟩
  refine ⟨?_, ?_, ?_, ?_, ?_, ?_, ?_, ?_⟩
  · rw [State.flag_eq_true, State.fget_onRing, State.fget_fset_same]
    decide
  · rw [State.fget_onRing, State.fget_fset_of_id _ (by decide), hV]
  · rw [State.fget_onRing, State.fget_fset_of_id _ (by decide), hI]
  · rw [State.fget_onRing, State.fget_fset_of_id _ (by decide), hR]
  · rw [State.fget_onRing, State.fget_fset_of_id _ (by decide), hC]
  · rw [State.ring_onRing_same]
  · rw [State.ring_onRing_same, State.ring_fset, hring]
  · rw [State.onRing_mem, State.fset_mem, State.cfgSet_mem]

theorem ringCfgWrite_disables (he : s.flag F.ringCfg_ENABLE r = true) (hb : bitAt v.toNat 0 = false) :
    completes (.ringCfgWrite r v) s fun t =>
      (if (s.ring r).steps = [] ∧ (s.ring r).hold = none then t.flag F.ringCfg_ENABLE r = false
       else t.flag F.ringCfg_ENABLE r = true ∧ (t.ring r).disabling = true) ∧ (t.ring r).steps = (s.ring r).steps ∧ t.mem = s.mem := by
  obtain ⟨_, hring⟩ := s.ring_cfgSet r v.toNat
  have hon : (s.cfgSet r v.toNat).fget F.ringCfg_ENABLE r = s.fget F.ringCfg_ENABLE r := s.fget_cfgSet _ _ (by decide) _
  have hring' : (((s.cfgSet r v.toNat).onRing r fun x => { x with disabling := true }).ring r) =
      { s.ring r with tail := ((s.cfgSet r v.toNat).ring r).tail, disabling := true } := by
    rw [State.ring_onRing_same, hring]
  refine ⟨_, by rw [execRingCfgWrite_eq]; simp only [he, hb, Bool.false_and, Bool.false_eq_true, if_false, if_true]; rfl, ?_, ?_, ?_⟩
  · unfold State.ringState
    simp only [hring', Bool.and_true, Bool.and_eq_true, List.isEmpty_iff, Option.isNone_iff_eq_none]
    split
    · rw [State.flag_eq_false, State.fget_setRing, State.fget_fset_same]
      rfl
    · refine ⟨?_, ?_⟩
      · rw [State.flag_eq_true] at he ⊢
        rw [State.fget_fset_of_id _ (by decide), State.fget_fset_of_id _ (by decide), State.fget_onRing, hon]
        exact he
      · rw [State.ring_fset, State.ring_fset, hring']
  · rw [State.steps_ringState, hring']
  · rw [State.ringState_mem, State.onRing_mem, State.cfgSet_mem]

end

end Sys2Proof.Machine

namespace Sys2Proof.Machine
open Host (Outcome)

/-! ## What the move engine does to the rest of the module (R166, R192 to R206, R257) -/

/-- A move without what its course changes. -/
def Move.fixed (m : Move) : Move :=
  { m with st := .staging, staged := false, drill := false, got := [], waits := 0, msgs := 0, err := 0, dead := false }

/-- The counters that moves change. -/
def moveFields : List Nat :=
  [F.coreCtr_COUNT.id % 1024, F.feClampRd_CLAMP_RD.id % 1024, F.feClampWr_CLAMP_WR.id % 1024, F.chaffRefused_COUNT.id % 1024]

/-- A core whose scratch, first warning and messages alone differ. -/
def Core.worksOn (b c : Core) : Prop :=
  ∃ scratch schaff warn mesh gran, c = { b with scratch := scratch, schaff := schaff, warn := warn, vqMesh := mesh, vqGran := gran }

/-- A ring of whose open steps nothing but what is kept of them differs. -/
def Ring.stepsOn (x y : Ring) : Prop :=
  ∃ f : OpenStep → OpenStep, (∀ o, (f o).step = o.step) ∧ y = { x with steps := x.steps.map f }

/-- Moves have gone on: they are the same ones, and no core, ring or register is changed beyond what moves do. Where `inScratch` holds they
wrote only the scratch of core `n`. -/
def movedOn (inScratch : Prop) (n : Nat) (s t : State) : Prop :=
  (t.moves.map Move.fixed = s.moves.map Move.fixed ∧ t.nextMove = s.nextMove) ∧
  (∀ m, (s.core m).worksOn (t.core m)) ∧
  (∀ q, (s.ring q).stepsOn (t.ring q)) ∧
  (∀ f i, f.id % 1024 ∉ moveFields → t.fget f i = s.fget f i) ∧
  (inScratch → t.mem = s.mem ∧ ∀ m, m ≠ n → t.core m = s.core m)

theorem Core.worksOn.refl (c : Core) : c.worksOn c := ⟨_, _, _, _, _, rfl⟩

theorem Core.worksOn.trans {a b c : Core} (h₁ : a.worksOn b) (h₂ : b.worksOn c) : a.worksOn c := by
  obtain ⟨_, _, _, _, _, rfl⟩ := h₁
  obtain ⟨_, _, _, _, _, rfl⟩ := h₂
  exact ⟨_, _, _, _, _, rfl⟩

theorem Ring.stepsOn.refl (x : Ring) : x.stepsOn x := ⟨id, fun _ => rfl, by simp⟩

theorem Ring.stepsOn.trans {x y z : Ring} (h₁ : x.stepsOn y) (h₂ : y.stepsOn z) : x.stepsOn z := by
  obtain ⟨f, hf, rfl⟩ := h₁
  obtain ⟨g, hg, rfl⟩ := h₂
  exact ⟨g ∘ f, fun o => (hg _).trans (hf o), by simp⟩

theorem Ring.stepsOn.numbers {x y : Ring} (h : x.stepsOn y) : y.steps.map OpenStep.step = x.steps.map OpenStep.step := by
  obtain ⟨f, hf, rfl⟩ := h
  simp [Function.comp_def, hf]

section
variable {P : Prop} {n : Nat}

theorem movedOn.trans {s t u : State} (h₁ : movedOn P n s t) (h₂ : movedOn P n t u) : movedOn P n s u := by
  obtain ⟨⟨hm, hn⟩, hc, hr, hf, hp⟩ := h₁
  obtain ⟨⟨hm', hn'⟩, hc', hr', hf', hp'⟩ := h₂
  refine ⟨⟨hm'.trans hm, hn'.trans hn⟩, fun m => (hc m).trans (hc' m), fun q => (hr q).trans (hr' q),
    fun f i hi => (hf' f i hi).trans (hf f i hi), fun h => ?_⟩
  obtain ⟨ha, hb⟩ := hp h
  obtain ⟨ha', hb'⟩ := hp' h
  exact ⟨ha'.trans ha, fun m hm => (hb' m hm).trans (hb m hm)⟩

/-- Nothing a move is about has changed. -/
theorem movedOn.of_eq {s t : State} (hm : t.moves = s.moves) (hn : t.nextMove = s.nextMove) (hc : t.cores = s.cores) (hs : t.scr = s.scr)
    (hr : t.rings = s.rings) (hg : t.regs = s.regs) (hf : t.cfg = s.cfg) (hmem : t.mem = s.mem) : movedOn P n s t := by
  have hcore : ∀ m, t.core m = s.core m := fun m => by rw [State.core, State.core, hc, hs]
  refine ⟨⟨by rw [hm], hn⟩, fun m => hcore m ▸ .refl _, fun q => ?_, fun f i _ => ?_, fun _ => ⟨hmem, fun m _ => hcore m⟩⟩
  · rw [State.ring, State.ring, hr]
    exact .refl _
  · rw [State.fget, State.fget, hg, hf]

theorem movedOn.refl (s : State) : movedOn P n s s := .of_eq rfl rfl rfl rfl rfl rfl rfl rfl

theorem movedOn.foldl {α : Type} {f : State → α → State} (l : List α) (hf : ∀ s, ∀ x ∈ l, movedOn P n s (f s x)) (s : State) :
    movedOn P n s (l.foldl f s) := by
  induction l generalizing s with
  | nil => exact .refl s
  | cons x l ih => exact (hf s x (by simp)).trans (ih (fun s y hy => hf s y (by simp [hy])) (f s x))

variable (s : State)

theorem State.onMove_movedOn (id : Nat) {f : Move → Move} (hf : ∀ m, (f m).fixed = m.fixed) : movedOn P n s (s.onMove id f) := by
  refine ⟨⟨?_, rfl⟩, fun m => .refl _, fun q => .refl _, fun _ _ _ => rfl, fun _ => ⟨rfl, fun _ _ => rfl⟩⟩
  rw [State.onMove, List.map_map]
  refine List.map_congr_left fun m _ => ?_
  dsimp only [Function.comp]
  split
  · exact hf m
  · rfl

theorem State.fadd_movedOn {f : Fld} (hf : f.id % 1024 ∈ moveFields) (i k : Nat) : movedOn P n s (s.fadd f i k) :=
  ⟨⟨rfl, rfl⟩, fun m => .refl _, fun q => .refl _, fun _ _ hg => s.fget_fset_of_id (fun e => hg (by rw [e]; exact hf)) i _ _,
    fun _ => ⟨rfl, fun _ _ => rfl⟩⟩

theorem State.coreCount_movedOn (c i k : Nat) : movedOn P n s (s.coreCount c i k) := s.fadd_movedOn (by decide) _ _

theorem State.onCore_movedOn {k : Nat} {f : Core → Core} (hk : P → k = n) (hf : (s.core k).worksOn (f (s.core k))) :
    movedOn P n s (s.onCore k f) := by
  refine ⟨⟨rfl, rfl⟩, fun m => ?_, fun q => .refl _, fun _ _ _ => rfl, fun hp => ⟨rfl, fun m hm => ?_⟩⟩
  · by_cases h : m = k
    · subst h
      rw [State.core_onCore_same]
      exact hf
    · rw [State.core_onCore_other _ _ h]
      exact .refl _
  · exact State.core_onCore_other _ _ (hk hp ▸ hm)

theorem State.onStep_movedOn (ring : Option Nat) (step : Nat) {f : OpenStep → OpenStep} (hf : ∀ o, (f o).step = o.step) :
    movedOn P n s (s.onStep ring step f) := by
  unfold State.onStep
  split
  next r =>
    refine ⟨⟨rfl, rfl⟩, fun m => .refl _, fun q => ?_, fun _ _ _ => rfl, fun _ => ⟨rfl, fun _ _ => rfl⟩⟩
    by_cases h : q = r
    · subst h
      rw [State.ring_onRing_same]
      refine ⟨fun o => if o.step = step then f o else o, fun o => ?_, rfl⟩
      dsimp only
      split
      · exact hf o
      · rfl
    · rw [State.ring_onRing_other _ _ _ h]
      exact .refl _
  · exact .refl s

theorem State.noteStep_movedOn (ring : Option Nat) (step : Nat) (core : Option Nat) (addr len : Nat) :
    movedOn P n s (s.noteStep ring step core addr len) := by
  unfold State.noteStep
  repeat' split
  all_goals exact .of_eq rfl rfl rfl rfl rfl rfl rfl rfl

theorem State.wrMarked_movedOn (hp : ¬ P) (a : Nat) (bs : List (Byte × Bool)) : movedOn P n s (s.wrMarked a bs) := by
  unfold State.wrMarked
  dsimp only
  split
  · exact s.fadd_movedOn (by decide) _ _
  · split
    · exact .refl s
    · exact ⟨⟨rfl, rfl⟩, fun m => .refl _, fun q => .refl _, fun _ _ _ => rfl, fun h => absurd h hp⟩

theorem State.recall_movedOn (a k : Nat) : movedOn P n s (s.recall a k) := by
  unfold State.recall
  dsimp only
  split <;> exact .of_eq rfl rfl rfl rfl rfl rfl rfl rfl

theorem State.ssTouch_movedOn (line : Nat) (write whole : Bool) (run : Nat) : movedOn P n s (s.ssTouch line write whole run) := by
  unfold State.ssTouch
  dsimp only
  split
  · exact .of_eq rfl rfl rfl rfl rfl rfl rfl rfl
  · split
    · exact .refl s
    · exact .of_eq rfl rfl rfl rfl rfl rfl rfl rfl

theorem State.reach_movedOn (a k : Nat) (write : Bool) (run : Nat) : movedOn P n s (s.reach a k write run) := by
  unfold State.reach
  split
  · exact .refl s
  · refine (s.recall_movedOn a k).trans ?_
    unfold State.ssTouchN
    split
    · exact .refl _
    · exact .foldl _ (fun s i _ => s.ssTouch_movedOn _ _ _ _) _

theorem State.request_movedOn (src : Src) (p : Packet) (move core ring : Option Nat) (step : Nat) (entry : Option ErrPlace) :
    movedOn P n s (s.request src p move core ring step entry) := .of_eq rfl rfl rfl rfl rfl rfl rfl rfl

theorem State.confirm_movedOn (f : FaultRec) : movedOn P n s (s.confirm f) := .of_eq rfl rfl rfl rfl rfl rfl rfl rfl

theorem State.sendMsg_movedOn (hp : ¬ P) (m : Msg) (mesh : Bool) : movedOn P n s (s.sendMsg m mesh) := by
  refine s.onCore_movedOn (fun h => absurd h hp) ?_
  cases mesh <;> exact ⟨_, _, _, _, _, rfl⟩

theorem State.itemChaff_movedOn (k : Nat) : movedOn P n s (s.itemChaff k) := by
  unfold State.itemChaff
  split
  · exact s.onStep_movedOn _ _ fun _ => rfl
  · exact .refl s

theorem State.warning_movedOn (hk : P → k = n) (status : Nat) : movedOn P n s (s.warning k status) := by
  have hset : movedOn P n s (if (s.core k).warn = 0 then s.setCore k { s.core k with warn := status } else s) := by
    split
    · exact s.onCore_movedOn (f := fun c => { c with warn := status }) hk ⟨_, _, _, _, _, rfl⟩
    · exact .refl s
  unfold State.warning
  dsimp only
  split
  · refine hset.trans (State.onStep_movedOn _ _ _ fun o => ?_)
    split <;> rfl
  · exact hset

theorem State.moveChaff_movedOn (m : Move) : movedOn P n s (s.moveChaff m) := by
  unfold State.moveChaff
  split
  · exact s.itemChaff_movedOn _
  · exact s.onStep_movedOn _ _ fun _ => rfl

theorem State.requestReads_movedOn (m : Move) (as_ : List Nat) : movedOn P n s (s.requestReads m as_) :=
  (movedOn.foldl _ (fun s _ _ => s.request_movedOn _ _ _ _ _ _ _) s).trans (State.onMove_movedOn _ _ fun _ => rfl)

theorem State.countReads_movedOn (as_ : List Nat) : movedOn P n s (s.countReads as_) :=
  .foldl _ (fun s _ _ => s.coreCount_movedOn _ _ _) s

theorem State.reachReads_movedOn (run : Nat) (as_ : List Nat) : movedOn P n s (s.reachReads run as_) :=
  .foldl _ (fun s _ _ => s.reach_movedOn _ _ _ _) s

theorem State.wrCells_movedOn (hp : ¬ P) (cells : List (Nat × Byte × Bool)) : movedOn P n s (s.wrCells cells) :=
  .foldl _ (fun s _ _ => s.wrMarked_movedOn hp _ _) s

theorem State.noteCells_movedOn (ring : Option Nat) (step : Nat) (cells : List (Nat × Byte × Bool)) : movedOn P n s (s.noteCells ring step cells) :=
  .foldl _ (fun s _ _ => s.noteStep_movedOn _ _ _ _ _) s

theorem Core.sputN_worksOn (bs : List Byte) (c : Core) (a : Nat) : c.worksOn (c.sputN a bs) := by
  induction bs generalizing c a with
  | nil => exact .refl c
  | cons b t ih => exact Core.worksOn.trans ⟨_, _, _, _, _, rfl⟩ (ih { c with scratch := c.sput1 a b } (a + 1))

theorem Core.swriteMarked_worksOn (c : Core) (a : Nat) (bs : List (Byte × Bool)) : c.worksOn (c.swriteMarked a bs) :=
  (c.sputN_worksOn _ a).trans ⟨_, _, _, _, _, rfl⟩

end

end Sys2Proof.Machine

namespace Sys2Proof.Machine
open Host (Outcome)

section
variable {P : Prop} {n : Nat} (s : State)

theorem State.isRemote_of_scratch {a : Nat} (h : scrTag ≤ a) : s.isRemote a = false := by
  rw [State.isRemote, moduleOf, if_pos h]

theorem State.isLocal_of_scratch {a : Nat} (h : scrTag ≤ a) : s.isLocal a = false := by
  rw [State.isLocal, moduleOf, if_pos h]
  rfl

/-- The cells as a cancelled move gives them: undefined bytes. -/
def State.givenCells (s : State) (m : Move) (cells : List (Nat × Byte × Bool)) : List (Nat × Byte × Bool) :=
  if m.dead then cells.map (fun c => (c.1, Config.undefByte c.1 s.undefs, c.2.2)) else cells

theorem State.givenCells_scratch (m : Move) {cells : List (Nat × Byte × Bool)} (h : ∀ c ∈ cells, scrTag ≤ c.1) :
    ∀ c ∈ s.givenCells m cells, scrTag ≤ c.1 := by
  unfold State.givenCells
  split
  · intro c hc
    obtain ⟨b, hb, rfl⟩ := List.mem_map.mp hc
    exact h b hb
  · exact h

/-- The bytes a move gives to their places change nothing else. With `P` they all lie in the scratch of its core. -/
theorem State.deliver_movedOn {m : Move} {cells : List (Nat × Byte × Bool)} (h : P → m.core = some n ∧ ∀ c ∈ cells, scrTag ≤ c.1) :
    movedOn P n s (s.deliver m cells) := by
  have hrem : P → (s.givenCells m cells).filter (fun c => s.isRemote c.1) = [] := fun hp =>
    List.filter_eq_nil_iff.mpr fun c hc => by rw [s.isRemote_of_scratch (s.givenCells_scratch m (h hp).2 c hc)]; decide
  have hloc : P → (s.givenCells m cells).filter (fun c => s.isLocal c.1) = [] := fun hp =>
    List.filter_eq_nil_iff.mpr fun c hc => by rw [s.isLocal_of_scratch (s.givenCells_scratch m (h hp).2 c hc)]; decide
  have hcore : ∀ k, m.core = some k → P → k = n := fun k hk hp => Option.some.inj (hk.symm.trans (h hp).1)
  unfold State.deliver
  extract_lets cells' scr rem loc status denied loc' s1 s2 own s3 others s4 grn s5 pk s6
  replace hrem : P → rem = [] := hrem
  replace hloc : P → loc' = [] := fun hp => congrArg (fun l => (l.map fun c => (localOf c.1, c.2)).filter fun c => decide (status c.1 = 0)) (hloc hp)
  have h1 : movedOn P n s s1 := by
    dsimp only [s1]
    clear_value denied
    split
    · exact .refl s
    · exact s.onMove_movedOn _ fun _ => rfl
  have h2 : movedOn P n s1 s2 := by
    dsimp only [s2]
    split
    next k hk =>
      exact .foldl _ (fun s r _ => (s.onCore_movedOn (hcore k hk) (Core.swriteMarked_worksOn _ _ _)).trans (State.noteStep_movedOn _ _ _ _ _ _)) _
    · exact .refl _
  have h3 : movedOn P n s2 s3 := .foldl _ (fun s g hg => by
    have hp : ¬ P := fun hp => by rw [hloc hp] at hg; simp [groupsOf] at hg
    exact ((s.wrCells_movedOn hp _).trans (State.noteCells_movedOn _ _ _ _)).trans (State.coreCount_movedOn _ _ _ _)) _
  have h4 : movedOn P n s3 s4 := .foldl _ (fun s g hg => by
    have hp : ¬ P := fun hp => by rw [show others = groupsOf 256 (loc'.filter _) from rfl, hloc hp] at hg; simp [groupsOf] at hg
    exact s.sendMsg_movedOn hp _ _) _
  have h5 : movedOn P n s4 s5 := .foldl _ (fun s r hr => by
    have hp : ¬ P := fun hp => by rw [show grn = loc'.filter _ from rfl, hloc hp] at hr; simp [runsOf] at hr
    exact ((s.reach_movedOn _ _ _ _).trans (State.wrMarked_movedOn _ hp _ _)).trans (State.noteStep_movedOn _ _ _ _ _ _)) _
  have h6 : movedOn P n s5 s6 := .foldl _ (fun s r _ => s.request_movedOn _ _ _ _ _ _ _) _
  exact (((((h1.trans h2).trans h3).trans h4).trans h5).trans h6).trans (State.onMove_movedOn _ _ fun _ => rfl)

theorem State.zeroPads_movedOn (hp : ¬ P) (c : Contrib) (pads : List Nat) : movedOn P n s (s.zeroPads c pads) := by
  unfold State.zeroPads
  split
  · exact .refl s
  · exact s.deliver_movedOn fun h => absurd h hp

theorem State.sendContribs_movedOn (hp : ¬ P) (cs : List Contrib) (id : Option Nat) : movedOn P n s (s.sendContribs cs id) := by
  have hbegin : movedOn P n s { s with contribs := s.contribs ++ (cs.filter fun c => s.isLocal c.addr).map fun c => { c with pads := c.pads.filter s.isLocal } } :=
    .of_eq rfl rfl rfl rfl rfl rfl rfl rfl
  unfold State.sendContribs
  refine (hbegin.trans (.foldl _ (fun s c _ => s.zeroPads_movedOn hp c _) _)).trans (.foldl _ (fun s c _ => ?_) _)
  dsimp only
  refine movedOn.trans ?_ (State.zeroPads_movedOn _ hp c _)
  cases id with
  | none => exact s.request_movedOn _ _ _ _ _ _ _
  | some i =>
    refine movedOn.trans (movedOn.trans (s.request_movedOn _ _ _ _ _ _ _) (State.onMove_movedOn _ i ?_)) (State.onStep_movedOn _ _ _ ?_)
    · exact fun _ => rfl
    · exact fun _ => rfl

end

/-! ### Where the writes of a move go -/

section
variable {x : Desc} (hx : x.kind = 2)
include hx

theorem Desc.byteAt_scratch (o : Int) : scrTag ≤ x.byteAt o := by
  rw [Desc.byteAt, if_pos hx]
  omega

theorem Desc.scaleAt_scratch (p : Int) : scrTag ≤ x.scaleAt p := by
  rw [Desc.scaleAt, if_pos hx]
  omega

theorem Desc.put_scratch (whole : Int → Bool) (rd : Nat → Byte × Bool) (p : Int) (raw : Nat) (ch : Bool) :
    ∀ c ∈ (x.put whole rd p raw ch).1, scrTag ≤ c.1 := by
  unfold Desc.put
  dsimp only
  split
  · intro c hc
    rw [List.mem_singleton.mp hc]
    exact x.byteAt_scratch hx _
  · intro c hc
    obtain ⟨i, -, hi⟩ := List.mem_filterMap.mp hc
    split at hi
    · rw [← Option.some.inj hi]
      exact x.byteAt_scratch hx _
    · contradiction

end

/-- All writes of a log go to scratch. -/
def logInScratch (log : List (List (Nat × Byte × Bool))) : Prop := ∀ w ∈ log, ∀ c ∈ w, scrTag ≤ c.1

theorem logInScratch_iff (log : List (List (Nat × Byte × Bool))) : logInScratch log ↔ ∀ c ∈ log.flatten, scrTag ≤ c.1 :=
  ⟨fun h c hc => let ⟨w, hw, hcw⟩ := List.mem_flatten.mp hc; h w hw c hcw, fun h w hw c hc => h c (List.mem_flatten.mpr ⟨w, hw, hc⟩)⟩

theorem MoveOut.add_inScratch {o : MoveOut} (h : logInScratch o.log) {w : List (Nat × Byte × Bool)} (hw : ∀ c ∈ w, scrTag ≤ c.1) (bad : List Nat) :
    logInScratch (o.add w bad).log := by
  intro v hv c hc
  rcases List.mem_append.mp hv with hv | hv
  · exact h v hv c hc
  · rw [List.mem_singleton.mp hv] at hc
    obtain ⟨b, hb, rfl⟩ := List.mem_map.mp hc
    exact hw b hb

theorem Move.writes_inScratch {m : Move} (hm : m.dst.kind = 2) (rd : Nat → Byte × Bool) (els : List MoveEl) :
    logInScratch (m.writes rd els).log := by
  unfold Move.writes
  refine List.foldlRecOn (motive := fun o : MoveOut => logInScratch o.log) _ _ (by intro w hw; simp at hw) fun o ho e _ => ?_
  have hpads := List.foldlRecOn (motive := fun o : MoveOut => logInScratch o.log) (m.dst.pads m.dst.elementPositions e.dst)
    (fun o p => o.add (m.dst.put (wholeIn m.dst.etype (m.written els)) (ovr rd o.ov) p 0 false).1
      (m.dst.put (wholeIn m.dst.etype (m.written els)) (ovr rd o.ov) p 0 false).2) ho
    fun o ho p _ => MoveOut.add_inScratch ho (Desc.put_scratch hm _ _ _ _ _) _
  dsimp only
  generalize (List.foldl _ o _ : MoveOut) = o₁ at hpads ⊢
  have hone : ∀ o : MoveOut, logInScratch o.log → ∀ (a : Nat) (y : Byte × Bool), scrTag ≤ a → logInScratch (o.add [(a, y)] []).log :=
    fun o ho a y ha => MoveOut.add_inScratch ho (by simpa using ha) _
  have hel : ∀ o₂ : MoveOut, logInScratch o₂.log → logInScratch (match e.scale with
      | some b => o₂.add [(m.dst.scaleAt e.p, b, e.chaff)] []
      | none => o₂).log := by
    intro o₂ h₂
    split
    · exact hone _ h₂ _ _ (Desc.scaleAt_scratch hm _)
    · exact h₂
  apply hel
  split
  · split
    · exact hone _ hpads _ _ (Desc.byteAt_scratch hm _)
    · exact MoveOut.add_inScratch hpads (Desc.put_scratch hm _ _ _ _ _) _
  · exact MoveOut.add_inScratch hpads (Desc.put_scratch hm _ _ _ _ _) _

theorem mem_piecesOf {log : List (List (Nat × Byte × Bool))} {y : Nat × List (List (Nat × Byte × Bool))} (hy : y ∈ piecesOf log) : ∀ w ∈ y.2, w ∈ log := by
  induction log generalizing y with
  | nil => simp [piecesOf] at hy
  | cons v t ih =>
    unfold piecesOf at hy
    dsimp only at hy
    split at hy
    next k' l r heq =>
      split at hy
      · rcases List.mem_cons.mp hy with rfl | hy
        · intro w hw
          rcases List.mem_cons.mp hw with rfl | hw
          · simp
          · exact List.mem_cons_of_mem _ (ih (y := (k', l)) (by rw [heq]; simp) w hw)
        · exact fun w hw => List.mem_cons_of_mem _ (ih (y := y) (by rw [heq]; exact List.mem_cons_of_mem _ hy) w hw)
      · rcases List.mem_cons.mp hy with rfl | hy
        · intro w hw
          rw [List.mem_singleton.mp hw]
          simp
        · exact fun w hw => List.mem_cons_of_mem _ (ih (y := y) (by rw [heq]; exact hy) w hw)
    next heq =>
      rw [List.mem_singleton.mp hy]
      intro w hw
      rw [List.mem_singleton.mp hw]
      simp

theorem strikeLog_inScratch (flips : List (Nat × Nat)) {log : List (List (Nat × Byte × Bool))} (h : logInScratch log) :
    logInScratch (strikeLog flips log) := by
  intro w hw
  obtain ⟨⟨v, i⟩, hv, rfl⟩ := List.mem_map.mp hw
  refine List.foldlRecOn (motive := fun w : List (Nat × Byte × Bool) => ∀ c ∈ w, scrTag ≤ c.1) _ _ (h v (List.of_mem_zip hv).1) ?_
  intro w hw f _
  split
  · intro c hc
    obtain ⟨⟨b, k⟩, hb, rfl⟩ := List.mem_map.mp hc
    have hin := hw b (List.of_mem_zip hb).1
    dsimp only
    split <;> exact hin
  · exact hw

theorem mem_alPut {α : Type} {l : List (Nat × α)} {k : Nat} {v : α} {c : Nat × α} (h : c ∈ alPut l k v) : c = (k, v) ∨ c ∈ l := by
  induction l with
  | nil => exact .inl (List.mem_singleton.mp h)
  | cons y t ih =>
    obtain ⟨j, w⟩ := y
    unfold alPut at h
    split at h
    · exact List.mem_cons.mp h
    · split at h
      · rcases List.mem_cons.mp h with h | h
        · exact .inl h
        · exact .inr (List.mem_cons_of_mem _ h)
      · rcases List.mem_cons.mp h with h | h
        · exact .inr (by rw [h]; simp)
        · exact (ih h).imp_right (List.mem_cons_of_mem _)

/-- The cells that writes of scratch leave lie in scratch, struck or not. -/
theorem settle_inScratch (flips : List (Nat × Nat)) {log : List (List (Nat × Byte × Bool))} (h : logInScratch log) :
    ∀ c ∈ (settle flips log).1, scrTag ≤ c.1 := by
  have hput : ∀ ws : List (List (Nat × Byte × Bool)), logInScratch ws →
      ∀ c ∈ ws.flatten.foldl (fun v c => alPut v c.1 c.2) [], scrTag ≤ c.1 := by
    intro ws hws
    refine List.foldlRecOn (motive := fun v : List (Nat × Byte × Bool) => ∀ c ∈ v, scrTag ≤ c.1) _ _ (by simp) fun v hv b hb c hc => ?_
    rcases mem_alPut hc with rfl | hc
    · exact (logInScratch_iff ws).mp hws b hb
    · exact hv c hc
  unfold settle
  dsimp only
  split
  · exact hput _ h
  · refine hput _ fun w hw => ?_
    obtain ⟨⟨a, b⟩, hab, hw⟩ := List.mem_flatMap.mp hw
    have hb : ∀ v ∈ b.2, ∀ c ∈ v, scrTag ≤ c.1 := fun v hv =>
      strikeLog_inScratch flips h v (mem_piecesOf (List.of_mem_zip hab).2 v hv)
    dsimp only at hw
    split at hw
    · exact hb w hw
    · obtain ⟨v, hv, rfl⟩ := List.mem_map.mp hw
      intro c hc
      obtain ⟨y, hy, rfl⟩ := List.mem_map.mp hc
      exact hb v hv y hy

/-! ### The course of a move -/

section
variable {P : Prop} {n : Nat} (s : State)

/-- Count the clamped iterations and failed conversions of a move: in its core's counters, or the front end's. -/
def State.moveCount (m : Move) (s : State) (core fe k : Nat) : State :=
  if k = 0 then s else match m.core with
    | some n => s.coreCount n core k
    | none => if fe = 0 then s.fadd F.feClampRd_CLAMP_RD m.part k else if fe = 1 then s.fadd F.feClampWr_CLAMP_WR m.part k else s

theorem State.moveCount_movedOn (m : Move) (core fe k : Nat) : movedOn P n s (s.moveCount m core fe k) := by
  unfold State.moveCount
  split
  · exact .refl s
  · split
    · exact s.coreCount_movedOn _ _ _
    · split
      · exact s.fadd_movedOn (by decide) _ _
      · split
        · exact s.fadd_movedOn (by decide) _ _
        · exact .refl s

/-- Performing a move writes only to its places. With `P` its destination is in the scratch of its core. -/
theorem State.performMove_movedOn {m : Move} (h : P → m.core = some n ∧ m.dst.kind = 2 ∧ ¬ (m.op = 3 ∧ m.sub ≠ 0)) :
    movedOn P n s (s.performMove m) := by
  unfold State.performMove
  extract_lets rd its nr nw cnt issuer stage all struck cs
  split
  extract_lets denied s1 s2 s3 s4
  clear_value denied
  split
  · exact s.onMove_movedOn _ fun _ => rfl
  have h1 : movedOn P n s s1 := ((s.countReads_movedOn _).trans (State.countReads_movedOn _ _)).trans (State.countReads_movedOn _ _)
  have h2 : movedOn P n s1 s2 := (State.reachReads_movedOn _ _ _).trans (State.reachReads_movedOn _ _ _)
  have h3 : movedOn P n s2 s3 := by
    dsimp only [s3]
    split
    · exact State.reachReads_movedOn _ _ _
    · exact .refl _
  have hcnt : ∀ (t : State) (a b k : Nat), movedOn P n t (cnt t a b k) := fun t a b k => t.moveCount_movedOn m a b k
  have h4 : movedOn P n s3 s4 := (hcnt _ _ _ _).trans (hcnt _ _ _ _)
  have hstage : ∀ (t : State) l, movedOn P n t (stage t l) := fun t l => .of_eq rfl rfl rfl rfl rfl rfl rfl rfl
  have h5 : movedOn P n s s4 := ((h1.trans h2).trans h3).trans h4
  clear_value cnt stage s4
  refine movedOn.trans h5 ?_
  split
  next els sat _ =>
  extract_lets anyChaff s5 s6 s7 s8 o s9 s10
  have h6 : movedOn P n s4 s6 := by
    refine movedOn.trans (?_ : movedOn P n s4 s5) (State.onMove_movedOn _ _ fun _ => rfl)
    dsimp only [s5]
    split
    · exact State.moveChaff_movedOn _ _
    · exact .refl _
  clear_value s6
  refine movedOn.trans h6 ?_
  split
  next hop =>
    have hp : ¬ P := fun hp => (h hp).2.2 hop
    have h7 : movedOn P n s6 s7 := by
      dsimp only [s7]
      split
      · exact State.confirm_movedOn _ _
      · exact .refl _
    refine movedOn.trans h7 ?_
    split
    · exact hstage _ _
    · exact State.sendContribs_movedOn _ hp _ _
  next hop =>
    have h8 : movedOn P n s6 s8 := hcnt _ _ _ _
    have h10 : movedOn P n s6 s10 := by
      refine movedOn.trans h8 ?_
      dsimp only [s10]
      split
      · exact .refl _
      · refine movedOn.trans (hcnt _ _ _ _ : movedOn P n s8 s9) ?_
        split
        next k hk => exact State.warning_movedOn _ (fun hp => Option.some.inj (hk.symm.trans (h hp).1)) _
        · refine State.onStep_movedOn _ _ _ fun x => ?_
          split <;> rfl
    clear_value s10
    refine movedOn.trans h10 ?_
    split
    next cells bad hsettle =>
    have h11 := movedOn.foldl (P := P) (n := n) (f := fun (s : State) k => s.confirm (s.moveFault m (k * 4096))) bad
      (fun s k _ => s.confirm_movedOn _) s10
    refine movedOn.trans h11 ?_
    split
    · exact hstage _ _
    · refine State.deliver_movedOn _ fun hp => ⟨(h hp).1, fun c hc => ?_⟩
      refine settle_inScratch m.flips (m.writes_inScratch (h hp).2.1 rd els) c ?_
      rw [hsettle]
      exact hc

theorem State.advanceMove_movedOn {id : Nat} (h : P → ∀ m ∈ s.moves, m.id = id → m.core = some n ∧ m.dst.kind = 2 ∧ ¬ (m.op = 3 ∧ m.sub ≠ 0)) :
    movedOn P n s (s.advanceMove id) := by
  unfold State.advanceMove
  split
  · exact .refl s
  next m hm =>
    have hmem : m ∈ s.moves := List.mem_of_find?_eq_some hm
    have hid : m.id = id := by simpa using List.find?_some hm
    extract_lets rd have_ missing xa need
    split
    · exact s.onMove_movedOn _ fun _ => rfl
    · split
      · exact s.onMove_movedOn _ fun _ => rfl
      · split
        · exact s.onMove_movedOn _ fun _ => rfl
        · split
          · exact (s.requestReads_movedOn _ _).trans (State.onMove_movedOn _ _ fun _ => rfl)
          · split
            · exact s.onMove_movedOn _ fun _ => rfl
            · exact s.performMove_movedOn fun hp => h hp m hmem hid

end

end Sys2Proof.Machine

namespace Sys2Proof.Machine
open Host (Outcome)

/-! ## O15: move commands (R166, R192, R199, R627) -/

/-- The state with a move more, whose number is the next one, and with staged contributions `det`. -/
def State.withMove (s : State) (m : Move) (det : List DetRes) : State := { s with moves := s.moves ++ [m], nextMove := s.nextMove + 1, det := det }

/-- What an accepted move keeps of its command for as long as it is in progress. -/
structure Move.begunBy (m : Move) (id : Nat) (core ring : Option Nat) (part step : Nat) (cmd : Cmd) (op sub : Nat) (src dst : Desc)
    (idx : Option Desc) (entry : Option ErrPlace) : Prop where
  id : m.id = id
  core : m.core = core
  ring : m.ring = ring
  part : m.part = part
  step : m.step = step
  cmd : m.cmd = cmd
  op : m.op = op
  sub : m.sub = sub
  src : m.src = src
  dst : m.dst = dst
  idx : m.idx = idx
  entry : m.entry = entry

section
variable {m m' : Move} {id : Nat} {core ring : Option Nat} {part step : Nat} {cmd : Cmd} {op sub : Nat} {src dst : Desc} {idx : Option Desc}
  {entry : Option ErrPlace}

/-- What the course of a move does not change is as its command gave it. -/
theorem Move.begunBy.of_fixed (h : m.begunBy id core ring part step cmd op sub src dst idx entry) (e : m'.fixed = m.fixed) :
    m'.begunBy id core ring part step cmd op sub src dst idx entry :=
  ⟨(congrArg Move.id e).trans h.id, (congrArg Move.core e).trans h.core, (congrArg Move.ring e).trans h.ring, (congrArg Move.part e).trans h.part,
    (congrArg Move.step e).trans h.step, (congrArg Move.cmd e).trans h.cmd, (congrArg Move.op e).trans h.op, (congrArg Move.sub e).trans h.sub,
    (congrArg Move.src e).trans h.src, (congrArg Move.dst e).trans h.dst, (congrArg Move.idx e).trans h.idx, (congrArg Move.entry e).trans h.entry⟩

/-- Once a move has been added, what the move engine does leaves it in progress. -/
theorem movedOn.begun {P : Prop} {n : Nat} {s t : State} {det : List DetRes} (h : movedOn P n (s.withMove m det) t)
    (hm : m.begunBy id core ring part step cmd op sub src dst idx entry) :
    (∃ x ∈ t.moves, x.begunBy id core ring part step cmd op sub src dst idx entry) ∧ t.nextMove = s.nextMove + 1 ∧
    t.moves.length = s.moves.length + 1 := by
  obtain ⟨⟨hfixed, hnext⟩, -⟩ := h
  refine ⟨?_, hnext, ?_⟩
  · have hin : m.fixed ∈ t.moves.map Move.fixed := by
      rw [hfixed]
      exact List.mem_map_of_mem (by simp [State.withMove])
    obtain ⟨x, hx, he⟩ := List.mem_map.mp hin
    exact ⟨x, hx, hm.of_fixed he⟩
  · have := congrArg List.length hfixed
    simpa [State.withMove] using this

end

theorem State.acceptMove_movedOn {P : Prop} {n : Nat} (s : State) (core ring : Option Nat) (part step : Nat) (cmd : Cmd)
    (op sub : Nat) (det : Bool) (src dst : Desc) (idx : Option Desc) (perm : List Nat) (overlap need : Nat) (ch : Bool)
    (flips : List (Nat × Nat)) (entry : Option ErrPlace) (hP : P → movesFresh s ∧ core = some n ∧ dst.kind = 2 ∧ ¬ (op = 3 ∧ sub ≠ 0)) :
    ∃ m dets, m.begunBy s.nextMove core ring part step cmd op sub src dst idx entry ∧
      movedOn P n (s.withMove m dets) (s.acceptMove core ring part step cmd op sub det src dst idx perm overlap need ch flips entry) := by
  unfold State.acceptMove
  extract_lets id m s1 r s2
  have hs2 : ∃ dets, s2 = s.withMove m dets := by
    dsimp only [s2]
    split
    · exact ⟨_, rfl⟩
    · split <;> exact ⟨_, rfl⟩
  obtain ⟨dets, hs2⟩ := hs2
  refine ⟨m, dets, ⟨rfl, rfl, rfl, rfl, rfl, rfl, rfl, rfl, rfl, rfl, rfl, rfl⟩, ?_⟩
  rw [hs2]
  refine State.advanceMove_movedOn _ fun hp x hx hid => ?_
  rcases List.mem_append.mp (show x ∈ s.moves ++ [m] from hx) with hx | hx
  · exact absurd hid ((hP hp).1 x hx).ne
  · rw [List.mem_singleton.mp hx]
    exact (hP hp).2

/-! ### The checks of R627 -/

theorem MoveChk.ite_eq_ok {c : Prop} [Decidable c] {e : Nat} {r : MoveChk} {a b : Desc} {x : Option Desc} {perm : List Nat} {ov need : Nat}
    {ch : Bool} : (if c then .status e else r) = MoveChk.ok a b x perm ov need ch ↔ ¬ c ∧ r = .ok a b x perm ov need ch := by
  split <;> simp [*]

theorem MoveChk.dst_of_ok_eq {a b a' b' : Desc} {x x' : Option Desc} {perm perm' : List Nat} {ov need ov' need' : Nat} {ch ch' : Bool}
    (h : MoveChk.ok a b x perm ov need ch = .ok a' b' x' perm' ov' need' ch') : b = b' := by
  injection h

/-- What the check of a combining SCATTER's destination leaves of its kind. -/
theorem kind_ne_of_combines {op sub k : Nat} {bad : Bool} (hc : ¬ (decide (op = 3) && decide (sub ≠ 0) && (bad || decide (k = 2))) = true)
    (ho : op = 3) (hs : sub ≠ 0) : k ≠ 2 := fun hk => hc (by simp [ho, hs, hk])

/-- A combining SCATTER has its destination in memory (R203). -/
theorem State.moveCheck_combines {s : State} {core : Option Nat} {p op sub : Nat} {f : List Byte} {a b : Desc} {x : Option Desc}
    {perm : List Nat} {ov need : Nat} {ch : Bool} (h : s.moveCheck core p op sub f = .ok a b x perm ov need ch) (ho : op = 3) (hs : sub ≠ 0) :
    b.kind ≠ 2 := by
  rw [State.moveCheck, MoveChk.ite_eq_ok, MoveChk.ite_eq_ok] at h
  obtain ⟨-, -, h⟩ := h
  generalize List.find? _ _ = broken at h
  cases broken with
  | some i => contradiction
  | none =>
    -- the checks of R627, of which the sixth is that of a combining SCATTER; they are rewritten one by one, since the kernel does not get through
    -- the whole of them with its abbreviations put in
    iterate 12 rw [MoveChk.ite_eq_ok] at h
    obtain ⟨-, -, -, -, -, hcombines, -, -, -, -, -, -, h⟩ := h
    exact fun hk => kind_ne_of_combines hcombines ho hs ((congrArg Desc.kind (MoveChk.dst_of_ok_eq h)).trans hk)

/-! ### The move engine takes a command -/

section
variable {s : State} {n op sub : Nat} {d : Cmd} {rest : List Cmd} {f : List Byte} (flips : List (Nat × Nat))

/-- The state with the command at the head of the move queue taken off. -/
def State.moveTaken (s : State) (n : Nat) (rest : List Cmd) : State := s.setCore n ((s.core n).setQueue 3 rest)

theorem State.move_taken (hhead : atHead s n 3 op 32 d rest f) (ho : op ≤ 4) (hsub : op = 3 → d.sub = sub) :
    s.take n 3 4 op (fun d => op ≠ 3 || d.sub = sub || 3 < d.sub) 32 = .ok (s.moveTaken n rest) d f := by
  refine State.take_atHead hhead ho ?_ (by decide)
  by_cases h3 : op = 3
  · simp [hsub h3]
  · simp [h3]

/-- The answer of the checks, where it is not that the command may be taken. -/
theorem State.moveCmd_judged {answer : MoveChk} (ho : op ≤ 4) (h : moveJudged s n op sub d rest f answer) :
    s.moveCmd n op sub flips = (match answer with
      | .status e => (s.moveTaken n rest).failCmd n e
      | .fault tag => (s.moveTaken n rest).confirm { (s.moveTaken n rest).coreFault n 5 d with tag := tag }
      | .ok _ _ _ _ _ _ _ => s.moveCmd n op sub flips) := by
  obtain ⟨hhead, hsub, hbody, hrsvd, hcheck⟩ := h
  have htake := State.move_taken hhead ho hsub
  cases answer with
  | ok => rfl
  | _ => simp only [State.moveCmd, htake, hbody, hrsvd, hcheck, State.moveTaken, ne_eq, not_true_eq_false, decide_false, Bool.or_false,
      Bool.false_eq_true, if_false]

/-- The state in which a command that passes its checks is accepted: with chaff its step consumes chaff (R416). -/
def State.moveGiven (s : State) (n : Nat) (rest : List Cmd) (chaff : Bool) : State :=
  if chaff then (s.moveTaken n rest).itemChaff n else s.moveTaken n rest

theorem State.moveCmd_ready {a b : Desc} {x : Option Desc} {perm : List Nat} {ov need : Nat} {ch : Bool} (ho : op ≤ 4)
    (h : moveReady s n op sub d rest f a b x perm ov need ch) :
    ∃ ring step det chaff, s.moveCmd n op sub flips = (s.moveGiven n rest chaff).acceptMove (some n) ring (s.itemPart n) step d op d.sub det a b x perm
      ov need chaff flips := by
  obtain ⟨hhead, hsub, hbody, hrsvd, hcheck, hscr, hmem, hsrc, hdst, hdrill⟩ := h
  have htake := State.move_taken hhead ho hsub
  have hs : (a.kind ≠ 2 && s.orderHeld n d.seq false false) = false := by rcases hsrc with h | h <;> simp [h]
  have hd : (b.kind ≠ 2 && s.orderHeld n d.seq (s.collective (some n) op d.sub b) true) = false := by rcases hdst with h | h <;> simp [h]
  have h4 : (decide (op = 4) && s.moves.any fun m => m.core = some n && m.op = 4) = false := by
    by_cases h : op = 4
    · rw [hdrill h, Bool.and_false]
    · simp [h]
  have hrun : ∀ ring step, (match ((s.moveTaken n rest).core n).wi with | some w => (w.ring, w.step) | none => (none, 0)) = (ring, step) →
      s.moveCmd n op sub flips = (s.moveGiven n rest (d.chaff || ch || ((s.moveTaken n rest).core n).schaffIn d.frame 32)).acceptMove (some n) ring
        (s.itemPart n) step d op d.sub (op = 3 && bitAt (fieldB f 9 1) 0) a b x perm ov need
        (d.chaff || ch || ((s.moveTaken n rest).core n).schaffIn d.frame 32) flips := by
    rintro ring step hplace
    obtain ⟨rfl, rfl⟩ := Prod.mk.inj hplace
    unfold State.moveCmd
    simp only [htake, hbody, hrsvd, hcheck, ne_eq, not_true_eq_false, decide_false, Bool.or_false, Bool.false_eq_true, if_false]
    rw [hscr, hmem, hs, hd, h4]
    rfl
  exact ⟨_, _, _, _, hrun _ _ rfl⟩

section
variable {a b : Desc} {x : Option Desc} {perm : List Nat} {ov need : Nat} {ch : Bool} (ho : op ≤ 4) (hf : movesFresh s)
include ho hf

/-- A move command that passes its checks is a move in progress. -/
theorem moveCmd_begins (h : moveReady s n op sub d rest f a b x perm ov need ch) : moveBegun s (s.moveCmd n op sub flips) n op d rest a b x := by
  obtain ⟨ring, step, det, chaff, ht⟩ := State.moveCmd_ready flips ho h
  obtain ⟨-, -, -, -, hcheck, -⟩ := h
  have hgiven : ∃ y, s.moveGiven n rest chaff = (s.moveTaken n rest).withRings y := (s.moveTaken n rest).ite_itemChaff_frame n chaff
  obtain ⟨y, hy⟩ := hgiven
  have hfresh : movesFresh (s.moveGiven n rest chaff) := by
    rw [hy]
    exact hf
  obtain ⟨m, dets, hm, hon⟩ := State.acceptMove_movedOn (P := b.kind = 2) (n := n) (s.moveGiven n rest chaff) (some n) ring (s.itemPart n) step d op d.sub det a b x perm
    ov need chaff flips none fun hk => ⟨hfresh, rfl, hk, fun hop => State.moveCheck_combines hcheck hop.1 hop.2 hk⟩
  rw [← ht] at hon
  obtain ⟨⟨z, hz, hz'⟩, hnext, hlen⟩ := hon.begun hm
  obtain ⟨-, hcores, -, -, hscratch⟩ := hon
  have hown : ((s.moveGiven n rest chaff).withMove m dets).core n = (s.core n).setQueue 3 rest := by
    rw [hy]
    exact s.core_setCore_same _ _
  obtain ⟨_, _, _, _, _, hc⟩ := hcores n
  rw [hown] at hc
  rw [hy] at hnext hlen hz'
  refine ⟨⟨z, hz, hz'.id, hz'.core, hz'.part, hz'.cmd, hz'.op, hz'.sub, hz'.src, hz'.dst, hz'.idx⟩, hnext, hlen, ?_, fun r => ?_, ?_, ?_, fun hk => ?_⟩
  · rw [hc]
    exact Core.queueOf_setQueue_same _ _ _ (by decide)
  · rw [hc]
    rfl
  · rw [hc]
    rfl
  · rw [hc]
    rfl
  · obtain ⟨hmem, hothers⟩ := hscratch hk
    rw [hy] at hmem hothers
    exact ⟨hmem, fun k hk => (hothers k hk).trans (s.core_setCore_other _ _ _ hk)⟩

end

section
variable {c : Instr} (hc : exec c s = .next (s.moveCmd n op sub flips)) (ho : op ≤ 4)
include hc ho

theorem moveCmd_failsWith {e : Nat} (h : moveJudged s n op sub d rest f (.status e)) : failsWith c s n 3 e rest :=
  failsWith_of_failCmd_queue (by decide) (hc.trans (congrArg Outcome.next (State.moveCmd_judged flips ho h)))

theorem moveCmd_confirms {tag : Nat} (h : moveJudged s n op sub d rest f (.fault tag)) : completes c s fun t =>
    t.faultQ = s.faultQ ++ [{ s.coreFault n 5 d with tag := tag }] ∧ t.mem = s.mem ∧ t.moves = s.moves := by
  have hfault : (s.moveTaken n rest).coreFault n 5 d = s.coreFault n 5 d := State.coreFault_congr 5 d rfl rfl (by
    rw [State.moveTaken, State.core_setCore_same]
    rfl)
  refine ⟨_, hc.trans (congrArg Outcome.next (State.moveCmd_judged flips ho h)), ?_, rfl, rfl⟩
  dsimp only
  rw [hfault]
  rfl

end

end

/-- Settles O15: each move command is `State.moveCmd`; a move that begins changes nothing beyond its writes. -/
theorem moveCommands : Obligations.MoveCommands := by
  unfold Obligations.MoveCommands
  intro s n d rest f flips hf
  have hbegins : ∀ {c op sub}, exec c s = .next (s.moveCmd n op sub flips) → op ≤ 4 → ∀ a b x perm ov need ch,
      moveReady s n op sub d rest f a b x perm ov need ch → completes c s fun t => moveBegun s t n op d rest a b x :=
    fun hc ho _ _ _ _ _ _ _ h => ⟨_, hc, moveCmd_begins flips ho hf h⟩
  refine ⟨hbegins rfl (by decide), hbegins rfl (by decide), hbegins rfl (by decide), hbegins rfl (by decide), hbegins rfl (by decide),
    hbegins rfl (by decide), hbegins rfl (by decide), hbegins rfl (by decide), fun x hx => ?_⟩
  have hrun : exec x.2.2 s = .next (s.moveCmd n x.1 x.2.1 flips) ∧ x.1 ≤ 4 := by
    simp only [List.mem_cons, List.not_mem_nil, or_false] at hx
    rcases hx with rfl | rfl | rfl | rfl | rfl | rfl | rfl | rfl <;> exact ⟨rfl, by simp⟩
  exact ⟨fun e h => moveCmd_failsWith flips hrun.1 hrun.2 h, fun tag h => moveCmd_confirms flips hrun.1 hrun.2 h⟩

end Sys2Proof.Machine

namespace Sys2Proof.Machine
open Host (Outcome)

/-! ## Cancelling steps (R171, R172, R330, R431): what it takes from the rings and the cores, it does not give back -/

/-- The open steps of a ring have the numbers of steps that were open before. -/
def Ring.eased (x y : Ring) : Prop := ∀ b ∈ y.steps, ∃ a ∈ x.steps, a.step = b.step

theorem Ring.eased.refl (x : Ring) : x.eased x := fun b hb => ⟨b, hb, rfl⟩

theorem Ring.eased.trans {x y z : Ring} (h₁ : x.eased y) (h₂ : y.eased z) : x.eased z := fun c hc =>
  let ⟨b, hb, hbc⟩ := h₂ c hc
  let ⟨a, ha, hab⟩ := h₁ b hb
  ⟨a, ha, hab.trans hbc⟩

/-- No step has been opened and no work item queued. -/
def eases (s t : State) : Prop :=
  (∀ q, (s.ring q).eased (t.ring q)) ∧ ∀ m, (t.core m).queue.length ≤ (s.core m).queue.length

theorem eases.trans {s t u : State} (h₁ : eases s t) (h₂ : eases t u) : eases s u :=
  ⟨fun q => (h₁.1 q).trans (h₂.1 q), fun m => (h₂.2 m).trans (h₁.2 m)⟩

theorem eases.of_same {s t : State} (hr : t.rings = s.rings) (hc : t.cores = s.cores) (hs : t.scr = s.scr) : eases s t := by
  refine ⟨fun q => ?_, fun m => ?_⟩
  · rw [State.ring, State.ring, hr]
    exact Ring.eased.refl _
  · rw [State.core, State.core, hc, hs]

theorem eases.refl (s : State) : eases s s := .of_same rfl rfl rfl

theorem eases.foldl {α : Type} {f : State → α → State} (hf : ∀ s x, eases s (f s x)) (l : List α) (s : State) : eases s (l.foldl f s) := by
  induction l generalizing s with
  | nil => exact .refl s
  | cons x l ih => exact (hf s x).trans (ih (f s x))

theorem movedOn.eases {P : Prop} {n : Nat} {s t : State} (h : movedOn P n s t) : eases s t := by
  obtain ⟨-, hc, hr, -⟩ := h
  refine ⟨fun q => ?_, fun m => ?_⟩
  · obtain ⟨f, hf, e⟩ := hr q
    rw [e]
    intro y hy
    obtain ⟨x, hx, rfl⟩ := List.mem_map.mp hy
    exact ⟨x, hx, (hf x).symm⟩
  · obtain ⟨_, _, _, _, _, e⟩ := hc m
    rw [e]

/-- Every core changed by a function that leaves a fresh one's queue empty. -/
theorem length_queue_map {l : List (Nat × Core)} {d : Core} (g : Core → Core) (hg : ∀ c, (g c).queue.length ≤ c.queue.length) (x : Nat) :
    (alGet d (l.map fun y => (y.1, g y.2)) x).queue.length ≤ (alGet d l x).queue.length := by
  unfold alGet
  induction l with
  | nil => exact Nat.le_refl _
  | cons y t ih =>
    obtain ⟨k, v⟩ := y
    by_cases h : k = x
    · simpa [alFind, h] using hg v
    · simpa [alFind, h] using ih

section
variable (s : State)

theorem State.onCores_eases {g : Core → Core} (hg : ∀ c, (g c).queue.length ≤ c.queue.length) {t : State} (hr : t.rings = s.rings)
    (hs : t.scr = s.scr) (hc : t.cores = s.cores.map fun x => (x.1, g x.2)) : eases s t := by
  refine ⟨fun q => ?_, fun m => ?_⟩
  · rw [State.ring, State.ring, hr]
    exact Ring.eased.refl _
  · rw [State.core, State.core, hc, hs]
    exact length_queue_map g hg m

theorem State.setRing_eases {r : Nat} {x : Ring} (h : (s.ring r).eased x) : eases s (s.setRing r x) := by
  refine ⟨fun q => ?_, fun _ => Nat.le_refl _⟩
  by_cases hq : q = r
  · subst hq
    rw [State.ring_setRing_same]
    exact h
  · rw [State.ring_setRing_other _ _ _ _ hq]
    exact Ring.eased.refl _

theorem State.ringState_eases (r : Nat) : eases s (s.ringState r) := by
  refine ⟨fun q => ?_, fun m => by rw [State.core_ringState]⟩
  obtain ⟨b, e⟩ := s.ring_ringState r q
  rw [e]
  exact Ring.eased.refl _

theorem State.fset_eases (f : Fld) (i v : Nat) : eases s (s.fset f i v) := .of_same rfl rfl rfl

theorem State.event_eases (kind : Nat) (body : List Nat) : eases s (s.event kind body) := by
  obtain ⟨_, _, e⟩ := s.event_frame kind body
  rw [e]
  exact .of_same rfl rfl rfl

theorem State.almanac_eases (kind : Nat) (body : List Nat) : eases s (s.almanac kind body) := by
  obtain ⟨_, _, e⟩ := s.almanac_frame kind body
  rw [e]
  exact .of_same rfl rfl rfl

theorem State.faultRecord_eases (f : FaultRec) : eases s (s.faultRecord f) := by
  have hlast : ∀ (f : FaultRec) (t : State), t = (if f.part < 32 then { s with lastFault := alPut s.lastFault f.part f } else s) → eases s t := by
    rintro f t rfl
    split <;> exact .of_same rfl rfl rfl
  unfold State.faultRecord
  dsimp only
  split
  · exact (hlast { f with time := s.time.counter } _ rfl).trans (State.event_eases _ _ _)
  · exact ((hlast { f with time := s.time.counter } _ rfl).trans (State.event_eases _ _ _)).trans (State.almanac_eases _ _ _)

theorem State.setPortState_eases (p st : Nat) : eases s (s.setPortState p st) := by
  unfold State.setPortState
  split <;> exact .of_same rfl rfl rfl

theorem State.faultIdleTx_eases (p reason : Nat) : eases s (s.faultIdleTx p reason) :=
  (s.setPortState_eases p 5).trans (.of_same rfl rfl rfl)

theorem State.allFaultIdle_eases (reason : Nat) : eases s (s.allFaultIdle reason) := .foldl (fun s p => s.faultIdleTx_eases p reason) _ s

theorem State.raiseVector_eases (fn v : Nat) : eases s (s.raiseVector fn v) := by
  unfold State.raiseVector State.msix
  dsimp only
  repeat' split
  all_goals exact .of_same rfl rfl rfl

theorem State.refreshFn_eases (fn : Nat) : eases s (s.refreshFn fn) := by
  unfold State.refreshFn
  dsimp only
  split
  · exact .refl s
  · exact (eases.foldl (f := fun (s : State) f => s.fset f fn _) (fun s f => s.fset_eases f fn _) _ s).trans (State.raiseVector_eases _ _ _)

theorem State.refreshHif_eases : eases s s.refreshHif := by
  unfold State.refreshHif
  extract_lets s1
  exact eases.trans (t := s1) (.of_same rfl rfl rfl) (.foldl State.refreshFn_eases _ _)

theorem State.endReleases_eases : eases s s.endReleases := by
  obtain ⟨_, _, _, e⟩ := s.endReleases_frame
  rw [e]
  exact .of_same rfl rfl rfl

theorem State.spoil_eases (w : Wrote) : eases s (s.spoil w) := by
  unfold State.spoil
  split
  next n _ => exact movedOn.eases (P := False) (n := 0) (s.onCore_movedOn (fun h => h.elim) (Core.sputN_worksOn _ _ _))
  · exact .of_same rfl rfl rfl

theorem State.wrMarked_eases (a : Nat) (bs : List (Byte × Bool)) : eases s (s.wrMarked a bs) :=
  movedOn.eases (P := False) (n := 0) (s.wrMarked_movedOn id a bs)

/-- What fail-safe leaves of a core. -/
theorem State.abandon_eases : eases s s.abandon := by
  unfold State.abandon
  extract_lets clear s1
  have h1 : eases s s1 := (s.onCores_eases (g := clear) (fun c => Nat.zero_le _) (t := { s with
    cores := s.cores.map (fun (x : Nat × Core) => (x.1, clear x.2)), moves := [], waits := [], contribs := [], det := [], errQ := [], faultQ := [], wrote := [] })
    rfl rfl rfl).trans (State.endReleases_eases _)
  refine h1.trans (.foldl (fun s x => ?_) _ _)
  refine eases.trans (s.setRing_eases ?_) (State.ringState_eases _ _)
  exact fun b hb => absurd hb List.not_mem_nil

theorem State.failSafe_eases (cause what : Nat) : eases s (s.failSafe cause what) := by
  unfold State.failSafe
  split
  · exact .refl s
  · extract_lets s1 s2
    have h1 : eases s s1 := ((s.fset_eases _ _ _).trans (State.fset_eases _ _ _ _)).trans (State.fset_eases _ _ _ _)
    have h2 : eases s1 s2 := ((State.allFaultIdle_eases _ _).trans (State.abandon_eases _)).trans (State.fset_eases _ _ _ _)
    exact ((h1.trans h2).trans (State.event_eases _ _ _)).trans (State.refreshHif_eases _)

theorem State.ctrlFail_eases (addr tag : Nat) : eases s (s.ctrlFail addr tag) := by
  unfold State.ctrlFail
  split
  · exact .refl s
  · exact (s.faultRecord_eases _).trans (State.failSafe_eases _ _ _)

theorem State.ctxVerify_eases (k : Nat) : eases s (s.ctxVerify k) := by
  unfold State.ctxVerify
  split
  · exact .refl s
  · exact s.ctrlFail_eases _ _

theorem State.onHeld_eases (ring : Nat) (o : OpenStep) (f : Ctx → Ctx) : eases s (s.onHeld ring o f) := by
  refine .foldl (fun s k => ?_) _ s
  dsimp only
  split
  · exact (s.ctxVerify_eases k).trans (State.wrMarked_eases _ _ _)
  · exact s.ctxVerify_eases k

theorem State.spoilSteps_eases (ring : Nat) (steps : List Nat) : eases s (s.spoilSteps ring steps) := by
  unfold State.spoilSteps
  split
  · exact .refl s
  · extract_lets gone s1 s2 msg
    have h1 : eases s s2 := eases.trans (t := { s1 with wrote := s1.wrote.filter fun w => !gone w }) (.of_same rfl rfl rfl) (.foldl State.spoil_eases _ _)
    refine h1.trans (s2.onCores_eases (g := fun c => { c with vqMesh := c.vqMesh.map msg, vqGran := c.vqGran.map msg }) (fun c => Nat.le_refl _) rfl rfl rfl)

theorem State.stopItems_eases (ring : Nat) (steps : List Nat) (dead : Bool) : eases s (s.stopItems ring steps dead) := by
  unfold State.stopItems
  extract_lets mine stop of begun
  refine (s.onCores_eases (g := stop) (fun c => ?_) (t := { s with
    cores := s.cores.map (fun (x : Nat × Core) => (x.1, stop x.2)), waits := s.waits.filter (fun x => !of x), moves := s.moves.filter begun })
    rfl rfl rfl).trans (State.endReleases_eases _)
  dsimp only [stop]
  split
  · split <;> exact List.length_filter_le _ _
  · exact List.length_filter_le _ _

theorem State.rshCopy_eases (m : Move) (c : Nat × Nat × Nat) : eases s (s.rshCopy m c) := by
  unfold State.rshCopy
  extract_lets l s1
  split
  · exact movedOn.eases (P := False) (n := 0) (s.onMove_movedOn _ fun _ => rfl)
  · exact movedOn.eases (P := False) (n := 0) ((s.reach_movedOn _ _ _ _).trans (State.deliver_movedOn _ fun h => h.elim))

theorem State.rshStream_eases (p : Nat) (plan : List (Nat × Nat × Nat)) : eases s (s.rshStream p plan) := by
  unfold State.rshStream
  extract_lets id m s1 s2
  have h1 : eases s s1 := .of_same rfl rfl rfl
  have h2 : eases s1 s2 := .foldl (fun s c => s.rshCopy_eases m c) _ _
  exact (h1.trans h2).trans (movedOn.eases (P := False) (n := 0) (State.countReads_movedOn _ _))

theorem State.rshHolds_eases (p k : Nat) : eases s (s.rshHolds p k) := by
  induction k generalizing s with
  | zero => exact .refl s
  | succ k ih =>
    unfold State.rshHolds
    split
    · exact .refl s
    · split
      · exact .refl s
      · split
        next e _ =>
          extract_lets s1 c
          have h1 : eases s s1 := s.ctxVerify_eases e.1
          split
          · exact h1
          · exact (h1.trans ((State.wrMarked_eases _ _ _).trans (.of_same rfl rfl rfl))).trans (ih _)
        · exact eases.trans (.of_same rfl rfl rfl) (.foldl (fun s c => s.rshStream_eases p c) _ _)

theorem State.rshWake_eases : eases s s.rshWake := .foldl (fun s _ => s.rshHolds_eases _ _) _ s

/-- The steps of a ring that cancels some of them: the others, all open before; and no queue is longer. -/
theorem State.dropSteps_spec (r : Nat) (gone : List OpenStep) :
    eases s (s.dropSteps r gone) ∧ ∀ y ∈ ((s.dropSteps r gone).ring r).steps, y.step ∉ gone.map OpenStep.step := by
  unfold State.dropSteps
  extract_lets ids s1 s2 s3 held unread s4
  have h3 : eases s s3 := (((s.stopItems_eases r ids true).trans (State.spoilSteps_eases _ r ids)).trans (.of_same rfl rfl rfl)).trans
    (.foldl (fun s o => s.onHeld_eases r o Ctx.release) _ _)
  have hsteps : (s4.ring r).steps = (s3.ring r).steps.filter fun o => !ids.contains o.step := by
    rw [State.ring_onRing_same]
  have h4 : eases s3 s4 := s3.setRing_eases fun b hb => ⟨b, List.mem_of_mem_filter hb, rfl⟩
  have h5 : eases s4 (s4.rshWake.ringState r) := (State.rshWake_eases s4).trans (State.ringState_eases _ r)
  refine ⟨(h3.trans h4).trans h5, fun y hy => ?_⟩
  obtain ⟨x, hx, hxy⟩ := h5.1 r y hy
  rw [hsteps] at hx
  rw [← hxy]
  show x.step ∉ ids
  simpa using (List.mem_filter.mp hx).2

theorem State.dropSteps_all (r : Nat) : ((s.dropSteps r (s.ring r).steps).ring r).steps = [] := by
  obtain ⟨hease, hgone⟩ := s.dropSteps_spec r (s.ring r).steps
  refine List.eq_nil_iff_forall_not_mem.mpr fun y hy => hgone y hy ?_
  obtain ⟨x, hx, hxy⟩ := hease.1 r y hy
  exact List.mem_map.mpr ⟨x, hx, hxy⟩

end

end Sys2Proof.Machine

namespace Sys2Proof.Machine
open Host (Outcome)

section
variable (s : State) (r : RingId) (v : W32)

/-! ### CPL_HEAD, RESET, RESUME -/

theorem cplHeadWrite_empty (hh : (s.ring r).held = []) : completes (.cplHeadWrite r v) s fun t =>
    t.fget F.cplHead_HEAD r = bitsOf v.toNat 0 17 ∧ regsOnly s t [(F.cplHead_HEAD, r.val)] := by
  refine ⟨s.fset F.cplHead_HEAD r (bitsOf v.toNat 0 17), ?_, ?_, s.regsOnly_fset _ (by simp)⟩
  · show execCplHeadWrite r v s = _
    unfold execCplHeadWrite
    dsimp only
    rw [State.ring_fset, hh]
    rfl
  · rw [State.fget_fset_same]
    exact Nat.mod_eq_of_lt (bitsOf_lt _ _ _)

theorem State.raiseVector_fget (s : State) (fn v : Nat) {f : Fld} (hf : f.id % 1024 ≠ F.hostErrCnt_COUNT.id % 1024) (i : Nat) :
    (s.raiseVector fn v).fget f i = s.fget f i := by
  unfold State.raiseVector State.msix
  extract_lets w
  split
  · rfl
  · split
    · split
      · rfl
      · exact State.fget_fset_of_id _ hf _ _ _
    · rfl

theorem State.raiseVector_rings (s : State) (fn v : Nat) : (s.raiseVector fn v).rings = s.rings := by
  unfold State.raiseVector State.msix
  extract_lets w
  repeat' split
  all_goals rfl

theorem State.cplSend_rings (s : State) (r : Nat) (c : CplRec) : (s.cplSend r c).rings = s.rings := by
  unfold State.cplSend State.spWrite State.wr State.wrMarked
  dsimp only
  repeat' split
  all_goals rfl

theorem State.cplRaise_rings (s : State) (r : Nat) (c : CplRec) : (s.cplRaise r c).rings = s.rings := by
  unfold State.cplRaise
  split
  · exact s.raiseVector_rings _ _
  · rfl

/-- A ring's CPL_TAIL after a record has been written. -/
theorem State.fget_cplTail_putCpl (s : State) (r : Nat) (c : CplRec) :
    (s.putCpl r c).fget F.cplTail_TAIL r = (s.fget F.cplTail_TAIL r + 1) % (2 * s.cplSize r) % 2 ^ F.cplTail_TAIL.width := by
  have hraise : ∀ t : State, (t.cplRaise r c).fget F.cplTail_TAIL r = t.fget F.cplTail_TAIL r := by
    intro t
    unfold State.cplRaise
    split
    · exact t.raiseVector_fget _ _ (by decide) _
    · rfl
  rw [State.putCpl_eq, hraise, State.fget_fset_same]

theorem State.ring_putCpl (s : State) (r q : Nat) (c : CplRec) : (s.putCpl r c).ring q = s.ring q := by
  rw [State.putCpl_eq, State.ring, State.ring, State.cplRaise_rings, State.fset_rings, State.cplSend_rings]

theorem cplHeadWrite_one {x : Nat × CplRec} (hx : (s.ring r).held = [x]) (hl : (s.ring r).lost = none)
    (hw : (s.fset F.cplHead_HEAD r (bitsOf v.toNat 0 17)).cplWaits r = false)
    (hb : (s.fset F.cplHead_HEAD r (bitsOf v.toNat 0 17)).cplBlocked r = 0) : completes (.cplHeadWrite r v) s fun t =>
      (t.ring r).held = [] ∧ t.fget F.cplTail_TAIL r = (s.fget F.cplTail_TAIL r + 1) % (2 * s.cplSize r) % 2 ^ F.cplTail_TAIL.width := by
  let s1 := s.fset F.cplHead_HEAD r (bitsOf v.toNat 0 17)
  have hsize : s1.cplSize r = s.cplSize r := congrArg (2 ^ ·) (s.fget_fset_of_id (by decide) _ _ _)
  have htail : s1.fget F.cplTail_TAIL r = s.fget F.cplTail_TAIL r := s.fget_fset_of_id (by decide) _ _ _
  refine ⟨(s1.onRing r fun y => { y with held := [] }).putCpl r x.2, ?_, ?_, ?_⟩
  · show Outcome.next (s1.flushCpl r (s1.ring r).held.length) = _
    have hring : s1.ring r = s.ring r := rfl
    rw [hring, hx]
    obtain ⟨k, c⟩ := x
    simp only [List.length_singleton, State.flushCpl, hring, hx, hl, hw, hb, s1, Option.isSome_none, Bool.or_false, Bool.false_eq_true,
      if_false, ne_eq, not_true_eq_false]
  · rw [State.ring_putCpl, State.ring_onRing_same]
  · rw [State.fget_cplTail_putCpl, State.fget_onRing, htail]
    exact congrArg (fun n => (s.fget F.cplTail_TAIL r + 1) % (2 * n) % 2 ^ F.cplTail_TAIL.width) hsize

/-- A ring whose indices and error are put to 0. -/
def State.zeroed (s : State) (r : Nat) : State :=
  ((((s.zeroIndices r).fset F.ringState_HALTED r 0).fset F.ringState_ERR_CODE r 0).fset F.ringState_ERR_STEP r 0).ringState r

theorem State.ring_zeroed (s : State) (r : Nat) : ∃ b, (s.zeroed r).ring r = { s.ring r with tail := 0, disabling := b } := by
  obtain ⟨b, hb⟩ := State.ring_ringState
    ((((s.zeroIndices r).fset F.ringState_HALTED r 0).fset F.ringState_ERR_CODE r 0).fset F.ringState_ERR_STEP r 0) r r
  refine ⟨b, ?_⟩
  rw [State.zeroed, hb, State.ring_fset, State.ring_fset, State.ring_fset, State.zeroIndices, State.ring_onRing_same]
  rfl

theorem State.fget_zeroIndices (s : State) (r : Nat) : (s.zeroIndices r).fget F.ringHead_HEAD r = 0 ∧
    (s.zeroIndices r).fget F.cplTail_TAIL r = 0 ∧ (s.zeroIndices r).fget F.cplHead_HEAD r = 0 := by
  unfold State.zeroIndices
  refine ⟨?_, ?_, ?_⟩
  · rw [State.fget_onRing, State.fget_fset_of_id _ (by decide), State.fget_fset_of_id _ (by decide), State.fget_fset_same, Nat.zero_mod]
  · rw [State.fget_onRing, State.fget_fset_of_id _ (by decide), State.fget_fset_same, Nat.zero_mod]
  · rw [State.fget_onRing, State.fget_fset_same, Nat.zero_mod]

/-- Of the indices of a ring, what stands is 0 once they are put to 0. -/
theorem State.fget_zeroed (s : State) (r : Nat) {f : Fld} (hf : f.id % 1024 ∉ [F.ringState_HALTED.id % 1024, F.ringState_ERR_CODE.id % 1024,
      F.ringState_ERR_STEP.id % 1024, F.ringState_OPEN.id % 1024, F.ringState_IDLE.id % 1024, F.ringCfg_ENABLE.id % 1024]) :
    (s.zeroed r).fget f r = (s.zeroIndices r).fget f r := by
  simp only [List.mem_cons, List.not_mem_nil, or_false, not_or] at hf
  obtain ⟨h1, h2, h3, h4, h5, h6⟩ := hf
  rw [State.zeroed, State.fget_ringState _ _ (by simp [h4, h5, h6]), State.fget_fset_of_id _ h3, State.fget_fset_of_id _ h2,
    State.fget_fset_of_id _ h1]

theorem State.halted_zeroed (s : State) (r : Nat) : (s.zeroed r).fget F.ringState_HALTED r = 0 ∧ (s.zeroed r).fget F.ringState_ERR_CODE r = 0 := by
  unfold State.zeroed
  constructor
  · rw [State.fget_ringState _ _ (by decide), State.fget_fset_of_id _ (by decide), State.fget_fset_of_id _ (by decide), State.fget_fset_same,
      Nat.zero_mod]
  · rw [State.fget_ringState _ _ (by decide), State.fget_fset_of_id _ (by decide), State.fget_fset_same, Nat.zero_mod]

theorem ringReset_empties : completes (.ringReset r) s fun t =>
    (t.ring r).steps = [] ∧ (t.ring r).held = [] ∧ (t.ring r).tail = 0 ∧ (t.ring r).next = none ∧ t.fget F.ringHead_HEAD r = 0 ∧
    t.fget F.cplTail_TAIL r = 0 ∧ t.fget F.cplHead_HEAD r = 0 ∧ t.flag F.ringState_HALTED r = false ∧ t.fget F.ringState_ERR_CODE r = 0 := by
  let dropped : State := s.dropSteps r (s.ring r).steps
  let quiet : State := { dropped with errQ := dropped.errQ.filter fun e => e.ring ≠ r.val }
  let empty : State := quiet.onRing r fun x => { x with held := [], next := none, discard := [], hold := none, lost := none, late := none }
  have hsteps : (dropped.ring r).steps = [] := s.dropSteps_all r
  have hrun : exec (.ringReset r) s = .next (empty.zeroed r) := rfl
  have hempty : empty.ring r = { dropped.ring r with held := [], next := none, discard := [], hold := none, lost := none, late := none } :=
    quiet.ring_onRing_same r _
  clear_value empty
  obtain ⟨b, hb⟩ := empty.ring_zeroed r
  rw [hempty] at hb
  obtain ⟨hhead, htail, hcpl⟩ := empty.fget_zeroIndices r
  obtain ⟨hhalt, hcode⟩ := empty.halted_zeroed r
  refine ⟨_, hrun, ?_, ?_, ?_, ?_, ?_, ?_, ?_, (State.flag_eq_false _ _ _).mpr hhalt, hcode⟩
  · rw [hb]
    exact hsteps
  · rw [hb]
  · rw [hb]
  · rw [hb]
  · rw [State.fget_zeroed _ _ (by decide), hhead]
  · rw [State.fget_zeroed _ _ (by decide), htail]
  · rw [State.fget_zeroed _ _ (by decide), hcpl]

theorem State.late_flushLate (s : State) (r : Nat) : ((s.flushLate r true).ring r).late = none := by
  have hput : ∀ (s : State) c, ((s.writeCpl r c).ring r).late = (s.ring r).late := by
    intro s c
    unfold State.writeCpl
    dsimp only
    split
    · rw [State.ring_setRing_same]
    · rw [State.ring_putCpl]
  have hfold : ∀ (l : List CplRec) (s : State), ((l.foldl (fun (s : State) c => s.writeCpl r c) s).ring r).late = (s.ring r).late := by
    intro l
    induction l with
    | nil => exact fun _ => rfl
    | cons c l ih => exact fun s => (ih _).trans (hput s c)
  unfold State.flushLate
  split
  · assumption
  · dsimp only
    rw [Bool.not_true, Bool.and_false, if_neg (by decide)]
    split
    · rw [State.ring_onRing_same]
    · rw [hfold, hput, State.ring_onRing_same]

theorem ringResume_ends (hh : s.flag F.ringState_HALTED r = true) (hu : s.isUnready = false) (hf : s.isFailsafe = false) :
    completes (.ringResume r) s fun t =>
      t.flag F.ringState_HALTED r = false ∧ (t.ring r).late = none ∧ ((s.ring r).late = none → regsOnly s t [(F.ringState_HALTED, r.val)]) := by
  refine ⟨(s.flushLate r true).fset F.ringState_HALTED r 0, ?_, ?_, s.late_flushLate r, fun hl => ?_⟩
  · show execRingResume r s = _
    simp [execRingResume, hh, hu, hf]
  · rw [State.flag_eq_false, State.fget_fset_same]
    rfl
  · rw [State.flushLate_of_none true hl]
    exact s.regsOnly_fset _ (by simp)

/-! ### Doorbells -/

/-- A wake changes one register field and nothing of the rings, memory or descriptor commands. -/
theorem State.wakeUp_stands (s : State) : s.wakeUp.rings = s.rings ∧ s.wakeUp.mem = s.mem ∧ s.wakeUp.descJobs = s.descJobs ∧
    ∀ {f : Fld}, f.id % 1024 ≠ F.sleepStat_EXITING.id % 1024 → ∀ i, s.wakeUp.fget f i = s.fget f i := by
  unfold State.wakeUp
  split
  · exact ⟨rfl, rfl, rfl, fun _ _ => rfl⟩
  · split
    · exact ⟨rfl, rfl, rfl, fun hf i => s.fget_fset_of_id hf 0 i 1⟩
    · exact ⟨rfl, rfl, rfl, fun _ _ => rfl⟩

/-- The descriptor commands written before a doorbell to ring `r` are done. -/
def State.belled (s : State) (r : Nat) : State := s.descDone fun p => p = partOfRing r

/-- The doorbell of a ring is taken: TAIL is at most a ring beyond RING_HEAD. -/
def State.rung (s : State) (r t head : Nat) : State :=
  (s.onRing r fun x => { x with tail := t, since := if head = x.tail then s.time.elapsed else x.since }).wakeUp

/-- TAIL of a doorbell names no place of the ring, or one beyond its entries (R139). -/
def State.tailBad (s : State) (r t : Nat) : Prop :=
  2 * s.ringSize r ≤ t ∨ s.ringSize r < (t + 2 * s.ringSize r - s.fget F.ringHead_HEAD r) % (2 * s.ringSize r)

theorem State.partOf_belled (p : Nat) : (s.belled r).partOf p = s.partOf p := by
  obtain ⟨x, e⟩ := s.descDone_frame fun p => p = partOfRing r
  rw [State.belled, e]
  rfl

theorem State.doorbell_bad (hp : (s.partOf (r.val / 4)).isSome = true) (h : s.tailBad r (bitsOf v.toNat 0 17)) :
    s.doorbell r v = (s.belled r).fset F.ringCtl_DB_ERR r 1 := by
  have hpart : ((s.belled r).partOf (partOfRing r)).isNone = false := by
    rw [State.partOf_belled, ← Option.not_isSome]
    exact congrArg (!·) hp
  rw [State.doorbell, show (s.descDone fun p => decide (p = partOfRing r.val)) = s.belled r from rfl, hpart, if_neg (by decide)]
  exact if_pos h

theorem State.doorbell_good (hp : (s.partOf (r.val / 4)).isSome = true) (h : ¬ s.tailBad r (bitsOf v.toNat 0 17)) :
    s.doorbell r v = (s.belled r).rung r (bitsOf v.toNat 0 17) (s.fget F.ringHead_HEAD r) := by
  have hpart : ((s.belled r).partOf (partOfRing r)).isNone = false := by
    rw [State.partOf_belled, ← Option.not_isSome]
    exact congrArg (!·) hp
  rw [State.doorbell, show (s.descDone fun p => decide (p = partOfRing r.val)) = s.belled r from rfl, hpart, if_neg (by decide)]
  exact if_neg h

/-- What a doorbell to an existing partition does after the descriptor commands: nothing to their registers, and nothing else of them. -/
theorem State.doorbell_after (hp : (s.partOf (r.val / 4)).isSome = true) :
    (s.doorbell r v).descJobs = (s.belled r).descJobs ∧
    ∀ {f : Fld}, f.id % 1024 ∉ [F.ringCtl_DB_ERR.id % 1024, F.sleepStat_EXITING.id % 1024] → ∀ i, (s.doorbell r v).fget f i = (s.belled r).fget f i := by
  by_cases h : s.tailBad r (bitsOf v.toNat 0 17)
  · rw [s.doorbell_bad r v hp h]
    refine ⟨rfl, fun hf i => State.fget_fset_of_id _ ?_ _ _ _⟩
    exact fun e => hf (by rw [e]; simp)
  · rw [s.doorbell_good r v hp h]
    obtain ⟨-, -, hj, hg⟩ := State.wakeUp_stands ((s.belled r).onRing r fun x =>
      { x with tail := bitsOf v.toNat 0 17, since := if s.fget F.ringHead_HEAD r = x.tail then (s.belled r).time.elapsed else x.since })
    exact ⟨hj, fun hf i => hg (fun e => hf (by rw [e]; simp)) i⟩

theorem doorbell_descDone (p : Nat) {j : DescJob} (hp : (s.partOf (r.val / 4)).isSome = true)
    (hj : s.descJobs.filter (fun x => x.part = r.val / 4) = [j]) : completes (.doorbell (.core p) r v) s fun t =>
      t.flag F.descStatus_BUSY (r.val / 4) = false ∧ t.fget F.descStatus_CODE (r.val / 4) = j.code % 2 ^ F.descStatus_CODE.width ∧
      t.descJobs = s.descJobs.filter (fun x => x.part ≠ r.val / 4) := by
  obtain ⟨hjobs, hfield⟩ := s.doorbell_after r v hp
  have hpart : j.part = r.val / 4 := by
    have : j ∈ s.descJobs.filter (fun x => x.part = r.val / 4) := by rw [hj]; simp
    simpa using (List.mem_filter.mp this).2
  have hdone : s.belled r = (State.fset { s with descJobs := s.descJobs.filter (fun x => x.part ≠ r.val / 4) } F.descStatus_BUSY (r.val / 4) 0).fset
      F.descStatus_CODE (r.val / 4) j.code := by
    have hrest : (s.descJobs.filter fun x => !decide (x.part = partOfRing r)) = s.descJobs.filter (fun x => x.part ≠ r.val / 4) := by
      refine List.filter_congr fun x _ => ?_
      simp [partOfRing]
      rfl
    rw [State.belled, State.descDone]
    simp only [List.partition_eq_filter_filter]
    rw [show (s.descJobs.filter fun j => decide (j.part = partOfRing r.val)) = [j] from hj, List.foldl_cons, List.foldl_nil, hpart]
    rw [← hrest]
    rfl
  refine ⟨_, rfl, ?_, ?_, ?_⟩
  · rw [State.flag_eq_false, hfield (by decide), hdone, State.fget_fset_of_id _ (by decide), State.fget_fset_same, Nat.zero_mod]
  · rw [hfield (by decide), hdone, State.fget_fset_same]
  · rw [hjobs, hdone]
    rfl

theorem doorbell_taken (p : Nat) (hp : (s.partOf (r.val / 4)).isSome = true) (h : ¬ s.tailBad r (bitsOf v.toNat 0 17)) :
    completes (.doorbell (.core p) r v) s fun t => (t.ring r).tail = bitsOf v.toNat 0 17 ∧ (t.ring r).steps = (s.ring r).steps ∧ t.mem = s.mem := by
  obtain ⟨x, e⟩ := s.descDone_frame fun p => p = partOfRing r
  have hring : (s.belled r).ring r = s.ring r := by
    rw [State.belled, e]
    rfl
  obtain ⟨hr, hm, -, -⟩ := State.wakeUp_stands ((s.belled r).onRing r fun x =>
    { x with tail := bitsOf v.toNat 0 17, since := if s.fget F.ringHead_HEAD r = x.tail then (s.belled r).time.elapsed else x.since })
  have hrung : ((s.belled r).rung r (bitsOf v.toNat 0 17) (s.fget F.ringHead_HEAD r)).ring r = { s.ring r with
      tail := bitsOf v.toNat 0 17, since := if s.fget F.ringHead_HEAD r = (s.ring r).tail then (s.belled r).time.elapsed else (s.ring r).since } := by
    rw [State.rung, State.ring, hr, ← State.ring, State.ring_onRing_same, hring]
  refine ⟨_, congrArg Outcome.next (s.doorbell_good r v hp h), ?_, ?_, ?_⟩
  · rw [hrung]
  · rw [hrung]
  · rw [State.rung, hm, State.onRing_mem, State.belled, State.descDone_mem]

theorem doorbell_refused (p : Nat) (hp : (s.partOf (r.val / 4)).isSome = true) (h : s.tailBad r (bitsOf v.toNat 0 17)) :
    completes (.doorbell (.core p) r v) s fun t => t.flag F.ringCtl_DB_ERR r = true ∧ (t.ring r) = s.ring r ∧ t.mem = s.mem ∧
      ((∀ j ∈ s.descJobs, j.part ≠ r.val / 4) → regsOnly s t [(F.ringCtl_DB_ERR, r.val)]) := by
  obtain ⟨x, e⟩ := s.descDone_frame fun p => p = partOfRing r
  refine ⟨_, congrArg Outcome.next (s.doorbell_bad r v hp h), ?_, ?_, ?_, fun hj => ?_⟩
  · rw [State.flag_eq_true, State.fget_fset_same]
    decide
  · rw [State.ring_fset, State.belled, e]
    rfl
  · rw [State.fset_mem, State.belled, State.descDone_mem]
  · have hnone : s.belled r = s := by
      have hout : ∀ x ∈ s.descJobs, decide (x.part = partOfRing r) = false := fun x hx => decide_eq_false (hj x hx)
      have hrest : (s.descJobs.filter fun x => !decide (x.part = partOfRing r)) = s.descJobs :=
        List.filter_eq_self.mpr fun x hx => by rw [hout x hx]; rfl
      have hmine : (s.descJobs.filter fun x => decide (x.part = partOfRing r)) = [] :=
        List.filter_eq_nil_iff.mpr fun x hx => by rw [hout x hx]; decide
      rw [State.belled, State.descDone]
      simp only [List.partition_eq_filter_filter, hmine, List.foldl_nil]
      exact congrArg (fun l => { s with descJobs := l }) hrest
    rw [hnone]
    exact s.regsOnly_fset _ (by simp)

end

/-- Settles O22: the registers of a ring by their writes, with the frames of what each write goes through. -/
theorem ringRegisters : Obligations.RingRegisters := by
  unfold Obligations.RingRegisters
  intro s r val v
  exact ⟨ringBaseWrite_written s r val, ringBaseWrite_outOfRange s r val, fun cpl => ringBaseWrite_ignored s r val cpl,
    ringCfgWrite_enables s r v, ringCfgWrite_disables s r v, cplHeadWrite_empty s r v, fun _ => cplHeadWrite_one s r v, ringReset_empties s r,
    ringResume_ends s r, fun p _ => doorbell_descDone s r v p, fun p hp =>
      ⟨fun ht hn => doorbell_taken s r v p hp fun hbad => hbad.elim (fun h => absurd ht (Nat.not_lt.mpr h)) fun h => absurd hn (Nat.not_le.mpr h),
        doorbell_refused s r v p hp⟩⟩

end Sys2Proof.Machine

namespace Sys2Proof.Machine
open Host (Outcome)

/-! ## Entries of a ring (R133 to R146): reading the entry at the head, and going past it -/

section
variable {s : State} {r type : Nat} {given e : List Byte}

/-- An entry that FLAGS and the open steps let be taken is not held by AFTER_COMMIT. -/
theorem afterHeld_of_entryFits {x : Ring} (h : entryFits x e type = true) : x.afterHeld e = false := by
  unfold entryFits at h
  split at h
  · simp only [Bool.and_eq_true, Bool.or_eq_true, Bool.not_eq_true'] at h
    rcases h.2 with ha | ha
    · rw [Ring.afterHeld, ha, Bool.false_and]
    · rw [Ring.afterHeld, Bool.and_eq_false_iff]
      refine .inr (List.any_eq_false.mpr fun y hy => ?_)
      simpa using List.all_eq_true.mp ha y hy
  · simp only [Bool.and_eq_true, Bool.or_eq_true, Bool.not_eq_true'] at h
    rcases h.1 with ha | ha
    · rw [Ring.afterHeld, ha, Bool.false_and]
    · rw [Ring.afterHeld, List.isEmpty_iff.mp ha]
      exact Bool.and_false _

/-- The entry at the head of a ring reaches the row of its type. -/
theorem State.takeEntry_head {mine : Nat → Bool} (h : entryHead s r given e type) (hm : mine type = true) (h0 : type ≠ 0) (h7 : type ≤ 7) :
    s.takeEntry r mine given = .ok e := by
  obtain ⟨hopen, hturn, hat, hcheck, rfl, hdiscard, hfits⟩ := h
  have hlisted : (decide (entType e = 0) || decide (7 < entType e)) = false := by simp [h0, h7]
  have hafter := afterHeld_of_entryFits hfits
  have hhead : s.headEntry r mine given = .ok e := by
    unfold State.headEntry
    simp only [hopen, hat, hm, hcheck, hdiscard, hlisted, hafter, Bool.not_true, Bool.false_eq_true, if_false, ne_eq, not_true_eq_false, decide_false,
      Bool.false_and]
    unfold entryFits at hfits
    split at hfits
    next o ho =>
      simp only [Bool.and_eq_true, decide_eq_true_eq] at hfits
      have hrun : (decide (o.st = .closing) && decide ¬ entType e = 7) = false := by simp [hfits.1]
      simp only [hrun, Bool.false_eq_true, if_false]
    next ho =>
      simp only [Bool.and_eq_true, Bool.or_eq_true, decide_eq_true_eq] at hfits
      have hroom : (decide ¬ entType e = 7 && decide (4 ≤ (s.ring r).steps.length)) = false := by
        rcases hfits.2 with h | h
        · simp [h]
        · simp [Nat.not_le.mpr h]
      simp only [hroom, Bool.false_eq_true, if_false]
  rw [State.takeEntry, hturn, if_pos rfl, hhead]

end

/-! ### Going past an entry -/

section
variable (s : State) (r : Nat) (e : List Byte)

/-- The state with the step of an entry open. -/
def State.opened (s : State) (r : Nat) (e : List Byte) : State :=
  match (s.ring r).cur with
  | some _ => s
  | none => s.onRing r fun x => { x with steps := x.steps ++ [OpenStep.fresh (entStep e) ⟨entType e, s.readIdx r, entIrq e⟩] }

theorem State.accept_eq : s.accept r e = ((s.opened r e).nextEntry r).ringState r := rfl

theorem State.readIdx_of_no_replay (h : (s.ring r).replay = none) : s.readIdx r = s.fget F.ringHead_HEAD r := by
  rw [State.readIdx, h]
  rfl

theorem State.nextEntry_eq (h : (s.ring r).replay = none) : s.nextEntry r =
    (State.onRing { s with served := partOfRing r, ready := s.ready.filter fun x => x.1 ≠ r } r fun x =>
      { x with since := s.time.elapsed, fetched := none }).fset F.ringHead_HEAD r ((s.fget F.ringHead_HEAD r + 1) % (2 * s.ringSize r)) := by
  unfold State.nextEntry
  dsimp only
  rw [State.ring_onRing_same]
  show (match (s.ring r).replay with | some i => _ | none => _) = _
  rw [h]
  rfl

/-- What going past an entry changes: its own ring, whose turn it is, and the head. -/
theorem State.nextEntry_frame (h : (s.ring r).replay = none) :
    ∃ served ready regs rings, s.nextEntry r = { s with served := served, ready := ready, regs := regs, rings := rings } := by
  rw [s.nextEntry_eq r h]
  exact ⟨_, _, _, _, rfl⟩

theorem State.fget_nextEntry (h : (s.ring r).replay = none) {f : Fld} (hf : f.id % 1024 ≠ F.ringHead_HEAD.id % 1024) (i : Nat) :
    (s.nextEntry r).fget f i = s.fget f i := by
  rw [s.nextEntry_eq r h, State.fget_fset_of_id _ hf]
  rfl

theorem State.head_nextEntry (h : (s.ring r).replay = none) :
    (s.nextEntry r).fget F.ringHead_HEAD r = (s.fget F.ringHead_HEAD r + 1) % (2 * s.ringSize r) % 2 ^ 17 := by
  rw [s.nextEntry_eq r h, State.fget_fset_same]
  rfl

theorem State.ring_nextEntry (h : (s.ring r).replay = none) :
    (s.nextEntry r).ring r = { s.ring r with since := s.time.elapsed, fetched := none } := by
  rw [s.nextEntry_eq r h, State.ring_fset, State.ring_onRing_same]
  rfl

theorem State.ring_opened : (s.opened r e).ring r = { s.ring r with
    steps := (s.ring r).steps ++ (if (s.ring r).cur.isSome then [] else [OpenStep.fresh (entStep e) ⟨entType e, s.readIdx r, entIrq e⟩]) } := by
  unfold State.opened
  split
  next o ho => simp [ho]
  next ho => simp [ho]

theorem State.opened_frame : ∃ rings, s.opened r e = { s with rings := rings } := by
  unfold State.opened
  split <;> exact ⟨_, rfl⟩

end

/-- The state differs from that in which the entry was taken in nothing that tells of the taking. -/
def keepsTaken (r : Nat) (t u : State) : Prop :=
  u.fget F.ringHead_HEAD r = t.fget F.ringHead_HEAD r ∧ (u.ring r).steps.map OpenStep.step = (t.ring r).steps.map OpenStep.step ∧
  (u.ring r).tail = (t.ring r).tail

theorem keepsTaken.refl (r : Nat) (t : State) : keepsTaken r t t := ⟨rfl, rfl, rfl⟩

theorem keepsTaken.trans {r : Nat} {t u v : State} (h₁ : keepsTaken r t u) (h₂ : keepsTaken r u v) : keepsTaken r t v := by
  obtain ⟨a, b, c⟩ := h₁
  obtain ⟨a', b', c'⟩ := h₂
  exact ⟨a'.trans a, b'.trans b, c'.trans c⟩

theorem tookEntry.keeps {s t u : State} {r : Nat} {e : List Byte} (h : tookEntry s t r e) (k : keepsTaken r t u) : tookEntry s u r e := by
  obtain ⟨a, b, c⟩ := h
  obtain ⟨a', b', c'⟩ := k
  exact ⟨a'.trans a, b'.trans b, c'.trans c⟩

section
variable (s : State) (r : Nat)

theorem State.onStep_keepsTaken (ring : Option Nat) (step : Nat) {f : OpenStep → OpenStep} (hf : ∀ o, (f o).step = o.step) :
    keepsTaken r s (s.onStep ring step f) := by
  obtain ⟨-, -, hr, hg, -⟩ := s.onStep_movedOn (P := False) (n := 0) ring step hf
  refine ⟨hg _ _ (by decide), (hr r).numbers, ?_⟩
  obtain ⟨g, -, e⟩ := hr r
  rw [e]

theorem movedOn.keepsTaken {P : Prop} {n : Nat} {s t : State} (h : movedOn P n s t) (r : Nat) : keepsTaken r s t := by
  obtain ⟨-, -, hr, hg, -⟩ := h
  refine ⟨hg _ _ (by decide), (hr r).numbers, ?_⟩
  obtain ⟨g, -, e⟩ := hr r
  rw [e]

theorem State.fget_onStep (ring : Option Nat) (step : Nat) (f : OpenStep → OpenStep) (g : Fld) (i : Nat) :
    (s.onStep ring step f).fget g i = s.fget g i := by
  cases ring <;> rfl

theorem State.ringState_keepsTaken : keepsTaken r s (s.ringState r) := by
  refine ⟨s.fget_ringState r (by decide) r, by rw [State.steps_ringState], ?_⟩
  obtain ⟨b, e⟩ := s.ring_ringState r r
  rw [e]

theorem State.onRing_keepsTaken {f : Ring → Ring} (hs : (f (s.ring r)).steps = (s.ring r).steps) (ht : (f (s.ring r)).tail = (s.ring r).tail) :
    keepsTaken r s (s.onRing r f) := by
  refine ⟨rfl, ?_, ?_⟩
  · rw [State.ring_onRing_same, hs]
  · rw [State.ring_onRing_same, ht]

end

section
variable {s : State} {r : Nat} (e : List Byte) (h : (s.ring r).replay = none)
include h

/-- An entry is taken (R144). -/
theorem State.accept_tookEntry : tookEntry s (s.accept r e) r e := by
  have hring := s.ring_opened r e
  have hrep : ((s.opened r e).ring r).replay = none := by
    rw [hring]
    exact h
  obtain ⟨rings, he⟩ := s.opened_frame r e
  refine tookEntry.keeps (t := (s.opened r e).nextEntry r) ⟨?_, ?_, ?_⟩ (State.ringState_keepsTaken _ r)
  · rw [State.head_nextEntry _ _ hrep, he]
    rfl
  · rw [State.ring_nextEntry _ _ hrep, hring, List.map_append]
    split <;> rfl
  · rw [State.ring_nextEntry _ _ hrep, hring]

/-- What taking an entry leaves: everything but rings, register fields, and the turns. -/
theorem State.accept_frame : ∃ served ready regs rings, s.accept r e = { s with served := served, ready := ready, regs := regs, rings := rings } := by
  have hrep : ((s.opened r e).ring r).replay = none := by
    rw [s.ring_opened r e]
    exact h
  obtain ⟨_, he⟩ := s.opened_frame r e
  obtain ⟨_, _, _, _, hn⟩ := State.nextEntry_frame _ _ hrep
  obtain ⟨_, _, ha⟩ := State.ringState_frame ((s.opened r e).nextEntry r) r
  rw [State.accept_eq, ha, hn, he]
  exact ⟨_, _, _, _, rfl⟩

theorem State.core_accept (m : Nat) : (s.accept r e).core m = s.core m := by
  obtain ⟨_, _, _, _, ha⟩ := State.accept_frame e h
  rw [ha]
  rfl

theorem State.fget_accept {f : Fld} (hf : f.id % 1024 ∉ [F.ringHead_HEAD.id % 1024, F.ringState_OPEN.id % 1024, F.ringState_IDLE.id % 1024,
      F.ringCfg_ENABLE.id % 1024]) (i : Nat) : (s.accept r e).fget f i = s.fget f i := by
  simp only [List.mem_cons, List.not_mem_nil, or_false, not_or] at hf
  obtain ⟨h1, h2, h3, h4⟩ := hf
  have hrep : ((s.opened r e).ring r).replay = none := by
    rw [s.ring_opened r e]
    exact h
  obtain ⟨_, he⟩ := s.opened_frame r e
  rw [State.accept_eq, State.fget_ringState _ _ (by simp [h2, h3, h4]), State.fget_nextEntry _ _ hrep h1, he]
  rfl

/-- The ring of an entry that has been taken. -/
theorem State.ring_accept : ∃ steps since disabling, (s.accept r e).ring r =
    { s.ring r with steps := steps, since := since, fetched := none, disabling := disabling } := by
  have hring := s.ring_opened r e
  have hrep : ((s.opened r e).ring r).replay = none := by
    rw [hring]
    exact h
  obtain ⟨b, hb⟩ := State.ring_ringState ((s.opened r e).nextEntry r) r r
  rw [State.accept_eq, hb, State.ring_nextEntry _ _ hrep, hring]
  exact ⟨_, _, _, rfl⟩

end

end Sys2Proof.Machine

namespace Sys2Proof.Machine
open Host (Outcome)

/-! ## Errors of a ring's entries (R142 to R144, R171, R172) -/

section
variable (s : State) (r : Nat)

theorem ringHalted_halt {code : Nat} (hc : code < 65536) (step : Nat) : ringHalted (s.halt r code step) r code := by
  unfold ringHalted State.halt
  rw [State.flag_eq_true]
  constructor
  · rw [State.fget_fset_of_id _ (by decide), State.fget_fset_of_id _ (by decide), State.fget_fset_same]
    decide
  · rw [State.fget_fset_of_id _ (by decide), State.fget_fset_same]
    exact Nat.mod_eq_of_lt hc

theorem State.errStep_halt (code step : Nat) : (s.halt r code step).fget F.ringState_ERR_STEP r = step % 2 ^ 32 := by
  rw [State.halt, State.fget_fset_same]
  rfl

theorem recordsOnly.eases {t : State} (h : recordsOnly s t) : eases s t := by
  refine ⟨fun q y hy => ⟨y, by rwa [h.steps q] at hy, rfl⟩, fun m => by rw [h.core m]⟩

theorem eases.halt {s t : State} {r code step : Nat} (h : eases s t) : eases s (t.halt r code step) :=
  ((h.trans (State.fset_eases _ _ _ _)).trans (State.fset_eases _ _ _ _)).trans (State.fset_eases _ _ _ _)

theorem mem_dropWhile_cons {α : Type} {p : α → Bool} {l : List α} {x : α} {t : List α} (h : l.dropWhile p = x :: t) :
    p x = false ∧ ∀ y ∈ x :: t, y ∈ l := by
  refine ⟨?_, fun y hy => (List.dropWhile_sublist p).mem (h ▸ hy)⟩
  have := List.head?_dropWhile_not p l
  rw [h] at this
  simpa using this

/-- An open step is cancelled, and the ring halts (R171, R172): the step is open no more, and its error stands. -/
theorem State.cancelFrom_spec {step status core soft : Nat} {at_ : Option ErrPlace} (hopen : ∃ o ∈ (s.ring r).steps, o.step = step)
    (hc : status < 65536) :
    ringHalted (s.cancelFrom r step status core soft at_) r status ∧ eases s (s.cancelFrom r step status core soft at_) ∧
    (∀ y ∈ ((s.cancelFrom r step status core soft at_).ring r).steps, y.step ≠ step) ∧
    (s.cancelFrom r step status core soft at_).fget F.ringState_ERR_STEP r = step % 2 ^ 32 := by
  unfold State.cancelFrom
  split
  next hnil =>
    obtain ⟨o, ho, hstep⟩ := hopen
    simpa [hstep] using List.dropWhile_eq_nil_iff.mp hnil o ho
  next o later hdrop =>
    have hstep : o.step = step := by simpa using (mem_dropWhile_cons hdrop).1
    extract_lets s1 ids n s2 s3 p record c l
    have h1 : eases s s1 := recordsOnly.eases s (s.flushLate_recordsOnly r true)
    have h2 : eases s1 s2 := .of_same rfl rfl rfl
    obtain ⟨h3, hgone⟩ := s2.dropSteps_spec r (o :: later)
    have h4 : recordsOnly s3 ((s3.onRing r fun x => { x with late := some l }).flushLate r false) :=
      (s3.onRing_recordsOnly r ⟨_, _, _, _, rfl⟩).trans (State.flushLate_recordsOnly _ r false)
    refine ⟨ringHalted_halt _ _ hc _, ((h1.trans h2).trans (h3.trans (recordsOnly.eases _ h4))).halt, fun y hy => ?_, State.errStep_halt _ _ _ _⟩
    have hy' : y ∈ (s3.ring r).steps := by rwa [← h4.steps r]
    have := hgone y hy'
    rw [List.map_cons, List.mem_cons, not_or, hstep] at this
    exact this.1

/-- An error of an entry that belongs to a step, or opens one, halts the ring; no step is opened and no work item queued. -/
theorem State.entryErr_spec {e : List Byte} {status : Nat} (hrep : (s.ring r).replay = none) (hd : (s.ring r).discard = []) (hc : status < 65536)
    (ht : entType e ≠ 7) : ringHalted (s.entryErr r e status) r status ∧ eases s (s.entryErr r e status) := by
  have hnext : eases s (s.nextEntry r) := by
    rw [s.nextEntry_eq r hrep]
    exact eases.trans (s.setRing_eases (x := { s.ring r with since := s.time.elapsed, fetched := none }) (Ring.eased.refl _)) (.of_same rfl rfl rfl)
  have hsteps : ((s.nextEntry r).ring r).steps = (s.ring r).steps := by rw [s.ring_nextEntry r hrep]
  unfold State.entryErr
  extract_lets idx x t at_ s1 alone isCommit gone
  have halone : ∀ (u : State) (step errStep : Nat), eases s1 u → ringHalted (alone u step errStep) r status ∧ eases s (alone u step errStep) :=
    fun u step errStep hu => ⟨ringHalted_halt _ _ hc _, ((hnext.trans hu).trans (recordsOnly.eases _ (State.writeCpl_recordsOnly _ _ _))).halt⟩
  have hgone : gone = none := by
    show (if x.replay.isNone then x.discard.head? else none) = none
    rw [show x.replay = none from hrep, show x.discard = [] from hd]
    rfl
  clear_value alone
  rw [if_neg (by simp [t, ht]), hgone, if_neg (by simp)]
  split
  next o ho =>
    extract_lets s2
    have hmem : o ∈ (s.ring r).steps := List.mem_of_find?_eq_some ho
    have h2 : eases s1 s2 ∧ ∃ o' ∈ (s2.ring r).steps, o'.step = o.step := by
      dsimp only [s2]
      split
      · have hon := s1.onStep_movedOn (P := False) (n := 0) (some r) o.step (f := fun y => { y with commitIdx := idx }) fun _ => rfl
        refine ⟨hon.eases, ?_⟩
        have hnum := (hon.2.2.1 r).numbers
        have : o.step ∈ ((s1.onStep (some r) o.step fun y => { y with commitIdx := idx }).ring r).steps.map OpenStep.step := by
          rw [hnum]
          exact List.mem_map_of_mem (by rw [hsteps]; exact hmem)
        obtain ⟨o', ho', he⟩ := List.mem_map.mp this
        exact ⟨o', ho', he⟩
      · exact ⟨.refl _, o, by rw [hsteps]; exact hmem, rfl⟩
    obtain ⟨hhalt, hease, -, -⟩ := s2.cancelFrom_spec r (core := 0xFFFF) (soft := 0) (at_ := some at_) h2.2 hc
    exact ⟨hhalt, (hnext.trans h2.1).trans hease⟩
  · split
    · exact halone _ _ _ (.refl _)
    · split
      · exact halone _ _ _ (.refl _)
      · exact halone _ _ _ (s1.setRing_eases (Ring.eased.refl (s1.ring r)))

end

end Sys2Proof.Machine

namespace Sys2Proof.Machine
open Host (Outcome)

/-! ## O24: DISPATCH (R148 to R150) -/

/-- The model in force in a partition is `force` (R332). -/
def State.withModel (s : State) (p force : Nat) : State :=
  { s with parts := s.parts.map fun (y : Nat × Part) => if y.1 = p then (y.1, { y.2 with model := if force = 0xFFFF then none else some force }) else y }

/-- What an open step keeps of a DISPATCH without a batch. -/
def OpenStep.dispatched (o : OpenStep) (first count force : Nat) : OpenStep :=
  { o with models := o.models ++ [force], retaken := o.retaken + 1, items := o.items + count, placed := o.placed ++ [(first, count)] }

/-- The state in which the work items of a DISPATCH are placed. -/
def State.dispatchTaken (s : State) (r : Nat) (e : List Byte) (force : Nat) : State :=
  ((s.accept r e).withModel (partOfRing r) force).onStep (some r) (entStep e) fun o => o.dispatched (fieldB e 16 2) (fieldB e 18 2) force

theorem State.core_withModel (s : State) (p force m : Nat) : (s.withModel p force).core m = s.core m := rfl

theorem State.fget_withModel (s : State) (p force : Nat) (f : Fld) (i : Nat) : (s.withModel p force).fget f i = s.fget f i := rfl

theorem State.ring_withModel (s : State) (p force q : Nat) : (s.withModel p force).ring q = s.ring q := rfl

theorem State.mem_withModel (s : State) (p force : Nat) : (s.withModel p force).mem = s.mem := rfl

theorem State.dispatchTaken_spec {s : State} {r : Nat} (e : List Byte) (hrep : (s.ring r).replay = none) (force : Nat) :
    tookEntry s (s.dispatchTaken r e force) r e ∧ (s.dispatchTaken r e force).mem = s.mem ∧
    (s.dispatchTaken r e force).isFailsafe = s.isFailsafe ∧ ∀ m, (s.dispatchTaken r e force).core m = s.core m := by
  have hmodel : keepsTaken r (s.accept r e) ((s.accept r e).withModel (partOfRing r) force) := ⟨rfl, rfl, rfl⟩
  have hkeep : keepsTaken r (s.accept r e) (s.dispatchTaken r e force) :=
    hmodel.trans (State.onStep_keepsTaken _ r (some r) (entStep e) fun _ => rfl)
  refine ⟨(State.accept_tookEntry e hrep).keeps hkeep, ?_, ?_, fun m => ?_⟩
  · rw [State.dispatchTaken, State.onStep_mem, State.mem_withModel, State.accept_mem]
  · rw [State.isFailsafe, State.isFailsafe, State.flag, State.flag, State.dispatchTaken, State.fget_onStep, State.fget_withModel,
      State.fget_accept e hrep (by decide)]
  · rw [State.dispatchTaken, State.core_onStep, State.core_withModel, State.core_accept e hrep]

/-- The work item of a DISPATCH without a batch, placed in the state `s` (R148, R150). -/
def State.dispatchItem (s : State) (r : Nat) (e : List Byte) (force : Nat) (place : ErrPlace) : WorkItem :=
  let role := fieldB e 12 2
  let d := s.mdl force
  { ring := some r, part := partOfRing r, step := entStep e, layer := fieldB e 2 2, oper := fieldB e 4 2,
    role := if force = 0xFFFF then role else if role < d.roleCount then d.roleBase + role else s.roles.length, entry := fieldB e 14 2,
    firstCore := fieldB e 16 2, arg0 := BitVec.ofNat 64 (fieldB e 24 8), arg1 := BitVec.ofNat 64 (fieldB e 32 8),
    arg2 := BitVec.ofNat 64 (fieldB e 40 8), arg3 := BitVec.ofNat 64 (fieldB e 48 8), batch := 0, model := force, dead := false, place := place }

/-- Each core of the range has the work item at the end of its queue; nothing else changes. -/
theorem State.placeItems_spec (s : State) (w : WorkItem) (first count : Nat) :
    (∀ i, i < count → (s.placeItems w first count).core (first + i) = { s.core (first + i) with queue := (s.core (first + i)).queue ++ [w] }) ∧
    (∀ m, (∀ i, i < count → m ≠ first + i) → (s.placeItems w first count).core m = s.core m) ∧
    (∀ r, keepsTaken r s (s.placeItems w first count)) ∧ (s.placeItems w first count).mem = s.mem := by
  induction count with
  | zero => exact ⟨fun i hi => absurd hi (Nat.not_lt_zero i), fun _ _ => rfl, fun r => .refl r s, rfl⟩
  | succ k ih =>
    obtain ⟨hin, hout, hkeep, hmem⟩ := ih
    have hsucc : s.placeItems w first (k + 1) = (s.placeItems w first k).onCore (first + k) fun c => { c with queue := c.queue ++ [w] } := by
      rw [State.placeItems, List.range_succ, List.foldl_append]
      rfl
    rw [hsucc]
    refine ⟨fun i hi => ?_, fun m hm => ?_, fun r => hkeep r, hmem⟩
    · rcases Nat.lt_succ_iff_lt_or_eq.mp hi with hi | rfl
      · rw [State.core_onCore_other _ _ (by omega), hin i hi]
      · rw [State.core_onCore_same, hout _ fun j hj => by omega]
    · rw [State.core_onCore_other _ _ (hm k (Nat.lt_succ_self k)), hout m fun i hi => hm i (Nat.lt_succ_of_lt hi)]

section
variable {s : State} {r : RingId} {given e : List Byte} {q : Part}

/-- Does the DISPATCH name cores of its partition. -/
abbrev dispatchOwned (q : Part) (e : List Byte) : Prop :=
  1 ≤ fieldB e 18 2 ∧ q.first ≤ fieldB e 16 2 ∧ fieldB e 16 2 + fieldB e 18 2 ≤ q.first + q.count

section
variable (hrep : (s.ring r).replay = none) (hord : (s.ring r).orderOk e = true) (hhead : entryHead s r given e 1) (hsafe : s.isFailsafe = false)
  (hrsvd : entRsvd e 60 = false) (hz : zeroB e 22 2 = true) (hpart : s.partOf (r.val / 4) = some q) (hmodel : fieldB e 20 2 = 0xFFFF)
  (hbatch : fieldB e 56 4 = 0)
include hrep hord hhead hsafe hrsvd hz hpart hmodel hbatch

theorem dispatch_refused (hbad : ¬ dispatchOwned q e) : completes (.dispatch r given) s fun t =>
    ringHalted t r 0x0B05 ∧ ∀ m, (t.core m).queue.length ≤ (s.core m).queue.length := by
  have htake := State.takeEntry_head (mine := (· = 1)) hhead (by decide) (by decide) (by decide)
  have hrun : exec (.dispatch r given) s = .next (s.entryErr r e 0x0B05) := by
    show execDispatch r given s = _
    have hown : decide (dispatchOwned q e) = false := decide_eq_false hbad
    unfold execDispatch
    dsimp only
    rw [htake]
    simp only [hrep, hord, hsafe, hrsvd, hz, hmodel, hbatch, Option.isSome_none, ne_eq, not_true_eq_false, decide_false, Bool.false_and, Bool.false_eq_true,
      if_false, Bool.not_true, Bool.or_false, partOfRing, hpart, hown, Bool.not_false, if_true]
  exact ⟨_, hrun, s.entryErr_spec r hrep hhead.2.2.2.2.2.1 (by decide) (by rw [hhead.2.2.2.2.1]; decide) |>.imp_right fun h => h.2⟩

theorem dispatch_run (hown : dispatchOwned q e) (hroom : ∀ i, i < fieldB e 18 2 → (s.core (fieldB e 16 2 + i)).queue.length < 32) :
    let u := s.dispatchTaken r e (q.model.getD 0xFFFF)
    exec (.dispatch r given) s = .next (u.placeItems (u.dispatchItem r e (q.model.getD 0xFFFF) ⟨1, s.fget F.ringHead_HEAD r, entIrq e⟩)
      (fieldB e 16 2) (fieldB e 18 2)) := by
  intro u
  have htake := State.takeEntry_head (mine := (· = 1)) hhead (by decide) (by decide) (by decide)
  have hheld : s.dispatchHeld e = false := by
    refine List.any_eq_false.mpr fun i hi => ?_
    simpa using hroom i (List.mem_range.mp hi)
  have hplace : s.readIdx r = s.fget F.ringHead_HEAD r := s.readIdx_of_no_replay r hrep
  have hown' : decide (1 ≤ fieldB e 18 2 ∧ q.first ≤ fieldB e 16 2 ∧ fieldB e 16 2 + fieldB e 18 2 ≤ q.first + q.count) = true := decide_eq_true hown
  have hu : u.isFailsafe = false := (State.dispatchTaken_spec e hrep _).2.2.1.trans hsafe
  show execDispatch r given s = _
  unfold execDispatch
  dsimp only
  rw [htake]
  simp only [hrep, hord, hsafe, hrsvd, hz, hmodel, hbatch, Option.isSome_none, ne_eq, not_true_eq_false, decide_false, Bool.false_and, Bool.false_eq_true,
    if_false, Bool.not_true, Bool.or_false, partOfRing, hpart, hown', Bool.not_false, if_true, Bool.and_false, hheld, decide_true]
  show (if u.isFailsafe = true then Outcome.next u else Outcome.next (u.placeItems (u.dispatchItem r e (q.model.getD 0xFFFF)
    ⟨1, s.readIdx r, entIrq e⟩) (fieldB e 16 2) (fieldB e 18 2))) = _
  rw [hu, if_neg Bool.false_ne_true, hplace]

/-- A DISPATCH of cores of its partition, whose work queues have room, is taken. -/
theorem dispatch_places (hown : dispatchOwned q e) (hroom : ∀ i, i < fieldB e 18 2 → (s.core (fieldB e 16 2 + i)).queue.length < 32) :
    completes (.dispatch r given) s fun t =>
      tookEntry s t r e ∧ t.mem = s.mem ∧
      (∃ w : WorkItem, (∀ i, i < fieldB e 18 2 → (t.core (fieldB e 16 2 + i)).queue = (s.core (fieldB e 16 2 + i)).queue ++ [w]) ∧
        w.ring = some r.val ∧ w.part = r.val / 4 ∧ w.step = entStep e ∧ w.layer = fieldB e 2 2 ∧ w.oper = fieldB e 4 2 ∧ w.entry = fieldB e 14 2 ∧
        w.firstCore = fieldB e 16 2 ∧ w.arg0 = BitVec.ofNat 64 (fieldB e 24 8) ∧ w.arg1 = BitVec.ofNat 64 (fieldB e 32 8) ∧
        w.arg2 = BitVec.ofNat 64 (fieldB e 40 8) ∧ w.arg3 = BitVec.ofNat 64 (fieldB e 48 8) ∧
        w.place = ⟨1, s.fget F.ringHead_HEAD r, entIrq e⟩) ∧
      (∀ m, (∀ i, i < fieldB e 18 2 → m ≠ fieldB e 16 2 + i) → t.core m = s.core m) ∧
      ∀ i, i < fieldB e 18 2 → (t.core (fieldB e 16 2 + i)).wi = (s.core (fieldB e 16 2 + i)).wi := by
  obtain ⟨htook, hmem, -, hcore⟩ := State.dispatchTaken_spec e hrep (q.model.getD 0xFFFF)
  have hrun := dispatch_run hrep hord hhead hsafe hrsvd hz hpart hmodel hbatch hown hroom
  generalize s.dispatchTaken r e (q.model.getD 0xFFFF) = u at *
  dsimp only at hrun
  generalize hw : u.dispatchItem r e (q.model.getD 0xFFFF) ⟨1, s.fget F.ringHead_HEAD r, entIrq e⟩ = w at hrun
  obtain ⟨hplaced, hother, hkeep⟩ := u.placeItems_spec w (fieldB e 16 2) (fieldB e 18 2)
  refine ⟨_, hrun, htook.keeps (hkeep.1 r), hkeep.2.trans hmem, ⟨w, fun i hi => ?_, ?_⟩, fun m hm => ?_, fun i hi => ?_⟩
  · rw [hplaced i hi, hcore]
  · subst hw
    exact ⟨rfl, rfl, rfl, rfl, rfl, rfl, rfl, rfl, rfl, rfl, rfl, rfl⟩
  · rw [hother m hm, hcore]
  · rw [hplaced i hi, hcore]

end
end

/-- Settles O24. -/
theorem dispatchPlacesWork : Obligations.DispatchPlacesWork := by
  unfold Obligations.DispatchPlacesWork
  intro s r given e q hrep hord hhead hsafe hrsvd hz hpart hmodel hbatch first count
  refine ⟨fun h1 hq hc hroom => dispatch_places hrep hord hhead hsafe hrsvd hz hpart hmodel hbatch ⟨h1, hq, hc⟩ hroom, fun hbad =>
    dispatch_refused hrep hord hhead hsafe hrsvd hz hpart hmodel hbatch fun ⟨h1, hq, hc⟩ => ?_⟩
  rcases hbad with h | h | h
  · exact absurd h (Nat.one_le_iff_ne_zero.mp h1)
  · exact absurd hq (Nat.not_le.mpr h)
  · exact absurd hc (Nat.not_le.mpr h)

end Sys2Proof.Machine

namespace Sys2Proof.Machine
open Host (Outcome)

/-! ## O23: the entries of a ring (R54, R57, R135, R144, R145, R167, R627) -/

theorem getElem_sliceB (l : List Byte) (i n j : Nat) (h : j < (sliceB l i n).length) : (sliceB l i n)[j] = l.getD (i + j) 0 := by
  have hj : j < n := by simpa using h
  have he : sliceB l i n = (l.drop i).take n ++ List.replicate (n - ((l.drop i).take n).length) 0 := rfl
  refine (List.getElem_of_eq he h).trans ?_
  by_cases hin : i + j < l.length
  · rw [List.getElem_append_left (by simp; omega), List.getElem_take, List.getElem_drop, List.getD_eq_getElem _ _ hin]
  · rw [List.getElem_append_right (by simp; omega), List.getElem_replicate, List.getD_eq_default _ _ (Nat.not_lt.mp hin)]

/-- A slice of a slice. -/
theorem fieldB_sliceB (l : List Byte) {i k x m : Nat} (h : x + m ≤ k) : fieldB (sliceB l i k) x m = fieldB l (i + x) m := by
  refine congrArg leNat (List.ext_getElem (by simp) fun j h₁ h₂ => ?_)
  have hj : j < m := by simpa using h₁
  rw [getElem_sliceB, getElem_sliceB, List.getD_eq_getElem _ _ (by simp; omega), getElem_sliceB, Nat.add_assoc]

section
variable {s : State} {r : RingId} {given e : List Byte} (hrep : (s.ring r).replay = none) (hord : (s.ring r).orderOk e = true)
include hrep

theorem nopEntry_taken (hord : (s.ring r).orderOk e = true) (h : entryHead s r given e 6) (hr : entRsvd e 12 = false) :
    completes (.nopEntry r given) s fun t => tookEntry s t r e ∧ t.mem = s.mem := by
  have htake := State.takeEntry_head (mine := (· = 6)) h (by decide) (by decide) (by decide)
  refine ⟨s.accept r e, ?_, State.accept_tookEntry e hrep, State.accept_mem s r e⟩
  show execNopEntry r given s = _
  unfold execNopEntry
  simp only [htake, hr, hord, Bool.not_true, Bool.false_eq_true, if_false]

theorem commitEntry_taken (hord : (s.ring r).orderOk e = true) (h : entryHead s r given e 2) (hr : entRsvd e 12 = false) :
    completes (.commitEntry r given) s fun t =>
      tookEntry s t r e ∧ t.mem = s.mem ∧ (t.ring r).next = some ((entStep e + 1) % 2 ^ 32) ∧
      ∀ o ∈ (t.ring r).steps, o.step = entStep e → o.commitTaken = true ∧ o.commitIdx = s.fget F.ringHead_HEAD r ∧ o.commitIrq = entIrq e := by
  have htake := State.takeEntry_head (mine := (· = 2)) h (by decide) (by decide) (by decide)
  have hidx := s.readIdx_of_no_replay r hrep
  let closed (o : OpenStep) : OpenStep := { o with commitTaken := true, commitIdx := s.readIdx r, commitIrq := entIrq e }
  let marked : State := (s.accept r e).onStep (some r) (entStep e) closed
  have hkeep : keepsTaken r (s.accept r e) marked := State.onStep_keepsTaken _ r (some r.val) (entStep e) fun _ => rfl
  have hsteps : (marked.ring r).steps = ((s.accept r e).ring r).steps.map fun o => if o.step = entStep e then closed o else o :=
    congrArg Ring.steps (State.ring_onRing_same (s.accept r e) r fun x => x.onStep (entStep e) closed)
  refine ⟨marked.onRing r fun x =>
    { x with next := some ((entStep e + 1) % 2 ^ 32), replay := if x.steps.all OpenStep.commitTaken then none else x.replay }, ?_, ?_, ?_, ?_, ?_⟩
  · show execCommitEntry r given s = _
    unfold execCommitEntry
    simp only [htake, hr, hord, Bool.not_true, Bool.false_eq_true, if_false]
    rfl
  · exact (State.accept_tookEntry e hrep).keeps (hkeep.trans (State.onRing_keepsTaken _ _ rfl rfl))
  · rw [State.onRing_mem, State.onStep_mem, State.accept_mem]
  · rw [State.ring_onRing_same]
  · rw [State.ring_onRing_same]
    intro o ho hstep
    rw [hsteps] at ho
    obtain ⟨b, -, rfl⟩ := List.mem_map.mp ho
    by_cases hb : b.step = entStep e
    · rw [if_pos hb]
      exact ⟨rfl, hidx, rfl⟩
    · rw [if_neg hb] at hstep
      exact absurd hstep hb

/-- Of the front end's issue order an entry that has been taken changes nothing (R135). -/
theorem State.feSeq_accept (p : Nat) : (s.accept r e).feSeq p = s.feSeq p := by
  obtain ⟨_, _, _, _, ha⟩ := State.accept_frame e hrep
  rw [ha]
  rfl

/-- A fence or wait stands at its ring. -/
theorem State.hold_accept : ((s.accept r e).ring r).hold = (s.ring r).hold := by
  obtain ⟨_, _, _, ha⟩ := State.ring_accept e hrep
  rw [ha]

end

theorem State.feNext_keepsTaken (r : Nat) (t : State) (p : Nat) : keepsTaken r t (t.feNext p).2 := ⟨rfl, rfl, rfl⟩

theorem State.addEntry_keepsTaken (r : Nat) (e : List Byte) (t : State) : keepsTaken r t (t.addEntry r e) := t.onStep_keepsTaken r (some r) (entStep e) fun _ => rfl

theorem hold_none_of_ringOpen {s : State} {r : Nat} (h : s.ringOpen r = true) : (s.ring r).hold = none := by
  unfold State.ringOpen at h
  simp only [Bool.and_eq_true, Option.isNone_iff_eq_none] at h
  exact h.1.1.2


/-! ### SEM entries -/

/-- What the checks of a SEM entry leave when they pass. -/
theorem State.semEntryCheck_eq_zero {s : State} {r : Nat} {e : List Byte} {wait : Bool} (h : s.semEntryCheck r e wait = 0) :
    s.semCheck (r / 4) (fieldB e 16 7) (fieldB e 13 1) wait = 0 := by
  unfold State.semEntryCheck at h
  dsimp only at h
  rw [fieldB_sliceB _ (by decide)] at h
  split at h
  · contradiction
  · split at h
    · contradiction
    · split at h
      · contradiction
      · exact h

section
variable {s : State} {r : RingId} {given e : List Byte} (hrep : (s.ring r).replay = none)
include hrep

theorem fenceEntry_taken (hord : (s.ring r).orderOk e = true) (h : entryHead s r given e 4) (hr : entRsvd e 14 = false)
    (h1 : 1 ≤ fieldB e 12 1) (h3 : fieldB e 12 1 ≤ 3) (h15 : fieldB e 13 1 ≤ 15) : completes (.fenceEntry r given) s fun t =>
      tookEntry s t r e ∧ t.mem = s.mem ∧
      (t.ring r).hold = (if bitAt (fieldB e 13 1) 0 || bitAt (fieldB e 13 1) 2 || bitAt (fieldB e 13 1) 3 then
        some (.fence (fieldB e 12 1) (fieldB e 13 1) (entStep e) (s.feSeq (r.val / 4))) else none) := by
  have htake := State.takeEntry_head (mine := (· = 4)) h (by decide) (by decide) (by decide)
  have htook := State.accept_tookEntry e hrep
  have hrun : exec (.fenceEntry r given) s = .next (if bitAt (fieldB e 13 1) 0 || bitAt (fieldB e 13 1) 2 || bitAt (fieldB e 13 1) 3 then
      (((((s.accept r e).feNext (partOfRing r)).2.addEntry r e).onRing r fun x =>
        { x with hold := some (.fence (fieldB e 12 1) (fieldB e 13 1) (entStep e) ((s.accept r e).feSeq (partOfRing r))) }).ringState r)
      else s.accept r e) := by
    show execFenceEntry r given s = _
    unfold execFenceEntry
    simp only [htake, hr, hord, Nat.not_lt.mpr h3, Nat.not_lt.mpr h15, Nat.ne_of_gt h1, decide_false, Bool.or_false, Bool.not_true, Bool.false_eq_true, if_false]
    split <;> rfl
  refine ⟨_, hrun, ?_⟩
  split
  · refine ⟨htook.keeps ?_, ?_, ?_⟩
    · exact (((State.feNext_keepsTaken r _ _).trans (State.addEntry_keepsTaken r e _)).trans (State.onRing_keepsTaken _ r rfl rfl)).trans
        (State.ringState_keepsTaken _ r)
    · rw [State.ringState_mem, State.onRing_mem, State.addEntry_mem, State.feNext_mem, State.accept_mem]
    · rw [State.ringState_hold, State.ring_onRing_same, State.feSeq_accept hrep]
      rfl
  · exact ⟨htook, State.accept_mem s r e, (State.hold_accept hrep).trans (hold_none_of_ringOpen h.1)⟩

theorem semWaitEntry_taken (h : entryHead s r given e 5) (hop : fieldB e 12 1 = 2) (hc : s.semEntryCheck r e true = 0) :
    completes (.semWaitEntry r given) s fun t =>
      tookEntry s t r e ∧ t.mem = s.mem ∧
      ∃ w : SemWait, t.waits = s.waits ++ [w] ∧ w.core = none ∧ w.ring = some r.val ∧ w.step = entStep e ∧ w.sem = localOf (fieldB e 16 7) ∧
        w.value = fieldB e 24 8 ∧ w.eq = (fieldB e 13 1 = 1) ∧ (t.ring r).hold = some (.wait (entStep e) w.sem w.value (fieldB e 13 1) w.deadline) := by
  have htake := State.takeEntry_head (mine := (· = 5)) h (by decide) (by decide) (by decide)
  have haddr : fieldB (sliceB e 16 30) 0 7 = fieldB e 16 7 := fieldB_sliceB e (by decide)
  have hval : fieldB (sliceB e 16 30) 8 8 = fieldB e 24 8 := fieldB_sliceB e (by decide)
  let dl := if fieldB (sliceB e 16 30) 16 4 = 0 then none else some (s.time.elapsed + fieldB (sliceB e 16 30) 16 4 * 1000)
  let w : SemWait :=
    { since := s.time.elapsed, core := none, ring := some r, step := entStep e, sem := localOf (fieldB e 16 7), value := fieldB e 24 8, eq := fieldB e 13 1 = 1,
      deadline := dl, met := none, entry := some ⟨5, s.readIdx r, entIrq e⟩ }
  let u : State := (s.accept r e).addEntry r e
  have hrun : exec (.semWaitEntry r given) s = .next ((State.onRing { u with waits := u.waits ++ [w] } r fun x =>
      { x with hold := some (.wait (entStep e) (localOf (fieldB e 16 7)) (fieldB e 24 8) (fieldB e 13 1) dl) }).ringState r) := by
    show execSemWaitEntry r given s = _
    unfold execSemWaitEntry
    simp only [htake, hop, hc, haddr, hval, ne_eq, not_true_eq_false, if_false]
    rfl
  have hkeep : keepsTaken r u { u with waits := u.waits ++ [w] } := ⟨rfl, rfl, rfl⟩
  refine ⟨_, hrun, (State.accept_tookEntry e hrep).keeps ?_, ?_, w, ?_, rfl, rfl, rfl, rfl, rfl, decide_eq_true_eq, ?_⟩
  · exact (((State.addEntry_keepsTaken r e _).trans hkeep).trans (State.onRing_keepsTaken _ r rfl rfl)).trans (State.ringState_keepsTaken _ r)
  · rw [State.ringState_mem, State.onRing_mem]
    exact (State.addEntry_mem (s.accept r e) r e).trans (State.accept_mem s r e)
  · obtain ⟨_, _, hs⟩ := State.ringState_frame (State.onRing { u with waits := u.waits ++ [w] } r fun x =>
      { x with hold := some (.wait (entStep e) (localOf (fieldB e 16 7)) (fieldB e 24 8) (fieldB e 13 1) dl) }) r
    have hw : u.waits = s.waits := by
      obtain ⟨_, _, _, _, ha⟩ := State.accept_frame e hrep
      obtain ⟨_, hadd⟩ := State.onStep_frame (s.accept r e) (some r.val) (entStep e) fun o => { o with entries := o.entries + 1 }
      show ((s.accept r e).addEntry r e).waits = _
      rw [State.addEntry, hadd, ha]
    rw [hs]
    exact congrArg (· ++ [w]) hw
  · rw [State.ringState_hold, State.ring_onRing_same]

end


/-- A signal to another module leaves as one more transaction, whose packet is the request but for its numbers. -/
theorem State.signalRemote_txns (s : State) (src : Src) (core ring : Option Nat) (step addr : Nat) (set : Bool) (v : Nat) (ch : Bool)
    (entry : Option ErrPlace) : ∃ x : Txn, (s.signalRemote src core ring step addr set v ch entry).link.txns = s.link.txns ++ [x] ∧ x.pkt.type = 3 ∧
      x.pkt.addr = localOf addr ∧ x.pkt.op = one set ∧ x.pkt.payload = toLE 8 v ∧ x.step = step := by
  unfold State.signalRemote
  dsimp only
  cases set with
  | false => exact ⟨_, rfl, rfl, rfl, rfl, rfl, rfl⟩
  | true =>
    rw [if_pos rfl]
    obtain ⟨y, hy⟩ := State.onStep_frame (s.request src (s.newPacket 3 0 (one true) (addr / 0x10000000000) (localOf addr) 8 (toLE 8 v) (one ch))
      none core ring step entry) ring step fun o => { o with exported := true }
    rw [hy]
    exact ⟨_, rfl, rfl, rfl, rfl, rfl, rfl⟩

theorem State.signalRemote_movedOn (s : State) (src : Src) (core ring : Option Nat) (step addr : Nat) (set : Bool) (v : Nat) (ch : Bool)
    (entry : Option ErrPlace) : movedOn True 0 s (s.signalRemote src core ring step addr set v ch entry) := by
  have hreq := s.request_movedOn (P := True) (n := 0) src (s.newPacket 3 0 (one set) (addr / 0x10000000000) (localOf addr) 8 (toLE 8 v) (one ch))
    none core ring step entry
  unfold State.signalRemote
  dsimp only
  split
  · exact hreq.trans (State.onStep_movedOn _ _ _ fun _ => rfl)
  · exact hreq

theorem State.ledger_movedOn (s : State) (ring : Option Nat) (step : Nat) (x : LedgerEnt) : movedOn True 0 s (s.ledger ring step x) := by
  refine s.onStep_movedOn ring step fun o => ?_
  split <;> rfl

section
variable {s : State} {r : RingId} {given e : List Byte} (mm : Nat) (hrep : (s.ring r).replay = none) (h : entryHead s r given e 5)
  (hop : fieldB e 12 1 = 1) (hc : s.semEntryCheck r e false = 0) (hopen : s.feOpen (r.val / 4) (s.feSeq (r.val / 4)) true true true false = false)

/-- The entry of the ledger that a SIGNAL entry makes (R419). -/
def State.signalEntry (s : State) (r : Nat) (e : List Byte) : LedgerEnt where
  addr := fieldB e 16 7
  set := fieldB e 13 1 = 1
  value := fieldB e 24 8
  before := if fieldB e 16 7 / 0x10000000000 = s.selfId then (s.accept r e).semValue (localOf (fieldB e 16 7)) else 0

/-- The state after a SIGNAL entry is taken and put into the ledger of its step (R419). -/
def State.signalNoted (s : State) (r : Nat) (e : List Byte) : State := (s.accept r e).ledger (some r) (entStep e) (s.signalEntry r e)

/-- The fault of a SIGNAL entry whose reads disagreed twice (R397). -/
def signalFault (r : Nat) (e : List Byte) : FaultRec :=
  { FaultRec.blank 9 with
    part := partOfRing r, ring := r, step := entStep e, layer := fieldB e 2 2, oper := fieldB e 4 2, addr := fieldB e 16 7 }

include hrep in
theorem State.signalNoted_spec : tookEntry s (s.signalNoted r e) r e ∧ (s.signalNoted r e).mem = s.mem ∧ (s.signalNoted r e).ret = s.ret ∧
    (s.signalNoted r e).link = s.link := by
  obtain ⟨_, _, _, _, ha⟩ := State.accept_frame e hrep
  have hon := (s.accept r e).ledger_movedOn (some r.val) (entStep e) (s.signalEntry r e)
  obtain ⟨_, hl⟩ := (s.accept r e).onStep_frame (some r.val) (entStep e) fun o =>
    if o.ledger.length < 1024 then { o with ledger := o.ledger ++ [s.signalEntry r e] } else { o with exported := true }
  have hl' : s.signalNoted r e = _ := hl
  refine ⟨(State.accept_tookEntry e hrep).keeps (hon.keepsTaken r), ?_, ?_, ?_⟩ <;> rw [hl', ha]

include h hop hc hopen

theorem semSignalEntry_run : exec (.semSignalEntry r given mm) s = .next (
    if decide (fieldB e 16 7 / 0x10000000000 = s.selfId) && decide (2 ≤ mm) then (s.accept r e).confirm (signalFault r e)
    else if fieldB e 16 7 / 0x10000000000 = s.selfId then
      (s.signalNoted r e).signalLocal (localOf (fieldB e 16 7)) (fieldB e 13 1 = 1) (fieldB e 24 8) false
    else (s.signalNoted r e).signalRemote (.frontEnd (partOfRing r)) none (some r) (entStep e) (fieldB e 16 7) (fieldB e 13 1 = 1) (fieldB e 24 8) false
      (some ⟨5, s.readIdx r, entIrq e⟩)) := by
  have htake := State.takeEntry_head (mine := (· = 5)) h (by decide) (by decide) (by decide)
  have haddr : fieldB (sliceB e 16 30) 0 7 = fieldB e 16 7 := fieldB_sliceB e (by decide)
  have hval : fieldB (sliceB e 16 30) 8 8 = fieldB e 24 8 := fieldB_sliceB e (by decide)
  have hopen' : s.feOpen (partOfRing r) (s.feSeq (partOfRing r)) true true true false = false := hopen
  show execSemSignalEntry r given mm s = _
  unfold execSemSignalEntry
  simp only [htake]
  rw [if_neg (by omega : ¬ fieldB e 12 1 = 2), if_neg (not_not_intro hc), hopen', if_neg Bool.false_ne_true, haddr, hval]
  split
  · rfl
  · rfl

include hrep

/-- A SIGNAL entry for a semaphore of this module. -/
theorem semSignalEntry_here (hh : fieldB e 16 7 / 0x10000000000 = s.selfId) (hg : s.goneAt (localOf (fieldB e 16 7)) = false) (hm : mm < 2) :
    completes (.semSignalEntry r given mm) s fun t => tookEntry s t r e ∧
      t.semValue (localOf (fieldB e 16 7)) = (if fieldB e 13 1 = 1 then fieldB e 24 8
        else (s.semValue (localOf (fieldB e 16 7)) + fieldB e 24 8) % 2 ^ 64) ∧
      ∀ x, x < localOf (fieldB e 16 7) ∨ localOf (fieldB e 16 7) + 8 ≤ x → memGet t.mem x = memGet s.mem x := by
  have hrun := semSignalEntry_run mm h hop hc hopen
  rw [if_neg (by simp [Nat.not_le.mpr hm]), if_pos hh] at hrun
  obtain ⟨htook, hmem, hret, -⟩ := State.signalNoted_spec (e := e) hrep
  obtain ⟨h8, ha⟩ := State.semOk_place (State.semOk_of_semCheck (State.semEntryCheck_eq_zero hc) hh)
  have hgone : (s.signalNoted r e).goneAt (localOf (fieldB e 16 7)) = false := by
    rw [State.goneAt, hret]
    exact hg
  obtain ⟨hval, hframe⟩ := State.signalLocal_writes h8 ha hgone (fieldB e 13 1 = 1) (fieldB e 24 8) false
  have hlt : fieldB e 24 8 < 2 ^ 64 := fieldB_lt e 24 8
  refine ⟨_, hrun, htook.keeps ((State.wrMarked_movedOn (P := False) (n := 0) _ id _ _).keepsTaken r), ?_, fun x hx => ?_⟩
  · rw [hval, State.semValue_congr _ hmem hret]
    split
    next hs =>
      rw [if_pos (of_decide_eq_true hs)]
      exact Nat.mod_eq_of_lt hlt
    next hs =>
      rw [if_neg fun h => hs (decide_eq_true h)]
      exact Nat.mod_mod _ _
  · rw [hframe x hx, hmem]

theorem semSignalEntry_fault (hh : fieldB e 16 7 / 0x10000000000 = s.selfId) (hm : 2 ≤ mm) :
    completes (.semSignalEntry r given mm) s fun t => tookEntry s t r e ∧ t.mem = s.mem ∧
      ∃ f : FaultRec, t.faultQ = s.faultQ ++ [f] ∧ f.cause = 9 ∧ f.step = entStep e ∧ f.addr = fieldB e 16 7 := by
  have hrun := semSignalEntry_run mm h hop hc hopen
  rw [if_pos (by simp [hh, hm])] at hrun
  obtain ⟨_, _, _, _, ha⟩ := State.accept_frame e hrep
  refine ⟨_, hrun, (State.accept_tookEntry e hrep).keeps ⟨rfl, rfl, rfl⟩, State.accept_mem s r e, signalFault r e, ?_, rfl, rfl, rfl⟩
  show (s.accept r e).faultQ ++ [signalFault r e] = _
  rw [ha]

theorem semSignalEntry_away (hh : ¬ fieldB e 16 7 / 0x10000000000 = s.selfId) :
    completes (.semSignalEntry r given mm) s fun t => tookEntry s t r e ∧ t.mem = s.mem ∧
      ∃ x : Txn, t.link.txns = s.link.txns ++ [x] ∧ x.pkt.type = 3 ∧ x.pkt.addr = localOf (fieldB e 16 7) ∧
        x.pkt.op = (if fieldB e 13 1 = 1 then 1 else 0) ∧ x.pkt.payload = toLE 8 (fieldB e 24 8) ∧ x.step = entStep e := by
  have hrun := semSignalEntry_run mm h hop hc hopen
  rw [if_neg (by simp [hh]), if_neg hh] at hrun
  obtain ⟨htook, hmem, -, hlink⟩ := State.signalNoted_spec (e := e) hrep
  have hon := (s.signalNoted r e).signalRemote_movedOn (.frontEnd (partOfRing r)) none (some r.val) (entStep e) (fieldB e 16 7) (fieldB e 13 1 = 1)
    (fieldB e 24 8) false (some ⟨5, s.readIdx r, entIrq e⟩)
  obtain ⟨x, htxn, htype, haddr, hopx, hpay, hstep⟩ := (s.signalNoted r e).signalRemote_txns (.frontEnd (partOfRing r)) none (some r.val) (entStep e)
    (fieldB e 16 7) (fieldB e 13 1 = 1) (fieldB e 24 8) false (some ⟨5, s.readIdx r, entIrq e⟩)
  refine ⟨_, hrun, htook.keeps (hon.keepsTaken r), (hon.2.2.2.2 trivial).1.trans hmem, x, ?_, htype, haddr, ?_, hpay, hstep⟩
  · rw [htxn, hlink]
  · rw [hopx, one]
    by_cases hs : fieldB e 13 1 = 1 <;> simp [hs]

end

/-! ### MOVE entries -/

/-- The command that a MOVE entry with the number `seq` in its front end's order stands for (R145). -/
def moveEntryCmd (seq : Nat) (e : List Byte) : Cmd where
  seq := seq
  layer := fieldB e 2 2
  oper := fieldB e 4 2
  step := entStep e
  kind := 4
  op := fieldB e 12 1
  body := 0
  chk := 0
  chaff := false

section
variable {s : State} {r : RingId} {given e : List Byte} (hrep : (s.ring r).replay = none) (hord : (s.ring r).orderOk e = true)
  (h : entryHead s r given e 3) (hop : fieldB e 12 1 ≤ 4) (hr : entRsvd e 46 = false) (hz : zeroB e 14 2 = true)
  (hm : moveRsvd (fieldB e 12 1) (fieldB e 13 1) (sliceB e 16 30) = false)
include hrep hord h hop hr hz hm

theorem moveEntry_begins {a b : Desc} {x : Option Desc} {perm : List Nat} {ov need : Nat} {ch : Bool}
    (hc : s.moveCheck none (r.val / 4) (fieldB e 12 1) (fieldB e 13 1) (sliceB e 16 30) = .ok a b x perm ov need ch)
    (hh : s.moveHeld (r.val / 4) (s.memSpans none (fieldB e 12 1) (fieldB e 13 1) (some a) (some b) x) = false) :
    completes (.moveEntry r given) s fun t =>
      tookEntry s t r e ∧ t.nextMove = s.nextMove + 1 ∧
      ∃ m ∈ t.moves, m.id = s.nextMove ∧ m.core = none ∧ m.ring = some r.val ∧ m.part = r.val / 4 ∧ m.step = entStep e ∧
        m.op = fieldB e 12 1 ∧ m.sub = fieldB e 13 1 ∧ m.src = a ∧ m.dst = b ∧ m.idx = x ∧
        m.entry = some ⟨3, s.fget F.ringHead_HEAD r, entIrq e⟩ := by
  have htake := State.takeEntry_head (mine := (· = 3)) h (by decide) (by decide) (by decide)
  have hidx := s.readIdx_of_no_replay r hrep
  let u : State := (((s.accept r e).addEntry r e).feNext (partOfRing r)).2
  let v : State := if ch then u.consumeChaff (some r) (entStep e) else u
  let cmd := moveEntryCmd (((s.accept r e).addEntry r e).feNext (partOfRing r)).1 e
  let det := decide (fieldB e 12 1 = 3) && bitAt (fieldB (sliceB e 16 30) 9 1) 0
  have hrun : exec (.moveEntry r given) s = .next (v.acceptMove none (some r) (partOfRing r) (entStep e) cmd (fieldB e 12 1) (fieldB e 13 1) det
      a b x perm ov need ch [] (some ⟨3, s.readIdx r, entIrq e⟩)) := by
    show execMoveEntry r given s = _
    unfold execMoveEntry
    simp only [htake]
    rw [if_neg (Nat.not_lt.mpr hop), if_neg (by simp [hr, hz, hm]), if_neg (by simp [hord])]
    simp only [partOfRing, hc, hh, Bool.false_eq_true, if_false]
    rfl
  obtain ⟨m, dets, hnew, hon⟩ := State.acceptMove_movedOn (P := False) (n := 0) v none (some r.val) (partOfRing r) (entStep e) cmd (fieldB e 12 1)
    (fieldB e 13 1) det a b x perm ov need ch [] (some ⟨3, s.readIdx r, entIrq e⟩) False.elim
  have hv : keepsTaken r (s.accept r e) v ∧ v.nextMove = s.nextMove := by
    have hu : keepsTaken r (s.accept r e) u := (State.addEntry_keepsTaken r e _).trans (State.feNext_keepsTaken r _ _)
    have hnext : u.nextMove = s.nextMove := by
      obtain ⟨_, _, _, _, ha⟩ := State.accept_frame e hrep
      obtain ⟨_, hadd⟩ := (s.accept r e).onStep_frame (some r.val) (entStep e) fun o => { o with entries := o.entries + 1 }
      show ((s.accept r e).addEntry r e).nextMove = _
      rw [State.addEntry, hadd, ha]
    dsimp only [v]
    split
    · obtain ⟨_, hch⟩ := u.consumeChaff_frame (some r.val) (entStep e)
      exact ⟨hu.trans (State.onStep_keepsTaken _ r _ _ fun _ => rfl), (congrArg State.nextMove hch).trans hnext⟩
    · exact ⟨hu, hnext⟩
  obtain ⟨⟨z, hin, hz'⟩, hnext, -⟩ := hon.begun hnew
  rw [hv.2] at hnext hz'
  refine ⟨_, hrun, (State.accept_tookEntry e hrep).keeps (hv.1.trans (keepsTaken.trans (u := v.withMove m dets) ⟨rfl, rfl, rfl⟩ (hon.keepsTaken r))), hnext,
    z, hin, hz'.id, hz'.core, hz'.ring, hz'.part, hz'.step, hz'.op, hz'.sub, hz'.src, hz'.dst, hz'.idx, ?_⟩
  rw [hz'.entry, hidx]

theorem moveEntry_halts {st : Nat} (hst : st < 65536)
    (hc : s.moveCheck none (r.val / 4) (fieldB e 12 1) (fieldB e 13 1) (sliceB e 16 30) = .status st) :
    completes (.moveEntry r given) s fun t => ringHalted t r st := by
  have htake := State.takeEntry_head (mine := (· = 3)) h (by decide) (by decide) (by decide)
  have hrun : exec (.moveEntry r given) s = .next (s.entryErr r e st) := by
    show execMoveEntry r given s = _
    unfold execMoveEntry
    simp only [htake, Nat.not_lt.mpr hop, hr, hz, hm, hord, partOfRing, hc, Bool.not_true, Bool.or_false, Bool.false_eq_true, if_false]
  obtain ⟨-, -, -, -, htype, hdiscard, -⟩ := h
  exact ⟨_, hrun, (s.entryErr_spec r hrep hdiscard hst (by rw [htype]; decide)).1⟩

end

/-- Settles O23: an entry whose checks pass is taken, and each row then has its effect. -/
theorem entriesTaken : Obligations.EntriesTaken := by
  unfold Obligations.EntriesTaken
  intro s r given e mm hrep hord
  refine ⟨nopEntry_taken hrep hord, commitEntry_taken hrep hord, fenceEntry_taken hrep hord, semWaitEntry_taken hrep, fun h hop hc hopen => ?_,
    fun _ _ _ _ _ _ _ h hop hr hz hm => moveEntry_begins hrep hord h hop hr hz hm, fun _ h hop hr hz hm => moveEntry_halts hrep hord h hop hr hz hm⟩
  exact ⟨semSignalEntry_here mm hrep h hop hc hopen, semSignalEntry_fault mm hrep h hop hc hopen, semSignalEntry_away mm hrep h hop hc hopen⟩

end Sys2Proof.Machine

namespace Sys2Proof.Machine
open Host (Outcome)

/-! ## A ring listed twice in the table of rings

The table of rings is a list of numbered entries, and a read finds the first of a number. The release of the holds of a dropped step can
find a broken context and enter fail-safe, which goes through every entry of the list: an entry behind the first one of its number then comes to
the front, with the records it holds. -/

/-- The table of rings and the re-shard jobs stay as they are. -/
def keepsRings (s t : State) : Prop := t.rings = s.rings ∧ t.rsh = s.rsh

theorem keepsRings.refl (s : State) : keepsRings s s := ⟨rfl, rfl⟩

theorem keepsRings.trans {s t u : State} (h₁ : keepsRings s t) (h₂ : keepsRings t u) : keepsRings s u := ⟨h₂.1.trans h₁.1, h₂.2.trans h₁.2⟩

theorem keepsRings.foldl {α : Type} {f : State → α → State} (h : ∀ s x, keepsRings s (f s x)) (l : List α) (s : State) : keepsRings s (l.foldl f s) := by
  induction l generalizing s with
  | nil => exact .refl s
  | cons x l ih => exact (h s x).trans (ih _)

section
variable (s : State)

theorem State.fset_keepsRings (f : Fld) (i v : Nat) : keepsRings s (s.fset f i v) := ⟨State.fset_rings s f i v, State.fset_rsh s f i v⟩

theorem State.event_keepsRings (kind : Nat) (body : List Nat) : keepsRings s (s.event kind body) := by
  obtain ⟨_, _, e⟩ := s.event_frame kind body
  rw [e]
  exact ⟨rfl, rfl⟩

theorem State.almanac_keepsRings (kind : Nat) (body : List Nat) : keepsRings s (s.almanac kind body) := by
  obtain ⟨_, _, e⟩ := s.almanac_frame kind body
  rw [e]
  exact ⟨rfl, rfl⟩

theorem State.faultRecord_keepsRings (f : FaultRec) : keepsRings s (s.faultRecord f) := by
  unfold State.faultRecord
  extract_lets f s1 s2
  have h1 : keepsRings s s1 := by
    dsimp only [s1]
    split <;> exact ⟨rfl, rfl⟩
  have h2 : keepsRings s s2 := h1.trans (State.event_keepsRings _ _ _)
  split
  · exact h2
  · exact h2.trans (State.almanac_keepsRings _ _ _)

theorem State.faultIdleTx_keepsRings (p reason : Nat) : keepsRings s (s.faultIdleTx p reason) := by
  have h : keepsRings s (s.setPortState p 5) := by
    unfold State.setPortState
    split <;> exact ⟨rfl, rfl⟩
  exact h.trans ⟨rfl, rfl⟩

theorem State.refreshFn_keepsRings (fn : Nat) : keepsRings s (s.refreshFn fn) := by
  have hvec (t : State) : keepsRings t (t.raiseVector fn 0) := by
    unfold State.raiseVector State.msix
    extract_lets w
    repeat' split
    all_goals exact ⟨rfl, rfl⟩
  unfold State.refreshFn
  dsimp only
  split
  · exact .refl s
  · exact (keepsRings.foldl (f := fun (s : State) f => s.fset f fn _) (fun s f => s.fset_keepsRings f fn _) _ s).trans (hvec _)

theorem State.refreshHif_keepsRings : keepsRings s s.refreshHif := by
  unfold State.refreshHif
  extract_lets s1
  exact keepsRings.trans (t := s1) ⟨rfl, rfl⟩ (.foldl State.refreshFn_keepsRings _ _)

theorem State.setCtx_keepsRings (k : Nat) (c : Ctx) : keepsRings s (s.setCtx k c) := by
  unfold State.setCtx State.wr State.wrMarked
  dsimp only
  repeat' split
  all_goals exact ⟨rfl, rfl⟩

/-- A ring is put back with the records it holds. -/
theorem State.held_ringState (r q : Nat) : ((s.ringState r).ring q).held = (s.ring q).held := by
  obtain ⟨b, e⟩ := s.ring_ringState r q
  rw [e]

theorem State.ringState_rsh (r : Nat) : (s.ringState r).rsh = s.rsh := by
  unfold State.ringState
  dsimp only
  split <;> rfl

/-- When the steps are abandoned, the last of two entries of a ring is the one that stays. -/
theorem State.abandon_held_of_twice {r : Nat} {a b : Ring} (h : s.rings = [(r, a), (r, b)]) :
    (s.abandon.ring r).held = b.held ∧ s.abandon.rsh = s.rsh := by
  unfold State.abandon
  extract_lets clear s1
  have h1 : keepsRings s s1 := by
    obtain ⟨_, _, _, e⟩ := State.endReleases_frame { s with
      cores := s.cores.map (fun (x : Nat × Core) => (x.1, clear x.2)), moves := [], waits := [], contribs := [], det := [], errQ := [], faultQ := [], wrote := [] }
    dsimp only [s1]
    rw [e]
    exact ⟨rfl, rfl⟩
  rw [h1.1, h]
  refine ⟨?_, ?_⟩
  · show ((State.ringState _ r).ring r).held = _
    rw [State.held_ringState, State.ring_setRing_same]
  · show (State.ringState _ r).rsh = _
    rw [State.ringState_rsh]
    show (State.ringState _ r).rsh = _
    rw [State.ringState_rsh]
    exact h1.2

theorem State.failSafe_held_of_twice {r : Nat} {a b : Ring} (h : s.rings = [(r, a), (r, b)]) (hs : s.isFailsafe = false) (cause what : Nat) :
    ((s.failSafe cause what).ring r).held = b.held ∧ (s.failSafe cause what).rsh = s.rsh := by
  unfold State.failSafe
  rw [if_neg (by simp [hs])]
  extract_lets s1 s2
  have hs1 : keepsRings s s1 := ((s.fset_keepsRings _ _ _).trans (State.fset_keepsRings _ _ _ _)).trans (State.fset_keepsRings _ _ _ _)
  have h1 : keepsRings s (s1.allFaultIdle 1) := hs1.trans (.foldl (fun s p => s.faultIdleTx_keepsRings p 1) _ _)
  obtain ⟨hheld, hrsh⟩ := State.abandon_held_of_twice (s1.allFaultIdle 1) (h1.1.trans h)
  have h2 : keepsRings (s1.allFaultIdle 1).abandon ((s2.event 3 [cause, what]).refreshHif) :=
    ((State.fset_keepsRings _ _ _ _).trans (State.event_keepsRings _ _ _)).trans (State.refreshHif_keepsRings _)
  refine ⟨?_, h2.2.trans (hrsh.trans h1.2)⟩
  rw [State.ring, h2.1]
  exact hheld

/-- A fault record does not say that the module is in fail-safe. -/
theorem State.faultRecord_isFailsafe (f : FaultRec) : (s.faultRecord f).isFailsafe = s.isFailsafe := by
  have hset (t : State) {g : Fld} (i v : Nat) (hg : F.intStatus_FAILSAFE.id % 1024 ≠ g.id % 1024) : (t.fset g i v).isFailsafe = t.isFailsafe := by
    rw [State.isFailsafe, State.flag, State.fget_fset_of_id _ hg]
    rfl
  have hev (t : State) (kind : Nat) (body : List Nat) : (t.event kind body).isFailsafe = t.isFailsafe := by
    unfold State.event
    dsimp only
    split
    · exact hset _ _ _ (by decide)
    · rfl
  have halm (t : State) (kind : Nat) (body : List Nat) : (t.almanac kind body).isFailsafe = t.isFailsafe := by
    unfold State.almanac
    dsimp only
    split
    · rfl
    · split
      · exact hset _ _ _ (by decide)
      · rfl
  unfold State.faultRecord
  extract_lets f s1 s2
  have h1 : s1.isFailsafe = s.isFailsafe := by
    dsimp only [s1]
    split <;> rfl
  have h2 : s2.isFailsafe = s.isFailsafe := (hev _ _ _).trans h1
  split
  · exact h2
  · exact (halm _ _ _).trans h2

/-- The fault of a broken context (R317, R431). -/
def State.ctxFault (s : State) (k : Nat) : FaultRec :=
  { FaultRec.blank 0x20 with outcome := 6, addr := s.glob (ctxAddr k), tag := (s.ctx k).tag % 2 ^ 32 }

/-- The read of a broken context brings the records of the ring's second entry back. -/
theorem State.ctxVerify_held_of_twice {r k : Nat} {a b : Ring} (h : s.rings = [(r, a), (r, b)]) (hs : s.isFailsafe = false)
    (hon : s.strmOn = true) (hk : s.ctxIntact k = false) :
    ((s.ctxVerify k).ring r).held = b.held ∧ (s.ctxVerify k).rsh = s.rsh := by
  have hrun : s.ctxVerify k = (s.faultRecord (s.ctxFault k)).failSafe 0x20 (ctxAddr k) := by
    unfold State.ctxVerify State.ctrlFail
    rw [if_neg (by simp [hon, hk]), if_neg (by simp [hs])]
    rfl
  have hrec := s.faultRecord_keepsRings (s.ctxFault k)
  obtain ⟨hheld, hrsh⟩ := State.failSafe_held_of_twice _ (hrec.1.trans h) ((s.faultRecord_isFailsafe _).trans hs) 0x20 (ctxAddr k)
  rw [hrun]
  exact ⟨hheld, hrsh.trans hrec.2⟩

/-- The release of the hold on one context reads it, and may write it. -/
theorem State.releaseHolds_keepsRings {k : Nat} {o : OpenStep} (h : o.live = [k]) (r : Nat) : keepsRings (s.ctxVerify k) (s.releaseHolds r o) := by
  unfold State.releaseHolds State.onHeld
  rw [h]
  simp only [List.foldl_cons, List.foldl_nil]
  split
  · exact State.setCtx_keepsRings _ _ _
  · exact .refl _

/-- The state of a ring that drops some steps, their work stopped and their staged results gone, before their holds are released. -/
def State.workDropped (s : State) (r : Nat) (ids : List Nat) : State :=
  let t := (s.stopItems r ids true).spoilSteps r ids
  { t with det := t.det.filter fun d => !(d.ring = r && ids.contains d.step) }

/-- Without re-shard jobs, what a ring that drops one step holds is what the release of the step's hold leaves. -/
theorem State.held_dropSteps {u : State} {r : Nat} {o : OpenStep} (hu : s.workDropped r [o.step] = u) (h : (u.releaseHolds r o).rsh = []) :
    ((s.dropSteps r [o]).ring r).held = ((u.releaseHolds r o).ring r).held := by
  subst hu
  unfold State.dropSteps
  extract_lets ids s1 s2 s3 held unread s4
  have hwake : s4.rshWake = s4 := by
    rw [State.rshWake, show s4.rsh = [] from h]
    rfl
  rw [hwake, State.held_ringState, State.ring_onRing_same]
  rfl

end

theorem exec_cplWriteFail {s : State} {r : RingId} {n code : Nat} {c : CplRec} {l : List (Nat × CplRec)} (h : (s.ring r).held = (n, c) :: l)
    (hl : (s.ring r).lost = some code) (hcode : code ≠ 0x0B08) : exec (.cplWriteFail r) s =
      .next (((s.onRing r fun y => { y with held := [], lost := none }).dropSteps r (s.ring r).steps).halt r code c.step) := by
  show execCplWriteFail r s = _
  unfold execCplWriteFail
  simp only [h, hl, if_neg hcode]

/-! ## The counterexample to O25 -/

/-- An open step that holds the stream of context 0. -/
def streamStep : OpenStep where
  step := 0
  st := .run
  head := ⟨0, 0, false⟩
  commitTaken := false
  commitIdx := 0
  commitIrq := false
  items := 0
  entries := 0
  replays := 0
  chaff := false
  warn := 0
  exported := false
  ledger := []
  models := []
  retaken := 0
  batches := []
  live := [0]
  badFrames := []
  detDone := true
  charged := []
  broken := false
  placed := []

/-- A completion record of step 0. -/
def heldRecord : CplRec where
  step := 0
  status := 0
  type := 0
  warn := false
  irq := false
  entry := 0
  core := 0
  detail := 0

/-- A ring with one open step, whose held record could not be written. -/
def lostRing : Ring := { Ring.fresh with steps := [streamStep], held := [(0, heldRecord)], lost := some 1 }

/-- Ring 0 listed twice, the context of its stream broken: one byte of it is not zero, and its CHECK is. -/
def twiceListed : State := { State.reset with strmOn := true, rings := [(0, lostRing), (0, lostRing)], mem := [(ctxAddr 0, 1)] }

/-- The same state when CPL_WRITE_FAIL has emptied ring 0 and stopped the work of its step, before the step's holds are released. -/
def twiceListedStopped : State :=
  { twiceListed with rings := [(0, { lostRing with held := [], lost := none }), (0, lostRing)], undefs := 1 }

theorem twiceListed_ring : twiceListed.ring 0 = lostRing := rfl

theorem twiceListed_stopped : (twiceListed.onRing 0 fun y => { y with held := [], lost := none }).workDropped 0 [streamStep.step] = twiceListedStopped := by rfl

/-- The module check of the context's first 62 bytes, evaluated in two halves. -/
theorem moduleCheck_brokenContext : moduleCheck (1 :: List.replicate 61 0) = 36045#16 := by
  have hfirst : (1 :: List.replicate 30 0 : List Byte).foldl chkByte 0xFFFF = 35073#16 := by decide +kernel
  have hlast : (List.replicate 31 0 : List Byte).foldl chkByte 35073#16 = 36045#16 := by decide +kernel
  have hsplit : (1 :: List.replicate 61 0 : List Byte) = (1 :: List.replicate 30 0) ++ List.replicate 31 0 := by decide
  rw [moduleCheck, hsplit, List.foldl_append, hfirst, hlast]

theorem twiceListedStopped_broken : twiceListedStopped.ctxIntact 0 = false := by
  have hbytes : twiceListedStopped.ctxBytes 0 = 1 :: List.replicate 63 0 := by decide +kernel
  have hread : sliceB (1 :: List.replicate 63 0) 0 (64 - 2) = (1 :: List.replicate 61 0 : List Byte) := by decide
  have hzero : zeroB (1 :: List.replicate 63 0) 0 64 = false := by decide
  have hstored : fieldB (1 :: List.replicate 63 0) (64 - 2) 2 = 0 := by decide
  rw [State.ctxIntact, hbytes, hzero, checkOk, hread, moduleCheck_brokenContext, hstored]
  decide

/-- CPL_WRITE_FAIL leaves the record of the ring's second entry held. -/
theorem twiceListed_held :
    (((twiceListed.onRing 0 fun y => { y with held := [], lost := none }).dropSteps 0 [streamStep]).ring 0).held = lostRing.held := by
  have hsafe : twiceListedStopped.isFailsafe = false := by decide
  obtain ⟨hheld, hrsh⟩ := twiceListedStopped.ctxVerify_held_of_twice (r := 0) (k := 0) rfl hsafe rfl twiceListedStopped_broken
  have hrelease := twiceListedStopped.releaseHolds_keepsRings (o := streamStep) rfl 0
  have hjobs : (twiceListedStopped.releaseHolds 0 streamStep).rsh = [] := hrelease.2.trans hrsh
  refine (State.held_dropSteps _ twiceListed_stopped hjobs).trans ?_
  rw [State.ring, hrelease.1]
  exact hheld

/-- Refutes O25: the record of the second entry of a ring that is listed twice stays held after CPL_WRITE_FAIL. -/
theorem not_ringRecordsAndErrors : ¬ Obligations.RingRecordsAndErrors := by
  unfold Obligations.RingRecordsAndErrors
  intro h
  obtain ⟨-, -, -, -, -, hlost, -⟩ := h twiceListed 0 [] []
  have hring : twiceListed.ring (0 : RingId) = lostRing := twiceListed_ring
  have hheld : (twiceListed.ring (0 : RingId)).held = [(0, heldRecord)] := congrArg Ring.held hring
  have hcode : (twiceListed.ring (0 : RingId)).lost = some 1 := congrArg Ring.lost hring
  obtain ⟨t, hrun, -, hempty, -⟩ := hlost (0, heldRecord) [] 1 hheld hcode (by decide)
  have ht := Outcome.next.inj ((exec_cplWriteFail hheld hcode (by decide)).symm.trans hrun)
  rw [← ht, hring, State.halt, State.ring_fset, State.ring_fset, State.ring_fset] at hempty
  exact absurd (hempty.symm.trans twiceListed_held) (by decide)

end Sys2Proof.Machine

namespace Sys2Proof.Machine
open Host (Outcome)

/-- The numbers of the moves in progress, and the number the next one gets. -/
def State.moveTable (s : State) : List Nat × Nat := (s.moves.map Move.id, s.nextMove)

/-- No number of the table is still to be given. -/
structure freshTable (x : List Nat × Nat) : Prop where
  lt : ∀ k ∈ x.1, k < x.2

/-- Nothing else of the state is in the table. -/
@[simp] theorem State.moveTable_mk (pending partNo time regs cfg latches mem valid ecc ret chaff cores fields rings parts allocs allocGen descs stage
    strmRead lastFault served ready stalls fieldsUp bounds pauses errQ faultQ moves nextMove contribs scatterSat det waits mdq lines binMoves nextAsk
    roles bootEnd history mgmt alm link host strmOn rsh blk subst spare power seed rst obs rel scr wrote undefs hits descJobs descLost out) :
    (State.mk pending partNo time regs cfg latches mem valid ecc ret chaff cores fields rings parts allocs allocGen descs stage strmRead lastFault served
      ready stalls fieldsUp bounds pauses errQ faultQ moves nextMove contribs scatterSat det waits mdq lines binMoves nextAsk roles bootEnd history mgmt alm
      link host strmOn rsh blk subst spare power seed rst obs rel scr wrote undefs hits descJobs descLost out).moveTable = (moves.map Move.id, nextMove) := (rfl)

@[simp] theorem State.moveTable_eta (s : State) : (s.moves.map Move.id, s.nextMove) = s.moveTable := (rfl)

theorem State.moveTable_congr {s t : State} (hm : t.moves = s.moves) (hn : t.nextMove = s.nextMove) : t.moveTable = s.moveTable := by
  rw [State.moveTable, State.moveTable, hm, hn]

@[simp] theorem State.fset_moveTable (s : State) (f : Fld) (i v : Nat) : (s.fset f i v).moveTable = s.moveTable := (rfl)
@[simp] theorem State.fclear_moveTable (s : State) (f : Fld) (i : Nat) : (s.fclear f i).moveTable = s.moveTable := (rfl)
@[simp] theorem State.fadd_moveTable (s : State) (f : Fld) (i n : Nat) : (s.fadd f i n).moveTable = s.moveTable := (rfl)
@[simp] theorem State.setCore_moveTable (s : State) (n : Nat) (c : Core) : (s.setCore n c).moveTable = s.moveTable := (rfl)
@[simp] theorem State.onCore_moveTable (s : State) (n : Nat) (f : Core → Core) : (s.onCore n f).moveTable = s.moveTable := (rfl)
@[simp] theorem State.setField_moveTable (s : State) (n : Nat) (c : Field) : (s.setField n c).moveTable = s.moveTable := (rfl)
@[simp] theorem State.setRing_moveTable (s : State) (n : Nat) (c : Ring) : (s.setRing n c).moveTable = s.moveTable := (rfl)
@[simp] theorem State.onRing_moveTable (s : State) (n : Nat) (f : Ring → Ring) : (s.onRing n f).moveTable = s.moveTable := (rfl)
@[simp] theorem State.emit_moveTable (s : State) (o : Out) : (s.emit o).moveTable = s.moveTable := (rfl)
@[simp] theorem State.confirm_moveTable (s : State) (f : FaultRec) : (s.confirm f).moveTable = s.moveTable := (rfl)
@[simp] theorem State.stepError_moveTable (s : State) (e : StepErr) : (s.stepError e).moveTable = s.moveTable := (rfl)

/-! ## What leaves the table of moves as it was

The state functions that neither begin a move nor take one out, file by file of the model: a state function `f` by `f_moveTable`, a command `execX` by
`execX_leavesMoves`. Each follows from the lemmas about the functions it calls. -/

@[simp] theorem State.ite_moveTable (c : Prop) [Decidable c] (a b : State) : (if c then a else b).moveTable = if c then a.moveTable else b.moveTable :=
  apply_ite State.moveTable c a b

/-- A loop whose every turn leaves the table leaves it. -/
@[simp] theorem State.foldl_moveTable {α : Type} {f : State → α → State} (hf : ∀ s x, (f s x).moveTable = s.moveTable) (l : List α) (s : State) :
    (l.foldl f s).moveTable = s.moveTable := by
  induction l generalizing s with
  | nil => rfl
  | cons x l ih => rw [List.foldl_cons, ih, hf]

/-- The outcome, where it is a next state, has the table of `s`. -/
def leavesMoves (s : State) (o : Outcome State Fault Refusal) : Prop := ∀ t, o = .next t → t.moveTable = s.moveTable

@[simp] theorem leavesMoves_next (s t : State) : leavesMoves s (.next t) ↔ t.moveTable = s.moveTable := by
  simp [leavesMoves]

@[simp] theorem leavesMoves_ite (s : State) (c : Prop) [Decidable c] (a b : Outcome State Fault Refusal) :
    leavesMoves s (if c then a else b) ↔ if c then leavesMoves s a else leavesMoves s b := by split <;> rfl

@[simp] theorem State.after_moveTable {s : State} {o : Outcome State Fault Refusal} (h : leavesMoves s o) : (s.after o).moveTable = s.moveTable := by
  cases o with
  | next t => exact h t rfl
  | fault | refused => rfl

/-! ### Machine/Ops.lean -/

@[simp] theorem State.writeField_moveTable (s : State) (f : Fld) (i w : Nat) : (s.writeField f i w).moveTable = s.moveTable := by
  unfold State.writeField
  split <;> rfl

@[simp] theorem State.writeReg_moveTable (s : State) (r : RegDef) (i w : Nat) : (s.writeReg r i w).moveTable = s.moveTable := by simp [State.writeReg]
@[simp] theorem State.event_moveTable (s : State) (kind : Nat) (body : List Nat) : (s.event kind body).moveTable = s.moveTable := by simp [State.event]
@[simp] theorem State.almanac_moveTable (s : State) (kind : Nat) (body : List Nat) : (s.almanac kind body).moveTable = s.moveTable := by simp [State.almanac]
@[simp] theorem State.faultRecord_moveTable (s : State) (f : FaultRec) : (s.faultRecord f).moveTable = s.moveTable := by simp [State.faultRecord]

@[simp] theorem State.onStep_moveTable (s : State) (ring : Option Nat) (step : Nat) (f : OpenStep → OpenStep) :
    (s.onStep ring step f).moveTable = s.moveTable := by
  unfold State.onStep
  split <;> rfl

@[simp] theorem State.consumeChaff_moveTable (s : State) (ring : Option Nat) (step : Nat) : (s.consumeChaff ring step).moveTable = s.moveTable := by
  simp [State.consumeChaff]

@[simp] theorem State.warning_moveTable (s : State) (core : Nat) (status : Nat) : (s.warning core status).moveTable = s.moveTable := by
  unfold State.warning
  dsimp only
  repeat' split
  all_goals simp

@[simp] theorem State.ringState_moveTable (s : State) (r : Nat) : (s.ringState r).moveTable = s.moveTable := by simp [State.ringState]

/-! ### Machine/EccOps.lean -/

@[simp] theorem State.chaffMade_moveTable (s : State) (addr : Nat) (part : Nat) : (s.chaffMade addr part).moveTable = s.moveTable := by simp [State.chaffMade]
@[simp] theorem State.countEcc_moveTable (s : State) (addr : Nat) (uncorr : Bool) : (s.countEcc addr uncorr).moveTable = s.moveTable := by simp [State.countEcc]

@[simp] theorem State.eccWorse_moveTable (s : State) (w place : Nat) : (s.eccWorse w place).moveTable = s.moveTable := by
  unfold State.eccWorse
  repeat' split
  all_goals simp

@[simp] theorem State.eccEvent_moveTable (s : State) (w : Nat) (uncorr : Bool) (place src : Nat) : (s.eccEvent w uncorr place src).moveTable = s.moveTable := by
  simp [State.eccEvent]

/-! ### Machine/DescOps.lean -/

@[simp] theorem State.endReleases_moveTable (s : State) : (s.endReleases).moveTable = s.moveTable := by
  refine State.foldl_moveTable (fun s x => ?_) _ _
  split
  · rfl
  · split <;> rfl

@[simp] theorem State.descLose_moveTable (s : State) (p : Nat) : (s.descLose p).moveTable = s.moveTable := (rfl)

/-! ### Machine/CoreOps.lean -/

@[simp] theorem State.noteStep_moveTable (s : State) (ring : Option Nat) (step : Nat) (core : Option Nat) (addr len : Nat) :
    (s.noteStep ring step core addr len).moveTable = s.moveTable := by
  unfold State.noteStep
  split <;> simp

@[simp] theorem State.noteItem_moveTable (s : State) (n : Nat) (scratch : Bool) (addr len : Nat) : (s.noteItem n scratch addr len).moveTable = s.moveTable := by
  unfold State.noteItem
  split <;> simp

@[simp] theorem State.lateError_moveTable (s : State) (r step : Nat) : (s.lateError r step).moveTable = s.moveTable := (rfl)

@[simp] theorem State.itemError_moveTable (s : State) (n status soft : Nat) : (s.itemError n status soft).moveTable = s.moveTable := by
  unfold State.itemError
  dsimp only
  repeat' split
  all_goals simp

@[simp] theorem State.endItem_moveTable (s : State) (n status soft : Nat) : (s.endItem n status soft).moveTable = s.moveTable := by simp [State.endItem]
@[simp] theorem State.failCmd_moveTable (s : State) (n status : Nat) : (s.failCmd n status).moveTable = s.moveTable := by simp [State.failCmd]

@[simp] theorem State.itemChaff_moveTable (s : State) (n : Nat) : (s.itemChaff n).moveTable = s.moveTable := by
  unfold State.itemChaff
  split <;> simp

@[simp] theorem State.frameFault_moveTable (s : State) (n : Nat) (c : Cmd) : (s.frameFault n c).moveTable = s.moveTable := by
  unfold State.frameFault
  split <;> simp

@[simp] theorem State.coreCount_moveTable (s : State) (n i k : Nat) : (s.coreCount n i k).moveTable = s.moveTable := (rfl)

/-! ### Machine/Units.lean -/

@[simp] theorem State.takeEnv_moveTable (s : State) (n : Nat) (c : Cmd) : (s.takeEnv n c).2.moveTable = s.moveTable := by simp [State.takeEnv]

/-- Taking a command off its queue leaves the table (R628). -/
theorem State.take_done_moveTable {s t : State} {n q opMax op : Nat} {mine : Cmd → Bool} {len : Nat}
    (h : s.take n q opMax op mine len = .done t) : t.moveTable = s.moveTable := by
  unfold State.take at h
  dsimp only at h
  repeat' split at h
  all_goals cases h
  all_goals simp
theorem State.take_ok_moveTable {s t : State} {n q opMax op : Nat} {mine : Cmd → Bool} {len : Nat} {d : Cmd} {f : List Byte}
    (h : s.take n q opMax op mine len = .ok t d f) : t.moveTable = s.moveTable := by
  unfold State.take at h
  dsimp only at h
  repeat' split at h
  all_goals cases h
  all_goals rfl

@[simp] theorem State.verified_moveTable (s : State) (n : Nat) (c : Cmd) (ok : Bool) (row col bank : Nat) :
    (s.verified n c ok row col bank).moveTable = s.moveTable := by
  simp [State.verified]

@[simp] theorem State.suspect_moveTable (s : State) (n : Nat) (v : Verify) : (s.suspect n v).moveTable = s.moveTable := by simp [State.suspect]

/-! ### Machine/Onc.lean -/

@[simp] theorem State.enter_moveTable (s : State) (inp : Nat) (p : Packet) : (s.enter inp p).moveTable = s.moveTable := (rfl)
@[simp] theorem State.route_moveTable (s : State) (p : Packet) : (s.route p).moveTable = s.moveTable := (rfl)

@[simp] theorem State.request_moveTable (s : State) (src : Src) (p : Packet) (move core ring : Option Nat) (step : Nat) (entry : Option ErrPlace) :
    (s.request src p move core ring step entry).moveTable = s.moveTable := by
  simp [State.request]

@[simp] theorem State.sendMsg_moveTable (s : State) (m : Msg) (mesh : Bool) : (s.sendMsg m mesh).moveTable = s.moveTable := (rfl)

@[simp] theorem State.ssTouch_moveTable (s : State) (line : Nat) (write whole : Bool) (run : Nat) :
    (s.ssTouch line write whole run).moveTable = s.moveTable := by
  unfold State.ssTouch
  split <;> simp

@[simp] theorem State.ssTouchN_moveTable (s : State) (a n : Nat) (write : Bool) (run : Nat) : (s.ssTouchN a n write run).moveTable = s.moveTable := by
  simp [State.ssTouchN]

@[simp] theorem State.recall_moveTable (s : State) (a n : Nat) : (s.recall a n).moveTable = s.moveTable := by simp [State.recall]
@[simp] theorem State.reach_moveTable (s : State) (a n : Nat) (write : Bool) (run : Nat) :
    (s.reach a n write run).moveTable = s.moveTable := by
  simp [State.reach]

/-! ### Machine/MoveOps.lean -/

@[simp] theorem State.onMove_moveTable (s : State) (id : Nat) {f : Move → Move} (hf : ∀ m, (f m).id = m.id) :
    (s.onMove id f).moveTable = s.moveTable := by
  have hids : (s.moves.map fun m => if m.id = id then f m else m).map Move.id = s.moves.map Move.id := by
    rw [List.map_map]
    refine List.map_congr_left fun m _ => ?_
    dsimp only [Function.comp]
    split
    · exact hf m
    · rfl
  exact congrArg (·, s.nextMove) hids

@[simp] theorem State.requestReads_moveTable (s : State) (m : Move) (as_ : List Nat) :
    (s.requestReads m as_).moveTable = s.moveTable := by
  simp [State.requestReads]

@[simp] theorem State.noteCells_moveTable (s : State) (ring : Option Nat) (step : Nat) (cells : List (Nat × Byte × Bool)) :
    (s.noteCells ring step cells).moveTable = s.moveTable := by
  simp [State.noteCells]

@[simp] theorem State.reachReads_moveTable (s : State) (run : Nat) (as_ : List Nat) :
    (s.reachReads run as_).moveTable = s.moveTable := by
  simp [State.reachReads]
@[simp] theorem State.countReads_moveTable (s : State) (as_ : List Nat) : (s.countReads as_).moveTable = s.moveTable := by simp [State.countReads]

@[simp] theorem State.moveChaff_moveTable (s : State) (m : Move) : (s.moveChaff m).moveTable = s.moveTable := by
  unfold State.moveChaff
  split <;> simp

/-! ### Machine/SyncOps.lean -/

@[simp] theorem State.ledger_moveTable (s : State) (ring : Option Nat) (step : Nat) (e : LedgerEnt) : (s.ledger ring step e).moveTable = s.moveTable := by
  simp [State.ledger]

@[simp] theorem State.signalRemote_moveTable (s : State) (src : Src) (core ring : Option Nat) (step addr : Nat) (set : Bool) (v : Nat)
    (chaff : Bool) (entry : Option ErrPlace) :
    (s.signalRemote src core ring step addr set v chaff entry).moveTable = s.moveTable := by
  simp [State.signalRemote]

/-! ### Machine/HostOps.lean -/

@[simp] theorem State.msix_moveTable (s : State) (fn v : Nat) : (s.msix fn v).moveTable = s.moveTable := by simp [State.msix]
@[simp] theorem State.raiseVector_moveTable (s : State) (fn v : Nat) : (s.raiseVector fn v).moveTable = s.moveTable := by simp [State.raiseVector]
@[simp] theorem State.linkDown_moveTable (s : State) : (s.linkDown).moveTable = s.moveTable := (rfl)

@[simp] theorem State.refreshFn_moveTable (s : State) (fn : Nat) : (s.refreshFn fn).moveTable = s.moveTable := by
  simp only [State.refreshFn]
  split
  · rfl
  · rw [State.raiseVector_moveTable]
    exact State.foldl_moveTable (f := fun s f => s.fset f _ _) (fun _ _ => rfl) _ _

@[simp] theorem State.refreshHif_moveTable (s : State) : (s.refreshHif).moveTable = s.moveTable := by simp [State.refreshHif]
@[simp] theorem State.hostRefuse_moveTable (s : State) (kind fn addr : Nat) : (s.hostRefuse kind fn addr).moveTable = s.moveTable := by simp [State.hostRefuse]

/-! ### Machine/ReshardOps.lean -/

@[simp] theorem State.onRsh_moveTable (s : State) (p : Nat) (f : RshJob → RshJob) : (s.onRsh p f).moveTable = s.moveTable := (rfl)
/-! ### Machine/LinkOps.lean -/

@[simp] theorem State.setPort_moveTable (s : State) (p : Nat) (x : PortSt) : (s.setPort p x).moveTable = s.moveTable := (rfl)
@[simp] theorem State.onPort_moveTable (s : State) (p : Nat) (f : PortSt → PortSt) : (s.onPort p f).moveTable = s.moveTable := (rfl)
@[simp] theorem State.sendControl_moveTable (s : State) (p : Nat) : (s.sendControl p).moveTable = s.moveTable := (rfl)
@[simp] theorem State.sendPacket_moveTable (s : State) (port : Nat) (t : TxPkt) : (s.sendPacket port t).moveTable = s.moveTable := by simp [State.sendPacket]

@[simp] theorem State.sendOn_moveTable (s : State) (port : Nat) (p : Packet) (shared : Bool) : (s.sendOn port p shared).moveTable = s.moveTable := by
  simp [State.sendOn]

@[simp] theorem State.portTurn_moveTable (s : State) (port : Nat) : (s.portTurn port).moveTable = s.moveTable := by
  unfold State.portTurn
  dsimp only
  repeat' split
  all_goals simp

@[simp] theorem State.setPortState_moveTable (s : State) (p st : Nat) : (s.setPortState p st).moveTable = s.moveTable := by simp [State.setPortState]
@[simp] theorem State.faultIdleTx_moveTable (s : State) (p reason : Nat) : (s.faultIdleTx p reason).moveTable = s.moveTable := by simp [State.faultIdleTx]
@[simp] theorem State.train_moveTable (s : State) (p : Nat) : (s.train p).moveTable = s.moveTable := by simp [State.train]

@[simp] theorem State.startPort_moveTable (s : State) (p : Nat) : (s.startPort p).moveTable = s.moveTable := by
  unfold State.startPort
  split <;> simp

@[simp] theorem State.allFaultIdle_moveTable (s : State) (reason : Nat) : (s.allFaultIdle reason).moveTable = s.moveTable := by simp [State.allFaultIdle]

@[simp] theorem State.sweepFill_moveTable (s : State) : (s.sweepFill).moveTable = s.moveTable := by
  unfold State.sweepFill
  repeat' split
  all_goals simp

@[simp] theorem State.sweepBegin_moveTable (s : State) : (s.sweepBegin).moveTable = s.moveTable := by simp [State.sweepBegin]
@[simp] theorem State.sweepBreak_moveTable (s : State) : (s.sweepBreak).moveTable = s.moveTable := by simp [State.sweepBreak]
@[simp] theorem State.linkFault_moveTable (s : State) (ring step port : Nat) : (s.linkFault ring step port).moveTable = s.moveTable := (rfl)
@[simp] theorem State.rshLost_moveTable (s : State) (t : Txn) : (s.rshLost t).moveTable = s.moveTable := by simp [State.rshLost]
@[simp] theorem State.rshBreak_moveTable (s : State) : (s.rshBreak).moveTable = s.moveTable := (rfl)
@[simp] theorem State.breakHere_moveTable (s : State) (noRoute : Bool) (port : Nat) :
    (s.breakHere noRoute port).moveTable = s.moveTable := by
  simp [State.breakHere]

@[simp] theorem State.flood_moveTable (s : State) (module port epoch : Nat) (noRoute : Bool) (except : Option Nat) :
    (s.flood module port epoch noRoute except).moveTable = s.moveTable := by
  simp [State.flood]

@[simp] theorem State.breakPort_moveTable (s : State) (p st reason : Nat) : (s.breakPort p st reason).moveTable = s.moveTable := by simp [State.breakPort]

/-! ### Machine/RingOps.lean -/

@[simp] theorem State.halt_moveTable (s : State) (r code step : Nat) : (s.halt r code step).moveTable = s.moveTable := (rfl)

/-! ### Machine/ThermalOps.lean -/

@[simp] theorem State.onPower_moveTable (s : State) (f : PowerSt → PowerSt) : (s.onPower f).moveTable = s.moveTable := (rfl)
@[simp] theorem State.applyLevel_moveTable (s : State) : (s.applyLevel).moveTable = s.moveTable := by simp [State.applyLevel]
@[simp] theorem State.powerEvent_moveTable (s : State) (kind plot detail : Nat) :
    (s.powerEvent kind plot detail).moveTable = s.moveTable := by
  simp [State.powerEvent]
@[simp] theorem State.hulBudget_moveTable (s : State) (p : Nat) : (s.hulBudget p).moveTable = s.moveTable := (rfl)
@[simp] theorem State.windowHot_moveTable (s : State) (n t : Nat) : (s.windowHot n t).moveTable = s.moveTable := (rfl)

@[simp] theorem State.recalibrate_moveTable (s : State) (t : Nat) : (s.recalibrate t).moveTable = s.moveTable := by
  refine State.foldl_moveTable (fun _ _ => ?_) _ _
  rfl

@[simp] theorem State.setBound_moveTable (s : State) (v : Nat) : (s.setBound v).moveTable = s.moveTable := (rfl)
@[simp] theorem State.pause_moveTable (s : State) (p : PauseOf) : (s.pause p).moveTable = s.moveTable := by simp [State.pause]
@[simp] theorem State.unpause_moveTable (s : State) (p : PauseOf) : (s.unpause p).moveTable = s.moveTable := (rfl)

@[simp] theorem State.wakeUp_moveTable (s : State) : (s.wakeUp).moveTable = s.moveTable := by simp [State.wakeUp]
@[simp] theorem State.endEntry_moveTable (s : State) : (s.endEntry).moveTable = s.moveTable := by simp [State.endEntry]
@[simp] theorem State.almRegs_moveTable (s : State) : (s.almRegs).moveTable = s.moveTable := (rfl)
@[simp] theorem State.almWrite_moveTable (s : State) (r : AlmRec) : (s.almWrite r).moveTable = s.moveTable := (rfl)
@[simp] theorem State.emergencyFlash_moveTable (s : State) : (s.emergencyFlash).moveTable = s.moveTable := by simp [State.emergencyFlash]

/-! ### Machine/Links.lean -/

@[simp] theorem State.setHeadland_moveTable (s : State) (plot : Nat) (x : HlSt) : (s.setHeadland plot x).moveTable = s.moveTable := (rfl)

@[simp] theorem State.laneSwap_moveTable (s : State) (plot : Nat) (inward : Bool) (lane : Nat) : (s.laneSwap plot inward lane).1.moveTable = s.moveTable := by
  unfold State.laneSwap
  dsimp only
  repeat' split
  all_goals simp

@[simp] theorem State.replayFrom_moveTable (s : State) (p i : Nat) : (s.replayFrom p i).moveTable = s.moveTable := by simp [State.replayFrom]
@[simp] theorem State.takeControl_moveTable (s : State) (p : Nat) (flit : List Byte) :
    (s.takeControl p flit).moveTable = s.moveTable := by
  simp [State.takeControl]
@[simp] theorem State.portTurns_moveTable (s : State) (p n : Nat) : (s.portTurns p n).moveTable = s.moveTable := by
  induction n generalizing s with
  | zero => rfl
  | succ n ih => rw [State.portTurns, ih, State.portTurn_moveTable]

@[simp] theorem State.sendNak_moveTable (s : State) (p : Nat) : (s.sendNak p).moveTable = s.moveTable := by simp [State.sendNak]

/-! ### Machine/Replay.lean -/

@[simp] theorem State.noteFault_moveTable (s : State) (u : Nat) : (s.noteFault u).moveTable = s.moveTable := (rfl)

@[simp] theorem State.makePermanent_moveTable (s : State) (n cause : Nat) : (s.makePermanent n cause).1.moveTable = s.moveTable := by
  unfold State.makePermanent
  dsimp only
  repeat' split
  all_goals simp

@[simp] theorem State.charge_moveTable (s : State) (f : FaultRec) (again : Nat → Bool) : (s.charge f again).1.moveTable = s.moveTable := by
  unfold State.charge
  dsimp only
  repeat' split
  all_goals simp

@[simp] theorem State.ownDiode_moveTable (s : State) (n : Nat) : (s.ownDiode n).moveTable = s.moveTable := (rfl)

/-! ### Machine/Rings.lean -/

@[simp] theorem State.zeroIndices_moveTable (s : State) (r : Nat) : (s.zeroIndices r).moveTable = s.moveTable := (rfl)

@[simp] theorem State.descDone_moveTable (s : State) (mine : Nat → Bool) : (s.descDone mine).moveTable = s.moveTable := by
  refine State.foldl_moveTable (fun _ _ => ?_) _ _
  rfl

@[simp] theorem State.doorbell_moveTable (s : State) (ring : RingId) (val : W32) : (s.doorbell ring val).moveTable = s.moveTable := by simp [State.doorbell]

/-! ### Machine/ResetOps.lean -/

@[simp] theorem State.seedRegs_moveTable (s : State) : (s.seedRegs).moveTable = s.moveTable := by simp [State.seedRegs]

@[simp] theorem State.journalWrite_moveTable (s : State) (j : Journal) : (s.journalWrite j).moveTable = s.moveTable := by
  simp [State.journalWrite]

@[simp] theorem State.warmPort_moveTable (s : State) (old : State) (p : Nat) : (s.warmPort old p).moveTable = s.moveTable := by simp [State.warmPort]

/-! ### Machine/BlockReset.lean -/

@[simp] theorem State.blkResult_moveTable (s : State) (r : Nat) : (s.blkResult r).moveTable = s.moveTable := (rfl)

@[simp] theorem State.blkStart_moveTable (s : State) (kind : Nat) (good : Bool) (unit : Nat) : (s.blkStart kind good unit).moveTable = s.moveTable := by
  simp [State.blkStart]

@[simp] theorem State.blkOncon_moveTable (s : State) : (s.blkOncon).moveTable = s.moveTable := by simp [State.blkOncon]
@[simp] theorem State.blkSeedstore_moveTable (s : State) (forced : Bool) : (s.blkSeedstore forced).moveTable = s.moveTable := by simp [State.blkSeedstore]

/-! ### Machine/Dci.lean -/

@[simp] theorem State.advance_moveTable (s : State) (n : Nat) : (s.advance n).moveTable = s.moveTable := by simp [State.advance]
@[simp] theorem State.jump_moveTable (s : State) (n : Nat) (target : Int) : (s.jump n target).moveTable = s.moveTable := by simp [State.jump]

@[simp] theorem State.cpFault_moveTable (s : State) (n : Nat) : (s.cpFault n).moveTable = s.moveTable := by
  unfold State.cpFault
  dsimp only
  repeat' split
  all_goals simp

@[simp] theorem State.result_moveTable (s : State) (n : Nat) (rd : Reg) (v : W64) (chaff : Bool) : (s.result n rd v chaff).moveTable = s.moveTable := by
  simp [State.result]

@[simp] theorem State.alu_moveTable (s : State) (n : Nat) (rd ra rb : Reg) (f : W64 → W64 → W64) :
    (s.alu n rd ra rb f).moveTable = s.moveTable := by
  simp [State.alu]

@[simp] theorem State.alui_moveTable (s : State) (n : Nat) (rd ra : Reg) (imm : Imm) (f : W64 → W64 → W64) :
    (s.alui n rd ra imm f).moveTable = s.moveTable := by
  simp [State.alui]

@[simp] theorem State.illegal_moveTable (s : State) (n : Nat) : (s.illegal n).moveTable = s.moveTable := by simp [State.illegal]
@[simp] theorem State.dci_leavesMoves {s : State} {n : Nat} {cp : Bool} {f : State → State} (hf : (f s).moveTable = s.moveTable) :
    leavesMoves s (s.dci n cp f) := by
  simp [State.dci, hf]

@[simp] theorem State.shifti_moveTable (s : State) (n : Nat) (rd ra : Reg) (imm : Imm) (f : W64 → Nat → W64) :
    (s.shifti n rd ra imm f).moveTable = s.moveTable := by
  simp [State.shifti]

@[simp] theorem State.load_moveTable (s : State) (n : Nat) (rd ra : Reg) (imm : Imm) (k : Nat) (ext : Nat → W64) :
    (s.load n rd ra imm k ext).moveTable = s.moveTable := by
  unfold State.load
  dsimp only
  repeat' split
  all_goals simp

@[simp] theorem State.store_moveTable (s : State) (n : Nat) (rd ra : Reg) (imm : Imm) (k : Nat) : (s.store n rd ra imm k).moveTable = s.moveTable := by
  unfold State.store
  dsimp only
  repeat' split
  all_goals simp

@[simp] theorem State.branch_moveTable (s : State) (n : Nat) (ra rb : Reg) (off : Imm) (f : W64 → W64 → Bool) :
    (s.branch n ra rb off f).moveTable = s.moveTable := by
  simp [State.branch]

@[simp] theorem State.linkJump_moveTable (s : State) (n : Nat) (rd : Reg) (chaff : Bool) (target : Int) :
    (s.linkJump n rd chaff target).moveTable = s.moveTable := by
  simp [State.linkJump]

/-! ### Machine/Control.lean -/

@[simp] theorem State.place_moveTable (s : State) (n : Nat) (d : Cmd) : (s.place n d).moveTable = s.moveTable := (rfl)

@[simp] theorem execCsrr_leavesMoves (core : CoreId) (rd : Reg) (imm : Imm) (cp : Bool) (s : State) : leavesMoves s (execCsrr core rd imm cp s) := by
  refine State.dci_leavesMoves ?_
  split <;> simp

/-! ### Machine/Sync.lean -/

@[simp] theorem State.fenceCmd_moveTable (s : State) (n type : Nat) : (s.fenceCmd n type).moveTable = s.moveTable := by
  unfold State.fenceCmd
  split
  · rfl
  · split
    · rfl
    · next h => exact State.take_done_moveTable h
    · next h => simp [State.take_ok_moveTable h]

@[simp] theorem State.endHold_moveTable (s : State) (r step : Nat) : (s.endHold r step).moveTable = s.moveTable := by simp [State.endHold]

@[simp] theorem State.waitCmd_moveTable (s : State) (n : Nat) (eq : Bool) : (s.waitCmd n eq).moveTable = s.moveTable := by
  unfold State.waitCmd
  split
  · rfl
  · split
    · rfl
    · next h => exact State.take_done_moveTable h
    · next h => simp [State.take_ok_moveTable h]

/-! ### Machine/Entries.lean -/

@[simp] theorem State.fetch_moveTable (s : State) (r : Nat) (mine : Nat → Bool) (given : List Byte) : (s.fetch r mine given).moveTable = s.moveTable := by
  simp [State.fetch]

@[simp] theorem State.nextEntry_moveTable (s : State) (r : Nat) : (s.nextEntry r).moveTable = s.moveTable := by
  unfold State.nextEntry
  dsimp only
  repeat' split
  all_goals simp

@[simp] theorem State.accept_moveTable (s : State) (r : Nat) (e : List Byte) : (s.accept r e).moveTable = s.moveTable := by
  unfold State.accept
  split <;> simp

@[simp] theorem State.addEntry_moveTable (s : State) (r : Nat) (e : List Byte) : (s.addEntry r e).moveTable = s.moveTable := (rfl)

@[simp] theorem State.placeItems_moveTable (s : State) (w : WorkItem) (first count : Nat) : (s.placeItems w first count).moveTable = s.moveTable := by
  refine State.foldl_moveTable (fun _ _ => ?_) _ _
  rfl

@[simp] theorem State.feNext_moveTable (s : State) (p : Nat) : (s.feNext p).2.moveTable = s.moveTable := (rfl)

/-! ### Machine/TimeOps.lean -/

@[simp] theorem State.onPtp_moveTable (s : State) (f : PtpSt → PtpSt) : (s.onPtp f).moveTable = s.moveTable := (rfl)
@[simp] theorem State.timeEvent_moveTable (s : State) (off : Int) : (s.timeEvent off).moveTable = s.moveTable := by simp [State.timeEvent]
@[simp] theorem State.toTime_moveTable (s : State) (st : Nat) (off : Int) : (s.toTime st off).moveTable = s.moveTable := by simp [State.toTime]
@[simp] theorem State.tick_moveTable (s : State) : (s.tick).moveTable = s.moveTable := by simp [State.tick]
@[simp] theorem State.selectMaster_moveTable (s : State) (id : Nat) : (s.selectMaster id).moveTable = s.moveTable := by simp [State.selectMaster]
@[simp] theorem State.synced_moveTable (s : State) (behind : Int) : (s.synced behind).moveTable = s.moveTable := by simp [State.synced]

/-! ### Machine/Mctp.lean -/

@[simp] theorem State.onMgmt_moveTable (s : State) (f : MgmtSt → MgmtSt) : (s.onMgmt f).moveTable = s.moveTable := (rfl)
/-! ### Machine/Observe.lean -/

@[simp] theorem State.onObs_moveTable (s : State) (f : ObsSt → ObsSt) : (s.onObs f).moveTable = s.moveTable := (rfl)

@[simp] theorem State.gleanAt_moveTable (s : State) (t : Nat) : (s.gleanAt t).moveTable = s.moveTable := (rfl)
/-! ### Machine/Debug.lean -/

@[simp] theorem State.dbgCtl_moveTable (s : State) (key : BitVec 16) (plot : PlotId) (index : Nat) (halt : Bool) :
    (s.dbgCtl key plot index halt).moveTable = s.moveTable := by
  simp [State.dbgCtl]

@[simp] theorem State.wfgStart_moveTable (s : State) (auto : Bool) : (s.wfgStart auto).moveTable = s.moveTable := by simp [State.wfgStart]
/-! ### Machine/Ecc.lean -/

@[simp] theorem State.logFree_moveTable (s : State) (i : Nat) : (s.logFree i).moveTable = s.moveTable := by simp [State.logFree]

@[simp] theorem State.passEnd_moveTable (s : State) (h : HarrowPos) (period : Nat) : (s.passEnd h period).2.moveTable = s.moveTable := by simp [State.passEnd]
@[simp] theorem State.setVaultHarrow_moveTable (s : State) (n : Nat) (h : HarrowPos) :
    (s.setVaultHarrow n h).moveTable = s.moveTable := by
  simp [State.setVaultHarrow]
@[simp] theorem State.retResult_moveTable (s : State) (r : Nat) : (s.retResult r).moveTable = s.moveTable := (rfl)
@[simp] theorem State.retStart_moveTable (s : State) (j : RetJob) : (s.retStart j).moveTable = s.moveTable := by simp [State.retStart]
@[simp] theorem State.retCmd_moveTable (s : State) (scope : Nat) (val : W32) : (s.retCmd scope val).moveTable = s.moveTable := by simp [State.retCmd]
/-! ### Machine/Bins.lean -/

@[simp] theorem State.binErr_moveTable (s : State) (k : Nat) : (s.binErr k).moveTable = s.moveTable := (rfl)

@[simp] theorem State.binBegin_moveTable (s : State) (k mode owner slot : Nat) (cache : Bool) :
    (s.binBegin k mode owner slot cache).moveTable = s.moveTable := by
  simp [State.binBegin]

@[simp] theorem State.crcRetries_moveTable (s : State) (crc : Nat) : (s.crcRetries crc).moveTable = s.moveTable := by simp [State.crcRetries]
@[simp] theorem State.ssMark_moveTable (s : State) (w : Nat) : (s.ssMark w).moveTable = s.moveTable := by simp [State.ssMark]

/-! ### Machine/Reduce.lean -/

@[simp] theorem State.combined_moveTable (s : State) (sats : Nat) (chaffed l : List DetItem) (cells : List (Nat × Byte × Bool)) :
    (s.combined sats chaffed l cells).moveTable = s.moveTable := by
  simp [State.combined]

@[simp] theorem State.sendComb_moveTable (s : State) (burst : Nat) (l : List DetItem) : (s.sendComb burst l).moveTable = s.moveTable := by
  unfold State.sendComb
  split <;> simp

@[simp] theorem State.reply_moveTable (s : State) (module srcId txn type status : Nat) (payload : List Byte) (poison : Nat) :
    (s.reply module srcId txn type status payload poison).moveTable = s.moveTable := by
  rfl

@[simp] theorem State.replyContrib_moveTable (s : State) (c : Contrib) (done : Bool) : (s.replyContrib c done).moveTable = s.moveTable := by
  unfold State.replyContrib
  split <;> rfl

/-! ### Machine/Packets.lean -/

@[simp] theorem State.remoteCheck_moveTable (s : State) (p : Packet) (n : Nat) (write : Bool) : (s.remoteCheck p n write).2.moveTable = s.moveTable := by
  unfold State.remoteCheck
  repeat' split
  all_goals simp

@[simp] theorem State.answerReq_moveTable (s : State) (p : Packet) (status : Nat) : (s.answerReq p status).moveTable = s.moveTable := (rfl)
@[simp] theorem State.doRead_moveTable (s : State) (p : Packet) : (s.doRead p).moveTable = s.moveTable := by simp [State.doRead]
@[simp] theorem State.doCombine_moveTable (s : State) (p : Packet) : (s.doCombine p).moveTable = s.moveTable := by simp [State.doCombine]
@[simp] theorem State.txnTake_moveTable (s : State) (t : Txn) : (s.txnTake t).moveTable = s.moveTable := (rfl)
@[simp] theorem State.doSweepReq_moveTable (s : State) (p : Packet) : (s.doSweepReq p).moveTable = s.moveTable := (rfl)

@[simp] theorem State.doSweepRsp_moveTable (s : State) (p : Packet) : (s.doSweepRsp p).moveTable = s.moveTable := by
  unfold State.doSweepRsp
  split <;> simp

@[simp] theorem State.doBreak_moveTable (s : State) (p : Packet) (from_ : Option Nat) : (s.doBreak p from_).moveTable = s.moveTable := by simp [State.doBreak]
@[simp] theorem State.routeDrop_moveTable (s : State) (p : Packet) : (s.routeDrop p).moveTable = s.moveTable := by simp [State.routeDrop]
/-! ### Machine/Descriptors.lean -/

@[simp] theorem State.descBegin_moveTable (s : State) (p code : Nat) : (s.descBegin p code).moveTable = s.moveTable := (rfl)
@[simp] theorem State.descRefused_moveTable (s : State) (p : Nat) : (s.descRefused p).moveTable = s.moveTable := (rfl)

/-! ### Machine/Partition.lean -/

@[simp] theorem State.clearReg_moveTable (s : State) (r : RegDef) (i : Nat) : (s.clearReg r i).moveTable = s.moveTable := by
  refine State.foldl_moveTable (fun _ _ => ?_) _ _
  rfl

@[simp] theorem State.clearPart_moveTable (s : State) (p : Nat) : (s.clearPart p).moveTable = s.moveTable := by
  simp -implicitDefEqProofs [State.clearPart]

@[simp] theorem execPartCreate_leavesMoves (index : PartId) (s : State) : leavesMoves s (execPartCreate index s) := by
  unfold execPartCreate
  dsimp only
  split
  · simp
  · simp -implicitDefEqProofs

/-! ### Machine/Power.lean -/

@[simp] theorem State.setCeil_moveTable (s : State) (c plot : Nat) (report : Bool) :
    (s.setCeil c plot report).moveTable = s.moveTable := by
  simp [State.setCeil]
@[simp] theorem State.dutyTick_moveTable (s : State) : (s.dutyTick).moveTable = s.moveTable := (rfl)
@[simp] theorem State.dutyWindow_moveTable (s : State) : (s.dutyWindow).moveTable = s.moveTable := (rfl)

@[simp] theorem State.throttleFlags_moveTable (s : State) : (s.throttleFlags).moveTable = s.moveTable := by
  refine State.foldl_moveTable (fun _ _ => ?_) _ _
  rfl

/-! ### Machine/Sleep.lean -/

@[simp] theorem execSleepEntryDone_leavesMoves (s : State) : leavesMoves s (execSleepEntryDone s) := by
  unfold execSleepEntryDone
  split
  · simp
  · simp -implicitDefEqProofs

/-! ### Machine/Thermal.lean -/

@[simp] theorem State.hotUpdate_moveTable (s : State) (n t : Nat) : (s.hotUpdate n t).moveTable = s.moveTable := by simp [State.hotUpdate]
@[simp] theorem State.breakDiode_moveTable (s : State) (n : Nat) : (s.breakDiode n).moveTable = s.moveTable := by simp [State.breakDiode]
@[simp] theorem State.throttleTo_moveTable (s : State) (n d : Nat) : (s.throttleTo n d).moveTable = s.moveTable := (rfl)
@[simp] theorem State.substReading_moveTable (s : State) (n : Nat) : (s.substReading n).moveTable = s.moveTable := by
  unfold State.substReading
  split <;> simp

@[simp] theorem State.bandOne_moveTable (s : State) (n : Nat) : (s.bandOne n).moveTable = s.moveTable := by simp [State.bandOne]
/-! ### Machine/Timing.lean -/

@[simp] theorem State.endStallHold_moveTable (s : State) (fields : List Nat) (w : Watch) : (s.endStallHold fields w).moveTable = s.moveTable := by
  unfold State.endStallHold
  split <;> simp

/-! ### Machine/Bring.lean -/

@[simp] theorem State.stepBegin_moveTable (s : State) (code bound : Nat) : (s.stepBegin code bound).moveTable = s.moveTable := by simp [State.stepBegin]
@[simp] theorem State.stepRefused_moveTable (s : State) : (s.stepRefused).moveTable = s.moveTable := (rfl)

@[simp] theorem State.stepFails_moveTable (s : State) (code detail : Nat) : (s.stepFails code detail).moveTable = s.moveTable := by
  unfold State.stepFails
  split <;> simp

@[simp] theorem State.moreTime_moveTable (s : State) (ns : Nat) : (s.moreTime ns).moveTable = s.moveTable := by
  unfold State.moreTime
  split <;> rfl

@[simp] theorem State.stepTimed_moveTable (s : State) (j : BringJob) : (s.stepTimed j).moveTable = s.moveTable := (rfl)

@[simp] theorem State.laneUsed_moveTable (s : State) (plot key spare : Nat) : (s.laneUsed plot key spare).moveTable = s.moveTable := (rfl)

@[simp] theorem State.repairMap_moveTable (s : State) : (s.repairMap).moveTable = s.moveTable := by
  simp only [State.repairMap, State.seedRegs_moveTable]
  rw [State.foldl_moveTable fun _ _ => State.fset_moveTable .., State.foldl_moveTable fun _ _ => State.fset_moveTable ..,
    State.foldl_moveTable fun _ _ => State.laneUsed_moveTable ..,
    State.foldl_moveTable fun _ _ => by simp only [State.fset_moveTable]]
  rfl

@[simp] theorem State.bringSubst_moveTable (s : State) (n : Nat) : (s.bringSubst n).1.moveTable = s.moveTable := by
  unfold State.bringSubst
  dsimp only
  repeat' split
  all_goals simp

@[simp] theorem State.restoreUnits_moveTable (s : State) : (s.restoreUnits).moveTable = s.moveTable := by
  unfold State.restoreUnits
  repeat' split
  all_goals simp

@[simp] theorem execStepRepair_leavesMoves (bad : Option Nat) (s : State) : leavesMoves s (execStepRepair bad s) := by
  unfold execStepRepair
  split
  · simp
  · dsimp only
    split
    · simp
    · split <;> simp

@[simp] theorem execStepPower_leavesMoves (rail : Option (Nat × Nat)) (lanes : List (Nat × Bool × Nat)) (headland : Option (Nat × Bool)) (s : State) :
    leavesMoves s (execStepPower rail lanes headland s) := by
  unfold execStepPower
  split
  · simp
  · dsimp only
    split
    · simp
    · simp
    · rw [leavesMoves_next, State.foldl_moveTable]
      · simp
      · intro s x
        have h := s.laneSwap_moveTable x.1 x.2.1 x.2.2
        split <;> simp_all

@[simp] theorem execStepFetch_leavesMoves (s : State) : leavesMoves s (execStepFetch s) := by
  unfold execStepFetch
  split
  · simp
  · dsimp only
    split
    · simp
    · rw [leavesMoves_next, State.foldl_moveTable fun _ _ => State.onCore_moveTable ..]
      simp

@[simp] theorem State.stepEndDone_moveTable (s : State) : (s.stepEndDone).moveTable = s.moveTable := by simp [State.stepEndDone]

/-! ### Machine/Update.lean -/

@[simp] theorem State.pldm_moveTable (s : State) (code : Nat) (data : List Byte) : (s.pldm code data).moveTable = s.moveTable := (rfl)

@[simp] theorem State.updNote_moveTable (s : State) (stage slot ver outcome : Nat) : (s.updNote stage slot ver outcome).moveTable = s.moveTable := by
  simp [State.updNote]

@[simp] theorem State.onSeed_moveTable (s : State) (f : SeedSt → SeedSt) : (s.onSeed f).moveTable = s.moveTable := (rfl)
@[simp] theorem State.markLoading_moveTable (s : State) (slot : Nat) : (s.markLoading slot).moveTable = s.moveTable := by simp [State.markLoading]
/-! ### Machine/Vault.lean -/

@[simp] theorem State.mdqCount_moveTable (s : State) : (s.mdqCount).moveTable = s.moveTable := (rfl)

@[simp] theorem State.msgDone_moveTable (s : State) (m : Msg) : (s.msgDone m).moveTable = s.moveTable := by
  unfold State.msgDone
  split <;> simp

@[simp] theorem State.mdqTake_moveTable (s : State) (i : Nat) : (s.mdqTake i).moveTable = s.moveTable := (rfl)

@[simp] theorem execMisdeliveryHoldExpire_leavesMoves (idx : Nat) (s : State) : leavesMoves s (execMisdeliveryHoldExpire idx s) := by
  unfold execMisdeliveryHoldExpire
  split
  · simp
  · split
    · simp
    · rw [leavesMoves_next, State.foldl_moveTable]
      · simp
      · intro s x
        split <;> simp

/-! ### Machine/AccessOps.lean -/

@[simp] theorem State.setLatch_moveTable (s : State) (block : Nat) (src : Src) (v : Option (Nat × Nat)) :
    (s.setLatch block src v).moveTable = s.moveTable := (rfl)

@[simp] theorem State.read4_moveTable (s : State) (src : Src) (off : Nat) : (s.read4 src off).1.moveTable = s.moveTable := by
  unfold State.read4
  dsimp only
  repeat' split
  all_goals simp

@[simp] theorem State.readEffect_moveTable (s : State) (off size : Nat) : (s.readEffect off size).moveTable = s.moveTable := by simp [State.readEffect]

@[simp] theorem State.regRead_moveTable (s : State) (src : Src) (off size : Nat) : (s.regRead src off size).1.moveTable = s.moveTable := by
  unfold State.regRead
  dsimp only
  repeat' split
  all_goals simp

@[simp] theorem execStepTopo_leavesMoves (s : State) : leavesMoves s (execStepTopo s) := by
  unfold execStepTopo
  dsimp only
  repeat' split
  all_goals simp

@[simp] theorem execAllocRelease_leavesMoves (p : PartId) (s : State) : leavesMoves s (execAllocRelease p s) := by
  unfold execAllocRelease
  dsimp only
  repeat' split
  all_goals simp

@[simp] theorem execSeedConfirm_leavesMoves (val : W32) (s : State) : leavesMoves s (execSeedConfirm val s) := by
  unfold execSeedConfirm
  dsimp only
  repeat' split
  all_goals simp

@[simp] theorem execDbgDataWrite_leavesMoves (val : W64) (s : State) : leavesMoves s (execDbgDataWrite val s) := by
  unfold execDbgDataWrite
  split <;> simp

@[simp] theorem execRouteDataAccess_leavesMoves (src : Src) (write : Option W32) (s : State) : leavesMoves s (execRouteDataAccess src write s) := by
  unfold execRouteDataAccess
  split <;> simp

@[simp] theorem State.writePortCtl_moveTable (s : State) (p : PortId) (w : Nat) : (s.writePortCtl p w).moveTable = s.moveTable := by
  simp [State.writePortCtl, execPortEnable, execPortForceFi, execPortRetrain]

@[simp] theorem State.writePtpCfg_moveTable (s : State) (w : Nat) : (s.writePtpCfg w).moveTable = s.moveTable := by simp [State.writePtpCfg]

@[simp] theorem State.writeRetCmd_moveTable (s : State) (v : W32) : (s.writeRetCmd v).moveTable = s.moveTable := by
  unfold State.writeRetCmd
  split <;> simp [execRetirePage, execRetireBank, execRetireBin]

@[simp] theorem State.writeStage_moveTable (s : State) (off n v : Nat) : (s.writeStage off n v).moveTable = s.moveTable := by
  refine State.foldl_moveTable (fun s k => ?_) _ _
  split <;> rfl

/-! ### Machine/Matrix.lean -/

@[simp] theorem execMma_leavesMoves (core : CoreId) (s : State) : leavesMoves s (execMma core s) := by
  unfold execMma
  split
  · simp
  · split
    · simp
    · next h => simp [State.take_done_moveTable h]
    · next h => simp [State.take_ok_moveTable h]

@[simp] theorem execShadowTileLoaded_leavesMoves (core : CoreId) (s : State) : leavesMoves s (execShadowTileLoaded core s) := by
  unfold execShadowTileLoaded
  dsimp only
  split
  · simp
  · generalize 1024 = n
    simp

@[simp] theorem State.arrayDone_moveTable (s : State) (n : Nat) (i : MtxInst) : (s.arrayDone n i).moveTable = s.moveTable := by simp [State.arrayDone]

@[simp] theorem State.arrayCount_moveTable (s : State) (n sat nan : Nat) (chaff : Bool) : (s.arrayCount n sat nan chaff).moveTable = s.moveTable := by
  simp [State.arrayCount]

@[simp] theorem State.arrayWs_moveTable (s : State) (n : Nat) (i : MtxInst) (flips : List (Nat × Nat)) : (s.arrayWs n i flips).moveTable = s.moveTable := by
  simp [State.arrayWs]

@[simp] theorem State.arrayOs_moveTable (s : State) (n : Nat) (i : MtxInst) (flips : List (Nat × Nat)) : (s.arrayOs n i flips).moveTable = s.moveTable := by
  simp [State.arrayOs]

/-! ### Machine/Waits.lean -/

@[simp] theorem State.countCore_moveTable (s : State) (n : Nat) : (s.countCore n).moveTable = s.moveTable := by simp [State.countCore]
@[simp] theorem State.countWaits_moveTable (s : State) : (s.countWaits).moveTable = s.moveTable := by simp [State.countWaits]

/-! ### Machine/HostMem.lean -/

@[simp] theorem State.answerHost_moveTable (s : State) (fn status : Nat) (data : List Byte) : (s.answerHost fn status data).moveTable = s.moveTable := (rfl)

@[simp] theorem State.hostNo_moveTable (s : State) (r : HostReq) (a : Nat) (why : Refused × Nat) (post : Bool) :
    (s.hostNo r a why post).moveTable = s.moveTable := by
  simp [State.hostNo]

@[simp] theorem State.bar0Read_moveTable (s : State) (fn off size : Nat) : (s.bar0Read fn off size).moveTable = s.moveTable := by
  unfold State.bar0Read
  dsimp only
  repeat' split
  all_goals simp

/-! ### Machine/Access.lean -/

@[simp] theorem State.mctpAnswer_moveTable (s : State) (op status off data : Nat) : (s.mctpAnswer op status off data).moveTable = s.moveTable := (rfl)
@[simp] theorem State.mctpRead_moveTable (s : State) (op off size : Nat) : (s.mctpRead op off size).moveTable = s.moveTable := by simp [State.mctpRead]
/-! ### Machine/Events.lean -/

@[simp] theorem State.eventAlert_moveTable (s : State) (e : Event) : (s.eventAlert e).moveTable = s.moveTable := by simp [State.eventAlert]

@[simp] theorem State.evDiscard_moveTable (s : State) (seq : Nat) : (s.evDiscard seq).moveTable = s.moveTable := by simp [State.evDiscard]

@[simp] theorem execResend_leavesMoves (first count : Nat) (bad : List Nat) (s : State) : leavesMoves s (execResend first count bad s) := by
  unfold execResend
  split
  · simp
  · rw [leavesMoves_next, State.foldl_moveTable fun _ _ => State.emit_moveTable .., State.foldl_moveTable State.evDiscard_moveTable]

/-! ### Machine/Host.lean -/

@[simp] theorem State.fnReset_moveTable (s : State) (fn : Nat) : (s.fnReset fn).moveTable = s.moveTable := by simp [State.fnReset]
/-! ### Machine/Vector.lean -/

@[simp] theorem State.vec_moveTable (s : State) (n op sub : Nat) (flips : List (Nat × Nat)) : (s.vec n op sub flips).moveTable = s.moveTable := by
  unfold State.vec
  split
  · rfl
  · next h => exact State.take_done_moveTable h
  · next h => simp [State.take_ok_moveTable h]

/-! ### Machine/Huller.lean -/

@[simp] theorem State.hulAccept_moveTable (s : State) (n op : Nat) (mine : Cmd → Bool) : (s.hulAccept n op mine).moveTable = s.moveTable := by
  unfold State.hulAccept
  split
  · rfl
  · next h => exact State.take_done_moveTable h
  · next h => simp [State.take_ok_moveTable h]

/-! ### Machine/Spdm.lean -/

@[simp] theorem State.spdm_moveTable (s : State) (code : Nat) (data : List Byte) : (s.spdm code data).moveTable = s.moveTable := (rfl)
@[simp] theorem State.spdmError_moveTable (s : State) (code : Nat) : (s.spdmError code).moveTable = s.moveTable := (rfl)
/-! ### Machine/Step.lean -/

@[simp] theorem State.withFetchWord_moveTable (s : State) (nbits w : Nat) : (s.withFetchWord nbits w).moveTable = s.moveTable := (rfl)
end Sys2Proof.Machine

namespace Sys2Proof.Machine
open Host (Outcome)

/-! ## What keeps the numbers of moves apart

The state functions and the commands that put moves into the table or take them out, and those that may call one: a state function `f` by `f_fresh`,
a command `execX` by `execX_endsFresh`. -/

/-- The numbers are kept apart in the outcome, where it is a next state. -/
def endsFresh (o : Outcome State Fault Refusal) : Prop := ∀ t, o = .next t → freshTable t.moveTable

@[simp] theorem endsFresh_next (t : State) : endsFresh (.next t) ↔ freshTable t.moveTable := by
  simp [endsFresh]

@[simp] theorem endsFresh_ite (c : Prop) [Decidable c] (a b : Outcome State Fault Refusal) :
    endsFresh (if c then a else b) ↔ if c then endsFresh a else endsFresh b := by split <;> rfl

theorem leavesMoves.endsFresh {s : State} {o : Outcome State Fault Refusal} (ho : leavesMoves s o) (h : freshTable s.moveTable) : endsFresh o :=
  fun t ht => (ho t ht).symm ▸ h

@[simp] theorem State.after_fresh {s : State} {o : Outcome State Fault Refusal} (h : freshTable s.moveTable) (ho : Machine.endsFresh o) :
    freshTable (s.after o).moveTable := by
  cases o with
  | next t => exact ho t rfl
  | fault | refused => exact h

@[simp] theorem freshTable_ite (c : Prop) [Decidable c] (a b : List Nat × Nat) :
    freshTable (if c then a else b) ↔ if c then freshTable a else freshTable b := by split <;> rfl

@[simp] theorem State.foldl_fresh {α : Type} {f : State → α → State} {s : State} (h : freshTable s.moveTable)
    (hf : ∀ s x, freshTable s.moveTable → freshTable (f s x).moveTable) (l : List α) : freshTable (l.foldl f s).moveTable := by
  induction l generalizing s with
  | nil => exact h
  | cons x l ih => exact ih (hf s x h)

theorem endsFresh.ite {c : Prop} [Decidable c] {a b : Outcome State Fault Refusal} (ha : endsFresh a) (hb : endsFresh b) :
    endsFresh (if c then a else b) := by
  split
  · exact ha
  · exact hb

theorem State.ite_fresh {c : Prop} [Decidable c] {a b : State} (ha : freshTable a.moveTable) (hb : freshTable b.moveTable) :
    freshTable (if c then a else b).moveTable := by
  split
  · exact ha
  · exact hb

/-! ### How the table changes -/

theorem freshTable.of_eq {x y : List Nat × Nat} (h : freshTable x) (e : y = x) : freshTable y := e ▸ h

theorem freshTable.of_same {s t : State} (h : freshTable s.moveTable) (hm : t.moves = s.moves) (hn : t.nextMove = s.nextMove) :
    freshTable t.moveTable := by
  rw [State.moveTable_congr hm hn]
  exact h

@[simp] theorem freshTable_nil (n : Nat) : freshTable ([], n) := ⟨fun _ h => absurd h List.not_mem_nil⟩

/-- Moves that end are taken out. -/
@[simp] theorem State.filter_fresh {s : State} (h : freshTable s.moveTable) (p : Move → Bool) : freshTable ((s.moves.filter p).map Move.id, s.nextMove) :=
  ⟨fun k hk => by
    obtain ⟨m, hm, e⟩ := List.mem_map.mp hk
    exact h.lt k (List.mem_map.mpr ⟨m, List.mem_of_mem_filter hm, e⟩)⟩

/-- A new move gets the next number. -/
@[simp] theorem State.append_fresh {s : State} (h : freshTable s.moveTable) {m : Move} (hm : m.id = s.nextMove) :
    freshTable ((s.moves ++ [m]).map Move.id, s.nextMove + 1) := by
  refine ⟨fun k hk => ?_⟩
  rw [List.map_append, List.mem_append] at hk
  obtain hk | hk := hk
  · exact Nat.lt_succ_of_lt (h.lt k hk)
  · rw [List.map_singleton, List.mem_singleton, hm] at hk
    exact hk ▸ Nat.lt_succ_self _

theorem movedOn.moveTable {P : Prop} {n : Nat} {s t : State} (h : movedOn P n s t) : t.moveTable = s.moveTable := by
  obtain ⟨⟨hmoves, hnext⟩, -⟩ := h
  have hids := congrArg (List.map Move.id) hmoves
  rw [List.map_map, List.map_map] at hids
  exact Prod.ext hids hnext

/-! ### Functions of SafeOps, ThermalOps and their callers -/

@[simp] theorem State.stopItems_fresh {s : State} (h : freshTable s.moveTable) (ring : Nat) (steps : List Nat) (dead : Bool) :
    freshTable (s.stopItems ring steps dead).moveTable := by
  unfold State.stopItems
  extract_lets mine stop of begun
  rw [State.endReleases_moveTable]
  exact State.filter_fresh h begun

@[simp] theorem State.rshEnd_fresh {s : State} (h : freshTable s.moveTable) (p code : Nat) : freshTable (s.rshEnd p code).moveTable :=
  State.filter_fresh h _

@[simp] theorem State.resetCore_moveTable (s : State) (n : Nat) : (s.resetCore n).moveTable = s.moveTable := by
  unfold State.resetCore
  rw [State.setCore_moveTable]
  split
  · split <;> simp
  · rfl

@[simp] theorem State.resetUnits_fresh {s : State} (h : freshTable s.moveTable) (fid : Nat) (cores : List Nat) :
    freshTable (s.resetUnits fid cores).moveTable := by
  unfold State.resetUnits
  dsimp only
  rw [State.setField_moveTable, State.unpause_moveTable, State.fset_moveTable, State.endReleases_moveTable]
  exact State.filter_fresh h _

@[simp] theorem State.resetField_fresh {s : State} (h : freshTable s.moveTable) (fid : Nat) : freshTable (s.resetField fid).moveTable := by
  rw [State.resetField_eq]
  exact State.resetUnits_fresh (State.foldl_fresh h (fun s n hs => by simpa using hs) _) fid _

@[simp] theorem State.abandon_fresh (s : State) : freshTable s.abandon.moveTable := by
  unfold State.abandon
  extract_lets clear s1
  have h1 : freshTable s1.moveTable := by
    dsimp only [s1]
    rw [State.endReleases_moveTable]
    exact freshTable_nil _
  exact State.foldl_fresh h1 (fun s x hs => by simpa using hs) _

@[simp] theorem State.failSafe_fresh {s : State} (h : freshTable s.moveTable) (cause what : Nat) : freshTable (s.failSafe cause what).moveTable := by
  simp [State.failSafe, h]

@[simp] theorem State.ctrlFail_fresh {s : State} (h : freshTable s.moveTable) (addr tag : Nat) : freshTable (s.ctrlFail addr tag).moveTable := by
  simp [State.ctrlFail, h]

@[simp] theorem State.storeFail_fresh {s : State} (h : freshTable s.moveTable) : freshTable s.storeFail.moveTable := by
  simp [State.storeFail, h]

@[simp] theorem State.ctxVerify_fresh {s : State} (h : freshTable s.moveTable) (k : Nat) : freshTable (s.ctxVerify k).moveTable := by
  simp [State.ctxVerify, h]

@[simp] theorem State.mdlVerify_fresh {s : State} (h : freshTable s.moveTable) (i : Nat) : freshTable (s.mdlVerify i).moveTable := by
  simp [State.mdlVerify, h]

@[simp] theorem State.verifyMdls_fresh {s : State} (h : freshTable s.moveTable) : freshTable s.verifyMdls.moveTable :=
  State.foldl_fresh h (fun _ i hs => State.mdlVerify_fresh hs i) _

@[simp] theorem State.stopFrom_fresh {s : State} (h : freshTable s.moveTable) (r step : Nat) : freshTable (s.stopFrom r step).moveTable := by
  simp [State.stopFrom, h]

@[simp] theorem State.shedLoad_fresh (s : State) : freshTable s.shedLoad.moveTable := by
  simp [State.shedLoad]

@[simp] theorem State.trip_fresh {s : State} (h : freshTable s.moveTable) (n t : Nat) : freshTable (s.trip n t).moveTable := by
  simp [State.trip, h]

@[simp] theorem State.rshVerify_fresh {s : State} (h : freshTable s.moveTable) (p : Nat) : freshTable (s.rshVerify p).moveTable := by
  -- The equation is taken of the function, not of its value: the kernel would evaluate the command list at START.
  suffices hfun : ∀ f, f = State.rshVerify → freshTable (f s p).moveTable from hfun _ rfl
  intro f hf
  delta State.rshVerify at hf
  have hrun := congrFun (congrFun hf s) p
  beta_reduce at hrun
  split at hrun
  · rw [hrun]
    exact h
  · split at hrun
    rw [hrun]
    exact State.foldl_fresh (State.foldl_fresh h (fun _ i hs => State.mdlVerify_fresh hs i) _) (fun _ k hs => State.ctxVerify_fresh hs k) _

@[simp] theorem State.keepFlash_fresh (s : State) : freshTable (s.keepFlash State.reset).moveTable := freshTable_nil _

/-! ### Writes of memory -/

@[simp] theorem State.wrMarked_moveTable (s : State) (a : Nat) (bs : List (Byte × Bool)) : (s.wrMarked a bs).moveTable = s.moveTable :=
  movedOn.moveTable (P := False) (n := 0) (s.wrMarked_movedOn id a bs)
@[simp] theorem State.wr_moveTable (s : State) (a : Nat) (bs : List Byte) : (s.wr a bs).moveTable = s.moveTable := s.wrMarked_moveTable _ _

@[simp] theorem State.spWrite_moveTable (s : State) (p off : Nat) (bs : List Byte) : (s.spWrite p off bs).moveTable = s.moveTable := by
  unfold State.spWrite
  split <;> simp

theorem State.spWrite_fresh {s : State} (h : freshTable s.moveTable) (p off : Nat) (bs : List Byte) : freshTable (s.spWrite p off bs).moveTable := by
  simpa using h

@[simp] theorem State.zeroRange_moveTable (s : State) (a n : Nat) : (s.zeroRange a n).moveTable = s.moveTable := (rfl)
@[simp] theorem State.goneBad_moveTable (s : State) (addr : Nat) : (s.goneBad addr).moveTable = s.moveTable := (rfl)

@[simp] theorem State.eccRead_moveTable (s : State) (addr : Nat) (e : Ecc) (src part : Nat) : (s.eccRead addr e src part).moveTable = s.moveTable := by
  unfold State.eccRead
  repeat' split
  all_goals simp

@[simp] theorem State.ssRead_moveTable (s : State) (addr : Nat) (e : Ecc) (part : Nat) : (s.ssRead addr e part).1.moveTable = s.moveTable := by
  unfold State.ssRead
  dsimp only
  repeat' split
  all_goals simp

@[simp] theorem State.spoil_moveTable (s : State) (w : Wrote) : (s.spoil w).moveTable = s.moveTable := by
  unfold State.spoil
  split
  · simp
  · rfl

@[simp] theorem State.spoilSteps_moveTable (s : State) (ring : Nat) (steps : List Nat) : (s.spoilSteps ring steps).moveTable = s.moveTable := by
  unfold State.spoilSteps
  split
  · rfl
  · extract_lets gone s1 s2 msg
    have h2 : s2.moveTable = s.moveTable := State.foldl_moveTable State.spoil_moveTable _ _
    refine Eq.trans ?_ h2
    refine Prod.ext ?_ rfl
    show (s2.moves.map _).map Move.id = s2.moves.map Move.id
    rw [List.map_map]
    refine List.map_congr_left fun m _ => ?_
    dsimp only [Function.comp]
    split <;> rfl

/-! ### Moves -/

@[simp] theorem State.wrCells_moveTable (s : State) (cells : List (Nat × Byte × Bool)) : (s.wrCells cells).moveTable = s.moveTable :=
  movedOn.moveTable (P := False) (n := 0) (s.wrCells_movedOn id cells)
@[simp] theorem State.deliver_moveTable (s : State) (m : Move) (cells : List (Nat × Byte × Bool)) : (s.deliver m cells).moveTable = s.moveTable :=
  movedOn.moveTable (P := False) (n := 0) (s.deliver_movedOn False.elim)
@[simp] theorem State.zeroPads_moveTable (s : State) (c : Contrib) (pads : List Nat) : (s.zeroPads c pads).moveTable = s.moveTable :=
  movedOn.moveTable (P := False) (n := 0) (s.zeroPads_movedOn id c pads)
@[simp] theorem State.sendContribs_moveTable (s : State) (cs : List Contrib) (id : Option Nat) : (s.sendContribs cs id).moveTable = s.moveTable :=
  movedOn.moveTable (P := False) (n := 0) (s.sendContribs_movedOn (fun h => h) cs id)
@[simp] theorem State.performMove_moveTable (s : State) (m : Move) : (s.performMove m).moveTable = s.moveTable :=
  movedOn.moveTable (P := False) (n := 0) (s.performMove_movedOn False.elim)
@[simp] theorem State.advanceMove_moveTable (s : State) (id : Nat) : (s.advanceMove id).moveTable = s.moveTable :=
  movedOn.moveTable (P := False) (n := 0) (s.advanceMove_movedOn False.elim)

@[simp] theorem State.acceptMove_fresh {s : State} (h : freshTable s.moveTable) (core ring : Option Nat) (part step : Nat) (cmd : Cmd)
    (op sub : Nat) (det : Bool) (src dst : Desc) (idx : Option Desc) (perm : List Nat) (overlap need : Nat) (chaff : Bool) (flips : List
    (Nat × Nat)) (entry : Option ErrPlace) :
    freshTable (s.acceptMove core ring part step cmd op sub det src dst idx perm overlap need chaff flips entry).moveTable := by
  obtain ⟨m, dets, hm, hon⟩ := State.acceptMove_movedOn (P := False) (n := 0) s core ring part step cmd op sub det src dst idx perm overlap need chaff
    flips entry False.elim
  rw [hon.moveTable]
  exact State.append_fresh h hm.id

/-! ### Machine/SyncOps.lean -/

@[simp] theorem State.signalLocal_moveTable (s : State) (a : Nat) (set : Bool) (v : Nat) (chaff : Bool) :
    (s.signalLocal a set v chaff).moveTable = s.moveTable := by
  simp [State.signalLocal]

/-! ### Machine/StreamOps.lean -/

@[simp] theorem State.setCtx_moveTable (s : State) (k : Nat) (c : Ctx) : (s.setCtx k c).moveTable = s.moveTable := by
  simp [State.setCtx]

@[simp] theorem State.setMdl_moveTable (s : State) (i : Nat) (b : List Byte) : (s.setMdl i b).moveTable = s.moveTable := by
  simp [State.setMdl]

theorem State.setMdl_fresh {s : State} (h : freshTable s.moveTable) (i : Nat) (b : List Byte) : freshTable (s.setMdl i b).moveTable :=
  h.of_eq (s.setMdl_moveTable i b)

@[simp] theorem State.mdlStreams_moveTable (s : State) (i n : Nat) : (s.mdlStreams i n).moveTable = s.moveTable := by
  simp [State.mdlStreams]

@[simp] theorem State.mdlUp_moveTable (s : State) (i : Nat) : (s.mdlUp i).moveTable = s.moveTable := by simp [State.mdlUp]
@[simp] theorem State.mdlDown_moveTable (s : State) (i : Nat) : (s.mdlDown i).moveTable = s.moveTable := by simp [State.mdlDown]

/-! ### Machine/ReshardOps.lean -/

@[simp] theorem State.rshCopy_moveTable (s : State) (m : Move) (c : Nat × Nat × Nat) : (s.rshCopy m c).moveTable = s.moveTable := by
  simp [State.rshCopy]

@[simp] theorem State.rshStream_fresh {s : State} (h : freshTable s.moveTable) (p : Nat) (plan : List (Nat × Nat × Nat)) :
    freshTable (s.rshStream p plan).moveTable := by
  unfold State.rshStream
  extract_lets id m s1 s2
  have h1 : freshTable s1.moveTable := State.append_fresh h rfl
  have h2 : s2.moveTable = s1.moveTable := State.foldl_moveTable (fun s c => s.rshCopy_moveTable m c) _ _
  rw [State.countReads_moveTable, h2]
  exact h1

/-! ### Machine/SafeOps.lean -/

@[simp] theorem State.rshHolds_fresh {s : State} (h : freshTable s.moveTable) (p n : Nat) : freshTable (s.rshHolds p n).moveTable := by
  induction n generalizing s with
  | zero => exact h
  | succ n ih =>
    unfold State.rshHolds
    split
    · exact h
    · split
      · exact h
      · dsimp only
        split
        · split
          · simp [h]
          · exact ih (by simp [h])
        · exact State.foldl_fresh (by simp [h]) (fun s c hs => State.rshStream_fresh hs p c) _

@[simp] theorem State.rshWake_fresh {s : State} (h : freshTable s.moveTable) : freshTable (s.rshWake).moveTable :=
  State.foldl_fresh h (fun _ _ hs => State.rshHolds_fresh hs _ _) _

/-! ### Machine/RingOps.lean -/

@[simp] theorem State.putCpl_moveTable (s : State) (r : Nat) (c : CplRec) : (s.putCpl r c).moveTable = s.moveTable := by
  unfold State.putCpl
  split <;> simp

@[simp] theorem State.writeCpl_moveTable (s : State) (r : Nat) (c : CplRec) : (s.writeCpl r c).moveTable = s.moveTable := by
  simp [State.writeCpl]

@[simp] theorem State.flushCpl_moveTable (s : State) (r n : Nat) : (s.flushCpl r n).moveTable = s.moveTable := by
  induction n generalizing s with
  | zero => rfl
  | succ n ih =>
    unfold State.flushCpl
    split
    · rfl
    · split
      · rfl
      · split
        · simp
        · rw [ih]
          simp

@[simp] theorem State.onHeld_fresh {s : State} (h : freshTable s.moveTable) (ring : Nat) (o : OpenStep) (f : Ctx → Ctx) :
    freshTable (s.onHeld ring o f).moveTable := by
  simp +contextual [State.onHeld, h]

@[simp] theorem State.releaseHolds_fresh {s : State} (h : freshTable s.moveTable) (ring : Nat) (o : OpenStep) :
    freshTable (s.releaseHolds ring o).moveTable := by
  simp [State.releaseHolds, h]

@[simp] theorem State.dropSteps_fresh {s : State} (h : freshTable s.moveTable) (r : Nat) (gone : List OpenStep) :
    freshTable (s.dropSteps r gone).moveTable := by
  simp only [State.dropSteps, State.ringState_moveTable]
  refine State.rshWake_fresh ?_
  rw [State.onRing_moveTable]
  refine State.foldl_fresh ?_ (fun s o hs => State.releaseHolds_fresh hs ..) _
  simp [h]

@[simp] theorem State.flushLate_moveTable (s : State) (r : Nat) (now : Bool) : (s.flushLate r now).moveTable = s.moveTable := by
  unfold State.flushLate
  dsimp only
  repeat' split
  all_goals simp -implicitDefEqProofs +contextual

@[simp] theorem State.cancelFrom_fresh {s : State} (h : freshTable s.moveTable) (r step status core soft : Nat) (at_ : Option ErrPlace) :
    freshTable (s.cancelFrom r step status core soft at_).moveTable := by
  unfold State.cancelFrom
  split
  · exact h
  · simp only [State.halt_moveTable]
    rw [State.flushLate_moveTable, State.onRing_moveTable]
    exact State.dropSteps_fresh (by simpa using h) ..

@[simp] theorem State.terminate_fresh {s : State} (h : freshTable s.moveTable) (r : Nat) (o : OpenStep) (status : Nat) :
    freshTable (s.terminate r o status).moveTable := by
  simp [State.terminate, h]

@[simp] theorem State.commitStep_fresh {s : State} (h : freshTable s.moveTable) (r : Nat) (o : OpenStep) : freshTable (s.commitStep r o).moveTable := by
  simp only [State.commitStep, State.ringState_moveTable]
  refine State.rshWake_fresh ?_
  rw [State.writeCpl_moveTable, State.onRing_moveTable]
  split
  · rw [State.fadd_moveTable]
    exact State.terminate_fresh (by exact h) ..
  · refine State.onHeld_fresh ?_ ..
    exact h

@[simp] theorem State.unreadyRing_fresh {s : State} (h : freshTable s.moveTable) (r : Nat) : freshTable (s.unreadyRing r).moveTable := by
  simp only [State.unreadyRing, State.halt_moveTable]
  exact State.foldl_fresh (State.dropSteps_fresh (by simpa using h) ..) (fun s x hs => by simpa using hs) _

@[simp] theorem State.unready_fresh {s : State} (h : freshTable s.moveTable) (kind id : Nat) (f : FaultRec) :
    freshTable (s.unready kind id f).moveTable := by
  simp +contextual [State.unready, h]

/-! ### Machine/Links.lean -/

@[simp] theorem State.laneFail_fresh {s : State} (h : freshTable s.moveTable) (plot : Nat) (inward : Bool) (lane : Nat) :
    freshTable (s.laneFail plot inward lane).moveTable := by
  have hswap := s.laneSwap_moveTable plot inward lane
  unfold State.laneFail
  split
  · next hs => simp_all
  · next t hs =>
    have ht : freshTable t.moveTable := by simp_all
    refine State.unready_fresh ?_ ..
    simp only [State.almanac_moveTable, State.fset_moveTable]
    split <;> simpa using ht

/-! ### Machine/Replay.lean -/

@[simp] theorem State.poisonLedger_moveTable (s : State) (r : Nat) (o : OpenStep) : (s.poisonLedger r o).moveTable = s.moveTable := by
  simp +contextual [State.poisonLedger]

@[simp] theorem State.closeExported_fresh {s : State} (h : freshTable s.moveTable) (r : Nat) (o : OpenStep) :
    freshTable (s.closeExported r o).moveTable := by
  simp [State.closeExported, h]

@[simp] theorem State.undoLedger_fresh {s : State} (h : freshTable s.moveTable) (r : Nat) (o : OpenStep) : freshTable (s.undoLedger r o).moveTable := by
  simp only [State.undoLedger, State.onStep_moveTable]
  exact State.foldl_fresh (State.foldl_fresh h (fun s e hs => by simpa using hs) _) (fun s x hs => by simpa using hs) _

@[simp] theorem execReplayRestored_endsFresh {s : State} (h : freshTable s.moveTable) (ring : RingId) : endsFresh (execReplayRestored ring s) := by
  have hundo : ∀ l : List OpenStep, freshTable (l.foldl (fun (s : State) o => s.undoLedger ring o) s).moveTable :=
    fun l => State.foldl_fresh h (fun s o hs => State.undoLedger_fresh hs ..) l
  simp only [execReplayRestored]
  split
  · simpa using h
  · split
    · exact (endsFresh_next _).mpr (hundo _)
    · simp only [endsFresh_next, State.ringState_moveTable, State.onRing_moveTable, State.fadd_moveTable]
      exact hundo _

/-! ### Machine/Reshard.lean -/

@[simp] theorem State.rshPlace_fresh {s : State} (h : freshTable s.moveTable) (p : Nat) : freshTable (s.rshPlace p).moveTable := by
  simp [State.rshPlace, h]

@[simp] theorem execRshStart_endsFresh {s : State} (h : freshTable s.moveTable) (p : PartId) : endsFresh (execRshStart p s) := by
  -- The equation is taken of the function, not of its value: the kernel would evaluate the command list at START.
  have hf : execRshStart = delta% execRshStart := rfl
  have hr := congrFun (congrFun hf p) s
  beta_reduce at hr
  rw [hr]
  have h1 : freshTable ((s.fset F.rshStatus_DONE p.val 0).rshVerify p.val).moveTable := State.rshVerify_fresh (by simpa using h) _
  refine endsFresh.ite (by simpa using h) (endsFresh.ite (by simpa using h) (endsFresh.ite ((endsFresh_next _).mpr h1) ?_))
  split
  · simpa -implicitDefEqProofs using h1
  · refine (endsFresh_next _).mpr (State.ite_fresh ?_ (State.rshPlace_fresh ?_ _))
    · simpa -implicitDefEqProofs using h1
    · simpa -implicitDefEqProofs using h1

@[simp] theorem State.rshRelease_fresh {s : State} (h : freshTable s.moveTable) (j : RshJob) : freshTable (s.rshRelease j).moveTable := by
  simp +contextual [State.rshRelease, h]

@[simp] theorem State.rshUndefined_moveTable (s : State) (j : RshJob) : (s.rshUndefined j).moveTable = s.moveTable := by
  have hplaces (t : State) : ∀ c : Nat × Nat, ({ t with mem := memSetN t.mem c.1 (t.undefBytes c.1 c.2) } : State).moveTable = t.moveTable := fun _ => rfl
  unfold State.rshUndefined
  dsimp only
  rw [State.foldl_moveTable, State.foldl_moveTable fun t c => hplaces t c]
  · rfl
  · intro t o
    split <;> rfl

@[simp] theorem State.rshAbortNow_fresh {s : State} (h : freshTable s.moveTable) (p code : Nat) : freshTable (s.rshAbortNow p code).moveTable := by
  unfold State.rshAbortNow
  split
  · exact h
  · extract_lets peers s1
    have h1 : freshTable s1.moveTable := State.foldl_fresh h (fun s m hs => by simpa using hs) _
    refine State.ite_fresh h1 ?_
    rw [State.rshUndefined_moveTable]
    exact State.rshEnd_fresh (State.rshRelease_fresh h1 _) ..

@[simp] theorem State.rshAbortWith_fresh {s : State} (h : freshTable s.moveTable) (p code : Nat) : freshTable (s.rshAbortWith p code).moveTable := by
  unfold State.rshAbortWith
  split <;> simp [h]

@[simp] theorem execRshMoveDone_endsFresh {s : State} (h : freshTable s.moveTable) (p : PartId) (mismatch : Nat) :
    endsFresh (execRshMoveDone p mismatch s) := by
  unfold execRshMoveDone
  extract_lets q
  split
  · simpa using h
  · refine endsFresh.ite (by simpa using h) ?_
    extract_lets fin ended failed rest code s2 s3
    have h2 : freshTable s2.moveTable := (State.filter_fresh h _).of_eq (State.onRsh_moveTable _ _ _)
    clear_value s2
    refine endsFresh.ite (by simpa using h2) (endsFresh.ite ?_ ?_)
    · exact (endsFresh_next _).mpr (State.rshAbortNow_fresh h2 _ _)
    · have h3 : freshTable s3.moveTable := State.foldl_fresh h2 (fun s m hs =>
        State.ite_fresh (State.ite_fresh (by simpa using hs) (by simpa using hs)) (by simpa using hs)) _
      simpa using h3

@[simp] theorem State.rshFinish_fresh {s : State} (h : freshTable s.moveTable) (j : RshJob) : freshTable (s.rshFinish j).moveTable := by
  unfold State.rshFinish
  extract_lets t
  have ht : freshTable t.moveTable := by
    refine State.foldl_fresh h (fun s e hs => ?_) _
    have hv := State.mdlVerify_fresh (State.mdlVerify_fresh (State.ctxVerify_fresh hs e.1) j.src) j.dst
    refine State.ite_fresh hv ?_
    rw [State.mdlUp_moveTable, State.mdlDown_moveTable, State.setCtx_moveTable]
    exact hv
  exact State.ite_fresh ht (State.rshEnd_fresh (State.foldl_fresh ht (fun s f hs => by simpa using hs) _) ..)

/-! ### Machine/Rings.lean -/

@[simp] theorem State.resetRing_fresh {s : State} (h : freshTable s.moveTable) (r : Nat) : freshTable (s.resetRing r).moveTable := by
  simp [State.resetRing, h]

/-! ### Machine/ResetOps.lean -/

@[simp] theorem State.deviceFallow_fresh {s : State} (h : freshTable s.moveTable) (d : Nat) : freshTable (s.deviceFallow d).moveTable := by
  simp [State.deviceFallow, h]

@[simp] theorem State.coldReset_fresh (s : State) : freshTable (s.coldReset).moveTable := by simp [State.coldReset]
@[simp] theorem State.warmReset_fresh (s : State) : freshTable (s.warmReset).moveTable := by simp [State.warmReset]

@[simp] theorem State.hostReset_fresh {s : State} (h : freshTable s.moveTable) : freshTable (s.hostReset).moveTable := by
  unfold State.hostReset
  extract_lets ids host s1
  rw [State.refreshHif_moveTable]
  exact State.foldl_fresh (s := s1) h (fun s r hs => by simp [hs]) _

@[simp] theorem State.takeReset_fresh (s : State) (cold : Bool) (bits : Nat) : freshTable (s.takeReset cold bits).moveTable := by
  simp [State.takeReset]

/-! ### Machine/BlockReset.lean -/

@[simp] theorem State.blkField_fresh {s : State} (h : freshTable s.moveTable) (fid : Nat) : freshTable (s.blkField fid).moveTable := by
  refine State.resetField_fresh (State.foldl_fresh h (fun s x hs => ?_) _) fid
  split
  · exact State.cancelFrom_fresh hs ..
  · exact hs

@[simp] theorem State.blkReset_fresh {s : State} (h : freshTable s.moveTable) (b : BlkJob) (forced : Bool) : freshTable (s.blkReset b forced).moveTable := by
  have hhost {t : State} {x : HostSt} (ht : freshTable t.moveTable) : freshTable ({ t with host := x } : State).moveTable := ht
  simp only [State.blkReset, State.event_moveTable, State.almanac_moveTable, State.blkResult_moveTable]
  split
  · exact State.blkField_fresh (by exact h) _
  · simpa using h
  · exact hhost (State.hostReset_fresh (by exact h))
  · simpa using h
  · exact State.foldl_fresh (by exact h) (fun s p hs => State.rshAbortNow_fresh hs ..) _

/-! ### Machine/Moves.lean -/

@[simp] theorem State.moveCmd_fresh {s : State} (h : freshTable s.moveTable) (n op sub : Nat) (flips : List (Nat × Nat)) :
    freshTable (s.moveCmd n op sub flips).moveTable := by
  unfold State.moveCmd
  split
  · exact h
  · next ht => simpa [State.take_done_moveTable ht] using h
  · next t _ _ ht =>
    have ht : freshTable t.moveTable := by simp [State.take_ok_moveTable ht, h]
    refine State.ite_fresh (by simpa using ht) ?_
    dsimp only
    split
    · simpa using ht
    · simpa using ht
    · refine State.ite_fresh h ?_
      simp [ht]

/-! ### Machine/Sync.lean -/

@[simp] theorem State.signalCmd_moveTable (s : State) (n : Nat) (set : Bool) (mismatch : Nat) : (s.signalCmd n set mismatch).moveTable = s.moveTable := by
  unfold State.signalCmd
  split
  · rfl
  · split
    · rfl
    · next ht => simp [State.take_done_moveTable ht]
    · next ht => simp [State.take_ok_moveTable ht]

/-! ### Machine/Entries.lean -/

@[simp] theorem State.entryErr_fresh {s : State} (h : freshTable s.moveTable) (r : Nat) (e : List Byte) (status : Nat) :
    freshTable (s.entryErr r e status).moveTable := by
  unfold State.entryErr
  dsimp only
  repeat' split
  all_goals simp [h]

theorem State.headEntry_done_fresh {s t : State} {r : Nat} {mine : Nat → Bool} {given : List Byte} (h : freshTable s.moveTable)
    (he : s.headEntry r mine given = .done t) : freshTable t.moveTable := by
  unfold State.headEntry at he
  dsimp only at he
  repeat' split at he
  all_goals cases he
  all_goals simp [h]

theorem State.takeEntry_done_fresh {s t : State} {r : Nat} {mine : Nat → Bool} {given : List Byte} (h : freshTable s.moveTable)
    (he : s.takeEntry r mine given = .done t) : freshTable t.moveTable := by
  unfold State.takeEntry at he
  split at he
  · cases he
    simp [h]
  · split at he
    · exact State.headEntry_done_fresh h he
    · cases he

@[simp] theorem State.resolveEntry_fresh {s : State} (h : freshTable s.moveTable) (r step model a : Nat) :
    freshTable (s.resolveEntry r step model a).moveTable := by
  -- The equation is taken of the function, not of its value: the kernel would evaluate the lookup of the table.
  have hf : State.resolveEntry = delta% State.resolveEntry := rfl
  have hr := congrFun (congrFun (congrFun (congrFun (congrFun hf s) r) step) model) a
  beta_reduce at hr
  extract_lets p at hr
  rw [hr]
  rcases hq : s.spRead p a 8 with _ | b
  · exact h
  · refine State.spWrite_fresh (State.spWrite_fresh (State.ite_fresh ?_ ?_) _ _ _) _ _ _
    · simp [h]
    · simp [h]

theorem State.resolveEntries_fresh {s : State} (h : freshTable s.moveTable) (r step model off : Nat) (l : List Nat) :
    freshTable (l.foldl (fun (s : State) i => s.resolveEntry r step model (off + 16 + 16 * i)) s).moveTable := by
  induction l generalizing s with
  | nil => exact h
  | cons i l ih =>
    rw [List.foldl_cons]
    exact ih (State.resolveEntry_fresh h ..)

@[simp] theorem execDispatch_endsFresh {s : State} (h : freshTable s.moveTable) (ring : RingId) (bytes : List Byte) :
    endsFresh (execDispatch ring bytes s) := by
  -- The equation is taken of the function, not of its value: the kernel would evaluate the entry.
  have hf : execDispatch = delta% execDispatch := rfl
  have hr := congrFun (congrFun (congrFun hf ring) bytes) s
  beta_reduce at hr
  rw [hr]
  extract_lets +onlyGivenNames r
  split
  · simpa using h
  · next he => exact (endsFresh_next _).mpr (State.takeEntry_done_fresh h he)
  · extract_lets +onlyGivenNames p x first count model batch owned again kept before force s1
    have h1 : freshTable s1.moveTable := by simp [s1, h]
    clear_value s1 again force owned
    refine endsFresh.ite (by simpa using h1) (endsFresh.ite (by simp [h1]) (endsFresh.ite (by simp [h1])
      (endsFresh.ite (by simp [h1]) (endsFresh.ite (by simp [h1]) ?_))))
    split
    · simp [h1]
    · refine endsFresh.ite (by simpa using h1) ?_
      extract_lets +onlyGivenNames place s2 step s3 s4 s5
      have h4 : freshTable s4.moveTable := by simpa [s4, s3, s2] using h1
      clear_value s4
      have h5 : freshTable s5.moveTable :=
        State.ite_fresh h4 (State.resolveEntries_fresh h4 ..)
      exact endsFresh.ite ((endsFresh_next _).mpr h5) (by simpa using h5)

@[simp] theorem execCommitEntry_endsFresh {s : State} (h : freshTable s.moveTable) (ring : RingId) (bytes : List Byte) :
    endsFresh (execCommitEntry ring bytes s) := by
  unfold execCommitEntry
  dsimp only
  split
  · simp [h]
  · next he => simpa using State.takeEntry_done_fresh h he
  · (repeat' split) <;> simp [h]

@[simp] theorem execFenceEntry_endsFresh {s : State} (h : freshTable s.moveTable) (ring : RingId) (bytes : List Byte) :
    endsFresh (execFenceEntry ring bytes s) := by
  unfold execFenceEntry
  dsimp only
  split
  · simp [h]
  · next he => simpa using State.takeEntry_done_fresh h he
  · (repeat' split) <;> simp [h]

@[simp] theorem execNopEntry_endsFresh {s : State} (h : freshTable s.moveTable) (ring : RingId) (bytes : List Byte) :
    endsFresh (execNopEntry ring bytes s) := by
  unfold execNopEntry
  dsimp only
  split
  · simp [h]
  · next he => simpa using State.takeEntry_done_fresh h he
  · (repeat' split) <;> simp [h]

@[simp] theorem execMark_endsFresh {s : State} (h : freshTable s.moveTable) (ring : RingId) (bytes : List Byte) : endsFresh (execMark ring bytes s) := by
  unfold execMark
  dsimp only
  split
  · simp [h]
  · next he => simpa using State.takeEntry_done_fresh h he
  · (repeat' split) <;> simp [h]

@[simp] theorem execUnlistedEntryType_endsFresh {s : State} (h : freshTable s.moveTable) (ring : RingId) (bytes : List Byte) :
    endsFresh (execUnlistedEntryType ring bytes s) := by
  unfold execUnlistedEntryType
  split
  · simp [h]
  · next he => simpa using State.takeEntry_done_fresh h he
  · simp [h]

@[simp] theorem execMoveEntry_endsFresh {s : State} (h : freshTable s.moveTable) (ring : RingId) (bytes : List Byte) :
    endsFresh (execMoveEntry ring bytes s) := by
  unfold execMoveEntry
  dsimp only
  split
  · simp [h]
  · next he => simpa using State.takeEntry_done_fresh h he
  · (repeat' split) <;> simp [h]

@[simp] theorem execSemSignalEntry_endsFresh {s : State} (h : freshTable s.moveTable) (ring : RingId) (bytes : List Byte) (mismatch : Nat) :
    endsFresh (execSemSignalEntry ring bytes mismatch s) := by
  unfold execSemSignalEntry
  dsimp only
  split
  · simp [h]
  · next he => simpa using State.takeEntry_done_fresh h he
  · (repeat' split) <;> simp [h]

@[simp] theorem execSemWaitEntry_endsFresh {s : State} (h : freshTable s.moveTable) (ring : RingId) (bytes : List Byte) :
    endsFresh (execSemWaitEntry ring bytes s) := by
  unfold execSemWaitEntry
  dsimp only
  split
  · simp [h]
  · next he => simpa using State.takeEntry_done_fresh h he
  · (repeat' split) <;> simp [h]

/-! ### Machine/Observe.lean -/

@[simp] theorem execTraceRecordStore_leavesMoves (rec : TraceRec) (full : Bool) (held : Nat) (s : State) :
    leavesMoves s (execTraceRecordStore rec full held s) := by
  simp [execTraceRecordStore]

/-! ### Machine/Bins.lean -/

@[simp] theorem State.binCfg_moveTable (s : State) (k mode owner : Nat) : (s.binCfg k mode owner).moveTable = s.moveTable := by
  simp [State.binCfg]

/-! ### Machine/Reduce.lean -/

@[simp] theorem State.combineHere_moveTable (s : State) (l : List DetItem) : (s.combineHere l).moveTable = s.moveTable := by
  simp +contextual [State.combineHere]

@[simp] theorem State.combineNow_moveTable (s : State) (cs : List Contrib) : (s.combineNow cs).moveTable = s.moveTable := by
  unfold State.combineNow
  split
  · rfl
  · rw [State.foldl_moveTable fun s c => s.zeroPads_moveTable c _]
    split <;> simp

@[simp] theorem execCombineContribution_leavesMoves (mismatch : Nat) (s : State) : leavesMoves s (execCombineContribution mismatch s) := by
  unfold execCombineContribution
  extract_lets free
  split
  · simp
  · extract_lets a vault same mine s1 s2 ok s3
    have h2 : s2.moveTable = s.moveTable := by
      refine (State.foldl_moveTable (fun s x => ?_) _ s1).trans (State.moveTable_congr rfl rfl)
      split <;> simp
    have h3 : s3.moveTable = s.moveTable := (State.combineNow_moveTable _ _).trans h2
    simp [h3]

@[simp] theorem State.detCombine_moveTable (s : State) (items : List DetItem) : (s.detCombine items).moveTable = s.moveTable := by
  simp [State.detCombine]

/-! ### Machine/Packets.lean -/

@[simp] theorem State.doWrite_moveTable (s : State) (p : Packet) : (s.doWrite p).moveTable = s.moveTable := by simp [State.doWrite]

@[simp] theorem State.doSignal_moveTable (s : State) (p : Packet) (mismatch : Nat) : (s.doSignal p mismatch).moveTable = s.moveTable := by
  simp [State.doSignal]

@[simp] theorem State.doResponse_moveTable (s : State) (p : Packet) : (s.doResponse p).moveTable = s.moveTable := by
  unfold State.doResponse
  repeat' split
  all_goals simp

@[simp] theorem State.txnLost_fresh {s : State} (h : freshTable s.moveTable) (t : Txn) (port : Nat) : freshTable (s.txnLost t port).moveTable := by
  unfold State.txnLost
  repeat' split
  all_goals simp [h]

@[simp] theorem State.perform_fresh {s : State} (h : freshTable s.moveTable) (p : Packet) (from_ : Option Nat) (mismatch : Nat) :
    freshTable (s.perform p from_ mismatch).moveTable := by
  unfold State.perform
  repeat' split
  all_goals simp [h]

@[simp] theorem State.arrive_fresh {s : State} (h : freshTable s.moveTable) (port : Nat) (p : Packet) (mismatch : Nat) :
    freshTable (s.arrive port p mismatch).moveTable := by
  simp [State.arrive, h]

@[simp] theorem State.receive_fresh {s : State} (h : freshTable s.moveTable) (port : Nat) (b : List Byte) (type : Nat) (op : Option Nat)
    (mismatch : Nat) :
    freshTable (s.receive port b type op mismatch).moveTable := by
  simp [State.receive, h]

/-! ### Machine/Streams.lean -/

@[simp] theorem execMdlEvict_endsFresh {s : State} (h : freshTable s.moveTable) (p : PartId) (index : BitVec 12) : endsFresh (execMdlEvict p index s) := by
  unfold execMdlEvict
  extract_lets q i s1 s2 s3
  have h1 : freshTable s1.moveTable := State.mdlVerify_fresh h _
  have h2 : freshTable s2.moveTable := h1.of_eq (State.setMdl_moveTable _ _ _)
  have h3 : freshTable s3.moveTable := h2.of_same rfl rfl
  clear_value s1 s2 s3
  simp [h1, h3]

/-! ### Machine/Partition.lean -/

@[simp] theorem execPartDestroy_endsFresh {s : State} (h : freshTable s.moveTable) (index : PartId) : endsFresh (execPartDestroy index s) := by
  unfold execPartDestroy
  extract_lets p bins s1 s2 s3 s4 s5 s6
  have h1 : freshTable s1.moveTable := State.foldl_fresh h (fun s k hs => by simp [hs]) _
  have h2 : freshTable s2.moveTable := State.verifyMdls_fresh (State.foldl_fresh h1 (fun s k hs => State.ctxVerify_fresh hs k) _)
  have h3 : freshTable s3.moveTable := State.foldl_fresh h2 (fun s k hs => by simpa using hs) _
  have h4 : freshTable s4.moveTable := by
    refine State.foldl_fresh h3 (fun s k hs => ?_) _
    exact State.setMdl_fresh hs ..
  have h5 : freshTable s5.moveTable := h4.of_eq (s4.clearPart_moveTable p)
  clear_value s1 s2 s3 s4 s5
  have h6 : freshTable s6.moveTable := h5.of_same rfl rfl
  clear_value s6
  simp [h, h2, h6]

/-! ### Machine/Power.lean -/

@[simp] theorem State.phaseFail_fresh {s : State} (h : freshTable s.moveTable) (plot phase : Nat) : freshTable (s.phaseFail plot phase).moveTable := by
  simp [State.phaseFail, h]

/-! ### Machine/Sleep.lean -/

@[simp] theorem State.leaveS4_fresh (s : State) : freshTable (s.leaveS4).moveTable := by
  unfold State.leaveS4
  extract_lets t sys
  have ht : freshTable t.moveTable := State.coldReset_fresh s
  clear_value t
  simpa using ht

@[simp] theorem State.sleepTarget_fresh {s : State} (h : freshTable s.moveTable) (k : Nat) : freshTable (s.sleepTarget k).moveTable := by
  simp [State.sleepTarget, h]

/-! ### Machine/Bring.lean -/

@[simp] theorem State.stepEndFailed_fresh {s : State} (h : freshTable s.moveTable) (code detail : Nat) :
    freshTable (s.stepEndFailed code detail).moveTable := by
  simp [State.stepEndFailed, h]

@[simp] theorem State.loadImage_moveTable (s : State) (i : Image) (slot : Nat) : (s.loadImage i slot).moveTable = s.moveTable := by
  simp +contextual [State.loadImage]

@[simp] theorem execStepSeed_endsFresh {s : State} (h : freshTable s.moveTable) (answered stale : BitVec 2) (a b r : SlotRead) :
    endsFresh (execStepSeed answered stale a b r s) := by
  unfold execStepSeed
  refine endsFresh.ite (by simpa using h) ?_
  extract_lets s1 s2 s3 s4 per s5
  have h3 : freshTable s3.moveTable := by simpa [s3, s2, s1] using h
  have h4 : freshTable s4.moveTable :=
    State.foldl_fresh h3 (fun s d hs => State.ite_fresh (State.deviceFallow_fresh hs d) hs) _
  have h5 : freshTable s5.moveTable := by simpa [s5] using h4
  refine endsFresh.ite (by simpa using h3) ?_
  split
  extract_lets s6 seed s7
  have h7 : freshTable s7.moveTable := State.ite_fresh (c := _ = _) h5 (by simpa using h5)
  split
  · exact (endsFresh_next _).mpr (by simpa using h7)
  · simpa using h7

@[simp] theorem execStepVault_endsFresh {s : State} (h : freshTable s.moveTable) (seedstore cal : Option Nat) : endsFresh (execStepVault seedstore cal s) := by
  unfold execStepVault
  refine endsFresh.ite (by simpa using h) ?_
  extract_lets cap t u v
  have ht : freshTable t.moveTable := by simpa [t] using h
  have hu : freshTable u.moveTable := by simpa [u] using ht
  split
  · simpa using ht
  · simpa using ht
  · exact endsFresh.ite ((endsFresh_next _).mpr (by simp [v, hu])) ((endsFresh_next _).mpr hu)

/-! ### Machine/Vault.lean -/

@[simp] theorem State.performMsg_moveTable (s : State) (n : Nat) (m : Msg) : (s.performMsg n m).moveTable = s.moveTable := by
  simp [State.performMsg]

@[simp] theorem State.serveMsg_moveTable (s : State) (n : Nat) (m : Msg) (pop : Core → Core) (turn : Nat) :
    (s.serveMsg n m pop turn).moveTable = s.moveTable := by
  simp [State.serveMsg]

/-! ### Machine/AccessOps.lean -/

@[simp] theorem State.writeBring_fresh {s : State} (h : freshTable s.moveTable) (code : Nat) : freshTable (s.writeBring code).moveTable := by
  unfold State.writeBring
  split <;> simp [h, execStepField, execStepLink, execStepReady]

@[simp] theorem State.writeRingCtl_fresh {s : State} (h : freshTable s.moveTable) (r : RingId) (w : Nat) : freshTable (s.writeRingCtl r w).moveTable := by
  simp [State.writeRingCtl, execRingReset, execRingResume, h]

@[simp] theorem State.writeSleepCtl_fresh {s : State} (h : freshTable s.moveTable) (w : Nat) : freshTable (s.writeSleepCtl w).moveTable := by
  simp [State.writeSleepCtl, h]

/-- The numbers are kept apart in the state that the option holds. -/
def someFresh (o : Option State) : Prop := ∀ t, o = some t → freshTable t.moveTable

@[simp] theorem someFresh_none : someFresh none := fun _ ht => nomatch ht

@[simp] theorem someFresh_some (t : State) : someFresh (some t) ↔ freshTable t.moveTable := by simp [someFresh]

@[simp] theorem someFresh_ite (c : Prop) [Decidable c] (a b : Option State) :
    someFresh (if c then a else b) ↔ if c then someFresh a else someFresh b := by split <;> rfl

theorem someFresh.ite {c : Prop} [Decidable c] {a b : Option State} (ha : someFresh a) (hb : someFresh b) : someFresh (if c then a else b) := by
  split
  · exact ha
  · exact hb

@[simp] theorem State.writeWork_someFresh {s : State} (h : freshTable s.moveTable) (r : RegDef) (i w : Nat) : someFresh (s.writeWork r i w) := by
  unfold State.writeWork
  extract_lets w32 w64 ring part
  repeat' refine someFresh.ite ?_ ?_
  all_goals try split
  all_goals simp [h, execRingBaseWrite, execRingCfgWrite, execCplHeadWrite, execDescTableWrite, execDescDetWrite, execDescCreate, execDescInvalidate,
    execStrmOpen, execStrmClose, execStrmRead, execMdlInstall, execMdlQuery, execRshAbort, execCwinWrite, execAllocCreate]

@[simp] theorem State.writeModule_someFresh {s : State} (h : freshTable s.moveTable) (src : Src) (r : RegDef) (i w : Nat) :
    someFresh (s.writeModule src r i w) := by
  unfold State.writeModule
  extract_lets w32 s1 field key plot
  have h1 : freshTable s1.moveTable := by simpa [s1] using h
  repeat' refine someFresh.ite ?_ ?_
  all_goals try split
  all_goals simp [h, h1, execStallCtlWrite, execHulPlotLimitWrite, execRouteSwitch, execSweepStart, execLogClr, execRstCtlCold,
    execRstCtlWarm, execBlkRstField, execBlkRstOncon, execBlkRstHost, execBlkRstSeedstore, execBlkRstReshard, execPowerControlWrite,
    execCoolInWrite, execTimeSet, execGleanGo, execTraceCtlWrite, execWfgGo, execDebugHalt, execDebugResume, execTlmCfgWrite]

@[simp] theorem State.write4_fresh {s : State} (h : freshTable s.moveTable) (src : Src) (off v : Nat) : freshTable (s.write4 src off v).moveTable := by
  unfold State.write4
  split
  · extract_lets lo w
    split
    · next ht => exact State.writeWork_someFresh h _ _ _ _ ht
    · split
      · next ht => exact State.writeModule_someFresh h _ _ _ _ _ ht
      · simpa using h
  · simpa using h

@[simp] theorem State.regWrite_fresh {s : State} (h : freshTable s.moveTable) (src : Src) (off size v : Nat) :
    freshTable (s.regWrite src off size v).moveTable := by
  unfold State.regWrite
  have hhalves : freshTable ((s.write4 src off (v % 2 ^ 32)).write4 src (off + 4) (v / 2 ^ 32)).moveTable := by simp [h]
  refine State.ite_fresh (by simp [h]) ?_
  split
  · refine State.ite_fresh ?_ hhalves
    split
    · next ht => exact State.writeWork_someFresh h _ _ _ _ ht
    · split
      · next ht => exact State.writeModule_someFresh h _ _ _ _ _ ht
      · simpa using h
  · exact hhalves

/-! ### Machine/HostMem.lean -/

@[simp] theorem State.hostLook_moveTable (s : State) (fn a n : Nat) (ecc : List Ecc) :
    (s.hostLook fn a n ecc).1.moveTable = s.moveTable := by
  unfold State.hostLook
  split
  next t bad hfold =>
  have ht : t.moveTable = s.moveTable := by
    rw [show t = (t, bad).1 from rfl, ← hfold]
    refine List.foldlRecOn (motive := fun x : State × Bool => x.1.moveTable = s.moveTable) _ _ rfl (fun x hx g _ => ?_)
    dsimp only
    repeat' split
    · exact hx
    · simpa using hx
    · simpa using hx
  simpa using ht

@[simp] theorem State.hostStore_moveTable (s : State) (fn a : Nat) (cells : List (Nat × Byte × Bool)) : (s.hostStore fn a cells).moveTable = s.moveTable := by
  simp +contextual [State.hostStore]

@[simp] theorem State.hostRead_moveTable (s : State) (r : HostReq) (fn a n : Nat) (cxl : Bool) : (s.hostRead r fn a n cxl).moveTable = s.moveTable := by
  unfold State.hostRead
  split <;> simp

@[simp] theorem State.hostWrite_moveTable (s : State) (r : HostReq) (a : Nat) (bytes : List Byte) (ep : Bool) :
    (s.hostWrite r a bytes ep).moveTable = s.moveTable := by
  unfold State.hostWrite
  split <;> simp

@[simp] theorem State.hostAtomic_moveTable (s : State) (r : HostReq) (w : Nat) (cas128 : Bool) (f : Nat → Option (Nat × Bool)) :
    (s.hostAtomic r w cas128 f).moveTable = s.moveTable := by
  unfold State.hostAtomic
  dsimp only
  repeat' split
  all_goals simp

@[simp] theorem State.cxlRead_moveTable (s : State) (r : HostReq) (a : Nat) (cacheable : Bool) : (s.cxlRead r a cacheable).moveTable = s.moveTable := by
  simp [State.cxlRead]

@[simp] theorem State.cxlWrite_moveTable (s : State) (r : HostReq) (a : Nat) (bytes : List Byte) (enable : BitVec 64)
    (poison : Bool) : (s.cxlWrite r a bytes enable poison).moveTable = s.moveTable := by
  unfold State.cxlWrite
  split <;> simp

@[simp] theorem State.bar0Write_fresh {s : State} (h : freshTable s.moveTable) (fn off size v : Nat) : freshTable (s.bar0Write fn off size v).moveTable := by
  unfold State.bar0Write
  repeat' split
  all_goals simp [h]

@[simp] theorem State.hostPerform_fresh {s : State} (h : freshTable s.moveTable) (r : HostReq) : freshTable (s.hostPerform r).moveTable := by
  unfold State.hostPerform
  repeat' split
  all_goals simp [h]

@[simp] theorem State.hostStep_fresh {s : State} (h : freshTable s.moveTable) : freshTable (s.hostStep).moveTable := by
  unfold State.hostStep
  split <;> simp [h]

@[simp] theorem State.hostArrive_fresh {s : State} (h : freshTable s.moveTable) (r : HostReq) : freshTable (s.hostArrive r).moveTable := by
  simp [State.hostArrive, h]

@[simp] theorem State.idle_fresh {s : State} (h : freshTable s.moveTable) : freshTable (s.idle).moveTable := by
  unfold State.idle
  extract_lets t
  have ht : freshTable t.moveTable := State.foldl_fresh (by exact h) (fun s x hs => by simpa using hs) _
  exact State.hostStep_fresh (by simpa using ht)

/-! ### Machine/Access.lean -/

@[simp] theorem State.mctpWrite_fresh {s : State} (h : freshTable s.moveTable) (op off size v : Nat) : freshTable (s.mctpWrite op off size v).moveTable := by
  simp [State.mctpWrite, h]

/-! ### Machine/Almanac.lean -/

@[simp] theorem execAlmanacRecordWrite_endsFresh {s : State} (h : freshTable s.moveTable) (dev0 dev1 : Bool) :
    endsFresh (execAlmanacRecordWrite dev0 dev1 s) := by
  unfold execAlmanacRecordWrite
  split <;> simp +contextual [h]

@[simp] theorem execAlmanacCompact_endsFresh {s : State} (h : freshTable s.moveTable) (region : Nat) : endsFresh (execAlmanacCompact region s) := by
  unfold execAlmanacCompact
  refine endsFresh.ite ?_ ?_
  · simp [h]
  · split
    · extract_lets early log last live size maps tight s1 keep aged keep2 alm0 a0 a1 s2 counts
      have h1 : freshTable s1.moveTable := State.ite_fresh (State.unready_fresh h ..) h
      have h2 : freshTable s2.moveTable := by simpa [s2] using h1
      exact endsFresh.ite (by simpa using h) (endsFresh.ite (by simpa using h2) (by simpa using h2))
    · simpa using h

/-! ### Machine/Host.lean -/

@[simp] theorem State.flushRings_moveTable (s : State) (rs : List Nat) : (s.flushRings rs).moveTable = s.moveTable :=
  State.foldl_moveTable (fun s r => s.flushCpl_moveTable r _) _ _

@[simp] theorem execRingReadFail_endsFresh {s : State} (h : freshTable s.moveTable) (ring : RingId) : endsFresh (execRingReadFail ring s) := by
  unfold execRingReadFail
  dsimp only
  repeat' split
  all_goals simp [h]

@[simp] theorem State.ringAborted_fresh {s : State} (h : freshTable s.moveTable) (r : Nat) : freshTable (s.ringAborted r).moveTable := by
  simp [State.ringAborted, h]

@[simp] theorem State.hostDown_fresh {s : State} (h : freshTable s.moveTable) : freshTable (s.hostDown).moveTable := by simp +contextual [State.hostDown, h]
@[simp] theorem execVfFlr_endsFresh {s : State} (h : freshTable s.moveTable) (vf : Fin 32) : endsFresh (execVfFlr vf s) := by simp +contextual [execVfFlr, h]
/-! ### Machine/Huller.lean -/

@[simp] theorem execBankTaskEnd_endsFresh {s : State} (h : freshTable s.moveTable) (core : CoreId) (bank : Fin 32) (flips : List (Nat × Nat))
    (ecc : List (Nat × Ecc)) :
    endsFresh (execBankTaskEnd core bank flips ecc s) := by
  unfold execBankTaskEnd
  extract_lets c part
  split
  · simpa using h
  extract_lets base o ra words before s1 ended bs once s2 q task bad count chaff torn good per struck rec s3 s4 s5
  have h1 : freshTable s1.moveTable := State.foldl_fresh h (fun s e hs => State.ite_fresh (by simpa using hs) hs) _
  have h2 : freshTable s2.moveTable := by simpa [s2, once] using h1
  have h3 : freshTable s3.moveTable := State.ite_fresh (by simpa using h1) h1
  have hended (t : State) : (ended t).moveTable = t.moveTable := by simp [ended]
  have h5 : freshTable s5.moveTable := by simpa [s5, s4, hended] using h3
  refine endsFresh.ite (by simpa using h) (endsFresh.ite ?_ ?_)
  · simp [hended, h2]
  · exact endsFresh.ite (by simpa using h5) (by simpa using h5)

end Sys2Proof.Machine

namespace Sys2Proof.Machine
open Host (Outcome)

/-! ## The commands

What the commands of each file of the model do to the table of moves. Those without a lemma of their own do it through the functions above alone: the
ones that branch on more than a condition stand in the second lemma of their file. -/

section
variable {s : State} (h : freshTable s.moveTable)
include h

theorem State.dci_endsFresh {n : Nat} {cp : Bool} {f : State → State} (hf : (f s).moveTable = s.moveTable) : endsFresh (s.dci n cp f) :=
  (State.dci_leavesMoves hf).endsFresh h

theorem execMoveComplete_endsFresh (id : Nat) : endsFresh (execMoveComplete id s) := by
  unfold execMoveComplete
  split
  · simpa using h
  · refine endsFresh.ite (by simpa using h) ?_
    extract_lets s1
    have h1 : freshTable s1.moveTable := (State.filter_fresh h _).of_eq (State.endReleases_moveTable _)
    clear_value s1
    split
    · simp [h1]
    · simp +zetaDelta [h1]

theorem execStallCollectionClose_endsFresh (others : List Handshake) : endsFresh (execStallCollectionClose others s) := by
  unfold execStallCollectionClose
  split
  · simpa using h
  · refine endsFresh.ite (by simpa using h) ?_
    extract_lets l s1 fields s2 facing s3 s4
    have h2 : freshTable s2.moveTable := State.foldl_fresh (s := s1) h (fun s x hs => State.ite_fresh (by simpa using hs) hs) _
    have h3 : freshTable s3.moveTable := State.foldl_fresh h2 (fun s x hs => by simpa using hs) _
    have h4 : freshTable s4.moveTable := by
      refine State.foldl_fresh h3 (fun s x hs => ?_) _
      split <;> simpa using hs
    exact (endsFresh_next _).mpr (State.foldl_fresh (State.ite_fresh h4 (by simpa using h4)) (fun s f hs => State.resetField_fresh hs f) _)

theorem execRetireCopyDone_endsFresh : endsFresh (execRetireCopyDone s) := by
  unfold execRetireCopyDone
  repeat' split
  all_goals simp [h]

theorem links_endsFresh :
    (∀ plot inward lane flit got, endsFresh (execHeadlandFlitReceive plot inward lane flit got s)) ∧ (∀ port, endsFresh (execPortEnable port s)) ∧
    (∀ port, endsFresh (execPortRetrain port s)) ∧ (∀ port on, endsFresh (execPortForceFi port on s)) ∧
    (∀ port rxBad txBad, endsFresh (execPartnerSignalDetect port rxBad txBad s)) ∧ (∀ port, endsFresh (execTrainingDone port s)) ∧
    (∀ port flit, endsFresh (execHello port flit s)) ∧ (∀ port flit fixed, endsFresh (execIdle port flit fixed s)) ∧
    (∀ port flit, endsFresh (execFaultIdle port flit s)) ∧ (∀ port, endsFresh (execLossOfLock port s)) ∧
    (∀ port, endsFresh (execFecUncorrectable port s)) := by
  simp [execHeadlandFlitReceive, execPortEnable, execPortRetrain, execPortForceFi, execPartnerSignalDetect, execTrainingDone, execHello, execIdle,
    execFaultIdle, execLossOfLock, execFecUncorrectable, h]

theorem links_branches_endsFresh :
    (∀ fid flit, endsFresh (execMeshFlitReceive fid flit s)) ∧ (∀ port, endsFresh (execRetryTimeout port s)) := by
  refine ⟨?_, ?_⟩
  all_goals intros
  all_goals simp only [execMeshFlitReceive, execRetryTimeout]
  all_goals repeat' split
  all_goals simp [h]

theorem replay_endsFresh :
    (∀ ring, endsFresh (execReplayQuiesced ring s)) := by
  simp [execReplayQuiesced, h]

theorem replay_branches_endsFresh :
    endsFresh (execFaultConfirmed s) ∧ (∀ core, endsFresh (execCoreSubstitutionDone core s)) := by
  refine ⟨?_, ?_⟩
  all_goals intros
  all_goals simp only [execFaultConfirmed, execCoreSubstitutionDone]
  all_goals repeat' split
  all_goals simp [h]

theorem reshard_endsFresh :
    (∀ p, endsFresh (execRshAbort p s)) := by
  simp [execRshAbort, h]

theorem reshard_branches_endsFresh :
    endsFresh (execRshJobPlace s) ∧ (∀ p, endsFresh (execRshWaitDone p s)) ∧ (∀ p, endsFresh (execRshTimeout p s)) := by
  refine ⟨?_, ?_, ?_⟩
  all_goals intros
  all_goals simp only [execRshJobPlace, execRshWaitDone, execRshTimeout]
  all_goals repeat' split
  all_goals simp [h]

theorem rings_endsFresh :
    (∀ ring cpl val, endsFresh (execRingBaseWrite ring cpl val s)) ∧ (∀ ring val, endsFresh (execRingCfgWrite ring val s)) ∧
    (∀ ring val, endsFresh (execCplHeadWrite ring val s)) ∧ (∀ ring, endsFresh (execRingReset ring s)) ∧ (∀ ring, endsFresh (execRingResume ring s)) := by
  simp [execRingBaseWrite, execRingCfgWrite, execCplHeadWrite, execRingReset, execRingResume, h]

theorem blockReset_endsFresh :
    (∀ target, endsFresh (execBlkRstField target s)) ∧ (∀ target, endsFresh (execBlkRstOncon target s)) ∧
    (∀ target, endsFresh (execBlkRstHost target s)) ∧ (∀ target, endsFresh (execBlkRstSeedstore target s)) ∧
    (∀ target, endsFresh (execBlkRstReshard target s)) := by
  simp [execBlkRstField, execBlkRstOncon, execBlkRstHost, execBlkRstSeedstore, execBlkRstReshard, h]

theorem blockReset_branches_endsFresh :
    endsFresh (execBlockIdleReached s) ∧ endsFresh (execBlockIdleTimeout s) := by
  refine ⟨?_, ?_⟩
  all_goals simp only [execBlockIdleReached, execBlockIdleTimeout]
  all_goals repeat' split
  all_goals simp [h]

theorem dci_endsFresh :
    (∀ core rd ra rb cp, endsFresh (execAdd core rd ra rb cp s)) ∧ (∀ core rd ra rb cp, endsFresh (execSub core rd ra rb cp s)) ∧
    (∀ core rd ra rb cp, endsFresh (execAnd core rd ra rb cp s)) ∧ (∀ core rd ra rb cp, endsFresh (execOr core rd ra rb cp s)) ∧
    (∀ core rd ra rb cp, endsFresh (execXor core rd ra rb cp s)) ∧ (∀ core rd ra rb cp, endsFresh (execSll core rd ra rb cp s)) ∧
    (∀ core rd ra rb cp, endsFresh (execSrl core rd ra rb cp s)) ∧ (∀ core rd ra rb cp, endsFresh (execSra core rd ra rb cp s)) ∧
    (∀ core rd ra rb cp, endsFresh (execMul core rd ra rb cp s)) ∧ (∀ core rd ra rb cp, endsFresh (execMulhu core rd ra rb cp s)) ∧
    (∀ core rd ra rb cp, endsFresh (execMulh core rd ra rb cp s)) ∧ (∀ core rd ra rb cp, endsFresh (execSlt core rd ra rb cp s)) ∧
    (∀ core rd ra rb cp, endsFresh (execSltu core rd ra rb cp s)) ∧ (∀ core rd ra rb cp, endsFresh (execMin core rd ra rb cp s)) ∧
    (∀ core rd ra rb cp, endsFresh (execMax core rd ra rb cp s)) ∧ (∀ core rd ra imm cp, endsFresh (execAddi core rd ra imm cp s)) ∧
    (∀ core rd ra imm cp, endsFresh (execAndi core rd ra imm cp s)) ∧ (∀ core rd ra imm cp, endsFresh (execOri core rd ra imm cp s)) ∧
    (∀ core rd ra imm cp, endsFresh (execXori core rd ra imm cp s)) ∧ (∀ core rd ra imm cp, endsFresh (execSlli core rd ra imm cp s)) ∧
    (∀ core rd ra imm cp, endsFresh (execSrli core rd ra imm cp s)) ∧ (∀ core rd ra imm cp, endsFresh (execSrai core rd ra imm cp s)) ∧
    (∀ core rd ra imm cp, endsFresh (execSlti core rd ra imm cp s)) ∧ (∀ core rd ra imm cp, endsFresh (execSltiu core rd ra imm cp s)) ∧
    (∀ core rd ra imm cp, endsFresh (execLih core rd ra imm cp s)) ∧ (∀ core rd ra imm cp, endsFresh (execLdb core rd ra imm cp s)) ∧
    (∀ core rd ra imm cp, endsFresh (execLdh core rd ra imm cp s)) ∧ (∀ core rd ra imm cp, endsFresh (execLdw core rd ra imm cp s)) ∧
    (∀ core rd ra imm cp, endsFresh (execLdd core rd ra imm cp s)) ∧ (∀ core rd ra imm cp, endsFresh (execLdbu core rd ra imm cp s)) ∧
    (∀ core rd ra imm cp, endsFresh (execLdhu core rd ra imm cp s)) ∧ (∀ core rd ra imm cp, endsFresh (execLdwu core rd ra imm cp s)) ∧
    (∀ core rd ra imm cp, endsFresh (execStb core rd ra imm cp s)) ∧ (∀ core rd ra imm cp, endsFresh (execSth core rd ra imm cp s)) ∧
    (∀ core rd ra imm cp, endsFresh (execStw core rd ra imm cp s)) ∧ (∀ core rd ra imm cp, endsFresh (execStd core rd ra imm cp s)) ∧
    (∀ core ra rb off cp, endsFresh (execBeq core ra rb off cp s)) ∧ (∀ core ra rb off cp, endsFresh (execBne core ra rb off cp s)) ∧
    (∀ core ra rb off cp, endsFresh (execBlt core ra rb off cp s)) ∧ (∀ core ra rb off cp, endsFresh (execBge core ra rb off cp s)) ∧
    (∀ core ra rb off cp, endsFresh (execBltu core ra rb off cp s)) ∧ (∀ core ra rb off cp, endsFresh (execBgeu core ra rb off cp s)) ∧
    (∀ core rd imm cp, endsFresh (execJal core rd imm cp s)) ∧ (∀ core rd ra imm cp, endsFresh (execJalr core rd ra imm cp s)) := by
  simp [execAdd, execSub, execAnd, execOr, execXor, execSll, execSrl, execSra, execMul, execMulhu, execMulh, execSlt, execSltu, execMin, execMax,
    execAddi, execAndi, execOri, execXori, execSlli, execSrli, execSrai, execSlti, execSltiu, execLih, execLdb, execLdh, execLdw, execLdd, execLdbu,
    execLdhu, execLdwu, execStb, execSth, execStw, execStd, execBeq, execBne, execBlt, execBge, execBltu, execBgeu, execJal, execJalr,
    State.dci_endsFresh h]

theorem control_endsFresh :
    (∀ core, endsFresh (execArrayGate core s)) ∧ (∀ core line, endsFresh (execIcacheFill core line s)) ∧
    (∀ core kind op ra body cp, endsFresh (execCmd core kind op ra body cp s)) ∧ (∀ core ra imm cp, endsFresh (execCsrw core ra imm cp s)) ∧
    (∀ core ra cp, endsFresh (execErr core ra cp s)) ∧ (∀ core, endsFresh (execEndItem core s)) ∧
    (∀ core word, endsFresh (execDciIllegalInstruction core word s)) := by
  simp [execArrayGate, execIcacheFill, execCmd, execCsrw, execErr, execEndItem, execDciIllegalInstruction, State.dci_endsFresh h, h]

theorem control_branches_endsFresh :
    (∀ core, endsFresh (execWorkItemStart core s)) ∧ (∀ core, endsFresh (execWorkItemEnd core s)) ∧ (∀ core, endsFresh (execQueueSpaceIssue core s)) ∧
    (∀ core q imm, endsFresh (execWaitq core q imm s)) ∧ (∀ core, endsFresh (execWaitqSatisfied core s)) ∧
    (∀ core ra q imm cp, endsFresh (execFchk core ra q imm cp s)) := by
  refine ⟨?_, ?_, ?_, ?_, ?_, ?_⟩
  all_goals intros
  all_goals simp only [execWorkItemStart, execWorkItemEnd, execQueueSpaceIssue, execWaitq, execWaitqSatisfied, execFchk]
  all_goals repeat' split
  all_goals simp [h]

theorem moves_endsFresh :
    (∀ core flips, endsFresh (execCopy core flips s)) ∧ (∀ core flips, endsFresh (execTcopy core flips s)) ∧
    (∀ core flips, endsFresh (execGather core flips s)) ∧ (∀ core flips, endsFresh (execScatterReplace core flips s)) ∧
    (∀ core flips, endsFresh (execScatterAdd core flips s)) ∧ (∀ core flips, endsFresh (execScatterMax core flips s)) ∧
    (∀ core flips, endsFresh (execScatterMin core flips s)) ∧ (∀ core flips, endsFresh (execDrill core flips s)) := by
  simp [execCopy, execTcopy, execGather, execScatterReplace, execScatterAdd, execScatterMax, execScatterMin, execDrill, h]

theorem moves_branches_endsFresh :
    endsFresh (execStagingSpaceGrant s) ∧ endsFresh (execGranaryDrillGrant s) := by
  refine ⟨?_, ?_⟩
  all_goals simp only [execStagingSpaceGrant, execGranaryDrillGrant]
  all_goals repeat' split
  all_goals simp [h]

theorem sync_endsFresh :
    (∀ core, endsFresh (execFenceRel core s)) ∧ (∀ core, endsFresh (execFenceAcq core s)) ∧ (∀ core, endsFresh (execFenceFull core s)) ∧
    (∀ core mismatch, endsFresh (execSignalAdd core mismatch s)) ∧ (∀ core mismatch, endsFresh (execSignalSet core mismatch s)) ∧
    (∀ core, endsFresh (execWaitGe core s)) ∧ (∀ core, endsFresh (execWaitEq core s)) := by
  simp [execFenceRel, execFenceAcq, execFenceFull, execSignalAdd, execSignalSet, execWaitGe, execWaitEq, h]

theorem sync_branches_endsFresh :
    (∀ src, endsFresh (execFenceComplete src s)) ∧ (∀ who, endsFresh (execSemWaitComplete who s)) ∧ (∀ who, endsFresh (execSemTimeout who s)) := by
  refine ⟨?_, ?_, ?_⟩
  all_goals intros
  all_goals simp only [execFenceComplete, execSemWaitComplete, execSemTimeout]
  all_goals repeat' split
  all_goals simp [h]

theorem entries_branches_endsFresh :
    (∀ ring, endsFresh (execStepCommit ring s)) ∧ (∀ ring, endsFresh (execCplWriteFail ring s)) ∧ endsFresh (execCmdErrorReport s) := by
  refine ⟨?_, ?_, ?_⟩
  all_goals intros
  all_goals simp only [execStepCommit, execCplWriteFail, execCmdErrorReport]
  all_goals repeat' split
  all_goals simp [h]

theorem mctp_endsFresh :
    (∀ eid, endsFresh (execSetEndpointId eid s)) ∧ endsFresh (execGetEndpointId s) ∧ endsFresh (execGetEndpointUuid s) ∧
    endsFresh (execGetMctpVersionSupport s) ∧ endsFresh (execGetMessageTypeSupport s) ∧ (∀ _type, endsFresh (execMctpUnsupportedType _type s)) ∧
    (∀ addr, endsFresh (execI3cDynamicAddress addr s)) ∧ endsFresh (execGetFruRecordTable s) ∧ endsFresh (execSetEventReceiver s) ∧
    (∀ vin iin pin ss, endsFresh (execPldmSensorRefresh vin iin pin ss s)) := by
  simp [execSetEndpointId, execGetEndpointId, execGetEndpointUuid, execGetMctpVersionSupport, execGetMessageTypeSupport, execMctpUnsupportedType,
    execI3cDynamicAddress, execGetFruRecordTable, execSetEventReceiver, execPldmSensorRefresh, h]

theorem mctp_branches_endsFresh :
    endsFresh (execPollForPlatformEventMessage s) := by
  simp only [execPollForPlatformEventMessage]
  repeat' split
  all_goals simp [h]

theorem observe_endsFresh :
    (∀ conv val, endsFresh (execTlmCfgWrite conv val s)) ∧ (∀ conv value, endsFresh (execTlmSampleDone conv value s)) ∧
    (∀ val, endsFresh (execGleanGo val s)) ∧ (∀ val, endsFresh (execTraceCtlWrite val s)) := by
  simp [execTlmCfgWrite, execTlmSampleDone, execGleanGo, execTraceCtlWrite, h]

theorem observe_branches_endsFresh :
    endsFresh (execGleanTimeReached s) := by
  simp only [execGleanTimeReached]
  repeat' split
  all_goals simp [h]

theorem debug_endsFresh :
    (∀ key plot index, endsFresh (execDebugHalt key plot index s)) ∧ (∀ key plot index, endsFresh (execDebugResume key plot index s)) ∧
    (∀ val, endsFresh (execWfgGo val s)) ∧ endsFresh (execWfgAuto s) ∧ (∀ src off size bad, endsFresh (execWfgDataRead src off size bad s)) := by
  simp [execDebugHalt, execDebugResume, execWfgGo, execWfgAuto, execWfgDataRead, h]

theorem debug_branches_endsFresh :
    endsFresh (execWfgReportDone s) := by
  simp only [execWfgReportDone]
  repeat' split
  all_goals simp [h]

theorem ecc_endsFresh :
    (∀ idx, endsFresh (execLogEntryAgeOut idx s)) ∧ (∀ val, endsFresh (execLogClr val s)) ∧ (∀ val, endsFresh (execRetirePage val s)) ∧
    (∀ val, endsFresh (execRetireBank val s)) ∧ (∀ val, endsFresh (execRetireBin val s)) := by
  simp [execLogEntryAgeOut, execLogClr, execRetirePage, execRetireBank, execRetireBin, h]

theorem ecc_branches_endsFresh :
    endsFresh (execEventClassify s) ∧ endsFresh (execScrubRewrite s) := by
  refine ⟨?_, ?_⟩
  all_goals simp only [execEventClassify, execScrubRewrite]
  all_goals repeat' split
  all_goals simp [h]

theorem harrow_branches_endsFresh :
    (∀ core word ecc vbad, endsFresh (execHarrowVaultRead core word ecc vbad s)) ∧ (∀ ecc, endsFresh (execHarrowGranaryRead ecc s)) ∧
    (∀ ecc, endsFresh (execHarrowSeedstoreRead ecc s)) := by
  refine ⟨?_, ?_, ?_⟩
  all_goals intros
  all_goals simp only [execHarrowVaultRead, execHarrowGranaryRead, execHarrowSeedstoreRead]
  all_goals repeat' split
  all_goals simp [h]

theorem bins_endsFresh :
    (∀ k owner, endsFresh (execBinFreeToScratch k owner s)) ∧ (∀ k, endsFresh (execBinScratchToFree k s)) ∧
    (∀ k, endsFresh (execBinFreeToCache k s)) ∧ (∀ k, endsFresh (execBinCacheToFree k s)) ∧ (∀ k, endsFresh (execBinTransitionDone k s)) ∧
    endsFresh (execCacheFlushDone s) ∧ (∀ p j val, endsFresh (execCwinWrite p j val s)) := by
  simp [execBinFreeToScratch, execBinScratchToFree, execBinFreeToCache, execBinCacheToFree, execBinTransitionDone, execCacheFlushDone, execCwinWrite,
    h]

theorem bins_branches_endsFresh :
    (∀ src addr len write run ecc crc, endsFresh (execSeedstoreAccess src addr len write run ecc crc s)) := by
  intros
  simp only [execSeedstoreAccess]
  repeat' split
  all_goals simp [h]

theorem reduce_branches_endsFresh :
    (∀ ring mismatch, endsFresh (execDetScatterCombine ring mismatch s)) := by
  intros
  simp only [execDetScatterCombine]
  repeat' split
  all_goals simp [h]

theorem packets_endsFresh :
    (∀ port pkt, endsFresh (execRdReq port pkt s)) ∧ (∀ port pkt, endsFresh (execWr port pkt s)) ∧
    (∀ port pkt mismatch, endsFresh (execSignal port pkt mismatch s)) ∧ (∀ port pkt, endsFresh (execCombine port pkt s)) ∧
    (∀ port pkt, endsFresh (execRdRsp port pkt s)) ∧ (∀ port pkt, endsFresh (execCpl port pkt s)) ∧ (∀ port pkt, endsFresh (execAbort port pkt s)) ∧
    (∀ port pkt, endsFresh (execSweepReq port pkt s)) ∧ (∀ port pkt, endsFresh (execSweepRsp port pkt s)) ∧
    (∀ port pkt, endsFresh (execBreakNotice port pkt s)) ∧ endsFresh (execRouteSwitch s) ∧ endsFresh (execSweepStart s) := by
  simp [execRdReq, execWr, execSignal, execCombine, execRdRsp, execCpl, execAbort, execSweepReq, execSweepRsp, execBreakNotice, execRouteSwitch,
    execSweepStart, h]

theorem packets_branches_endsFresh :
    (∀ mismatch, endsFresh (execPacketRoute mismatch s)) ∧ (∀ txn, endsFresh (execOncResponseTimeout txn s)) := by
  refine ⟨?_, ?_⟩
  all_goals intros
  all_goals simp only [execPacketRoute, execOncResponseTimeout]
  all_goals repeat' split
  all_goals simp [h]

theorem descriptors_endsFresh :
    (∀ p val, endsFresh (execDescTableWrite p val s)) ∧ (∀ p val, endsFresh (execDescDetWrite p val s)) ∧
    (∀ p index, endsFresh (execDescCreate p index s)) ∧ (∀ p index, endsFresh (execDescInvalidate p index s)) := by
  simp [execDescTableWrite, execDescDetWrite, execDescCreate, execDescInvalidate, h]

theorem streams_endsFresh :
    (∀ p id, endsFresh (execStrmOpen p id s)) ∧ (∀ p id, endsFresh (execStrmClose p id s)) ∧ (∀ p id, endsFresh (execStrmRead p id s)) ∧
    (∀ p index, endsFresh (execMdlInstall p index s)) ∧ (∀ p index, endsFresh (execMdlQuery p index s)) := by
  simp [execStrmOpen, execStrmClose, execStrmRead, execMdlInstall, execMdlQuery, h]

theorem partition_endsFresh :
    (∀ p, endsFresh (execAllocCreate p s)) := by
  simp [execAllocCreate, h]

theorem power_endsFresh :
    (∀ plot, endsFresh (execCeilRaise plot s)) ∧ (∀ plot, endsFresh (execCeilReturn plot s)) ∧ endsFresh (execLevelRampDone s) ∧
    (∀ predicted, endsFresh (execAutoCeilAdjust predicted s)) ∧ (∀ cap val, endsFresh (execPowerControlWrite cap val s)) ∧
    (∀ plot phase, endsFresh (execPhaseFailShort plot phase s)) ∧ (∀ plot phase, endsFresh (execPhaseFailOpen plot phase s)) ∧
    (∀ plot, endsFresh (execSparePhaseSoftStartDone plot s)) ∧
    (∀ plot cluster mv others current ago, endsFresh (execCrackSuspect plot cluster mv others current ago s)) ∧ endsFresh (execCapRecompute s) ∧
    (∀ avgW hot, endsFresh (execRthUpdate avgW hot s)) ∧ (∀ other plots, endsFresh (execBudgetPeriod other plots s)) ∧
    (∀ plot, endsFresh (execBudgetMessageStale plot s)) ∧ (∀ plot amps, endsFresh (execOvercurrentDutyCut plot amps s)) := by
  simp [execCeilRaise, execCeilReturn, execLevelRampDone, execAutoCeilAdjust, execPowerControlWrite, execPhaseFailShort, execPhaseFailOpen,
    execSparePhaseSoftStartDone, execCrackSuspect, execCapRecompute, execRthUpdate, execBudgetPeriod, execBudgetMessageStale, execOvercurrentDutyCut,
    h]

theorem reset_endsFresh :
    endsFresh (execPwrOkRise s) ∧ endsFresh (execPwrOkFall s) ∧ endsFresh (execEmergencyCommitEnd s) ∧ endsFresh (execPerstAssert s) ∧
    endsFresh (execPerstRelease s) ∧ endsFresh (execWarmRstAssert s) ∧ endsFresh (execWarmRstRelease s) ∧ endsFresh (execResetPinGlitch s) ∧
    (∀ key, endsFresh (execRstCtlCold key s)) ∧ (∀ key, endsFresh (execRstCtlWarm key s)) := by
  simp [execPwrOkRise, execPwrOkFall, execEmergencyCommitEnd, execPerstAssert, execPerstRelease, execWarmRstAssert, execWarmRstRelease,
    execResetPinGlitch, execRstCtlCold, execRstCtlWarm, h]

theorem sleep_endsFresh :
    endsFresh (execSleepTargetS0 s) ∧ endsFresh (execSleepTargetS1 s) ∧ endsFresh (execSleepTargetS2 s) ∧ endsFresh (execSleepTargetS4 s) := by
  simp [execSleepTargetS0, execSleepTargetS1, execSleepTargetS2, execSleepTargetS4, h]

theorem sleep_branches_endsFresh :
    (∀ block, endsFresh (execSleepBlockAnswer block s)) ∧ endsFresh (execSleepEntryTimeout s) ∧ endsFresh (execSleepExitDone s) := by
  refine ⟨?_, ?_, ?_⟩
  all_goals intros
  all_goals simp only [execSleepBlockAnswer, execSleepEntryTimeout, execSleepExitDone]
  all_goals repeat' split
  all_goals simp [h]

theorem thermal_endsFresh :
    (∀ core quarters, endsFresh (execDiodeConversion core quarters s)) ∧ (∀ core, endsFresh (execDiodeBroken core s)) ∧
    (∀ core, endsFresh (execDiodeSubstitute core s)) ∧ (∀ kind unit, endsFresh (execSensorBroken kind unit s)) ∧
    (∀ val, endsFresh (execCoolInWrite val s)) ∧ endsFresh (execBandEstimate s) ∧ (∀ plot val, endsFresh (execHulPlotLimitWrite plot val s)) := by
  simp [execDiodeConversion, execDiodeBroken, execDiodeSubstitute, execSensorBroken, execCoolInWrite, execBandEstimate, execHulPlotLimitWrite, h]

theorem thermal_branches_endsFresh :
    (∀ core, endsFresh (execThrottleStep core s)) ∧ endsFresh (execCoolInStale s) := by
  refine ⟨?_, ?_⟩
  all_goals intros
  all_goals simp only [execThrottleStep, execCoolInStale]
  all_goals repeat' split
  all_goals simp [h]

theorem time_endsFresh :
    (∀ domain master interval origin twoStep, endsFresh (execPtpSync domain master interval origin twoStep s)) ∧
    (∀ domain master sent received, endsFresh (execPtpDelayResp domain master sent received s)) ∧ endsFresh (execPtpSyncLoss s) ∧
    (∀ val, endsFresh (execTimeSet val s)) := by
  simp [execPtpSync, execPtpDelayResp, execPtpSyncLoss, execTimeSet, h]

theorem time_branches_endsFresh :
    (∀ domain master set, endsFresh (execPtpAnnounce domain master set s)) ∧
    (∀ domain master origin, endsFresh (execPtpFollowUp domain master origin s)) := by
  refine ⟨?_, ?_⟩
  all_goals intros
  all_goals simp only [execPtpAnnounce, execPtpFollowUp]
  all_goals repeat' split
  all_goals simp [h]

theorem timing_endsFresh :
    (∀ fid mv, endsFresh (execDroopHold fid mv s)) ∧ (∀ fid mv, endsFresh (execDroopResume fid mv s)) ∧
    (∀ fid, endsFresh (execSlowFieldReport fid s)) ∧ (∀ val, endsFresh (execStallCtlWrite val s)) ∧ (∀ fid, endsFresh (execFieldResetDone fid s)) := by
  simp [execDroopHold, execDroopResume, execSlowFieldReport, execStallCtlWrite, execFieldResetDone, h]

theorem timing_branches_endsFresh :
    endsFresh (execVaultRecalibration s) ∧ (∀ fid actual capable, endsFresh (execRateWindowEnd fid actual capable s)) ∧
    (∀ hs, endsFresh (execStall hs s)) := by
  refine ⟨?_, ?_, ?_⟩
  all_goals intros
  all_goals simp only [execVaultRecalibration, execRateWindowEnd, execStall]
  all_goals repeat' split
  all_goals simp [h]

theorem bring_endsFresh :
    (∀ slow, endsFresh (execStepField slow s)) ∧ endsFresh (execStepLink s) ∧ (∀ present, endsFresh (execStepReady present s)) := by
  simp [execStepField, execStepLink, execStepReady, h]

theorem bring_branches_endsFresh :
    (∀ counts, endsFresh (execStepStrap counts s)) ∧ (∀ core, endsFresh (execBootItemTimeout core s)) ∧ endsFresh (execBringStepDone s) ∧
    endsFresh (execBringStepTimeout s) ∧ endsFresh (execStepLinkLimit s) := by
  refine ⟨?_, ?_, ?_, ?_, ?_⟩
  all_goals intros
  all_goals simp only [execStepStrap, execBootItemTimeout, execBringStepDone, execBringStepTimeout, execStepLinkLimit]
  all_goals repeat' split
  all_goals simp [h]

theorem update_endsFresh :
    endsFresh (execRequestUpdate s) ∧ endsFresh (execActivateFirmware s) := by
  simp [execRequestUpdate, execActivateFirmware, h]

theorem update_branches_endsFresh :
    (∀ size, endsFresh (execUpdateComponent size s)) ∧ (∀ data, endsFresh (execFirmwareData data s)) ∧
    (∀ read only, endsFresh (execSlotVerifyDone read only s)) := by
  refine ⟨?_, ?_, ?_⟩
  all_goals intros
  all_goals simp only [execUpdateComponent, execFirmwareData, execSlotVerifyDone]
  all_goals repeat' split
  all_goals simp [h]

theorem vault_branches_endsFresh :
    (∀ core busy records reads, endsFresh (execVaultBurst core busy records reads s)) ∧ (∀ idx, endsFresh (execMisdeliveryResend idx s)) := by
  refine ⟨?_, ?_⟩
  all_goals intros
  all_goals simp only [execVaultBurst, execMisdeliveryResend]
  all_goals repeat' split
  all_goals simp [h]

theorem matrix_branches_endsFresh :
    (∀ core flips, endsFresh (execArrayStep core flips s)) := by
  intros
  simp only [execArrayStep]
  repeat' split
  all_goals simp [h]

theorem access_endsFresh :
    (∀ off, endsFresh (execRead32 off s)) ∧ (∀ off val, endsFresh (execWrite32 off val s)) ∧ (∀ off, endsFresh (execRead64 off s)) ∧
    (∀ off val, endsFresh (execWrite64 off val s)) := by
  simp [execRead32, execWrite32, execRead64, execWrite64, h]

theorem access_branches_endsFresh :
    (∀ src ring val, endsFresh (execDoorbell src ring val s)) ∧ (∀ src off size val, endsFresh (execRegisterWrite src off size val s)) ∧
    (∀ src off size, endsFresh (execLatchedLowRead src off size s)) := by
  refine ⟨?_, ?_, ?_⟩
  all_goals intros
  all_goals simp only [execDoorbell, execRegisterWrite, execLatchedLowRead]
  all_goals repeat' split
  all_goals simp [h]

theorem events_endsFresh :
    endsFresh (execHeartbeat s) ∧ (∀ ip, endsFresh (execArpRequest ip s)) ∧ (∀ ip data, endsFresh (execIcmpEcho ip data s)) := by
  simp [execHeartbeat, execArpRequest, execIcmpEcho, h]

theorem events_branches_endsFresh :
    endsFresh (execEventSend s) ∧ (∀ ip mask gateway, endsFresh (execDhcpExchange ip mask gateway s)) := by
  refine ⟨?_, ?_⟩
  all_goals intros
  all_goals simp only [execEventSend, execDhcpExchange]
  all_goals repeat' split
  all_goals simp [h]

theorem host_endsFresh :
    (∀ fn addr len ecc, endsFresh (execHostMemRead fn addr len ecc s)) ∧ (∀ fn addr bytes ep, endsFresh (execHostMemWrite fn addr bytes ep s)) ∧
    (∀ fn addr wide value mismatch, endsFresh (execHostFetchadd fn addr wide value mismatch s)) ∧
    (∀ fn addr wide value mismatch, endsFresh (execHostSwap fn addr wide value mismatch s)) ∧
    (∀ fn addr width cmp new mismatch, endsFresh (execHostCas fn addr width cmp new mismatch s)) ∧
    (∀ line cacheable ecc, endsFresh (execCxlMemRead line cacheable ecc s)) ∧
    (∀ line bytes enable poison, endsFresh (execCxlMemWrite line bytes enable poison s)) ∧ (∀ size, endsFresh (execHdmDecoderCommit size s)) ∧
    (∀ width speed flit cxl, endsFresh (execHostLinkTrain width speed flit cxl s)) ∧ endsFresh (execHostLinkDown s) ∧ endsFresh (execPfFlr s) ∧
    (∀ fn, endsFresh (execD3hotEntry fn s)) ∧ (∀ fn, endsFresh (execD0Return fn s)) ∧ (∀ fn tag, endsFresh (execAtsInvalidate fn tag s)) ∧
    (∀ fn vector, endsFresh (execMsixVectorUnmask fn vector s)) := by
  simp [execHostMemRead, execHostMemWrite, execHostFetchadd, execHostSwap, execHostCas, execCxlMemRead, execCxlMemWrite, execHdmDecoderCommit,
    execHostLinkTrain, execHostLinkDown, execPfFlr, execD3hotEntry, execD0Return, execAtsInvalidate, execMsixVectorUnmask, h]

theorem vector_endsFresh :
    (∀ core flips, endsFresh (execDot core flips s)) ∧ (∀ core flips, endsFresh (execEwAdd core flips s)) ∧
    (∀ core flips, endsFresh (execEwSub core flips s)) ∧ (∀ core flips, endsFresh (execEwMul core flips s)) ∧
    (∀ core flips, endsFresh (execEwFma core flips s)) ∧ (∀ core flips, endsFresh (execEwMin core flips s)) ∧
    (∀ core flips, endsFresh (execEwMax core flips s)) ∧ (∀ core flips, endsFresh (execEwCmp core flips s)) ∧
    (∀ core flips, endsFresh (execEwSel core flips s)) ∧ (∀ core flips, endsFresh (execFnRcp core flips s)) ∧
    (∀ core flips, endsFresh (execFnRsqrt core flips s)) ∧ (∀ core flips, endsFresh (execFnExp core flips s)) ∧
    (∀ core flips, endsFresh (execFnLog core flips s)) ∧ (∀ core flips, endsFresh (execFnTanh core flips s)) ∧
    (∀ core flips, endsFresh (execFnLogistic core flips s)) ∧ (∀ core flips, endsFresh (execFnErf core flips s)) ∧
    (∀ core flips, endsFresh (execCvt core flips s)) ∧ (∀ core flips, endsFresh (execStatSum core flips s)) ∧
    (∀ core flips, endsFresh (execStatSumsq core flips s)) ∧ (∀ core flips, endsFresh (execStatMax core flips s)) ∧
    (∀ core flips, endsFresh (execPack3 core flips s)) := by
  simp [execDot, execEwAdd, execEwSub, execEwMul, execEwFma, execEwMin, execEwMax, execEwCmp, execEwSel, execFnRcp, execFnRsqrt, execFnExp, execFnLog,
    execFnTanh, execFnLogistic, execFnErf, execCvt, execStatSum, execStatSumsq, execStatMax, execPack3, h]

theorem huller_endsFresh :
    (∀ core, endsFresh (execAttn core s)) ∧ (∀ core, endsFresh (execDotv core s)) ∧ (∀ core, endsFresh (execRedSum core s)) ∧
    (∀ core, endsFresh (execRedMax core s)) ∧ (∀ core, endsFresh (execRedMin core s)) ∧ (∀ core, endsFresh (execFill core s)) := by
  simp [execAttn, execDotv, execRedSum, execRedMax, execRedMin, execFill, h]

theorem huller_branches_endsFresh :
    (∀ core slice, endsFresh (execBankTaskSlotTake core slice s)) ∧ (∀ core bank, endsFresh (execBankTaskAdmit core bank s)) ∧
    (∀ core, endsFresh (execEnvelopeVerifyDone core s)) := by
  refine ⟨?_, ?_, ?_⟩
  all_goals intros
  all_goals simp only [execBankTaskSlotTake, execBankTaskAdmit, execEnvelopeVerifyDone]
  all_goals repeat' split
  all_goals simp [h]

theorem pins_endsFresh :
    endsFresh (execInputSag s) ∧ endsFresh (execRefclkLoss s) ∧ endsFresh (execStandbyStageStart s) ∧ endsFresh (execStandbyStageStop s) := by
  simp [execInputSag, execRefclkLoss, execStandbyStageStart, execStandbyStageStop, h]

theorem spdm_endsFresh :
    endsFresh (execGetVersion s) ∧ endsFresh (execGetCapabilities s) ∧ endsFresh (execNegotiateAlgorithms s) ∧ endsFresh (execGetDigests s) ∧
    (∀ slot offset len, endsFresh (execGetCertificate slot offset len s)) ∧ (∀ slot nonce, endsFresh (execChallenge slot nonce s)) ∧
    (∀ code, endsFresh (execSpdmUnsupportedRequest code s)) := by
  simp [execGetVersion, execGetCapabilities, execNegotiateAlgorithms, execGetDigests, execGetCertificate, execChallenge, execSpdmUnsupportedRequest,
    h]

theorem spdm_branches_endsFresh :
    (∀ index, endsFresh (execGetMeasurements index s)) := by
  intros
  simp only [execGetMeasurements]
  repeat' split
  all_goals simp [h]

end

/-- Every command keeps the numbers of moves apart. -/
theorem exec_endsFresh {s : State} (h : freshTable s.moveTable) (c : Instr) : endsFresh (exec c s) := by
  cases c
  case  csrr | mma | shadowTileLoaded | misdeliveryHoldExpire | combineContribution | routeDataAccess | stepRepair | stepPower | stepFetch |
    stepTopo | seedConfirm | sleepEntryDone | resend | traceRecordStore | dbgDataWrite | partCreate | allocRelease =>
    exact leavesMoves.endsFresh (by simp [exec]) h
  all_goals simp [exec, execMoveComplete_endsFresh h, execStallCollectionClose_endsFresh h, execRetireCopyDone_endsFresh h, links_endsFresh h,
    links_branches_endsFresh h, replay_endsFresh h, replay_branches_endsFresh h, reshard_endsFresh h, reshard_branches_endsFresh h, rings_endsFresh h,
    blockReset_endsFresh h, blockReset_branches_endsFresh h, dci_endsFresh h, control_endsFresh h, control_branches_endsFresh h, moves_endsFresh h,
    moves_branches_endsFresh h, sync_endsFresh h, sync_branches_endsFresh h, entries_branches_endsFresh h, mctp_endsFresh h,
    mctp_branches_endsFresh h, observe_endsFresh h, observe_branches_endsFresh h, debug_endsFresh h, debug_branches_endsFresh h, ecc_endsFresh h,
    ecc_branches_endsFresh h, harrow_branches_endsFresh h, bins_endsFresh h, bins_branches_endsFresh h, reduce_branches_endsFresh h,
    packets_endsFresh h, packets_branches_endsFresh h, descriptors_endsFresh h, streams_endsFresh h, partition_endsFresh h, power_endsFresh h,
    reset_endsFresh h, sleep_endsFresh h, sleep_branches_endsFresh h, thermal_endsFresh h, thermal_branches_endsFresh h, time_endsFresh h,
    time_branches_endsFresh h, timing_endsFresh h, timing_branches_endsFresh h, bring_endsFresh h, bring_branches_endsFresh h, update_endsFresh h,
    update_branches_endsFresh h, vault_branches_endsFresh h, matrix_branches_endsFresh h, access_endsFresh h, access_branches_endsFresh h,
    events_endsFresh h, events_branches_endsFresh h, host_endsFresh h, vector_endsFresh h, huller_endsFresh h, huller_branches_endsFresh h,
    pins_endsFresh h, spdm_endsFresh h, spdm_branches_endsFresh h, h]

theorem movesFresh_iff (s : State) : movesFresh s ↔ freshTable s.moveTable :=
  ⟨fun h => ⟨List.forall_mem_map.mpr h⟩, fun h => List.forall_mem_map.mp h.lt⟩

theorem step_endsFresh {s : State} (h : freshTable s.moveTable) : endsFresh (step s) := by
  unfold step
  split
  · exact (endsFresh_next _).mpr (State.idle_fresh h)
  · next c rest _ => exact exec_endsFresh (s := { s with pending := rest }) h c

/-- Settles O57: a move begins with the next number, and every other change of the table takes moves out. -/
theorem moveNumbersAreFresh : Obligations.MoveNumbersAreFresh := by
  unfold Obligations.MoveNumbersAreFresh
  refine ⟨fun m hm => absurd hm List.not_mem_nil, fun s t h hstep => ?_⟩
  rw [movesFresh_iff] at h ⊢
  exact step_endsFresh h t hstep

end Sys2Proof.Machine

namespace Sys2Proof.Machine
open Host (Outcome)

/-! ## The counterexample to O17 (R203, R262)

A contribution names ADD (1), MAX (2) or MIN (3). The Granary takes an element of code 0, REPLACE, as one whose bytes stand in its `bytes`
and `puts`, and a contribution as an element has neither. -/

/-- A contribution of core 0 that carries the code of REPLACE, which combines nothing, with the INT32 value −1. -/
def replaceContrib : Contrib where
  src := .core 0
  move := none
  part := 0
  ring := none
  step := 0
  op := 0
  etype := 0x12
  stype := 0x12
  addr := 0x4000000000
  bits := 0xFFFFFFFF
  chaff := false
  pads := []
  txn := none

/-- Bin 0 is scratchpad of partition 0, and the Granary holds that contribution to its first element, which is 0. -/
def replaceWaits : State := { State.reset with regs := [(F.grnBinCfg_MODE.key 0, 2)], contribs := [replaceContrib] }

/-- COMBINE_CONTRIBUTION takes the contribution and leaves the element as it was. -/
theorem replaceWaits_combined :
    completes (.combineContribution 0) replaceWaits fun t => t.rdN 0x4000000000 4 = [0, 0, 0, 0] :=
  ⟨_, rfl, by decide⟩

/-- Refutes O17: no hypothesis holds the contribution to the codes of ADD, MAX and MIN. One with the code of REPLACE is taken and leaves its
element, where the statement combines any code but 1 and 2 as MIN. -/
theorem not_combineAtHome : ¬ Obligations.CombineAtHome := by
  unfold Obligations.CombineAtHome
  intro h
  obtain ⟨hbin, -⟩ := h replaceWaits replaceContrib [] 0 rfl (fun _ _ => Src.noConfusion)
  obtain ⟨t, hrun, hcombined, -⟩ := hbin (by decide) (by decide) (by decide) (by decide) rfl (by decide) (by decide) (by decide)
  obtain ⟨u, hu, hleft⟩ := replaceWaits_combined
  have htu : t = u := Outcome.next.inj (hrun.symm.trans hu)
  rw [htu] at hcombined
  exact absurd (hleft.symm.trans hcombined) (by decide)

end Sys2Proof.Machine

namespace Sys2Proof.Machine
open Host (Outcome)

/-! ## Places in a partition's scratchpad (R252) -/

theorem mem_setIns {l : List Nat} {x y : Nat} : y ∈ setIns l x ↔ y = x ∨ y ∈ l := by
  induction l with
  | nil => simp [setIns]
  | cons k t ih =>
    unfold setIns
    split
    · simp
    · split
      next hx => simp [hx]
      · simp [ih, or_left_comm]

theorem contains_setIns_self (l : List Nat) (x : Nat) : (setIns l x).contains x = true :=
  List.contains_iff_mem.mpr (mem_setIns.mpr (.inl rfl))

theorem contains_setIns_of_ne (l : List Nat) {x y : Nat} (h : y ≠ x) : (setIns l x).contains y = l.contains y := by
  simp [mem_setIns, h]

theorem contains_setDel_self (l : List Nat) (x : Nat) : (setDel l x).contains x = false := by
  simp [setDel]

theorem contains_setDel_of_ne (l : List Nat) {x y : Nat} (h : y ≠ x) : (setDel l x).contains y = l.contains y := by
  simp [setDel, h]

/-- The place of an offset depends on GRN_BIN_CFG only. -/
theorem State.spAddr_fset (s : State) {f : Fld} (h : f.id % 1024 ∉ [F.grnBinCfg_MODE.id, F.grnBinCfg_OWNER.id, F.grnBinCfg_SLOT.id])
    (i v p off : Nat) : (s.fset f i v).spAddr p off = s.spAddr p off := by
  have hfld : ∀ g ∈ [F.grnBinCfg_MODE, F.grnBinCfg_OWNER, F.grnBinCfg_SLOT], ∀ k, (s.fset f i v).fget g k = s.fget g k := by
    intro g hg k
    refine s.fget_fset_of_id (fun e => h ?_) ..
    rw [← e]
    fin_cases hg <;> decide
  unfold State.spAddr State.binOfSlot
  simp only [hfld F.grnBinCfg_MODE (by simp), hfld F.grnBinCfg_OWNER (by simp), hfld F.grnBinCfg_SLOT (by simp)]

section
variable {s : State} {p off a : Nat} (ha : s.spAddr p off = some a)
include ha

/-- The address of an offset lies in one of the 64 bins. -/
theorem State.spAddr_bin : ∃ k, k < 64 ∧ a = binBase k + off % 0x1000000 := by
  obtain ⟨k, hk, rfl⟩ := Option.map_eq_some_iff.mp ha
  exact ⟨k, List.mem_range.mp (List.mem_of_find?_eq_some hk), rfl⟩

/-- Offsets of one bin follow one another. -/
theorem State.spAddr_add {j : Nat} (hj : off % 0x1000000 + j < 0x1000000) : s.spAddr p (off + j) = some (a + j) := by
  obtain ⟨k, hk, rfl⟩ := Option.map_eq_some_iff.mp ha
  have hslot : (off + j) / 0x1000000 = off / 0x1000000 := by omega
  have hplace : (off + j) % 0x1000000 = off % 0x1000000 + j := by omega
  simp [State.spAddr, hslot, hplace, hk, Nat.add_assoc]

/-- The bytes of one bin are retired together (R452). -/
theorem State.goneAt_spAddr_add {j : Nat} (hj : off % 0x1000000 + j < 0x1000000) : s.goneAt (a + j) = s.goneAt a := by
  obtain ⟨k, hk, e⟩ := State.spAddr_bin ha
  have hu : unitOf (a + j) = unitOf a := by
    unfold unitOf
    unfold binBase at e
    split_ifs <;> omega
  rw [State.goneAt, hu]
  rfl

/-- A read within one bin gives the bytes of memory there. -/
theorem State.spRead_eq {n : Nat} (hin : s.spHas p off n = true) (hn : off % 0x1000000 + n ≤ 0x1000000) (hg : s.goneAt a = false) :
    s.spRead p off n = some ((List.range n).map fun j => memGet s.mem (a + j)) := by
  rw [State.spRead, if_pos hin, Option.some_inj]
  refine List.map_congr_left fun j hj => ?_
  have hlt : off % 0x1000000 + j < 0x1000000 := by
    have := List.mem_range.mp hj
    omega
  simp [State.spAddr_add ha hlt, State.rd8, State.goneAt_spAddr_add ha hlt, hg]

end

/-! ## Descriptor registers (R173 to R176, R189, Table 6-9) -/

theorem bitsOf_mod (v lo w : Nat) : bitsOf v lo w % 2 ^ w = bitsOf v lo w := Nat.mod_mod _ _

theorem State.descValid_congr {s t : State} {p i : Nat} (hcount : t.fget F.descTable_COUNT p = s.fget F.descTable_COUNT p)
    (hlist : t.descs.contains (p * 65536 + i) = s.descs.contains (p * 65536 + i)) : t.descValid p i = s.descValid p i := by
  rw [State.descValid, State.descValid, hcount, hlist]

/-- A partition whose entries are all taken out has no valid index. -/
theorem State.descValid_cleared {t : State} {p : Nat} {l : List Nat} (hlist : t.descs = l.filter fun k => k / 65536 ≠ p)
    (hcount : t.fget F.descTable_COUNT p < 65536) (i : Nat) : t.descValid p i = false := by
  rw [State.descValid, hlist]
  by_cases hi : i < t.fget F.descTable_COUNT p
  · have hdiv : (p * 65536 + i) / 65536 = p := by omega
    simp [hdiv]
  · simp [hi]

section
variable {s : State} (p : PartId) (val : W64)

theorem descTableWrite_busy (h : s.ringsBusy p = true) : completes (.descTableWrite p val) s fun t => t = s := ⟨s, if_pos h, rfl⟩

theorem descDetWrite_busy (h : s.ringsBusy p = true) : completes (.descDetWrite p val) s fun t => t = s := ⟨s, if_pos h, rfl⟩

/-- The numbers of another partition's entries are not among those of partition `p`. -/
theorem contains_otherPart (l : List Nat) {p q i : Nat} (hq : q ≠ p) (hi : i < 65536) :
    (l.filter fun k => k / 65536 ≠ p).contains (q * 65536 + i) = l.contains (q * 65536 + i) := by
  have hdiv : (q * 65536 + i) / 65536 = q := by omega
  simp [hdiv, hq]

theorem descTableWrite_within (hb : s.ringsBusy p = false)
    (hin : s.spHas p (bitsOf val.toNat 12 18 * 4096) (bitsOf val.toNat 32 16 * 128) = true) :
    completes (.descTableWrite p val) s fun t =>
      t.fget F.descTable_OFFSET p = bitsOf val.toNat 12 18 ∧ t.fget F.descTable_COUNT p = bitsOf val.toNat 32 16 ∧
      (∀ i, t.descValid p i = false) ∧
      (∀ q i, q ≠ p.val → i < 65536 → t.descs.contains (q * 65536 + i) = s.descs.contains (q * 65536 + i)) ∧ t.mem = s.mem := by
  let u := (s.fset F.descTable_COUNT p (bitsOf val.toNat 32 16)).fset F.descTable_OFFSET p (bitsOf val.toNat 12 18)
  have hexec : exec (.descTableWrite p val) s =
      .next { u with descs := s.descs.filter (fun k => k / 65536 ≠ p.val), descLost := setDel s.descLost p.val } := by
    simp [exec, execDescTableWrite, hb, hin, u]
  have hcount : u.fget F.descTable_COUNT p = bitsOf val.toNat 32 16 := by
    rw [State.fget_fset_of_id _ (by decide), State.fget_fset_same]
    exact bitsOf_mod ..
  refine ⟨_, hexec, ?_, hcount, fun i => ?_, fun q i hq hi => contains_otherPart _ hq hi, rfl⟩
  · exact (State.fget_fset_same ..).trans (bitsOf_mod ..)
  · refine State.descValid_cleared rfl ?_ i
    exact hcount.trans_lt (Nat.mod_lt _ (by decide))

theorem descTableWrite_beyond (hb : s.ringsBusy p = false)
    (hin : s.spHas p (bitsOf val.toNat 12 18 * 4096) (bitsOf val.toNat 32 16 * 128) = false) :
    completes (.descTableWrite p val) s fun t =>
      t.fget F.descStatus_CODE p = 0x080D ∧ regsOnly s t [(F.descStatus_CODE, p)] := by
  refine ⟨s.fset F.descStatus_CODE p 0x080D, ?_, State.fget_fset_same .., s.regsOnly_fset _ (by simp)⟩
  simp [exec, execDescTableWrite, hb, hin]

theorem descDetWrite_within (hb : s.ringsBusy p = false)
    (hin : s.spHas p (bitsOf val.toNat 12 18 * 4096) (bitsOf val.toNat 32 18 * 4096) = true) :
    completes (.descDetWrite p val) s fun t =>
      t.fget F.descDet_OFFSET p = bitsOf val.toNat 12 18 ∧ t.fget F.descDet_SIZE p = bitsOf val.toNat 32 18 ∧
      t.descLost = setDel s.descLost (32 + p.val) ∧
      regsOnly { s with descLost := t.descLost } t [(F.descDet_OFFSET, p), (F.descDet_SIZE, p)] := by
  let lost := { s with descLost := setDel s.descLost (32 + p.val) }
  refine ⟨(State.fset lost F.descDet_SIZE p (bitsOf val.toNat 32 18)).fset F.descDet_OFFSET p (bitsOf val.toNat 12 18), ?_, ?_, ?_, rfl, ?_⟩
  · simp [exec, execDescDetWrite, hb, hin, lost, State.fset]
  · exact (State.fget_fset_same ..).trans (bitsOf_mod ..)
  · rw [State.fget_fset_of_id _ (by decide), State.fget_fset_same]
    exact bitsOf_mod ..
  · exact (lost.regsOnly_fset _ (by simp)).trans (State.regsOnly_fset _ _ (by simp))

end

/-! ### DESC_CMD -/

theorem State.fget_descBegin (s : State) (p code : Nat) {g : Fld} (h : g.id % 1024 ≠ F.descStatus_BUSY.id % 1024) (j : Nat) :
    (s.descBegin p code).fget g j = s.fget g j := State.fget_fset_of_id _ h ..

@[simp] theorem State.descBegin_descs (s : State) (p code : Nat) : (s.descBegin p code).descs = s.descs := rfl

theorem State.descBegin_busy (s : State) (p code : Nat) : (s.descBegin p code).flag F.descStatus_BUSY p = true := by
  simp [State.descBegin, F.descStatus_BUSY]

theorem State.descIndexCheck_eq_zero {s : State} {p i : Nat} :
    s.descIndexCheck p i = 0 ↔ s.descTableOk p = true ∧ i ≠ 0xFFFF ∧ i < s.fget F.descTable_COUNT p := by
  unfold State.descIndexCheck
  by_cases hok : s.descTableOk p = true <;> simp [hok, not_or]

/-- An entry within its table lies within the partition's scratchpad, and in one bin. -/
theorem State.descIndexCheck_within {s : State} {p i : Nat} (h : s.descIndexCheck p i = 0) :
    s.spHas p (s.fget F.descTable_OFFSET p * 4096 + i * 128) 128 = true ∧
    (s.fget F.descTable_OFFSET p * 4096 + i * 128) % 0x1000000 + 128 ≤ 0x1000000 := by
  obtain ⟨hok, -, hlt⟩ := State.descIndexCheck_eq_zero.mp h
  have hin := (Bool.and_eq_true_iff.mp hok).1
  simp only [State.descTableIn, State.spHas, decide_eq_true_eq] at hin ⊢
  omega

/-- The bytes last written at the place of an entry are its stored bytes. -/
theorem State.descBytes_eq {t : State} {p i off a : Nat} {m : List Host.Cell} {b : List Byte} (hoff : t.fget F.descTable_OFFSET p * 4096 + i * 128 = off)
    (ha : t.spAddr p off = some a) (hin : t.spHas p off 128 = true) (hbin : off % 0x1000000 + 128 ≤ 0x1000000) (hg : t.goneAt a = false)
    (hmem : t.mem = memSetN m a b) (hlen : b.length = 128) : t.descBytes p i = b := by
  rw [State.descBytes, hoff, State.spRead_eq ha hin hbin hg, hmem, ← hlen, map_range_memSetN]
  rfl

theorem State.stageBytes_length (s : State) (p off n : Nat) : (s.stageBytes p off n).length = n := by simp [State.stageBytes]

section
variable {s : State} {p : PartId} {index : BitVec 16}

theorem descCreate_busy (h : s.flag F.descStatus_BUSY p = true) :
    completes (.descCreate p index) s fun t => t = s.fset F.descStatus_LOST p 1 := ⟨_, if_pos h, rfl⟩

theorem descInvalidate_busy (h : s.flag F.descStatus_BUSY p = true) :
    completes (.descInvalidate p index) s fun t => t = s.fset F.descStatus_LOST p 1 := ⟨_, if_pos h, rfl⟩

variable (hb : s.flag F.descStatus_BUSY p = false)
include hb

theorem descCreate_badIndex (he : s.descIndexCheck p index.toNat ≠ 0) :
    completes (.descCreate p index) s fun t => t = s.descBegin p (s.descIndexCheck p index.toNat) := by
  refine ⟨_, ?_, rfl⟩
  simp [exec, execDescCreate, hb, he]

theorem descCreate_badDescriptor (he : s.descIndexCheck p index.toNat = 0) (hc : s.descCheck p (s.stageBytes p 0x80 128) ≠ 0) :
    completes (.descCreate p index) s fun t => t = s.descBegin p (s.descCheck p (s.stageBytes p 0x80 128)) := by
  refine ⟨_, ?_, rfl⟩
  simp [exec, execDescCreate, hb, he, hc]

theorem exec_descCreate_installs (he : s.descIndexCheck p index.toNat = 0) (hc : s.descCheck p (s.stageBytes p 0x80 128) = 0) :
    exec (.descCreate p index) s = .next { (s.descBegin p 0).spWrite p (s.fget F.descTable_OFFSET p * 4096 + index.toNat * 128)
      (s.stageBytes p 0x80 128) with descs := setIns s.descs (p * 65536 + index.toNat) } := by
  have hoff : (s.descBegin p 0).fget F.descTable_OFFSET p = s.fget F.descTable_OFFSET p := s.fget_descBegin _ _ (by decide) _
  simp [exec, execDescCreate, hb, he, hc, hoff]

theorem descCreate_installs {a : Nat} (he : s.descIndexCheck p index.toNat = 0) (hc : s.descCheck p (s.stageBytes p 0x80 128) = 0)
    (ha : s.spAddr p (s.fget F.descTable_OFFSET p * 4096 + index.toNat * 128) = some a) (hg : s.goneAt a = false) :
    completes (.descCreate p index) s fun t =>
      t.descJobs = s.descJobs ++ [{ part := p, code := 0 }] ∧ t.flag F.descStatus_BUSY p = true ∧ t.descValid p index.toNat = true ∧
      t.descBytes p index.toNat = s.stageBytes p 0x80 128 ∧ (∀ x, x < a ∨ a + 128 ≤ x → memGet t.mem x = memGet s.mem x) ∧
      ∀ j, j < 65536 → j ≠ index.toNat → t.descValid p j = s.descValid p j := by
  refine ⟨_, exec_descCreate_installs hb he hc, ?_⟩
  set b := s.stageBytes p 0x80 128
  have hlen : b.length = 128 := s.stageBytes_length ..
  have hplace : (s.descBegin p 0).spAddr p (s.fget F.descTable_OFFSET p * 4096 + index.toNat * 128) = some a :=
    (State.spAddr_fset _ (by decide) ..).trans ha
  obtain ⟨k, hk, e⟩ := State.spAddr_bin ha
  have hbelow : a < 0x8000000000 := by
    unfold binBase at e
    omega
  obtain ⟨⟨m, ch, ecc, v, w, x, hw⟩, hmem⟩ := State.wrMarked_writes (s := s.descBegin p 0) hbelow hg (b.map fun y => (y, false))
  rw [hw, List.map_map, show Prod.fst ∘ (fun y : Byte => (y, false)) = id from rfl, List.map_id] at hmem
  change m = memSetN s.mem a b at hmem
  rw [State.spWrite, hplace]
  dsimp only
  rw [State.wr, hw]
  obtain ⟨hin, hbin⟩ := State.descIndexCheck_within he
  obtain ⟨-, hlast, hlt⟩ := State.descIndexCheck_eq_zero.mp he
  refine ⟨rfl, s.descBegin_busy p 0, ?_, ?_, fun y hy => ?_, fun j _ hj => ?_⟩
  · rw [State.descValid, contains_setIns_self, Bool.and_true]
    have hcount : (s.descBegin p 0).fget F.descTable_COUNT p = s.fget F.descTable_COUNT p := s.fget_descBegin _ _ (by decide) _
    simpa using ⟨hlast, hcount ▸ hlt⟩
  · refine State.descBytes_eq (congrArg (· * 4096 + index.toNat * 128) (s.fget_descBegin _ _ (by decide) _)) hplace ?_ hbin hg hmem hlen
    exact (State.spHas_fset _ (by decide) ..).trans hin
  · rw [← hlen] at hy
    exact hmem ▸ memGet_memSetN_outside _ _ _ hy
  · refine State.descValid_congr (s.fget_descBegin _ _ (by decide) _) ?_
    exact contains_setIns_of_ne _ (by omega)

theorem descInvalidate_badIndex (he : s.descIndexCheck p index.toNat ≠ 0) :
    completes (.descInvalidate p index) s fun t => t = s.descBegin p (s.descIndexCheck p index.toNat) := by
  refine ⟨_, ?_, rfl⟩
  simp [exec, execDescInvalidate, hb, he]

theorem descInvalidate_takesOut (he : s.descIndexCheck p index.toNat = 0) :
    completes (.descInvalidate p index) s fun t =>
      t.descJobs = s.descJobs ++ [{ part := p, code := 0 }] ∧ t.flag F.descStatus_BUSY p = true ∧ t.descValid p index.toNat = false ∧
      (∀ j, j < 65536 → j ≠ index.toNat → t.descValid p j = s.descValid p j) ∧ t.mem = s.mem := by
  have hexec : exec (.descInvalidate p index) s = .next { s.descBegin p 0 with descs := setDel s.descs (p.val * 65536 + index.toNat) } := by
    simp [exec, execDescInvalidate, hb, he]
  refine ⟨_, hexec, rfl, s.descBegin_busy p 0, ?_, fun j _ hj => ?_, rfl⟩
  · rw [State.descValid, contains_setDel_self, Bool.and_false]
  · refine State.descValid_congr (s.fget_descBegin _ _ (by decide) _) ?_
    exact contains_setDel_of_ne _ (by omega)

end

/-! ## The huller limit of a plot (R219 to R221) -/

theorem hulPlotLimitWrite_limits (s : State) (plot : PlotId) (v : W32) :
    completes (.hulPlotLimitWrite plot v) s fun t =>
      t.fget F.hulPlotLimit_LIMIT plot = min 3539 (v.toNat % 65536) ∧ 6912 ≤ t.fget F.hulPlotStat_CAP plot ∧ t.fget F.hulPlotStat_CAP plot ≤ 55296 ∧
      regsOnly s t [(F.hulPlotLimit_LIMIT, plot), (F.hulPlotStat_BUDGET, plot), (F.hulPlotStat_CAP, plot)] := by
  refine ⟨_, rfl, ?_⟩
  unfold State.hulBudget
  extract_lets limit budget
  have hcap : max 6912 (min 55296 (budget / 64)) % 2 ^ F.hulPlotStat_CAP.width = max 6912 (min 55296 (budget / 64)) := by
    exact Nat.mod_eq_of_lt (by dsimp only [F.hulPlotStat_CAP]; omega)
  refine ⟨?_, ?_, ?_, ?_⟩
  · rw [State.fget_fset_of_id _ (by decide), State.fget_fset_of_id _ (by decide), State.fget_fset_same, bitsOf, pow_zero, Nat.div_one]
    exact Nat.mod_eq_of_lt (by dsimp only [F.hulPlotLimit_LIMIT]; omega)
  · rw [State.fget_fset_same, hcap]
    omega
  · rw [State.fget_fset_same, hcap]
    omega
  · exact ((s.regsOnly_fset _ (by simp)).trans (State.regsOnly_fset _ _ (by simp))).trans (State.regsOnly_fset _ _ (by simp))

/-! ## Bands of the vaults (R237, R239) -/

theorem bandOf_lt (t : Nat) : bandOf t < 2 ^ F.vaultBand_BAND.width := by
  unfold bandOf
  dsimp only
  split_ifs <;> decide

theorem State.layer0_fset (s : State) {f : Fld} (h : f.id % 1024 ∉ [F.coreTemp_TEMP.id, F.plotPwr_POWER.id]) (i v n : Nat) :
    (s.fset f i v).layer0 n = s.layer0 n := by
  unfold State.layer0
  rw [s.fget_fset_of_id (fun e => h (by rw [← e]; decide)), s.fget_fset_of_id (fun e => h (by rw [← e]; decide))]
  rfl

/-- What estimates leave as it was: what they are made from, memory and the cores. -/
structure estimatesOnly (s t : State) : Prop where
  layer0 : ∀ n, t.layer0 n = s.layer0 n
  broken : t.power.broken = s.power.broken
  mem : t.mem = s.mem
  cores : t.cores = s.cores

theorem State.bandOne_estimatesOnly (s : State) (n : Nat) : estimatesOnly s (s.bandOne n) := by
  unfold State.bandOne
  extract_lets t b r d
  split
  · exact ⟨fun _ => rfl, rfl, rfl, rfl⟩
  · split
    · exact ⟨fun m => s.layer0_fset (by decide) .., rfl, rfl, rfl⟩
    · exact ⟨fun _ => rfl, rfl, rfl, rfl⟩

/-- The estimate of one vault raises its band to that of its temperature, unless its diode is broken. -/
theorem State.band_bandOne (s : State) (n m : Nat) :
    (s.bandOne n).fget F.vaultBand_BAND m =
      if m = n ∧ s.power.broken.contains m = false then max (s.fget F.vaultBand_BAND m) (bandOf (s.layer0 m)) else s.fget F.vaultBand_BAND m := by
  have hother : m ≠ n → ∀ v, (s.fset F.vaultBand_BAND n v).fget F.vaultBand_BAND m = s.fget F.vaultBand_BAND m := fun hm v =>
    s.fget_fset_other _ _ _ _ _ fun e => hm (by unfold Fld.key at e; omega)
  unfold State.bandOne
  dsimp only
  split
  next hbroken =>
    rw [if_neg fun ⟨hm, hb⟩ => absurd (hm ▸ hbroken) (by rw [hb]; decide)]
  next hbroken =>
    split
    next hlt =>
      by_cases hm : m = n
      · subst hm
        rw [if_pos ⟨rfl, by simpa using hbroken⟩, max_eq_right hlt.le]
        exact (State.fget_fset_same ..).trans (Nat.mod_eq_of_lt (bandOf_lt _))
      · rw [if_neg fun h => hm h.1]
        exact hother hm _
    next hlt =>
      by_cases hm : m = n
      · subst hm
        rw [if_pos ⟨rfl, by simpa using hbroken⟩, max_eq_left (not_lt.mp hlt)]
        rfl
      · rw [if_neg fun h => hm h.1]
        rfl

/-- A run of estimates, one vault after another. -/
theorem foldl_bandOne (l : List Nat) (s : State) :
    estimatesOnly s (l.foldl (fun (s : State) n => s.bandOne n) s) ∧
    ∀ m, (l.foldl (fun (s : State) n => s.bandOne n) s).fget F.vaultBand_BAND m =
      if m ∈ l ∧ s.power.broken.contains m = false then max (s.fget F.vaultBand_BAND m) (bandOf (s.layer0 m)) else s.fget F.vaultBand_BAND m := by
  induction l generalizing s with
  | nil => exact ⟨⟨fun _ => rfl, rfl, rfl, rfl⟩, fun m => by simp⟩
  | cons n l ih =>
    obtain ⟨hlayer, hbroken, hmem, hcores⟩ := s.bandOne_estimatesOnly n
    obtain ⟨⟨hlayer', hbroken', hmem', hcores'⟩, hband⟩ := ih (s.bandOne n)
    refine ⟨⟨fun m => (hlayer' m).trans (hlayer m), hbroken'.trans hbroken, hmem'.trans hmem, hcores'.trans hcores⟩, fun m => ?_⟩
    rw [List.foldl_cons, hband, hlayer, hbroken, s.band_bandOne]
    generalize s.power.broken.contains m = b
    cases b
    case true => simp
    case false =>
      by_cases hn : m = n
      · subst hn
        by_cases hl : m ∈ l <;> simp [hl]
      · simp [hn]

theorem mem_of_alFind {α : Type} {l : List (Nat × α)} {x : Nat} {v : α} (h : alFind l x = some v) : (x, v) ∈ l := by
  induction l with
  | nil => simp [alFind] at h
  | cons e t ih =>
    rw [alFind] at h
    split at h
    next hk => simp [← hk, ← Option.some.inj h]
    · exact List.mem_cons_of_mem _ (ih h)

/-- A vault with a valid reading in the register table is among those whose bands are estimated. -/
theorem mem_estimated {s : State} {n : Nat} (hv : s.flag F.coreTemp_VALID n = true) (hl : alFind s.regs (F.coreTemp_VALID.key n) ≠ none) :
    n ∈ (s.regs.filter fun (x : Nat × Nat) => x.1 % 1024 = F.coreTemp_VALID.id && x.2 ≠ 0).map fun (x : Nat × Nat) => x.1 / 1024 := by
  obtain ⟨v, hv'⟩ := Option.ne_none_iff_exists'.mp hl
  rw [State.flag_eq_true, State.fget, hv'] at hv
  have hkey : F.coreTemp_VALID.key n % 1024 = F.coreTemp_VALID.id ∧ F.coreTemp_VALID.key n / 1024 = n := by
    unfold Fld.key
    dsimp only [F.coreTemp_VALID]
    omega
  refine List.mem_map.mpr ⟨(F.coreTemp_VALID.key n, v), List.mem_filter.mpr ⟨mem_of_alFind hv', ?_⟩, hkey.2⟩
  simpa [hkey.1] using hv

theorem bandEstimate_raises (s : State) :
    completes .bandEstimate s fun t =>
      (∀ n, s.flag F.coreTemp_VALID n = true → alFind s.regs (F.coreTemp_VALID.key n) ≠ none → s.power.broken.contains n = false →
        t.fget F.vaultBand_BAND n = max (s.fget F.vaultBand_BAND n) (bandOf (s.layer0 n))) ∧
      (∀ n, s.power.broken.contains n = true → t.fget F.vaultBand_BAND n = s.fget F.vaultBand_BAND n) ∧ t.mem = s.mem ∧ t.cores = s.cores := by
  refine ⟨_, rfl, ?_⟩
  obtain ⟨⟨-, -, hmem, hcores⟩, hband⟩ := foldl_bandOne
    ((s.regs.filter fun (x : Nat × Nat) => x.1 % 1024 = F.coreTemp_VALID.id && x.2 ≠ 0).map fun (x : Nat × Nat) => x.1 / 1024) s
  refine ⟨fun n hv hl hb => (hband n).trans (if_pos ⟨mem_estimated hv hl, hb⟩), fun n hb => (hband n).trans (if_neg ?_), hmem, hcores⟩
  rintro ⟨-, h⟩
  exact absurd (h.symm.trans hb) (by decide)

/-- Settles O26: each clause by the lemma about its command. -/
theorem descriptorsAndPlotLimit : Obligations.DescriptorsAndPlotLimit := by
  intro s p plot val v index off
  exact ⟨fun h => ⟨descTableWrite_busy p val h, descDetWrite_busy p val h⟩, descTableWrite_within p val, descTableWrite_beyond p val,
    descDetWrite_within p val, fun h => ⟨descCreate_busy h, descInvalidate_busy h⟩,
    fun hb => ⟨fun a he hc => descCreate_installs hb he hc, descCreate_badIndex hb, descCreate_badDescriptor hb, descInvalidate_badIndex hb,
      descInvalidate_takesOut hb⟩,
    hulPlotLimitWrite_limits s plot v, bandEstimate_raises s⟩

end Sys2Proof.Machine

namespace Sys2Proof.Machine
open Host (Outcome)

/-! ## What the course of a move keeps (R198, R200, R205, R257)

A move that goes on changes its state, its counts and the places it writes. The staging space and the drill of every move stand, and so do the
staged contributions of DET scatters, except where a DET scatter stages its own. -/

/-- What a move has been granted. -/
def Move.grants (m : Move) : Nat × Bool × Bool := (m.id, m.staged, m.drill)

/-- Every move keeps its number, its staging space and its drill. -/
def grantsKept (s t : State) : Prop := t.moves.map Move.grants = s.moves.map Move.grants

/-- The staged contributions and the open steps of every ring stand as well. -/
structure courseKept (s t : State) : Prop where
  grants : grantsKept s t
  det : t.det = s.det
  opens : ∀ q, (t.ring q).steps.length = (s.ring q).steps.length

theorem grantsKept.trans {s t u : State} (h₁ : grantsKept s t) (h₂ : grantsKept t u) : grantsKept s u := Eq.trans h₂ h₁

theorem courseKept.of_eq {s t : State} (hm : t.moves = s.moves) (hd : t.det = s.det) (hr : t.rings = s.rings) : courseKept s t :=
  ⟨congrArg (List.map Move.grants) hm, hd, fun q => by rw [State.ring, State.ring, hr]⟩

theorem courseKept.refl (s : State) : courseKept s s := .of_eq rfl rfl rfl

theorem courseKept.trans {s t u : State} (h₁ : courseKept s t) (h₂ : courseKept t u) : courseKept s u :=
  ⟨h₁.grants.trans h₂.grants, h₂.det.trans h₁.det, fun q => (h₂.opens q).trans (h₁.opens q)⟩

theorem courseKept.foldl {α : Type} {f : State → α → State} (hf : ∀ s x, courseKept s (f s x)) (l : List α) (s : State) :
    courseKept s (l.foldl f s) := by
  induction l generalizing s with
  | nil => exact .refl s
  | cons x l ih => exact (hf s x).trans (ih (f s x))

section
variable (s : State)

theorem State.onMove_grantsKept (id : Nat) {f : Move → Move} (hf : ∀ m, (f m).grants = m.grants) : grantsKept s (s.onMove id f) := by
  rw [grantsKept, State.onMove, List.map_map]
  refine List.map_congr_left fun m _ => ?_
  dsimp only [Function.comp]
  split
  · exact hf m
  · rfl

theorem State.onMove_courseKept (id : Nat) {f : Move → Move} (hf : ∀ m, (f m).grants = m.grants) : courseKept s (s.onMove id f) :=
  ⟨s.onMove_grantsKept id hf, rfl, fun _ => rfl⟩

theorem State.onCore_courseKept (n : Nat) (f : Core → Core) : courseKept s (s.onCore n f) := .of_eq rfl rfl rfl

theorem State.coreCount_courseKept (c i k : Nat) : courseKept s (s.coreCount c i k) := .of_eq rfl rfl rfl

theorem State.confirm_courseKept (f : FaultRec) : courseKept s (s.confirm f) := .of_eq rfl rfl rfl

theorem State.request_courseKept (src : Src) (p : Packet) (move core ring : Option Nat) (step : Nat) (entry : Option ErrPlace) :
    courseKept s (s.request src p move core ring step entry) := .of_eq rfl rfl rfl

theorem State.sendMsg_courseKept (m : Msg) (mesh : Bool) : courseKept s (s.sendMsg m mesh) := .of_eq rfl rfl rfl

theorem State.onStep_courseKept (ring : Option Nat) (step : Nat) (f : OpenStep → OpenStep) : courseKept s (s.onStep ring step f) := by
  refine ⟨by cases ring <;> rfl, by cases ring <;> rfl, fun q => ?_⟩
  rw [State.ring_onStep]
  split
  · exact List.length_map ..
  · rfl

theorem State.noteStep_courseKept (ring : Option Nat) (step : Nat) (core : Option Nat) (addr len : Nat) :
    courseKept s (s.noteStep ring step core addr len) := by
  unfold State.noteStep
  repeat' split
  all_goals exact .of_eq rfl rfl rfl

theorem State.wrMarked_courseKept (a : Nat) (bs : List (Byte × Bool)) : courseKept s (s.wrMarked a bs) := by
  unfold State.wrMarked
  dsimp only
  repeat' split
  all_goals exact .of_eq rfl rfl rfl

theorem State.reach_courseKept (a k : Nat) (write : Bool) (run : Nat) : courseKept s (s.reach a k write run) := by
  obtain ⟨_, _, _, e⟩ := s.reach_frame a k write run
  rw [e]
  exact .of_eq rfl rfl rfl

theorem State.warning_courseKept (core status : Nat) : courseKept s (s.warning core status) := by
  have hset : courseKept s (if (s.core core).warn = 0 then s.setCore core { s.core core with warn := status } else s) := by
    split <;> exact .of_eq rfl rfl rfl
  unfold State.warning
  dsimp only
  split
  · exact hset.trans (State.onStep_courseKept _ _ _ _)
  · exact hset

theorem State.moveChaff_courseKept (m : Move) : courseKept s (s.moveChaff m) := by
  unfold State.moveChaff State.itemChaff
  repeat' split
  · exact s.onStep_courseKept _ _ _
  · exact .refl s
  · exact s.onStep_courseKept _ _ _

theorem State.requestReads_courseKept (m : Move) (as_ : List Nat) : courseKept s (s.requestReads m as_) :=
  (courseKept.foldl (fun s _ => s.request_courseKept _ _ _ _ _ _ _) _ s).trans (State.onMove_courseKept _ _ fun _ => rfl)

theorem State.countReads_courseKept (as_ : List Nat) : courseKept s (s.countReads as_) :=
  .foldl (fun s _ => s.coreCount_courseKept _ _ _) _ s

theorem State.reachReads_courseKept (run : Nat) (as_ : List Nat) : courseKept s (s.reachReads run as_) :=
  .foldl (fun s _ => s.reach_courseKept _ _ _ _) _ s

theorem State.wrCells_courseKept (cells : List (Nat × Byte × Bool)) : courseKept s (s.wrCells cells) :=
  .foldl (fun s _ => s.wrMarked_courseKept _ _) _ s

theorem State.noteCells_courseKept (ring : Option Nat) (step : Nat) (cells : List (Nat × Byte × Bool)) : courseKept s (s.noteCells ring step cells) :=
  .foldl (fun s _ => s.noteStep_courseKept _ _ _ _ _) _ s

theorem State.moveCount_courseKept (m : Move) (core fe k : Nat) : courseKept s (s.moveCount m core fe k) := by
  unfold State.moveCount
  repeat' split
  all_goals exact .of_eq rfl rfl rfl

theorem State.deliver_courseKept (m : Move) (cells : List (Nat × Byte × Bool)) : courseKept s (s.deliver m cells) := by
  unfold State.deliver
  extract_lets cells' scr rem loc status denied loc' s1 s2 own s3 others s4 grn s5 pk s6
  have h1 : courseKept s s1 := by
    dsimp only [s1]
    clear_value denied
    split
    · exact .refl s
    · exact s.onMove_courseKept _ fun _ => rfl
  have h2 : courseKept s1 s2 := by
    dsimp only [s2]
    split
    · exact .foldl (fun s r => (s.onCore_courseKept _ _).trans (State.noteStep_courseKept _ _ _ _ _ _)) _ _
    · exact .refl _
  have h3 : courseKept s2 s3 := .foldl (fun s g =>
    ((s.wrCells_courseKept _).trans (State.noteCells_courseKept _ _ _ _)).trans (State.coreCount_courseKept _ _ _ _)) _ _
  have h4 : courseKept s3 s4 := .foldl (fun s g => s.sendMsg_courseKept _ _) _ _
  have h5 : courseKept s4 s5 := .foldl (fun s r =>
    ((s.reach_courseKept _ _ _ _).trans (State.wrMarked_courseKept _ _ _)).trans (State.noteStep_courseKept _ _ _ _ _ _)) _ _
  have h6 : courseKept s5 s6 := .foldl (fun s r => s.request_courseKept _ _ _ _ _ _ _) _ _
  exact (((((h1.trans h2).trans h3).trans h4).trans h5).trans h6).trans (State.onMove_courseKept _ _ fun _ => rfl)

theorem State.zeroPads_courseKept (c : Contrib) (pads : List Nat) : courseKept s (s.zeroPads c pads) := by
  unfold State.zeroPads
  split
  · exact .refl s
  · exact s.deliver_courseKept _ _

theorem State.sendContribs_courseKept (cs : List Contrib) (id : Option Nat) : courseKept s (s.sendContribs cs id) := by
  have hbegin : courseKept s { s with contribs := s.contribs ++ (cs.filter fun c => s.isLocal c.addr).map fun c => { c with pads := c.pads.filter s.isLocal } } :=
    .of_eq rfl rfl rfl
  unfold State.sendContribs
  refine (hbegin.trans (.foldl (fun s c => s.zeroPads_courseKept c _) _ _)).trans (.foldl (fun s c => ?_) _ _)
  dsimp only
  refine courseKept.trans ?_ (State.zeroPads_courseKept _ c _)
  cases id with
  | none => exact s.request_courseKept _ _ _ _ _ _ _
  | some i =>
    refine ((s.request_courseKept _ _ _ _ _ _ _).trans (State.onMove_courseKept _ i ?_)).trans (State.onStep_courseKept _ _ _ _)
    exact fun _ => rfl

/-- Performing a move takes no grant back; a DET scatter stages its contributions. -/
theorem State.performMove_grantsKept (m : Move) : grantsKept s (s.performMove m) := by
  unfold State.performMove
  extract_lets rd its nr nw cnt issuer stage all struck cs
  split
  extract_lets denied s1 s2 s3 s4
  clear_value denied
  split
  · exact s.onMove_grantsKept _ fun _ => rfl
  have h1 : courseKept s s1 := ((s.countReads_courseKept _).trans (State.countReads_courseKept _ _)).trans (State.countReads_courseKept _ _)
  have h2 : courseKept s1 s2 := (State.reachReads_courseKept _ _ _).trans (State.reachReads_courseKept _ _ _)
  have h3 : courseKept s2 s3 := by
    dsimp only [s3]
    split
    · exact State.reachReads_courseKept _ _ _
    · exact .refl _
  have hcnt : ∀ (t : State) (a b k : Nat), courseKept t (cnt t a b k) := fun t a b k => t.moveCount_courseKept m a b k
  have h4 : courseKept s s4 := (((h1.trans h2).trans h3).trans (hcnt _ _ _ _)).trans (hcnt _ _ _ _)
  have hstage : ∀ (t : State) l, grantsKept t (stage t l) := fun _ _ => rfl
  clear_value cnt stage s4
  refine h4.grants.trans ?_
  split
  next els sat _ =>
  extract_lets anyChaff s5 s6 s7 s8 o s9 s10
  have h6 : courseKept s4 s6 := by
    refine courseKept.trans (?_ : courseKept s4 s5) (State.onMove_courseKept _ _ fun _ => rfl)
    dsimp only [s5]
    split
    · exact State.moveChaff_courseKept _ _
    · exact .refl _
  clear_value s6
  refine h6.grants.trans ?_
  split
  · have h7 : courseKept s6 s7 := by
      dsimp only [s7]
      split <;> exact .of_eq rfl rfl rfl
    refine h7.grants.trans ?_
    split
    · exact hstage _ _
    · exact (State.sendContribs_courseKept _ _ _).grants
  · have h10 : courseKept s6 s10 := by
      refine (hcnt _ _ _ _ : courseKept s6 s8).trans ?_
      dsimp only [s10]
      split
      · exact .refl _
      · refine (hcnt _ _ _ _ : courseKept s8 s9).trans ?_
        split
        · exact State.warning_courseKept _ _ _
        · exact State.onStep_courseKept _ _ _ _
    clear_value s10
    refine h10.grants.trans ?_
    split
    next cells bad hsettle =>
    have h11 := courseKept.foldl (f := fun (s : State) k => s.confirm (s.moveFault m (k * 4096))) (fun s k => s.confirm_courseKept _) bad s10
    refine h11.grants.trans ?_
    split
    · exact hstage _ _
    · exact (State.deliver_courseKept _ _ _).grants

theorem State.advanceMove_grantsKept (id : Nat) : grantsKept s (s.advanceMove id) := by
  unfold State.advanceMove
  split
  · rfl
  · extract_lets rd have_ missing xa need
    split
    · exact s.onMove_grantsKept _ fun _ => rfl
    · split
      · exact s.onMove_grantsKept _ fun _ => rfl
      · split
        · exact s.onMove_grantsKept _ fun _ => rfl
        · split
          · exact (s.requestReads_courseKept _ _).grants.trans (State.onMove_grantsKept _ _ fun _ => rfl)
          · split
            · exact s.onMove_grantsKept _ fun _ => rfl
            · exact s.performMove_grantsKept _

/-! ### Combining (R203, R205, R262, R263) -/

theorem State.combined_courseKept (sats : Nat) (chaffed l : List DetItem) (cells : List (Nat × Byte × Bool)) :
    courseKept s (s.combined sats chaffed l cells) := by
  have hsats : courseKept s { s with scatterSat := s.scatterSat + sats } := .of_eq rfl rfl rfl
  exact (hsats.trans (.foldl (fun s x => s.onStep_courseKept _ _ _) _ _)).trans (.foldl (fun s x => s.noteCells_courseKept _ _ _) _ _)

theorem State.sendComb_courseKept (burst : Nat) (l : List DetItem) : courseKept s (s.sendComb burst l) := by
  unfold State.sendComb
  split
  · exact .refl s
  · extract_lets n ids msg
    refine courseKept.trans (.foldl (fun s i => s.onMove_courseKept i ?_) _ _) (State.sendMsg_courseKept _ _ _)
    exact fun _ => rfl

theorem State.combineHere_courseKept (l : List DetItem) : courseKept s (s.combineHere l) := by
  unfold State.combineHere
  split
  exact courseKept.trans (.foldl (fun s r => (s.reach_courseKept _ _ _ _).trans (State.wrMarked_courseKept _ _ _)) _ _)
    (State.combined_courseKept _ _ _ _ _)

theorem State.detCombine_courseKept (items : List DetItem) : courseKept s (s.detCombine items) := by
  unfold State.detCombine
  extract_lets here s1 s2 s3
  have h1 : courseKept s s1 := .foldl (fun s b => s.sendComb_courseKept _ _) _ _
  have h2 : courseKept s1 s2 := s1.combineHere_courseKept _
  have h3 : courseKept s2 s3 := .foldl (fun s x => s.zeroPads_courseKept _ _) _ _
  refine ((h1.trans h2).trans h3).trans (.foldl (fun s x => ?_) _ _)
  split
  · exact s.deliver_courseKept _ _
  · exact s.sendContribs_courseKept _ _

end

/-! ## Grants of staging space and drills (R198, R200, R257) -/

theorem grantsKept.exists_mem {s t : State} (h : grantsKept s t) {x : Move} (hx : x ∈ t.moves) : ∃ y ∈ s.moves, y.grants = x.grants := by
  have hmem : x.grants ∈ s.moves.map Move.grants := h ▸ List.mem_map_of_mem hx
  exact List.mem_map.mp hmem

theorem State.mem_onMove {s : State} {id : Nat} {f : Move → Move} {x : Move} (hx : x ∈ (s.onMove id f).moves) (hid : x.id = id) :
    ∃ y ∈ s.moves, x = f y := by
  obtain ⟨y, hy, rfl⟩ := List.mem_map.mp hx
  refine ⟨y, hy, if_pos ?_⟩
  by_contra hne
  rw [if_neg hne] at hid
  exact hne hid

/-- A change of the moves of one number, after which the first of them goes on: the numbers stand, and the moves keep what the change granted. -/
theorem State.advanceMove_onMove (s : State) (id : Nat) {f : Move → Move} (hf : ∀ m, (f m).id = m.id) :
    ((s.onMove id f).advanceMove id).moves.map Move.id = s.moves.map Move.id ∧
    ∀ x ∈ ((s.onMove id f).advanceMove id).moves, x.id = id → ∃ y, x.grants = (f y).grants := by
  refine ⟨?_, fun x hx hid => ?_⟩
  · exact congrArg Prod.fst ((State.advanceMove_moveTable _ id).trans (s.onMove_moveTable id hf))
  · obtain ⟨z, hz, hgr⟩ := ((s.onMove id f).advanceMove_grantsKept id).exists_mem hx
    obtain ⟨y, -, rfl⟩ := State.mem_onMove hz ((congrArg Prod.fst hgr).trans hid)
    exact ⟨y, hgr.symm⟩

section
variable {s : State} {m : Move}

theorem stagingSpaceGrant_grants (hm : s.moves.find? (fun m => m.st = .staging && !m.staged) = some m) (hroom : s.stagingUsed + m.overlap ≤ 0x4000000) :
    completes .stagingSpaceGrant s fun t =>
      t.moves.map Move.id = s.moves.map Move.id ∧ ∀ x ∈ t.moves, x.id = m.id → x.staged = true := by
  obtain ⟨hids, hstaged⟩ := s.advanceMove_onMove m.id (f := fun x => { x with staged := true }) fun _ => rfl
  refine ⟨_, ?_, hids, fun x hx hid => ?_⟩
  · simp only [exec, execStagingSpaceGrant, hm, if_pos hroom]
  · obtain ⟨y, hy⟩ := hstaged x hx hid
    exact congrArg (·.2.1) hy

theorem granaryDrillGrant_grants (hm : s.moves.find? (fun m => m.st = .drill && !m.drill) = some m)
    (hroom : (s.moves.filter fun x => x.drill).length < 128) :
    completes .granaryDrillGrant s fun t =>
      t.moves.map Move.id = s.moves.map Move.id ∧ ∀ x ∈ t.moves, x.id = m.id → x.drill = true := by
  obtain ⟨hids, hdrill⟩ := s.advanceMove_onMove m.id (f := fun x => { x with drill := true }) fun _ => rfl
  refine ⟨_, ?_, hids, fun x hx hid => ?_⟩
  · simp only [exec, execGranaryDrillGrant, hm, if_pos hroom]
  · obtain ⟨y, hy⟩ := hdrill x hx hid
    exact congrArg (·.2.2) hy

end

/-! ## The completion of a move (R171, R272, R627) -/

/-- The module when the move of a number has left the table. -/
def State.moveEnded (s : State) (id : Nat) : State := { s with moves := s.moves.filter fun x => x.id ≠ id }.endReleases

theorem State.moveEnded_frame (s : State) (id : Nat) :
    ∃ x y z, s.moveEnded id = { s with moves := s.moves.filter (fun x => x.id ≠ id), regs := x, allocs := y, rel := z } :=
  State.endReleases_frame _

section
variable {s : State} {m : Move} (hm : s.moves.find? (fun x => x.id = m.id) = some m) (hop : m.op ≠ 5) (hst : m.st = .writing) (hmsgs : m.msgs = 0)
  (hwaits : m.waits = 0) (hcon : ∀ c ∈ s.contribs, c.move ≠ some m.id)
include hm hop hst hmsgs hwaits hcon

theorem exec_moveComplete_core {n : Nat} (hn : m.core = some n) :
    exec (.moveComplete m.id) s = .next (if m.err = 0 then s.moveEnded m.id else (s.moveEnded m.id).failCmd n m.err) := by
  have hnone : (s.contribs.any fun c => c.move = some m.id) = false := by simpa using hcon
  simp only [exec, execMoveComplete, hm, hn, hnone]
  simp [hop, hst, hmsgs, hwaits, State.moveEnded]

theorem exec_moveComplete_entry (hn : m.core = none) :
    exec (.moveComplete m.id) s = .next (if m.err = 0 then (s.moveEnded m.id).onStep m.ring m.step fun o => { o with entries := o.entries - 1 }
      else ((s.moveEnded m.id).onStep m.ring m.step fun o => { o with entries := o.entries - 1 }).stepError
        { ring := m.ring.getD 128, step := m.step, status := m.err, core := 0xFFFF, soft := 0, entry := m.entry, item := false }) := by
  have hnone : (s.contribs.any fun c => c.move = some m.id) = false := by simpa using hcon
  simp only [exec, execMoveComplete, hm, hn, hnone]
  simp [hop, hst, hmsgs, hwaits, State.moveEnded]

theorem moveComplete_completes : completes (.moveComplete m.id) s fun t =>
    t.moves = s.moves.filter (fun x => x.id ≠ m.id) ∧ t.mem = s.mem ∧ (m.err = 0 → t.errQ = s.errQ) ∧
    (m.core = none → m.err ≠ 0 → t.errQ = s.errQ ++
      [{ ring := m.ring.getD 128, step := m.step, status := m.err, core := 0xFFFF, soft := 0, entry := m.entry, item := false }]) ∧
    (∀ n w r, m.core = some n → m.err ≠ 0 → (s.core n).wi = some w → w.ring = some r → w.dead = false →
      t.errQ = s.errQ ++
        [{ ring := r, step := w.step, status := m.err, core := n, soft := 0, entry := some w.place, item := (s.core n).status = 0 }]) := by
  obtain ⟨x, y, z, hended⟩ := s.moveEnded_frame m.id
  cases hn : m.core with
  | some n =>
    have hcore : (s.moveEnded m.id).core n = s.core n := by rw [hended]; rfl
    refine ⟨_, exec_moveComplete_core hm hop hst hmsgs hwaits hcon hn, ?_⟩
    by_cases herr : m.err = 0
    · rw [if_pos herr, hended]
      exact ⟨rfl, rfl, fun _ => rfl, fun h => absurd h (by simp), fun _ _ _ _ h => absurd herr h⟩
    · rw [if_neg herr]
      refine ⟨?_, ?_, fun h => absurd h herr, fun h => absurd h (by simp), fun k w r hk _ hw hr hd => ?_⟩
      · obtain ⟨_, _, hfail⟩ := (s.moveEnded m.id).itemError_frame n m.err 0
        rw [State.failCmd, hfail, hended]
        rfl
      · rw [State.failCmd_mem, hended]
      · obtain rfl := Option.some.inj hk
        rw [State.failCmd_errQ m.err (hcore ▸ hw) hr hd, hcore, hended]
  | none =>
    obtain ⟨rings, hstep⟩ := (s.moveEnded m.id).onStep_frame m.ring m.step fun o => { o with entries := o.entries - 1 }
    refine ⟨_, exec_moveComplete_entry hm hop hst hmsgs hwaits hcon hn, ?_⟩
    rw [hstep, hended]
    by_cases herr : m.err = 0
    · rw [if_pos herr]
      exact ⟨rfl, rfl, fun _ => rfl, fun _ h => absurd herr h, fun _ _ _ h => absurd h (by simp)⟩
    · rw [if_neg herr]
      exact ⟨rfl, rfl, fun h => absurd h herr, fun _ _ => rfl, fun _ _ _ h => absurd h (by simp)⟩

end

/-! ## The deterministic mode (R205) -/

/-- The state when the staged contributions of a step are taken to be combined. -/
def State.detTaken (s : State) (ring step : Nat) : State :=
  { s with det := s.det.map fun d => if (d.ring = ring && d.step = step) = true then { d with items := [] } else d }

theorem State.detTaken_empty (s : State) (ring step : Nat) : ∀ x ∈ (s.detTaken ring step).det, x.ring = ring → x.step = step → x.items = [] := by
  intro x hx hring hstep
  obtain ⟨d, -, rfl⟩ := List.mem_map.mp hx
  split at hring <;> simp_all

theorem detInsert_ne_nil (x : DetItem) (l : List DetItem) : detInsert x l ≠ [] := by
  unfold detInsert
  split
  · simp
  · split <;> simp

/-- Contributions put in order are not lost. -/
theorem foldl_detInsert_ne_nil {items : List DetItem} (h : items ≠ []) : items.foldl (fun l x => detInsert x l) [] ≠ [] := by
  obtain ⟨l, x, rfl⟩ := (List.eq_nil_or_concat' items).resolve_left h
  rw [List.foldl_append]
  exact detInsert_ne_nil x _

section
variable {s : State} {ring : RingId} {mm : Nat} {o : OpenStep} {rest : List OpenStep} (hsteps : (s.ring ring).steps = o :: rest)
  (hcommit : o.commitTaken = true) (hitems : o.items = 0) (hentries : o.entries = 0) (hrun : o.st = .run) (hdone : o.detDone = false)
  (hbusy : s.stepBusy ring o.step = false) (hfault : ∀ f ∈ s.faultQ, f.ring = ring.val → f.step ≠ o.step)
  (herr : ∀ e ∈ s.errQ, e.ring = ring.val → e.step ≠ o.step)
include hsteps hcommit hitems hentries hrun hdone hbusy hfault herr

theorem exec_detScatterCombine_combines (hmm : mm < 2) :
    ∃ u, exec (.detScatterCombine ring mm) s = .next (u.onStep (some ring.val) o.step fun o => { o with detDone := true }) ∧
      courseKept (s.detTaken ring o.step) u := by
  have hf : (s.faultQ.any fun f => f.ring = ring.val && f.step = o.step) = false := by simpa using hfault
  have he : (s.errQ.any fun e => e.ring = ring.val && e.step = o.step) = false := by simpa using herr
  simp only [exec, execDetScatterCombine, hsteps, hcommit, hitems, hentries, hrun, hdone, hbusy, hf, he, if_neg (Nat.not_le.mpr hmm)]
  refine ⟨_, rfl, courseKept.trans ?_ (State.detCombine_courseKept _ _)⟩
  split <;> exact .of_eq rfl rfl rfl

theorem detScatterCombine_combines (hmm : mm < 2) : completes (.detScatterCombine ring mm) s fun t =>
    (∀ x ∈ (t.ring ring).steps, x.step = o.step → x.detDone = true) ∧
    (∀ x ∈ t.det, x.ring = ring.val → x.step = o.step → x.items = []) ∧ (t.ring ring).steps.length = (s.ring ring).steps.length := by
  obtain ⟨u, hexec, -, hdet, hopens⟩ :=
    exec_detScatterCombine_combines hsteps hcommit hitems hentries hrun hdone hbusy hfault herr hmm
  refine ⟨_, hexec, ?_⟩
  obtain ⟨_, hdet', hopens'⟩ := u.onStep_courseKept (some ring.val) o.step fun o => { o with detDone := true }
  refine ⟨fun x hx hk => ?_, ?_, (hopens' ring).trans (hopens ring)⟩
  · rw [State.ring_onStep, if_pos rfl] at hx
    obtain ⟨y, -, rfl⟩ := List.mem_map.mp hx
    split at hk <;> simp_all
  · rw [hdet', hdet]
    exact s.detTaken_empty ring o.step

theorem detScatterCombine_mismatch (hmm : 2 ≤ mm) (hstaged : ∃ x ∈ s.det, x.ring = ring.val ∧ x.step = o.step ∧ x.items ≠ []) :
    completes (.detScatterCombine ring mm) s fun t =>
      ∃ f : FaultRec, t = { s with faultQ := s.faultQ ++ [f] } ∧ f.cause = 9 ∧ f.ring = ring.val ∧ f.step = o.step := by
  have hf : (s.faultQ.any fun f => f.ring = ring.val && f.step = o.step) = false := by simpa using hfault
  have he : (s.errQ.any fun e => e.ring = ring.val && e.step = o.step) = false := by simpa using herr
  have hne : (s.det.filter fun d => d.ring = ring.val && d.step = o.step).flatMap DetRes.items ≠ [] := by
    obtain ⟨x, hx, hring, hstep, hx0⟩ := hstaged
    obtain ⟨y, hy⟩ := List.exists_mem_of_ne_nil _ hx0
    exact List.ne_nil_of_mem (List.mem_flatMap.mpr ⟨x, List.mem_filter.mpr ⟨hx, by simp [hring, hstep]⟩, hy⟩)
  obtain ⟨y, l, hy⟩ := List.exists_cons_of_ne_nil (foldl_detInsert_ne_nil hne)
  refine ⟨s.confirm (granaryFault y.con.part (some ring.val) o.step y.con.addr), ?_, _, rfl, rfl, rfl, rfl⟩
  simp only [exec, execDetScatterCombine, hsteps, hcommit, hitems, hentries, hrun, hdone, hbusy, hf, he, if_pos hmm, hy, List.head?_cons]
  simp

end

/-- Settles O16: the grants by `State.advanceMove_onMove`, the completion by `moveComplete_completes`, the deterministic mode by what combining keeps. -/
theorem moveCourse : Obligations.MoveCourse := by
  unfold Obligations.MoveCourse
  intro s m ring mm
  exact ⟨stagingSpaceGrant_grants, granaryDrillGrant_grants, moveComplete_completes,
    fun o rest hsteps hcommit hitems hentries hrun hdone hbusy hfault herr =>
      ⟨detScatterCombine_combines hsteps hcommit hitems hentries hrun hdone hbusy hfault herr,
        detScatterCombine_mismatch hsteps hcommit hitems hentries hrun hdone hbusy hfault herr⟩⟩

end Sys2Proof.Machine
